-- ==== Sys2Proof/Word.lean ====
section
/-!
DEFINITION. The plainest types of the model: bytes, the raw bit patterns that the manual lays out bit by bit, and the
two list shapes in which State keeps sparse data.
-/

namespace Sys2Proof

/-- One byte. -/
abbrev Byte := BitVec 8

/-- A run of bytes, lowest address (or first on the wire) first. -/
abbrev Bytes := List Byte

/-- A list of numbers. -/
abbrev Nats := List Nat

/-- A 64 B ring entry: send, receive, copy and compute descriptors and command packets (R100, R104, R414, R416, R425). -/
abbrev Desc := BitVec 512

/-- Ring entries, oldest first. -/
abbrev DescList := List Desc

/-- A needle instruction word (R270). -/
abbrev Word := BitVec 32

/-- A reply packet (R428). -/
abbrev Reply := BitVec 256

/-- A fault record (R504). -/
abbrev FaultRec := BitVec 512

/-- Sparse data by number: entries in rising order of the number, at most one for each. An absent number stands for the
reset value of its item (assumption log 7). -/
abbrev AMap (α : Type) := List (Nat × α)

/-- Items of a pool handed to a partition, as runs (first item, count); local numbers count along the runs (R436). -/
abbrev Ranges := List (Nat × Nat)

/-- Bytes of a memory by address, addresses rising, no zero byte listed: an unlisted byte reads zero (assumption log 8). -/
abbrev Memory := List (Nat × Byte)

end Sys2Proof
end

