-- ==== Sys2Proof/Syntax.lean ====
section
/-!
DEFINITION. The commands of the block: one constructor of `Instr` for each row of spec/opcode_table.json, with the data
the outside hands to the block in that step, and the records those data come in. Vuino commands carry how they were sent
(`Issue`) and their parameters in the order of their table (R427), each scalar as a number; bits of a field above its
width are the sender's error and are checked by the meaning. Packets, ring entries and blocks are the raw bits of the
manual's layouts.
-/

namespace Sys2Proof

/-- The way a Vuino command came (R360, R425, R479). -/
inductive Path where
  /-- On the partition's ADMIN queue. -/
  | admin
  /-- In the mailbox of the partition's function. -/
  | mailbox
  /-- Out of band, by a datagram with this counter (R480); for partition 0. -/
  | oob (seq : Nat)
deriving DecidableEq, Repr

/-- Who sent a Vuino command, and its header fields (R425, R426). -/
structure Issue where
  /-- Issuing partition. -/
  part : Nat := 0
  /-- TAG. -/
  tag : Nat := 0
  /-- How it was sent. -/
  path : Path := .admin
  /-- INDIRECT. -/
  indirect : Bool := false
  /-- RESULT_VA, with INDIRECT. -/
  resultVa : Nat := 0
  /-- RESULT_LEN, with INDIRECT. -/
  resultLen : Nat := 0
deriving DecidableEq, Repr

/-- How a read of host space ended (R392). -/
inductive ReadEnd where
  /-- With data. -/
  | ok
  /-- Unsupported Request. -/
  | ur
  /-- Completer Abort. -/
  | ca
  /-- With the poisoned attribute. -/
  | poison
deriving DecidableEq, Repr

/-- What is wrong with words of the line read, by word 0 to 7: bits [79:0] are flipped stored bits (data, then check bits
from bit 64), bits [118:80] the address bits in which the word read was stored elsewhere (R72, R75). -/
abbrev WordErrs := List (Nat × BitVec 119)

/-- What the SEC-DED codes of the cluster memories meet while a needle runs an instruction (R242): nothing, a double-bit error on
the fetch, one on the data it loads, or a corrected single-bit error on the data. -/
inductive Upset where
  /-- Nothing. -/
  | none
  /-- A double-bit error on the fetch. -/
  | fetch
  /-- A double-bit error on the data loaded. -/
  | data
  /-- A corrected error on the data accessed. -/
  | ce
deriving DecidableEq, Repr

/-- A packet on the fabric (R123, R331, R158, R213). -/
structure Pkt where
  /-- Fabric header (R124). -/
  fab : BitVec 128 := 0
  /-- What follows it: the transport header (R126) or the collective header (R331) in bits [255:0], the end-to-end return
  (R158) in bits [127:0], or the map push (R213) in all 512 bits. -/
  hdr : BitVec 512 := 0
  /-- Signal extension, where EXT is 1 (R127). -/
  ext : BitVec 128 := 0
  /-- Payload, first byte first. -/
  payload : Bytes := []
  /-- Trailer: the CRC-64 in bits [63:0], or the 128-bit tag (R145). -/
  trailer : BitVec 128 := 0
deriving DecidableEq, Repr

/-- A flit as it arrives (R174): whether its CRC-32 is good, the link header, and the packet bytes it carries. -/
structure Flit where
  /-- The CRC-32 is good. -/
  crcOk : Bool := true
  /-- Link header. -/
  head : BitVec 32 := 0
  /-- Packet bytes of the payload (they count as received, R193). -/
  bytes : Nat := 0
deriving DecidableEq, Repr

/-- A PTP message of the management port (R369, R474). -/
structure PtpMsg where
  /-- 0 Sync, 1 Delay_Req sent by this adapter, 8 Follow_Up, 9 Delay_Resp, 11 Announce (IEEE 1588 messageType). -/
  kind : Nat := 0
  /-- domainNumber. -/
  domain : Nat := 0
  /-- twoStepFlag. -/
  twoStep : Bool := false
  /-- Clock identity of the sender. -/
  source : BitVec 64 := 0
  /-- sequenceId. -/
  seq : Nat := 0
  /-- Timestamp carried: origin time of Sync or Follow_Up, receive time of Delay_Resp, in nanoseconds. -/
  time : BitVec 64 := 0
  /-- correctionField, 2^-16 ns. -/
  correction : Int := 0
deriving DecidableEq, Repr

/-- A frame of the management segment (R470-R480). -/
structure MgmtFrame where
  /-- Destination address; all ones is broadcast. -/
  dst : BitVec 48 := 0
  /-- Source address. -/
  src : BitVec 48 := 0
  /-- 1 tacking (R477), 2 an out-of-band datagram (R479), 3 a boot frame (R451), 4 a PTP message (R474). -/
  kind : Nat := 0
  /-- The FCS, and the checksums of R473, are good. -/
  sumsOk : Bool := true
  /-- IPv4 source address, for a datagram. -/
  ip : BitVec 32 := 0
  /-- UDP source port (received) or destination port (sent). -/
  port : Nat := 0
  /-- Body: the tacking fields (R477), or the datagram's payload (R479). -/
  body : Bytes := []
deriving DecidableEq, Repr

/-- A frame of network boot (R451). -/
structure BootFrame where
  /-- 0 DHCPOFFER, 1 DHCPACK, 2 TFTP OACK, 3 TFTP DATA, 4 TFTP ERROR, 5 DHCPNAK. -/
  kind : Nat := 0
  /-- Address offered or acknowledged. -/
  ip : BitVec 32 := 0
  /-- TFTP block number. -/
  block : Nat := 0
  /-- Bytes of the block. -/
  len : Nat := 0
  /-- Block size in force. -/
  blksize : Nat := 512
deriving DecidableEq, Repr

/-- A manifest entry of a bundle (R453). -/
structure MEntry where
  /-- COMPONENT. -/
  comp : Nat := 0
  /-- The reserved bytes are zero. -/
  rsvZero : Bool := true
  /-- OFFSET. -/
  offset : Nat := 0
  /-- LENGTH. -/
  length : Nat := 0
  /-- SHA-384 that the manifest states. -/
  digest : BitVec 384 := 0
deriving DecidableEq, Repr

/-- A firmware bundle as it is read (R453): its fields, the bytes of its components in manifest order, and how the read
of it ended. -/
structure Bundle where
  /-- The source answered: something could be read (R450 step 2). -/
  present : Bool := true
  /-- MAGIC. -/
  magic : Nat := 0
  /-- VERSION. -/
  version : Nat := 0
  /-- FLAGS. -/
  flags : Nat := 0
  /-- ROOT_SLOT. -/
  rootSlot : Nat := 0
  /-- Every reserved byte is zero. -/
  rsvZero : Bool := true
  /-- SVN. -/
  svn : Nat := 0
  /-- COUNT. -/
  count : Nat := 0
  /-- TOTAL_LEN. -/
  totalLen : Nat := 0
  /-- BUILD_ID. -/
  buildId : BitVec 64 := 0
  /-- RSA_N. -/
  rsaN : BitVec 3072 := 0
  /-- SLH_PK. -/
  slhPk : BitVec 384 := 0
  /-- MANIFEST. -/
  manifest : List MEntry := []
  /-- RSA_SIG. -/
  rsaSig : BitVec 3072 := 0
  /-- SLH_SIG. -/
  slhSig : Bytes := []
  /-- Bytes of each component, in manifest order. -/
  comps : List Bytes := []
deriving DecidableEq, Repr

/-- An SPDM request (R460): its version, code and the fields the supported requests carry. -/
structure SpdmReq where
  /-- SPDM version byte: 0x10 for GET_VERSION, 0x12 or 0x13. -/
  version : Nat := 0x12
  /-- param1. -/
  param1 : Nat := 0
  /-- param2. -/
  param2 : Nat := 0
  /-- First number of the request's body: offset, handle or algorithm masks, as the request has it. -/
  a : Nat := 0
  /-- Second number of the body: length, or sequence number. -/
  b : Nat := 0
  /-- Nonce. -/
  nonce : BitVec 256 := 0
  /-- Chunk bytes, or the vendor request's payload. -/
  body : Bytes := []
deriving DecidableEq, Repr

/-- One optical monitor's reading (R233): kind, index and value, as OPT_MONITOR_SAMPLE's meaning lists them. -/
structure Sample where
  /-- 0 receive power of a lane in 0.1 dBm, 1 symbol error ratio of a lane above its limit (0 or 1), 2 uncorrectable
  codewords of a lane within 1 ms, 3 emitter bias in 0.1 % of start-of-life, 4 emitter output in 0.1 dB below set point, 5
  ELS temperature in 1 C, 6 engine temperature in 1 C. -/
  kind : Nat := 0
  /-- Lane (port*16 + lane), emitter (ELS*16 + emitter), ELS or engine. -/
  index : Nat := 0
  /-- Reading. -/
  value : Int := 0
deriving DecidableEq, Repr

/-- Readings taken in one sampling instant. -/
abbrev Samples := List Sample

/-- What a Vuino command reads from outside the block while it runs (assumption log 11): bytes it reads through a context
where those do not lie in this adapter's memory, telemetry, or a bundle. -/
structure Outside where
  /-- How a read of host space ended. -/
  rd : ReadEnd := .ok
  /-- Bytes read. -/
  bytes : Bytes := []
  /-- Telemetry values (R236), in the order of the reply. -/
  telem : Nats := []
  /-- A bundle read (R458). -/
  bundle : Bundle := {}
deriving DecidableEq, Repr

/-- What the fault guards of the cipher engines meet on the blocks of a command (R466): nothing, or a mismatch, with the pipeline (0-47)
or iterated instance (0-3) that dissents. -/
abbrev Mismatch := Option Nat

/-- The commands of the block, one for each row of the table, in the table's order. -/
inductive Instr where
  /-- Vuino command that does nothing and replies OK (NOP, R434). -/
  | nop (h : Issue)
  /-- Command that returns IDENT, DEVID.ID and DEVID.VALID in DATA (IDENTIFY, R434). -/
  | identify (h : Issue)
  /-- Command that reports PERMILLE, POSITION and status of a long command named by TAG (CMD_PROGRESS, R431). -/
  | cmdProgress (h : Issue) (tag : Nat)
  /-- Command that checks a 32-B queue block field by field and creates a queue (Q_CREATE, R419). -/
  | qCreate (h : Issue) (blk : BitVec 256)
  /-- Command that removes an idle queue, dropping unfetched entries, or answers BUSY (Q_DESTROY, R420). -/
  | qDestroy (h : Issue) (qnum : Nat)
  /-- Command that returns a queue's block, PI, CI and held entries (Q_QUERY, R420). -/
  | qQuery (h : Issue) (qnum : Nat)
  /-- Command that writes one segment entry into a context's basting copy (SEG_WRITE, R53). -/
  | segWrite (h : Issue) (ctx seg : Nat) (entry : BitVec 256)
  /-- Command that writes a context header into the basting copy (CTX_WRITE, R53). -/
  | ctxWrite (h : Issue) (ctx : Nat) (hdr : BitVec 128)
  /-- Command that checks the basting copy and atomically makes it active, bumping epochs of changed segments and starting their drain (SEG_STITCH, R55). -/
  | segStitch (h : Issue) (ctx : Nat)
  /-- Command that clears VALID of one segment in both copies, bumps its epoch and starts its drain (SEG_UNMAP, R58). -/
  | segUnmap (h : Issue) (ctx seg : Nat)
  /-- Command that returns a segment entry, its epoch and hot-granule counters (SEG_QUERY, R53). -/
  | segQuery (h : Issue) (ctx seg copy : Nat)
  /-- The last piece issued under an old epoch is accepted by its door, ending the drain and releasing the waiting reply (SEG_DRAIN_END, R58). -/
  | segDrainEnd (ctx : Nat)
  /-- A drain still open at 50 µs: engines holding unaccepted pieces are reset through their selvedge and the command replies DRAIN_FORCED (DRAIN_FORCED, R59). -/
  | drainForced (ctx : Nat)
  /-- A segment-cache miss completes its fetch from the active copy and releases the waiting transfer (SEG_CACHE_MISS_FILL, R61). -/
  | segCacheMissFill (ctx seg xfer : Nat)
  /-- An engine compares recorded epochs and issues the next piece of at most 4 KiB of a transfer, or stops it with SEG_REVOKED (TRANSFER_PIECE, R57). -/
  | transferPiece (xfer : Nat) (errs : WordErrs)
  /-- At the end of a hot-granule interval, counts are compared to the threshold and slots freed (HOT_INTERVAL_END, R63). -/
  | hotIntervalEnd (ctx : Nat)
  /-- Command that writes the basting copy of the tiering block (MEM_TIER_SET, R90). -/
  | memTierSet (h : Issue) (blk : BitVec 64)
  /-- Command that sets a partition's NEAR_MIN and NEAR_MAX (MEM_BOUND, R89). -/
  | memBound (h : Issue) (part nearMin nearMax : Nat)
  /-- Long command that pins or unpins granules to a tier (MEM_PIN, R89). -/
  | memPin (h : Issue) (offset count tier : Nat)
  /-- Long command that gives DAMAGED granules frames filled with zeros (MEM_CLEAR_DAMAGED, R84). -/
  | memClearDamaged (h : Issue) (offset count : Nat)
  /-- Command that sets SCRUB_HOURS (MEM_SCRUB_SET, R89). -/
  | memScrubSet (h : Issue) (hours : Nat)
  /-- Long command that retires a memory channel and evacuates its triple (MEM_CHAN_RETIRE, R82). -/
  | memChanRetire (h : Issue) (tier chan : Nat)
  /-- Command that returns a channel's error counts, repair state, ALLOTTABLE_UNITS and MEMINIT_DONE (MEM_QUERY, R89). -/
  | memQuery (h : Issue) (tier chan : Nat)
  /-- Patrol scrub reads the next line and writes corrected words back by read-modify-write (SCRUB_LINE, R79). -/
  | scrubLine (tier chan : Nat) (errs : WordErrs)
  /-- A row needing repair has its frames' granules moved, post-package repair applied and frames freed (ROW_REPAIR, R81). -/
  | rowRepair (row : Nat)
  /-- Granules are moved off a row's frames and the frames leave service for good (FRAME_RETIRED, R81). -/
  | frameRetired (row : Nat)
  /-- A frame becomes free and a pending repair or retirement move starts (FREE_FRAME_AVAILABLE, R81). -/
  | freeFrameAvailable (tier : Nat)
  /-- A running channel loses training or reports a command or address error and is retired (CHANNEL_FAILURE, R82). -/
  | channelFailure (tier chan : Nat)
  /-- Evacuation of a dissolved triple ends; CHAN_RETIRED is posted and survivors join the standby pool (EVACUATION_END, R82). -/
  | evacuationEnd (tier : Nat) (lost : Nats)
  /-- At a tier epoch's end, granules are ranked and promotions, swaps and the tiering stitch take place (TIER_EPOCH_END, R86). -/
  | tierEpochEnd
  /-- A granule copy finishes and its map entry switches, holding accesses for at most 2 µs (GRANULE_MOVE_DONE, R87). -/
  | granuleMoveDone (granule : Nat) (uncorrectable : Bool)
  /-- Zeroing of memory after cold reset completes and units may be allotted (MEMINIT_DONE, R91). -/
  | meminitDone
  /-- Command that creates an RC connection in INIT or a UD endpoint in READY (CONN_CREATE, R95). -/
  | connCreate (h : Issue) (blk : BitVec 256)
  /-- Command that binds an RC connection to its peer and PSNs and makes it READY (CONN_CONNECT, R95). -/
  | connConnect (h : Issue) (conn peerId peerConn peerGen sendPsn recvPsn : Nat)
  /-- Command that flushes a connection, raises its generation and returns it to INIT (CONN_RESET, R95). -/
  | connReset (h : Issue) (conn : Nat)
  /-- Command that resets a connection and returns its ID to the pool as FREE (CONN_DESTROY, R95). -/
  | connDestroy (h : Issue) (conn : Nat)
  /-- Command that pins or releases a connection context in the bobbin (CONN_PIN, R95). -/
  | connPin (h : Issue) (conn pin : Nat)
  /-- Command that returns a connection's state, generation, sequence numbers and window (CONN_QUERY, R95). -/
  | connQuery (h : Issue) (conn : Nat)
  /-- A context refill completes and the connection's staged packets and waiting descriptors are processed in order (BOBBIN_REFILL, R142). -/
  | bobbinRefill (conn : Nat) (uncorrectable : Bool)
  /-- A partition's segment connection is destroyed after 10 s without traffic (SEGMENT_CONN_IDLE, R107). -/
  | segmentConnIdle (conn : Nat)
  /-- Command that checks a window entry and opens a window, returning its key (WIN_OPEN, R108). -/
  | winOpen (h : Issue) (entry : BitVec 256)
  /-- Command that closes a window, raises its generation and replies once validated packets are placed (WIN_REVOKE, R111). -/
  | winRevoke (h : Issue) (wkey : Nat)
  /-- Send descriptor that writes LENGTH local bytes into a remote window (WRITE, R101). -/
  | write (part q : Nat) (d : Desc)
  /-- Send descriptor that writes into a window and then adds to a remote sync object (WRITE_SIG, R101). -/
  | writeSig (part q : Nat) (d : Desc)
  /-- Send descriptor that reads bytes from a remote window into local memory (READ, R101). -/
  | read (part q : Nat) (d : Desc)
  /-- Send descriptor that delivers a message into the peer's next receive buffer, on RC or UD (SEND, R101). -/
  | send (part q : Nat) (d : Desc)
  /-- Send descriptor for a remote 8-B fetch-and-add (FETCH_ADD, R101). -/
  | fetchAdd (part q : Nat) (d : Desc)
  /-- Send descriptor for a remote 8-B compare-and-swap (CMP_SWAP, R101). -/
  | cmpSwap (part q : Nat) (d : Desc)
  /-- Send descriptor that adds to a remote sync object (SYNC_ADD, R101). -/
  | syncAdd (part q : Nat) (d : Desc)
  /-- Send descriptor that hands a payload and IMM to the remote receive handler (INVOKE, R101). -/
  | invoke (part q : Nat) (d : Desc)
  /-- Receive-queue descriptor that posts a buffer for incoming SENDs (RECV_BUFFER_POST, R104). -/
  | recvBufferPost (part q : Nat) (d : Desc)
  /-- Arrival of a WRITE packet: window checks, placement by offset and acknowledgment bookkeeping (WRITE_PACKET, R109). -/
  | writePacket (port : Nat) (pkt : Pkt) (guard : Mismatch)
  /-- Arrival of a WRITE_SIG packet: placement, then the signal once the message is visible (WRITE_SIG_PACKET, R109). -/
  | writeSigPacket (port : Nat) (pkt : Pkt)
  /-- Arrival of a read request: checks, then response packets once earlier messages are placed; also serves target 2 reads (READ_REQ, R128). -/
  | readReq (port : Nat) (pkt : Pkt) (errs : WordErrs)
  /-- Arrival of an RC SEND packet: buffer assignment, placement and receive completion on delivery (SEND_PACKET, R105). -/
  | sendPacket (port : Nat) (pkt : Pkt)
  /-- Arrival of a FETCH_ADD: atomic add executed once and old value returned (FETCH_ADD_PACKET, R132). -/
  | fetchAddPacket (port : Nat) (pkt : Pkt) (errs : WordErrs)
  /-- Arrival of a CMP_SWAP: atomic compare-and-swap executed once and old value returned (CMP_SWAP_PACKET, R132). -/
  | cmpSwapPacket (port : Nat) (pkt : Pkt) (errs : WordErrs)
  /-- Arrival of a SYNC_ADD: the add is applied once earlier messages are placed (SYNC_ADD_PACKET, R101). -/
  | syncAddPacket (port : Nat) (pkt : Pkt)
  /-- Arrival of an INVOKE: the payload goes to a handler input slot and a run starts (INVOKE_PACKET, R313). -/
  | invokePacket (port : Nat) (pkt : Pkt)
  /-- Arrival of a datagram: checks and delivery into a receive buffer, or a silent drop (UD_SEND, R143). -/
  | udSend (port : Nat) (pkt : Pkt)
  /-- Arrival of a read response: bytes placed at LOCAL_VA and READ completion when all have arrived (READ_RESP, R134). -/
  | readResp (port : Nat) (pkt : Pkt)
  /-- Arrival of an atomic result: old value placed and the atomic completed (ATOMIC_RESP, R134). -/
  | atomicResp (port : Nat) (pkt : Pkt)
  /-- Arrival of an ACK: cumulative point and SACK recorded, completions written, window updated, early retransmits sent (ACK, R133). -/
  | ack (port : Nat) (pkt : Pkt)
  /-- 2 µs after an uncovered arrival, the receiver sends an ACK (ACK_DELAY_TIMER, R133). -/
  | ackDelayTimer (conn : Nat)
  /-- Arrival of a negative acknowledgment: the sender acts by code (hold, resend, SKIP, or ERROR) (NAK, R140). -/
  | nak (port : Nat) (pkt : Pkt)
  /-- Arrival of a SKIP: the PSN is recorded received and an unsettled message is settled (SKIP, R141). -/
  | skip (port : Nat) (pkt : Pkt)
  /-- The CBUSY hold time passes and the sender resends the refused PSNs first (CBUSY_HOLD_EXPIRY, R142). -/
  | cbusyHoldExpiry (conn : Nat)
  /-- One PSN refused CBUSY for 10 ms puts the connection in ERROR with RETRY_EXCEEDED (CBUSY_LIMIT, R142). -/
  | cbusyLimit (conn psn : Nat)
  /-- The NO_RECV hint passes and the sender resends the packet or, retries used up, settles with SKIP (NO_RECV_RETRY, R140). -/
  | noRecvRetry (conn : Nat)
  /-- The oldest PSN's retransmission timer expires and eligible PSNs are retransmitted (RTO_EXPIRY, R137). -/
  | rtoExpiry (conn : Nat)
  /-- Arrival of an error notice: a READY connection enters ERROR with REMOTE_ERROR and answers NOTICE_ACK (ERROR_NOTICE, R121). -/
  | errorNotice (port : Nat) (pkt : Pkt)
  /-- Arrival of a notice acknowledgment, which stops notice repetition (NOTICE_ACK, R121). -/
  | noticeAck (port : Nat) (pkt : Pkt)
  /-- 20 µs without acknowledgment, the error notice is sent again, up to 7 times (ERROR_NOTICE_REPEAT, R121). -/
  | errorNoticeRepeat (conn : Nat)
  /-- An egress port and VC picks the next eligible packet by DRR and partition WFQ once its gates are open (EGRESS_PACKET_SELECT, R166). -/
  | egressPacketSelect (port vc : Nat) (guard : Mismatch)
  /-- Arrival of an end-to-end return: advances ACCEPTED or starts a new count for that destination (E2E_RETURN, R158). -/
  | e2eReturn (port : Nat) (pkt : Pkt)
  /-- 2 µs after the first unreturned byte, an E2E_RETURN is sent (E2E_RETURN_TIMER, R158). -/
  | e2eReturnTimer (src : Nat)
  /-- A non-zero in-flight count with no return for 1 ms is reset to zero (E2E_STALE, R158). -/
  | e2eStale (dest : Nat)
  /-- Command that writes a partition's congestion parameter basting copy (CC_PARAM_SET, R155). -/
  | ccParamSet (h : Issue) (part : Nat) (blk : BitVec 128)
  /-- Command that makes a partition's congestion parameters active (CC_STITCH, R155). -/
  | ccStitch (h : Issue) (part : Nat)
  /-- Command that overrides one connection's window mode and bounds (CC_CONN_SET, R156). -/
  | ccConnSet (h : Issue) (conn mode lo : Nat) (hi : BitVec 64) (fixed : Nat)
  /-- Command that writes a shaper's basting copy (SHP_WRITE, R163). -/
  | shpWrite (h : Issue) (shaper : Nat) (entry : BitVec 256)
  /-- Command that activates a range of shapers at one packet boundary and resets their buckets (SHP_STITCH, R164). -/
  | shpStitch (h : Issue) (first count : Nat)
  /-- Command that returns a shaper entry, tokens and byte counts (SHP_QUERY, R168). -/
  | shpQuery (h : Issue) (shaper copy : Nat)
  /-- Command that writes a partition's scheduler weight into the basting copy (SCHED_WEIGHT_SET, R167). -/
  | schedWeightSet (h : Issue) (part w : Nat)
  /-- Command that makes scheduler weights active at each port's next packet boundary (SCHED_STITCH, R167). -/
  | schedStitch (h : Issue)
  /-- Command that returns a queue's depth and delay histograms, optionally clearing them (HIST_READ, R170). -/
  | histRead (h : Issue) (queue clear : Nat)
  /-- At each 8,000 ns tape multiple, 192 queues are sampled into histograms (QUEUE_SAMPLE, R169). -/
  | queueSample
  /-- A DATA flit arrives and is accepted in FSEQ order or discarded with a retry request (DATA_FLIT_RX, R180). -/
  | dataFlitRx (port : Nat) (flit : Flit)
  /-- An IDLE flit arrives and its STOP bits are obeyed (IDLE_FLIT_RX, R187). -/
  | idleFlitRx (port : Nat) (flit : Flit)
  /-- A CREDIT control word returns credits for each VC (CREDIT, R186). -/
  | credit (port : Nat) (word : BitVec 64)
  /-- A FACK control word frees replay-buffer flits up to its FSEQ (FACK, R180). -/
  | fack (port : Nat) (word : BitVec 64)
  /-- A RETRY_REQ control word starts or restarts replay from the named FSEQ (RETRY_REQ, R180). -/
  | retryReq (port : Nat) (word : BitVec 64)
  /-- A tape mark (HI and LO words) arrives and, from the upstream, yields a tape offset (TAPE_MARK, R372). -/
  | tapeMark (port : Nat) (hi lo : BitVec 64)
  /-- A LOOP_PING arrives and is answered with LOOP_ECHO at the next boundary (LOOP_PING, R185). -/
  | loopPing (port : Nat) (word : BitVec 64)
  /-- A LOOP_ECHO arrives and updates the link's loop time, possibly entering REACH_EXCEEDED (LOOP_ECHO, R185). -/
  | loopEcho (port : Nat) (word : BitVec 64)
  /-- A MODE_REQ arrives; this end switches to on/off mode and answers MODE_ACK (MODE_REQ, R188). -/
  | modeReq (port : Nat) (word : BitVec 64)
  /-- A MODE_ACK arrives; DATA flits resume once both ends have one (MODE_ACK, R188). -/
  | modeAck (port : Nat) (word : BitVec 64)
  /-- No CREDIT word for 5 µs starts the change to on/off mode (CREDIT_LOSS_TIMER, R188). -/
  | creditLossTimer (port : Nat)
  /-- An unanswered MODE_REQ or MODE_ACK is repeated every 1 µs (MODE_REQ_REPEAT, R188). -/
  | modeReqRepeat (port : Nat)
  /-- No MODE_ACK within 20 µs makes the link retrain (MODE_CHANGE_TIMEOUT, R188). -/
  | modeChangeTimeout (port : Nat)
  /-- 200 ns after an unacknowledged accept, a FACK is sent (FACK_TIMER, R178). -/
  | fackTimer (port : Nat)
  /-- At least every 1 µs, a CREDIT word is sent in credit mode (CREDIT_TIMER, R178). -/
  | creditTimer (port : Nat)
  /-- The expected flit not arriving within loop time plus 200 ns causes RETRY_REQ to be sent again (RETRY_REQ_TIMER, R180). -/
  | retryReqTimer (port : Nat)
  /-- Flits unacknowledged for 20 µs with no FACK make a row or column link retrain (FACK_STALL, R181). -/
  | fackStall (port : Nat)
  /-- Every 1 ms the link's loop time is measured again with LOOP_PINGs (LOOP_MEASURE_TIMER, R185). -/
  | loopMeasureTimer (port : Nat)
  /-- At every 1,000 ns tape instant, each qualifying port sends a tape mark ahead of everything else (TAPE_MARK_SEND, R190). -/
  | tapeMarkSend
  /-- Command that enables, disables or retrains a fabric port (LINK_SET, R194). -/
  | linkSet (h : Issue) (port action : Nat)
  /-- A transit packet is checked for hop limit and lifetime, looked up and sent on a permitted port, or dropped (PACKET_FORWARD, R196). -/
  | packetForward (port : Nat) (pkt : Pkt)
  /-- A multicast packet is delivered locally and copied or relayed by its group entry (MCAST_PACKET, R212). -/
  | mcastPacket (port : Nat) (pkt : Pkt)
  /-- At each 10 µs tape epoch, the routing snapshot is taken, map pushes sent and the map compiled (TAPE_EPOCH_BOUNDARY, R213). -/
  | tapeEpochBoundary
  /-- Arrival of a neighbour's congestion map push, kept as the latest for its port (MAP_PUSH, R213). -/
  | mapPush (port : Nat) (pkt : Pkt)
  /-- Command that writes routing entries into a bank, which becomes WRITING (RT_WRITE, R216). -/
  | rtWrite (h : Issue) (bank kind first count : Nat) (entries : Nats)
  /-- Command that checks a bank's entries and makes it READY (RT_STITCH, R202). -/
  | rtStitch (h : Issue) (bank : Nat)
  /-- Command that sets a bank EMPTY (RT_CLEAR, R216). -/
  | rtClear (h : Issue) (bank : Nat)
  /-- Command that sets the injection epoch to a bank (RT_FLIP, R216). -/
  | rtFlip (h : Issue) (bank : Nat)
  /-- Command that returns a bank's state and entries (RT_QUERY, R216). -/
  | rtQuery (h : Issue) (bank kind first count : Nat)
  /-- Command that replaces a multicast group entry (MCAST_SET, R211). -/
  | mcastSet (h : Issue) (group : Nat) (entry : BitVec 64)
  /-- Command that returns a multicast group entry (MCAST_QUERY, R216). -/
  | mcastQuery (h : Issue) (group : Nat)
  /-- An alignment codeword arrives carrying lane, masks and identity used by training and the neighbour check (ALIGNMENT_CODEWORD_RX, R226). -/
  | alignmentCodewordRx (port lane : Nat) (cw : BitVec 256)
  /-- Light above LOS on 4 lanes for 100 µs starts cold training (LIGHT_DETECT, R227). -/
  | lightDetect (port : Nat)
  /-- A training step ends and the next begins, up to UP (TRAINING_PHASE_END, R227). -/
  | trainingPhaseEnd (port : Nat) (ok : Bool) (lanes : Nat)
  /-- A training not reaching UP in time returns the port to DOWN and posts TRAIN_FAIL (TRAINING_TIMEOUT, R227). -/
  | trainingTimeout (port : Nat)
  /-- Every 100 ms a DOWN port tries training again (TRAINING_RETRY_TIMER, R227). -/
  | trainingRetryTimer (port : Nat)
  /-- The light condition fails for 100 µs and the port goes DOWN with CHECK UNCONNECTED (LIGHT_LOSS, R228). -/
  | lightLoss (port : Nat)
  /-- A lane's power leaves range for 2 µs or exceeds 64 uncorrectable codewords, and the port retrains narrower (LANE_DEGRADE, R228). -/
  | laneDegrade (port lane : Nat)
  /-- Clean lanes outside TX_MASK held for 1 s make the port retrain wider (WIDEN_TIMER, R230). -/
  | widenTimer (port lanes : Nat)
  /-- The ELS reports an emitter failed; the spare is started or ports retrain at 12 lanes (EMITTER_FAIL, R224). -/
  | emitterFail (els emitter : Nat)
  /-- The spare emitter reaches set point and is switched onto its group (SPARE_SWITCHED, R224). -/
  | spareSwitched (els wave : Nat)
  /-- Every 1 ms optical monitors are sampled and warnings or alarms posted (OPT_MONITOR_SAMPLE, R233). -/
  | optMonitorSample (samples : Samples)
  /-- Long command that drains, disables and darkens an ELS's eight ports for removal (ELS_RELEASE, R231). -/
  | elsRelease (h : Issue) (els : Nat)
  /-- Long command that relights a released or failed ELS (ELS_START, R236). -/
  | elsStart (h : Issue) (els : Nat)
  /-- Command that returns per-lane or per-emitter optical telemetry (OPT_QUERY, R236). -/
  | optQuery (h : Issue) (kind index : Nat) (o : Outside)
  /-- An ELS module is inserted, self-tested, brought to set point and its ports trained (ELS_INSERT, R231). -/
  | elsInsert (els : Nat)
  /-- An ELS pulled without release takes its ports DOWN at once (ELS_REMOVED, R232). -/
  | elsRemoved (els : Nat)
  /-- Zeroing of a newly allotted cluster's memories ends and it becomes READY (CLUSTER_CLEAR_DONE, R243). -/
  | clusterClearDone (cluster : Nat)
  /-- A needle fails and leaves service; its program faults (NEEDLE_FAILED, R266). -/
  | needleFailed (needle : Nat)
  /-- A spare is self-tested, zeroed and mapped into the failed slot (NEEDLE_SPARED, R266). -/
  | needleSpared (cluster : Nat)
  /-- A stream queue's stale-tail timer fires, setting STALE and adding 1 to STALE_SYNC (STALE_TAIL_FIRE, R252). -/
  | staleTailFire (cluster queue : Nat)
  /-- Command that sets a needle die's clock bounds (NDIE_CLK_SET, R265). -/
  | ndieClkSet (h : Issue) (die minMhz maxMhz : Nat)
  /-- Scalar register-register arithmetic instruction selected by FN (SARITH, R274). -/
  | sarith (n : Nat) (x : Upset)
  /-- Scalar add-immediate instruction (ADDI, R275). -/
  | addi (n : Nat) (x : Upset)
  /-- Scalar AND-immediate instruction (ANDI, R275). -/
  | andi (n : Nat) (x : Upset)
  /-- Scalar OR-immediate instruction (ORI, R275). -/
  | ori (n : Nat) (x : Upset)
  /-- Scalar XOR-immediate instruction (XORI, R275). -/
  | xori (n : Nat) (x : Upset)
  /-- Scalar shift-left-immediate instruction (SLLI, R275). -/
  | slli (n : Nat) (x : Upset)
  /-- Scalar logical shift-right-immediate instruction (SRLI, R275). -/
  | srli (n : Nat) (x : Upset)
  /-- Scalar arithmetic shift-right-immediate instruction (SRAI, R275). -/
  | srai (n : Nat) (x : Upset)
  /-- Scalar set-less-than-immediate instruction (SLTI, R275). -/
  | slti (n : Nat) (x : Upset)
  /-- Load-upper-immediate instruction (LUI, R275). -/
  | lui (n : Nat) (x : Upset)
  /-- Reads a special register after earlier instructions complete (MFSR, R276). -/
  | mfsr (n : Nat) (x : Upset)
  /-- Writes a special register after earlier instructions complete (MTSR, R276). -/
  | mtsr (n : Nat) (x : Upset)
  /-- Load signed byte (LB, R279). -/
  | lb (n : Nat) (x : Upset)
  /-- Load unsigned byte (LBU, R279). -/
  | lbu (n : Nat) (x : Upset)
  /-- Load signed halfword (LH, R279). -/
  | lh (n : Nat) (x : Upset)
  /-- Load unsigned halfword (LHU, R279). -/
  | lhu (n : Nat) (x : Upset)
  /-- Load signed word (LW, R279). -/
  | lw (n : Nat) (x : Upset)
  /-- Load unsigned word (LWU, R279). -/
  | lwu (n : Nat) (x : Upset)
  /-- Load doubleword (LD, R279). -/
  | ld (n : Nat) (x : Upset)
  /-- Store byte (SB, R279). -/
  | sb (n : Nat) (x : Upset)
  /-- Store halfword (SH, R279). -/
  | sh (n : Nat) (x : Upset)
  /-- Store word (SW, R279). -/
  | sw (n : Nat) (x : Upset)
  /-- Store doubleword (SD, R279). -/
  | sd (n : Nat) (x : Upset)
  /-- Atomic memory operation on a shared-memory word, selected by FN, acting as a fence (AMO, R280). -/
  | amo (n : Nat) (x : Upset)
  /-- Branch if equal (BEQ, R277). -/
  | beq (n : Nat) (x : Upset)
  /-- Branch if not equal (BNE, R277). -/
  | bne (n : Nat) (x : Upset)
  /-- Branch if signed less (BLT, R277). -/
  | blt (n : Nat) (x : Upset)
  /-- Branch if signed greater or equal (BGE, R277). -/
  | bge (n : Nat) (x : Upset)
  /-- Branch if unsigned less (BLTU, R277). -/
  | bltu (n : Nat) (x : Upset)
  /-- Branch if unsigned greater or equal (BGEU, R277). -/
  | bgeu (n : Nat) (x : Upset)
  /-- Jump and link relative (JAL, R277). -/
  | jal (n : Nat) (x : Upset)
  /-- Jump and link through a register (JALR, R277). -/
  | jalr (n : Nat) (x : Upset)
  /-- 128-B vector load (VLD, R279). -/
  | vld (n : Nat) (x : Upset)
  /-- 128-B vector store (VST, R279). -/
  | vst (n : Nat) (x : Upset)
  /-- Masked vector store under a predicate (VSTM, R279). -/
  | vstm (n : Nat) (x : Upset)
  /-- Gathers 32-bit words from local memory by vector indices (VGATHER, R285). -/
  | vgather (n : Nat) (x : Upset)
  /-- Scatters 32-bit lanes to local memory by vector indices (VSCATTER, R285). -/
  | vscatter (n : Nat) (x : Upset)
  /-- Vector arithmetic group selected by FN (VARITH, R283). -/
  | varith (n : Nat) (x : Upset)
  /-- Vector logic and shift group (VLOGIC, R283). -/
  | vlogic (n : Nat) (x : Upset)
  /-- Vector compare writing a predicate register (VCMP, R283). -/
  | vcmp (n : Nat) (x : Upset)
  /-- Vector move, select, broadcast, reduce, extract and index group (VMISC, R283). -/
  | vmisc (n : Nat) (x : Upset)
  /-- Predicate logic group (PLOGIC, R284). -/
  | plogic (n : Nat) (x : Upset)
  /-- Merges candidate scores into a sorted top-K list (VTOPK, R286). -/
  | vtopk (n : Nat) (x : Upset)
  /-- Tile accumulator zero, read and write group (TMISC, R290). -/
  | tmisc (n : Nat) (x : Upset)
  /-- Tile multiply-accumulate into an accumulator (TMMA, R287). -/
  | tmma (n : Nat) (x : Upset)
  /-- Vector format conversion (VCVT, R293). -/
  | vcvt (n : Nat) (x : Upset)
  /-- Converts 32 values to one MX block, optionally writing residuals (VCVTMX, R293). -/
  | vcvtmx (n : Nat) (x : Upset)
  /-- Dequantises an MX block to FP32 (VMXDQ, R293). -/
  | vmxdq (n : Nat) (x : Upset)
  /-- Scales FP32 lanes by a power of two (VSCALE, R293). -/
  | vscale (n : Nat) (x : Upset)
  /-- Hands a transfer to the cluster's less busy copy engine (CPY, R294). -/
  | cpy (n : Nat) (x : Upset)
  /-- A copy-engine transfer finishes, records a failure in CPYST and raises its sync object (CPY_DONE, R294). -/
  | cpyDone (xfer : Nat)
  /-- Fabric signal: adds to a local sync object or sends a SYNC_ADD on the segment connection (FSIG, R295). -/
  | fsig (n : Nat) (x : Upset)
  /-- Pushes an item onto a stream queue, stalling while full (SQPUSH, R296). -/
  | sqpush (n : Nat) (x : Upset)
  /-- A needle stalled on a full stream queue resumes when an item leaves or a flush empties it (SQPUSH_RESUME, R250). -/
  | sqpushResume (n : Nat)
  /-- Pops an item or the idle item from a stream queue (SQPOP, R296). -/
  | sqpop (n : Nat) (x : Upset)
  /-- Flushes a stream queue at its tail packet boundary (SQFLUSH, R251). -/
  | sqflush (n : Nat) (x : Upset)
  /-- Reads a stream queue's status (SQSTAT, R296). -/
  | sqstat (n : Nat) (x : Upset)
  /-- Adds to a sync object, acting as a fence (SYADD, R297). -/
  | syadd (n : Nat) (x : Upset)
  /-- Waits until a sync object reaches a threshold (SYWAIT, R297). -/
  | sywait (n : Nat) (x : Upset)
  /-- A waiting needle resumes within 50 ns of the object reaching its threshold (SYWAIT_RESUME, R297). -/
  | sywaitResume (n : Nat)
  /-- Reads a sync object's value (SYRD, R297). -/
  | syrd (n : Nat) (x : Upset)
  /-- Reads the tape into a scalar register (TAPE, R298). -/
  | tape (n : Nat) (x : Upset)
  /-- Completes when earlier stores and AMOs are visible cluster-wide (FENCE, R299). -/
  | fence (n : Nat) (x : Upset)
  /-- Raises trap USER with a code (TRAP, R299). -/
  | trap (n : Nat) (x : Upset)
  /-- Ends the needle's run once its stores are visible; the run's outcome follows (EXIT, R277). -/
  | exit (n : Nat) (x : Upset)
  /-- A run reaches its time budget and traps BUDGET on every needle it holds (RUN_BUDGET_EXPIRY, R314). -/
  | runBudgetExpiry (run : Nat)
  /-- Compute descriptor that launches a kernel on clusters of the partition (LAUNCH, R310). -/
  | launch (part q : Nat) (d : Desc)
  /-- Enough ready non-path clusters become available and a waiting launch starts (LAUNCH_START, R310). -/
  | launchStart
  /-- A chunk lands in its input slot and a send-transform run starts on a free needle (TRANSFORM_CHUNK_READY, R311). -/
  | transformChunkReady (conn msn chunk : Nat)
  /-- A packet payload takes a free input slot and a receive-handler run starts (HANDLER_RUN_START, R313). -/
  | handlerRunStart (conn msn : Nat)
  /-- Long command that reads, checks and loads a program image into instruction memory (PROG_LOAD, R306). -/
  | progLoad (h : Issue) (ctx va len : Nat) (o : Outside)
  /-- Command that binds a program to a send queue, connection or collective slot (PROG_BIND, R307). -/
  | progBind (h : Issue) (target : Nat) (blk : BitVec 256)
  /-- Long command that stops new runs of a binding and replies when started runs end (PROG_UNBIND, R317). -/
  | progUnbind (h : Issue) (tkind target force : Nat)
  /-- Long command that unloads a program, forcibly if asked (PROG_UNLOAD, R317). -/
  | progUnload (h : Issue) (prog force : Nat)
  /-- Command that returns a program's details and counts (PROG_QUERY, R318). -/
  | progQuery (h : Issue) (prog : Nat)
  /-- Command that sets a partition's REQUIRE_SIG (PROG_POLICY, R318). -/
  | progPolicy (h : Issue) (part requireSig : Nat)
  /-- Command that writes a collective slot's basting copy (COLL_SET, R321). -/
  | collSet (h : Issue) (slot : Nat) (blk : BitVec 512)
  /-- Command that checks a slot block and member table, reserves staging and activates or defers the copy (COLL_STITCH, R323). -/
  | collStitch (h : Issue) (slot : Nat) (o : Outside)
  /-- Command that aborts a slot's collective with ABORTED_USER (COLL_ABORT, R350). -/
  | collAbort (h : Issue) (slot : Nat)
  /-- Command that returns a slot's block, state, SEQ and counters (COLL_QUERY, R350). -/
  | collQuery (h : Issue) (slot copy : Nat)
  /-- Compute descriptor that starts a collective on a slot once IDLE, checking ranges and incrementing SEQ (COLL_START, R340). -/
  | collStart (part q : Nat) (d : Desc)
  /-- An ARMED collective begins at its START_TAPE microsecond (COLL_BEGIN, R342). -/
  | collBegin (slot : Nat)
  /-- A member's contribution chunk is read, converted and sent or accumulated (COLL_CONTRIB_READY, R330). -/
  | collContribReady (slot chunk : Nat) (data : Bytes) (rd : ReadEnd) (errs : WordErrs)
  /-- Arrival of an up-tree chunk packet, added to the accumulator or forwarded (UP_DATA, R334). -/
  | upData (port : Nat) (pkt : Pkt)
  /-- Arrival of a result chunk packet, retained, verified, written to DST and forwarded (DOWN_DATA, R338). -/
  | downData (port : Nat) (pkt : Pkt)
  /-- Arrival of a chunk acknowledgment with bitmap and LIMIT (CHUNK_ACK, R334). -/
  | chunkAck (port : Nat) (pkt : Pkt)
  /-- Arrival of a FETCH; the source answers from WORK with DOWN_DATA (COLL_FETCH, R338). -/
  | collFetch (port : Nat) (pkt : Pkt) (errs : WordErrs)
  /-- Arrival of a tree's SEAL, forwarded down and checked against the digests (SEAL, R337). -/
  | seal (port : Nat) (pkt : Pkt)
  /-- Arrival of a SEAL_ACK; a DRAINING slot becomes IDLE when all have arrived (SEAL_ACK, R339). -/
  | sealAck (port : Nat) (pkt : Pkt)
  /-- Arrival of an ABORT of the current SEQ, which completes the member and is forwarded once (COLL_ABORT_PACKET, R346). -/
  | collAbortPacket (port : Nat) (pkt : Pkt)
  /-- Arrival of an ARRIVE in a barrier, forwarded once all children have arrived (ARRIVE, R349). -/
  | arrive (port : Nat) (pkt : Pkt)
  /-- Arrival of NOT_STARTED; the sender waits out the hint (NOT_STARTED, R333). -/
  | notStarted (port : Nat) (pkt : Pkt)
  /-- 4 µs after a chunk's first packet, the parent sends a CHUNK_ACK for an incomplete chunk (CHUNK_ACK_TIMER, R334). -/
  | chunkAckTimer (slot chunk rank : Nat)
  /-- With no CHUNK_ACK, the whole chunk is resent with doubling waits, aborting after 7 (UP_RESEND_TIMER, R334). -/
  | upResendTimer (slot chunk : Nat)
  /-- An incomplete chunk after 4 µs, or an unanswered FETCH after its wait, sends a FETCH again (FETCH_TIMER, R338). -/
  | fetchTimer (slot chunk : Nat)
  /-- DEADLINE_MS passes without completion and the member aborts ABORTED_TIMEOUT (COLL_DEADLINE, R342). -/
  | collDeadline (slot : Nat)
  /-- An unanswered ABORT is repeated every 20 µs up to 7 times (ABORT_REPEAT, R346). -/
  | abortRepeat (slot : Nat)
  /-- A CONTRIB or RESULT hook run starts on a chunk in a hook slot (HOOK_RUN_START, R344). -/
  | hookRunStart (slot chunk : Nat)
  /-- Command that sets a sync object's event queue and arms or disarms its host waiter (SYNC_CTL, R358). -/
  | syncCtl (h : Issue) (index evq arm thresh : Nat)
  /-- Command that adds to or sets a sync object (SYNC_OP, R358). -/
  | syncOp (h : Issue) (index op value : Nat)
  /-- Command that returns sync object values and waiter state (SYNC_QUERY, R358). -/
  | syncQuery (h : Issue) (first count : Nat)
  /-- SYNC_DB write with OP ADD adds VALUE to an object (SYNC_DB_ADD, R357). -/
  | syncDbAdd (func index value : Nat)
  /-- SYNC_DB write with OP SET sets an object (SYNC_DB_SET, R357). -/
  | syncDbSet (func index value : Nat)
  /-- SYNC_DB write with OP ARM arms the host waiter at a threshold (SYNC_DB_ARM, R356). -/
  | syncDbArm (func index value : Nat)
  /-- A function sets GO and the firmware executes the mailbox command and writes the reply (MAILBOX_GO, R361). -/
  | mailboxGo (func : Nat) (o : Outside)
  /-- A tenant sets DB_H2A bits, posting one DB_BITS entry to the manager (DB_H2A_SET, R366). -/
  | dbH2aSet (func : Nat) (bits : BitVec 32)
  /-- A function clears DB_A2H bits (DB_A2H_CLEAR, R364). -/
  | dbA2hClear (func : Nat) (bits : BitVec 32)
  /-- A function writes its mask; unmasking a set bit sends one MSI-X notice (DB_A2H_MASK_WRITE, R366). -/
  | dbA2hMaskWrite (func : Nat) (mask : BitVec 32)
  /-- The manager clears a tenant's DB_H2A bits (MGR_H2A_CLEAR, R365). -/
  | mgrH2aClear (tenant : Nat) (bits : BitVec 32)
  /-- The manager writes its mask; unmasking a set bit posts a DB_BITS entry (MGR_H2A_MASK_WRITE, R366). -/
  | mgrH2aMaskWrite (tenant : Nat) (mask : BitVec 32)
  /-- The manager sets a tenant's DB_A2H bits, raising one MSI-X notice (MGR_A2H_SET, R365). -/
  | mgrA2hSet (tenant : Nat) (bits : BitVec 32)
  /-- Command that names the second of the next PPS_IN edge (TAPE_PPS_SEC, R381). -/
  | tapePpsSec (h : Issue) (seconds : Nat)
  /-- Command that fills and arms a scheduled sync event (TAPE_EVENT_SET, R375). -/
  | tapeEventSet (h : Issue) (event atNs periodUs op index value : Nat)
  /-- Command that disarms a scheduled event (TAPE_EVENT_CANCEL, R381). -/
  | tapeEventCancel (h : Issue) (event : Nat)
  /-- A scheduled event's tape microsecond arrives and its ADD or SET is applied (TAPE_EVENT_DUE, R375). -/
  | tapeEventDue (part event : Nat)
  /-- Command that writes a port's booking basting copy (BOOK_WRITE, R381). -/
  | bookWrite (h : Issue) (port cycle : Nat) (bitmap : BitVec 4096)
  /-- Long command that schedules booking copies for an epoch boundary (BOOK_STITCH, R377). -/
  | bookStitch (h : Issue) (atNs portmask : Nat)
  /-- Command that returns a port's booking (BOOK_QUERY, R381). -/
  | bookQuery (h : Issue) (port copy : Nat)
  /-- At each 2 µs slot boundary, VC0 is opened or closed by the booking, or suspended when not LOCKED (BOOK_SLOT_BOUNDARY, R377). -/
  | bookSlotBoundary
  /-- A PTP event message is timestamped and, as Sync, yields a tape offset (PTP_EVENT_MESSAGE, R474). -/
  | ptpEventMessage (msg : PtpMsg)
  /-- A rising PPS_IN edge marks a whole second and yields a tape comparison (PPS_EDGE, R369). -/
  | ppsEdge
  /-- No usable comparison for the loss time moves the tape to HOLDOVER or UNLOCKED (TAPE_LOSS_TIMEOUT, R374). -/
  | tapeLossTimeout
  /-- 10 s in HOLDOVER moves the tape to UNLOCKED (HOLDOVER_EXPIRY, R374). -/
  | holdoverExpiry
  /-- A better port held for 1 ms becomes the tape upstream (UPSTREAM_SWITCH, R372). -/
  | upstreamSwitch
  /-- At each whole tape second in LOCKED or HOLDOVER, PPS_OUT drives a 100 ms pulse (PPS_OUT, R370). -/
  | ppsOut
  /-- A write to DB_q records a PI or CI, arms an adapter ring, or is refused (DOORBELL_WRITE, R408). -/
  | doorbellWrite (func q : Nat) (value : BitVec 64)
  /-- The index record read completes and fetching proceeds up to its PI (INDEX_RECORD_READ, R409). -/
  | indexRecordRead (part q : Nat) (record : BitVec 128) (rd : ReadEnd)
  /-- A lagging PI makes the record be read again at 1 µs intervals up to 4 times (INDEX_REREAD_TIMER, R409). -/
  | indexRereadTimer (part q : Nat)
  /-- Fetched ring entries are checked and executed, or a malformed entry halts the partition (ENTRY_FETCH, R421). -/
  | entryFetch (part q : Nat) (entries : DescList) (rd : ReadEnd) (o : Outside)
  /-- An indirect command's parameter read completes, or fails with MEM_UNCORRECTABLE (PARAM_READ, R426). -/
  | paramRead (part tag : Nat) (params : Bytes) (rd : ReadEnd) (o : Outside)
  /-- The adapter writes CI to an index record within 2 µs of unreported fetches (CI_WRITE, R407). -/
  | ciWrite (part q : Nat)
  /-- A long command ends and its final reply is written (LONG_CMD_FINAL, R430). -/
  | longCmdFinal (part tag : Nat) (ok : Bool)
  /-- Copy descriptor that moves LENGTH bytes between two VAs (COPY, R414). -/
  | copy (part q : Nat) (d : Desc)
  /-- ADMIN_STITCH.ENABLE checks the basting admin configuration and turns the admin queue ON or REFUSED (ADMIN_ENABLE, R424). -/
  | adminEnable (func : Nat)
  /-- ADMIN_STITCH.DISABLE stops fetching and goes OFF when taken commands have replied (ADMIN_DISABLE, R424). -/
  | adminDisable (func : Nat)
  /-- Command that checks and takes a partition's allotment in one step (PART_CREATE, R439). -/
  | partCreate (h : Issue) (part queues conns pinConns windows syncObjs shapers collSlots keySlots contexts clusterMask unitMap : Nat)
  /-- Command that resets a partition through its ordered steps (PART_RESET, R442). -/
  | partReset (h : Issue) (part force : Nat)
  /-- Long command that resets a partition, returns its allotments and erases its units (PART_DESTROY, R446). -/
  | partDestroy (h : Issue) (part : Nat)
  /-- Command that returns a partition's state, allotment and use counts (PART_QUERY, R448). -/
  | partQuery (h : Issue) (part : Nat)
  /-- A step of a partition reset completes and the next begins (PARTITION_RESET_STEP, R442). -/
  | partitionResetStep (part : Nat)
  /-- A unit not done at the 1 ms bound is reset through its selvedge and a PART record posted (RESET_FORCED, R444). -/
  | resetForced (part : Nat)
  /-- A unit's erase ends and it returns to FREE (UNIT_ERASE_DONE, R446). -/
  | unitEraseDone (unit : Nat)
  /-- Command that unwraps a key blob into a key slot (KEY_LOAD, R463). -/
  | keyLoad (h : Issue) (part slot : Nat) (blob : BitVec 384) (guard : Mismatch)
  /-- Command that erases a key slot (KEY_CLEAR, R463). -/
  | keyClear (h : Issue) (part slot : Nat)
  /-- Long command that verifies a bundle and writes it to an SPI NOR copy (FW_UPDATE, R458). -/
  | fwUpdate (h : Issue) (ctx va len slot activate : Nat) (o : Outside)
  /-- Long command that produces a signed attestation report (ATTEST, R461). -/
  | attest (h : Issue) (nonce : BitVec 256)
  /-- Mailbox message under host boot that makes the thimble read and verify a bundle (BOOT_IMAGE, R452). -/
  | bootImage (bundle : Bundle) (rd : ReadEnd)
  /-- Firmware signals boot success; SVN and revoke fuses are committed (BOOT_OK, R455). -/
  | bootOk
  /-- A fuse pulse ends and the next is blown until the counter equals SVN (FUSE_PULSE_END, R455). -/
  | fusePulseEnd
  /-- Every 60 s the thimble retries DHCP and TFTP boot (NETWORK_BOOT_RETRY, R451). -/
  | networkBootRetry
  /-- A write to the I3C recovery window appends bundle bytes or restarts reception (I3C_RECOVERY_WRITE, R543). -/
  | i3cRecoveryWrite (offset : Nat) (data : Bytes) (bundle : Bundle)
  /-- A private write to the I3C register target sets the offset (I3C_REG_WRITE, R543). -/
  | i3cRegWrite (offset : Nat)
  /-- Secure mailbox message that extends MR7 (MR_EXTEND, R464). -/
  | mrExtend (mbox : Nat)
  /-- Secure mailbox message that returns a measurement register (MR_READ, R464). -/
  | mrRead (mbox : Nat)
  /-- Secure mailbox message that raises KEK_EPOCH (KEK_ROTATE, R464). -/
  | kekRotate (mbox : Nat)
  /-- Secure mailbox message that runs the thimble self-test (SELF_TEST, R464). -/
  | selfTest (mbox : Nat) (ok : Bool)
  /-- Thimble-to-manager secure mailbox message carrying a SEC reason (NOTICE, R464). -/
  | notice (reason : Nat)
  /-- The manager clears GO of a thimble-to-manager mailbox after writing its reply (SECURE_MAILBOX_REPLY, R363). -/
  | secureMailboxReply (mbox : Nat)
  /-- SPDM request for supported versions (GET_VERSION, R460). -/
  | getVersion (bus : Nat) (m : SpdmReq)
  /-- SPDM capabilities request (GET_CAPABILITIES, R460). -/
  | getCapabilities (bus : Nat) (m : SpdmReq)
  /-- SPDM algorithm negotiation (NEGOTIATE_ALGORITHMS, R460). -/
  | negotiateAlgorithms (bus : Nat) (m : SpdmReq)
  /-- SPDM certificate digest request (GET_DIGESTS, R460). -/
  | getDigests (bus : Nat) (m : SpdmReq)
  /-- SPDM certificate chain request (GET_CERTIFICATE, R460). -/
  | getCertificate (bus : Nat) (m : SpdmReq)
  /-- SPDM challenge signed with IK_RSA (CHALLENGE, R460). -/
  | challenge (bus : Nat) (m : SpdmReq)
  /-- SPDM request returning MR0–MR7 (GET_MEASUREMENTS, R460). -/
  | getMeasurements (bus : Nat) (m : SpdmReq)
  /-- SPDM chunked request transfer (CHUNK_SEND, R460). -/
  | chunkSend (bus : Nat) (m : SpdmReq)
  /-- SPDM chunked response retrieval (CHUNK_GET, R460). -/
  | chunkGet (bus : Nat) (m : SpdmReq)
  /-- Vendor SPDM request for the dual-signed attestation report (GET_REPORT, R461). -/
  | getReport (bus : Nat) (m : SpdmReq)
  /-- Vendor SPDM request for the IK_SLH certificate (GET_PQ_CERT, R460). -/
  | getPqCert (bus : Nat) (m : SpdmReq)
  /-- Command that sets management port mode and addresses, row ORIGIN, or a wake pattern (MGMT_CFG, R481). -/
  | mgmtCfg (h : Issue) (vals : Nats)
  /-- A tacking word decoded on TACK_IN; two equal words set PRED_COL (TACK_WORD, R476). -/
  | tackWord (col : Nat)
  /-- Every 1 ms a tacked adapter sends its column on TACK_OUT (TACK_OUT_TIMER, R476). -/
  | tackOutTimer
  /-- Every 100 ms an untacked adapter with PRED_COL sends REQUEST (TACK_REQUEST_TIMER, R478). -/
  | tackRequestTimer
  /-- Tacking REQUEST frame at the row master, answered with an OFFER (REQUEST, R478). -/
  | request (f : MgmtFrame)
  /-- Tacking OFFER frame; a matching untacked adapter takes its ID and answers ACCEPT (OFFER, R478). -/
  | offer (f : MgmtFrame)
  /-- Tacking ACCEPT frame at the row master, ending OFFER repetition (ACCEPT, R478). -/
  | accept (f : MgmtFrame)
  /-- Every 20 ms the master re-sends OFFER, posting TACK_TIMEOUT after 8 (OFFER_RESEND_TIMER, R478). -/
  | offerResendTimer (eui : Nat)
  /-- An authenticated out-of-band datagram is checked for replay and executed as a command (OOB_REQUEST, R480). -/
  | oobRequest (f : MgmtFrame) (o : Outside)
  /-- A PAUSE frame stops or resumes the point-to-point transmitter (PAUSE_FRAME, R472). -/
  | pauseFrame (quanta : Nat) (fcsOk : Bool)
  /-- The pause time passes and the transmitter resumes (PAUSE_EXPIRY, R472). -/
  | pauseExpiry
  /-- A collision on the segment causes jam and back-off, or discards the frame (MAC_COLLISION, R471). -/
  | macCollision (late : Bool)
  /-- The back-off time passes and the frame is retried (BACKOFF_EXPIRY, R471). -/
  | backoffExpiry
  /-- A frame matching an enabled wake pattern wakes the adapter from DORMANT (WAKE_FRAME, R475). -/
  | wakeFrame (bytes : Bytes) (fcsOk : Bool)
  /-- Command that starts a warm reset (RESET_WARM, R499). -/
  | resetWarm (h : Issue)
  /-- Command that starts a cold reset (RESET_COLD, R499). -/
  | resetCold (h : Issue)
  /-- Command that enters SLUMBER or DORMANT, or returns to ACTIVE (POWER_STATE, R496). -/
  | powerState (h : Issue) (state : Nat)
  /-- Command that sets the input power cap (POWER_LIMIT, R497). -/
  | powerLimit (h : Issue) (capW : Nat)
  /-- RESET_CTL write with the key and COLD starts a cold reset (RESET_CTL_COLD, R500). -/
  | resetCtlCold (func value : Nat)
  /-- RESET_CTL write with the key and WARM starts a warm reset (RESET_CTL_WARM, R500). -/
  | resetCtlWarm (func value : Nat)
  /-- The input rises past 40 V; standby and main rails come up and bring-up begins (POWER_ON, R545). -/
  | powerOn
  /-- The input falls below 38 V; rails turn off and PWR_OK drops (POWER_LOSS, R545). -/
  | powerLoss
  /-- RESET_N is held low long enough and a cold reset starts (RESET_N_ASSERT, R487). -/
  | resetNAssert (ns : Nat)
  /-- RESET_N rises; straps are sampled and cold bring-up begins (RESET_N_RELEASE, R493). -/
  | resetNRelease
  /-- A non-volatile write ends and a held reset starts (NV_WRITE_END, R488). -/
  | nvWriteEnd
  /-- A bring-up stage completes and the next stage is released (STAGE_RELEASE, R489). -/
  | stageRelease (bundle : Bundle) (ok idOk : Bool) (bad : Nats)
  /-- A warm reset trigger is acted on, or refused into HALTED within 60 s of the last (WARM_RESET, R490). -/
  | warmReset (cause : Nat)
  /-- Firmware closes a block's selvedge, resets, reinitialises and reopens it (BLOCK_RESET, R491). -/
  | blockReset (kind index : Nat)
  /-- A block reset completes and its selvedge opens (BLOCK_RESET_END, R491). -/
  | blockResetEnd (kind index : Nat)
  /-- WAKE_N held low for 1 µs leaves SLUMBER or wakes DORMANT by cold reset (WAKE_N, R495). -/
  | wakeN (ns : Nat)
  /-- 1 ms with no work puts the adapter in IDLE (IDLE_ENTRY, R495). -/
  | idleEntry
  /-- Every 100 µs input power is measured and the cap enforced by clock steps or injection holds (POWER_SAMPLE, R497). -/
  | powerSample (watts avgW volts : Nat)
  /-- Every 1 ms temperatures are sampled and warnings, limits or critical resets applied (TEMP_SAMPLE, R498). -/
  | tempSample (temps : Nats)
  /-- Loss of the module oscillator holds the adapter in cold reset (OSC_LOSS, R494). -/
  | oscLoss
  /-- REFCLK missing for 20 µs takes the data link down (REFCLK_LOST, R494). -/
  | refclkLost
  /-- The host data link goes down and a ride-through starts holding host writes (DATA_LINK_DOWN, R397). -/
  | dataLinkDown
  /-- The data link returns within 20 ms; held writes go out, reads are reissued and index records reread (DATA_LINK_UP, R397). -/
  | dataLinkUp (width speed : Nat)
  /-- The data link down for 20 ms is declared link loss and a warm reset starts (LINK_LOSS_TIMER, R398). -/
  | linkLossTimer
  /-- PERST# asserted is a host link loss after the host stage release, else a hold (PERST_ASSERT, R540). -/
  | perstAssert
  /-- PERST# released lets the host interface stage train (PERST_RELEASE, R540). -/
  | perstRelease
  /-- A received Hot Reset is treated as host link loss (HOT_RESET, R396). -/
  | hotReset
  /-- The PCIe link retrains with the data link up; nothing is lost (LTSSM_RECOVERY, R396). -/
  | ltssmRecovery
  /-- The link partner directs the host link into Loopback as slave (LTSSM_LOOPBACK, R530). -/
  | ltssmLoopback
  /-- A host read completion returns data, or UR, CA or poison handled as an uncorrectable read (HOST_READ_COMPLETION, R392). -/
  | hostReadCompletion (idx : Nat) (data : Bytes) (rd : ReadEnd)
  /-- A flushing read returns and the waiting completion, PI or MSI-X is written (FLUSH_READ_DONE, R391). -/
  | flushReadDone (func : Nat) (rd : ReadEnd)
  /-- A host snoop invalidates a cached line or returns Modified data (HOST_SNOOP, R388). -/
  | hostSnoop (addr : Nat) (inv : Bool)
  /-- The host returns GO for a CXL.cache request, releasing its report (CACHE_GO, R390). -/
  | cacheGo (addr : Nat) (data : Bytes)
  /-- VF Enable set returns tenant partitions to their states (VF_ENABLE_SET, R438). -/
  | vfEnableSet
  /-- VF Enable cleared resets every tenant partition, which becomes ABSENT (VF_ENABLE_CLEAR, R384). -/
  | vfEnableClear
  /-- A VF function-level reset resets its partition (VF_FLR, R384). -/
  | vfFlr (func : Nat)
  /-- A PF function-level reset resets partition 0 and clears VF Enable (PF_FLR, R384). -/
  | pfFlr
  /-- Bus Master Enable changes, pausing or resuming the function's host requests (BUS_MASTER_ENABLE, R395). -/
  | busMasterEnable (func : Nat) (on : Bool)
  /-- The host sets Cache_Enable, allowing COHERENT use (CACHE_ENABLE, R389). -/
  | cacheEnable (on : Bool)
  /-- A vector is unmasked and its pending message sent (MSIX_UNMASK, R394). -/
  | msixUnmask (func vector : Nat)
  /-- An engine makes no progress for 50 µs, raising BLOCK_FAULT at the block rung (ENGINE_WATCHDOG, R524). -/
  | engineWatchdog (kind index : Nat) (check : Bool)
  /-- A control processor fails to refresh for 50 ms, raising FW WATCHDOG (CP_WATCHDOG, R524). -/
  | cpWatchdog (cp : Nat)
  /-- No processor check-in for 200 ms forces a warm reset (ADAPTER_WATCHDOG, R524). -/
  | adapterWatchdog
  /-- A recovery ends and the next pending fault is handled, posting its second record (PENDING_FAULT_TURN, R522). -/
  | pendingFaultTurn
  /-- Every host request stops, all partitions reset and the host DMA engines are reset (HOST_DOMAIN_RESET, R520). -/
  | hostDomainReset
  /-- A recovery's window closes and its domain returns to its entry rung (RECOVERY_WINDOW_CLOSE, R519). -/
  | recoveryWindowClose (rung dom : Nat)
  /-- Command that returns sticky log entries, optionally clearing the log (FAULT_LOG_READ, R516). -/
  | faultLogRead (h : Issue) (first count clear : Nat)
  /-- Command that starts or ends a loop-back test on a port, channel or the management MAC (LOOPBACK_SET, R525). -/
  | loopbackSet (h : Issue) (kind index depth durationMs : Nat)
  /-- DURATION_MS passes and the loop-back ends PASSED or FAILED (LOOPBACK_END, R529). -/
  | loopbackEnd (lbIdx errors units : Nat)
  /-- Long command that runs built-in self-test on one idle resource (BIST_RUN, R532). -/
  | bistRun (h : Issue) (target index : Nat)
  /-- A self-test finishes and its final reply carries the failure mask (BIST_DONE, R532). -/
  | bistDone (bistId mask : Nat)
  /-- An IEEE 1149.1 instruction is loaded through the test access port (TAP_INSTRUCTION, R533). -/
  | tapInstruction (ir : Nat)
  /-- Host write to a register without a row of its own, applied per its access type (REGISTER_WRITE, R551). -/
  | registerWrite (func offset width value : Nat)
  /-- A DHCPv4 or TFTP frame arrives on the management port during network boot and advances the address lease or the bundle transfer, ending with the bundle read and checked (NETWORK_BOOT_FRAME, R451). -/
  | networkBootFrame (f : BootFrame) (bundle : Bundle)
  /-- A PTP general message (Follow_Up from a two-step master, Delay_Resp, Announce) is received and completes the offset and delay computation of the tape discipline (PTP_GENERAL_MESSAGE, R369). -/
  | ptpGeneralMessage (msg : PtpMsg)
  /-- The module oscillator returns after a loss, releasing the cold reset in which the adapter was held (OSCILLATOR_RETURN, R494). -/
  | oscillatorReturn
  /-- The 48 V input rises above 62 V and the input protection disconnects the module until the input falls below 60 V (INPUT_OVERVOLTAGE, R544). -/
  | inputOvervoltage
  /-- The 1 ms wait for the output queues of ports leaving service ends, and the ports are disabled with what remains abandoned (QUEUE_DRAIN_LIMIT, R231). -/
  | queueDrainLimit (ports : Nats)
  /-- Entry into SLUMBER or DORMANT, or exit from SLUMBER, finishes, POWER_STAT.STATE leaves 'in transition', and POWER_STATE replies (POWER_TRANSITION_END, R496). -/
  | powerTransitionEnd
  /-- A newly inserted ELS finishes its identity check and self-test and reaches set point, moving STATE from STARTING to RUNNING or to REFUSED (ELS_SELF_TEST_DONE, R231). -/
  | elsSelfTestDone (els : Nat) (ok : Bool)
  /-- The I3C CCC SETDASA assigns a dynamic address to the register target or the MCTP endpoint from its static address (SETDASA, R542). -/
  | setdasa (target addr : Nat)
  /-- The I3C CCC ENTDAA runs dynamic address assignment, and the adapter's two targets take their dynamic addresses (ENTDAA, R542). -/
  | entdaa (regAddr mctpAddr : Nat)
deriving DecidableEq, Repr

end Sys2Proof
end

