-- ==== Sys2Proof/Decode.lean ====
section
/-!
DEFINITION. The command a word spells by the bits of spec/opcode_table.json. The table gives no row any bits (every row's
list of fields is empty), so no word spells a command.
-/

namespace Sys2Proof

/-- The command that `w`, of `nbits` bits, spells by the table's bits: none, for the table gives bits to no row. -/
def decodeTableWord (_nbits _w : Nat) : Option Instr := none

end Sys2Proof
end

