-- ==== Sys2Proof/Config.lean ====
section
/-!
DEFINITION. The free values of the model: what the manual leaves to an implementation, or computes by a published
algorithm that the model does not expand. None has a body, so a claim about the machine holds for every choice of them
(assumption logs 1 and 10).
-/

namespace Sys2Proof.Config

/-- A fresh 64-bit value, by the model's counter (R135, R142, R158: values drawn from a random source). -/
opaque freshBits : Nat → BitVec 64

/-- The 16-bit ENTROPY value with this index of a connection's sixteen; the manual says they derive from the connection ID
and gives no function (R135). -/
opaque entropy : (conn index : Nat) → BitVec 16

/-- SHA-384 (R449, R453, R456). -/
opaque sha384 : Bytes → BitVec 384

/-- RSASSA-PSS verification with SHA-384 (R454): modulus, message, signature. -/
opaque rsaVerify : BitVec 3072 → Bytes → BitVec 3072 → Bool

/-- SLH-DSA-SHA2-192s verification (R454): public key, message, signature. -/
opaque slhVerify : BitVec 384 → Bytes → Bytes → Bool

/-- RSASSA-PSS signature with the identity key IK_RSA (R460, R461). -/
opaque rsaSign : Bytes → BitVec 3072

/-- SLH-DSA-SHA2-192f signature with the identity key IK_SLH, 35,664 bytes (R461). -/
opaque slhSign : Bytes → Bytes

/-- Hash of the root key fused for family 0 RSA or 1 SLH in this slot (R449). -/
opaque rootHash : (family slot : Nat) → BitVec 384

/-- SHA-384 of the thimble ROM (R456). -/
opaque romDigest : BitVec 384

/-- The 48-byte word with which a measurement register is extended, from the values it carries; the manual names the values and not
their places (R456). -/
opaque measureWord : (mr : Nat) → Nats → Bytes

/-- Largest SPDM message the responder moves unchunked, less 42 bytes; the manual gives none (R460). -/
opaque spdmRoom : Nat

/-- CTExponent of the SPDM capabilities; the manual gives none (R460). -/
opaque spdmCt : Byte

/-- DMTFSpecMeasurementValueType of a measurement index; the manual gives none (R460). -/
opaque measureType : Nat → Byte

/-- Marnil's IANA enterprise number, and the codes of the two vendor requests within it; the manual gives none (R460). -/
opaque vendorId : BitVec 32

/-- Certificate chain of IK_RSA (R459, R460). -/
opaque rsaChain : Bytes

/-- Certificate of IK_SLH (R459, R460). -/
opaque slhCert : Bytes

/-- AES-256-GCM authentication tag: key, nonce, additional data, ciphertext (R145, R146, R480). -/
opaque gcmTag : BitVec 256 → BitVec 96 → Bytes → Bytes → BitVec 128

/-- AES-256-GCM encryption of a payload, which is also its decryption: key, nonce, bytes (R145, R146). -/
opaque gcmCrypt : BitVec 256 → BitVec 96 → Bytes → Bytes

/-- Key encryption key of a partition in an epoch (R462). -/
opaque kek : (part epoch : Nat) → BitVec 256

/-- AES-KW unwrapping of a 48-byte blob: none where its integrity check fails (R463). -/
opaque unwrap : BitVec 256 → BitVec 384 → Option (BitVec 320)

/-- The transport engine that serves a connection; the manual does not say which (R491, R518). -/
opaque engineOf : (conn : Nat) → Nat

/-- The host DMA engine that carries a host request of a function; the manual does not say which (R518). -/
opaque dmaOf : (func : Nat) → Nat

/-- The control processor that holds a long command; the manual does not say which (R492). -/
opaque processorOf : (part tag : Nat) → Nat

/-- HMAC-SHA-384 (R305). -/
opaque hmac384 : BitVec 256 → Bytes → BitVec 384

/-- Sign of an array sum that is exactly zero, by the terms' signs (R254; assumption log 17). -/
opaque zeroSign : List Bool → Bool

end Sys2Proof.Config
end

