-- ==== Sys2Proof/Machine/State.lean ====
section
/-!
DEFINITION. The state of the adapter as plain data: every register, counter, queue, memory and mode that the manual gives
it, the commands that wait (`State.pending`), the state after reset, and the reasons a step can stop. A field's default is
its reset value; INVENTORY.md lists each field with its rule, and assumption log 6 names the values the manual does not give.
-/

namespace Sys2Proof.Machine

/-- One end of a transfer. -/
inductive XEnd where
  /-- A device VA with its recorded translation and epoch (R57). -/
  | va (seg va fpa : Nat) (epoch : BitVec 16)
  /-- A cluster address: shared memory of the engine's cluster (R238). -/
  | clus (addr : Nat)
  /-- Local memory of a needle (R247). -/
  | loc (needle addr : Nat)
  /-- The transport engine (a message's packets). -/
  | pkt
deriving DecidableEq, Repr

/-- What a transfer works for. -/
inductive XWho where
  /-- A copy descriptor (R414). -/
  | copyQ (part q : Nat)
  /-- A CPY of a needle (R294). -/
  | cpy (needle : Nat)
  /-- The source read of a send message. -/
  | msg (conn msn : Nat)
  /-- The source read of a send transform chunk into its slot (R311). -/
  | chunk (conn msn idx slot : Nat)
deriving DecidableEq, Repr

/-- The straps as sampled (R493). -/
structure Straps where
  /-- BOOT_SRC (R493). -/
  bootSrc : BitVec 2 := 0
  /-- CLK_MODE (R493). -/
  clkMode : BitVec 2 := 0
  /-- ROW_MASTER_N (R493). -/
  rowMasterN : Bool := true
  /-- SPINE_MODE_N (R493). -/
  spineModeN : Bool := true
  /-- TAPE_SRC (R493). -/
  tapeSrc : BitVec 2 := 0
deriving DecidableEq, Repr

/-- Levels on the module's pins. -/
structure Pins where
  /-- The levels now on the strap pins (R538, R539). -/
  strap : Straps := {}
  /-- RESET_N level (R487, R539). -/
  resetN : Bool := true
  /-- PERST# level (R540). -/
  perstN : Bool := true
  /-- WAKE_N level (R495). -/
  wakeN : Bool := true
  /-- 48 V input in range (R545). -/
  powered : Bool := true
  /-- Standby rail raised (R545). -/
  standby : Bool := true
  /-- PWR_OK released (R545). -/
  pwrOk : Bool := false
  /-- Input protection has disconnected the module (above 62 V) (R544). -/
  overvolt : Bool := false
  /-- The module oscillator runs (R494). -/
  oscOk : Bool := true
  /-- REFCLK present (R494). -/
  refclkOk : Bool := true
  /-- PPS_OUT level (R370). -/
  ppsOut : Bool := false
  /-- Bits last sent on TACK_OUT, start pulse first (R476). -/
  tackOut : List Bool := []
  /-- TACK_OUT sends words (R476). -/
  tackHigh : Bool := false
deriving DecidableEq, Repr

/-- A fault waiting on the pending list (R522). -/
structure FPend where
  /-- BLOCK kind (R518). -/
  kind : Nat := 0
  /-- BLOCK index (R518). -/
  idx : Nat := 0
  /-- CLASS (R505). -/
  cls : BitVec 8 := 0
  /-- REASON (R509). -/
  reason : BitVec 8 := 0
  /-- Partition concerned (R504). -/
  part : Option Nat := none
  /-- DETAIL3.CHECK (R506). -/
  check : Bool := false
  /-- DETAIL0 (R505). -/
  d0 : Nat := 0
  /-- DETAIL1 (R505). -/
  d1 : Nat := 0
  /-- DETAIL2 (R505). -/
  d2 : Nat := 0
deriving DecidableEq, Repr

/-- Reset, bring-up and block-reset state (22). -/
structure ResetS where
  /-- RESET_STATUS.STAGE (R501). -/
  stage : BitVec 4 := 0
  /-- Held in cold reset (RESET_N low, no power, no oscillator) (R489). -/
  inReset : Bool := false
  /-- The bring-up in progress is warm (R490). -/
  warm : Bool := false
  /-- Retained images voided by FW_UPDATE ACTIVATE (R458). -/
  imagesVoid : Bool := false
  /-- A hub die memory cannot be repaired: bring-up stops at STAGE 4 (R531). -/
  hubFailed : Bool := false
  /-- WARM_COUNT (R501). -/
  warmCount : BitVec 8 := 0
  /-- LAST_CAUSE (R501). -/
  lastCause : BitVec 4 := 0
  /-- Clock at the start of the last warm reset, none if none since cold reset (R501, R485). -/
  warmAt : Option Nat := none
  /-- LAST_CAUSE of the warm reset that opened the 60 s window (R523). -/
  warmCause : BitVec 4 := 0
  /-- CTL_REFUSED (R501). -/
  ctlRefused : BitVec 8 := 0
  /-- Non-volatile operation in progress (kind as R488, 0 fuse 1 page 2 sector) (R488). -/
  nvBusy : Option Nat := none
  /-- Reset held by NV_HOLD: cold or warm, its cause, and SEQ, CLASS and REASON of the record that triggered it (R488). -/
  held : Option (Bool × Nat × Nat × Nat × Nat) := none
  /-- Adapter HALTED (R485). -/
  halted : Bool := false
  /-- Blocks (kind, index) in block reset with the selvedge closed; kind 257 for a copy engine RETIRED until its cluster is allotted (R491). -/
  blocks : List (Nat × Nat) := []
  /-- Faults whose block resets are held until partitions are released (R486). -/
  heldBlocks : List FPend := []
  /-- Partition resets held until partitions are released (R486). -/
  heldParts : List Nat := []
  /-- In DORMANT (standby rail only) (R495). -/
  dormant : Bool := false
  /-- The host interface stage waits for PERST# (R540). -/
  perstHold : Bool := false
  /-- The bundle has been read and checked (sources 1-3) (R451). -/
  bundleReady : Bool := false
deriving DecidableEq, Repr

/-- Power manager (22). -/
structure PowerS where
  /-- INPUT_W (R502). -/
  inputW : BitVec 16 := 0
  /-- CAP_W (R502). -/
  capW : BitVec 16 := 1100
  /-- INPUT_V (R502). -/
  inputV : BitVec 8 := 192
  /-- HOT_C (R502). -/
  hotC : BitVec 8 := 0
  /-- Injection held for throttle/8 of each 10 us, 0-7 (R497). -/
  throttle : Nat := 0
  /-- CLK_POWER (R502). -/
  clkPower : Bool := false
  /-- CLK_THERMAL (R502). -/
  clkThermal : Bool := false
  /-- MEM_HOT (R502). -/
  memHot : Bool := false
  /-- POWER_STAT.STATE (R502). -/
  state : BitVec 4 := 0
  /-- State a transition is heading for (R496). -/
  target : Option (BitVec 8) := none
  /-- POWER_STATE command waiting for its reply (R496). -/
  issue : Option Issue := none
  /-- 100 us samples in a row with the average above the cap (R497). -/
  overNs : Nat := 0
  /-- 100 us samples in a row with the average below the cap less 20 W (R497). -/
  under : Nat := 0
  /-- Samples in a row with the average above 1,150 W (R497). -/
  hiNs : Nat := 0
  /-- Refresh rate doubled (LPDDR6 package warning) (R498). -/
  refreshDouble : Bool := false
  /-- MIG_BW halved and scrub paused (LPDDR6 limit) (R498). -/
  migHalved : Bool := false
  /-- Injection held for throttleT/8 of each 10 us by the hub die's temperature limit, 0-7 (R498). -/
  throttleT : Nat := 0
  /-- Last level of each sensor (0 normal, 1 warning, 2 limit, 3 critical) (R498). -/
  tempHist : AMap (BitVec 8) := []
  /-- Scrub, tiering and evacuation paused (SLUMBER) (R91). -/
  scrubPaused : Bool := false
deriving DecidableEq, Repr

/-- A tape mark (R371). -/
structure TMark where
  /-- REF_ID (R371). -/
  refId : BitVec 16 := 0
  /-- HOPS (R371). -/
  hops : BitVec 6 := 0
  /-- CLASS (R371). -/
  cls : BitVec 2 := 3
  /-- STATE (R371). -/
  st : BitVec 4 := 0
  /-- NS_HI and NS_LO (R371). -/
  ns : BitVec 64 := 0
  /-- FRAC (R371). -/
  frac : BitVec 16 := 0
deriving DecidableEq, Repr

/-- The tape (16). -/
structure TapeS where
  /-- Time unit released (R367). -/
  running : Bool := false
  /-- Nanosecond count (R367). -/
  ns : BitVec 64 := 0
  /-- Fraction (R367). -/
  frac : BitVec 16 := 0
  /-- TAPE_STATUS.STATE (R368). -/
  state : BitVec 4 := 0
  /-- REF_ID (R380). -/
  refId : BitVec 16 := 0
  /-- HOPS (R380). -/
  hops : BitVec 6 := 0
  /-- CLASS (R380). -/
  cls : BitVec 2 := 3
  /-- UPSTREAM (R380). -/
  upstream : BitVec 8 := 0xFF
  /-- STEPS (R380). -/
  steps : BitVec 8 := 0
  /-- TAPE_OFFSET, 2^-16 ns (R380). -/
  offset : BitVec 64 := 0
  /-- TAPE_CFG.PTP_DOMAIN (RWS) (R380). -/
  ptpDomain : BitVec 8 := 0
  /-- TAPE_MISSED (R380). -/
  missed : BitVec 64 := 0
  /-- Second of the next PPS_IN edge (R381). -/
  ppsSec : Option (BitVec 64) := none
  /-- Port that has been better than the upstream (R372). -/
  better : Option Nat := none
  /-- Last mark of each port (R372). -/
  marks : AMap TMark := []
  /-- Residual offset being slewed, 2^-16 ns (R374). -/
  slew : Int := 0
  /-- Receive timestamp of a two-step Sync waiting for its Follow_Up (R369). -/
  ptpWait : Option (BitVec 64 × BitVec 16) := none
  /-- Mean path delay of PTP, 2^-16 ns (R369). -/
  ptpDelay : Int := 0
  /-- Transmit time of the last Delay_Req (R369). -/
  ptpT3 : BitVec 64 := 0
  /-- Last Sync origin time (R369). -/
  ptpT1 : BitVec 64 := 0
  /-- Last Sync receive time (R369). -/
  ptpT2 : BitVec 64 := 0
  /-- Master last announced (R369). -/
  ptpMaster : BitVec 64 := 0
deriving DecidableEq, Repr

/-- An SPDM response sent (R460). -/
structure SpdmRsp where
  /-- SPDM response code (R460). -/
  code : Nat := 0
  /-- Param1 (R460). -/
  param1 : Nat := 0
  /-- Param2 (R460). -/
  param2 : Nat := 0
  /-- Bytes after the header (R460). -/
  body : Bytes := []
deriving DecidableEq, Repr

/-- The SPDM state of one transport (R460). -/
structure SpdmS where
  /-- 0 nothing negotiated, 1 version, 2 capabilities, 3 algorithms (R460). -/
  st : Nat := 0
  /-- Version negotiated (R460). -/
  version : Nat := 0
  /-- Messages exchanged that the next signature covers (R460). -/
  msgs : Bytes := []
  /-- Large response being fetched by CHUNK_GET (R460). -/
  pendOut : Bytes := []
  /-- Its handle (R460). -/
  outHandle : Nat := 0
  /-- Next chunk number of it (R460). -/
  outSeq : Nat := 0
  /-- Large request being received by CHUNK_SEND (R460). -/
  inBuf : Bytes := []
  /-- Next chunk number of it (R460). -/
  inSeq : Nat := 0
  /-- Responses sent (model's own observation, log 12) (R460). -/
  out : List SpdmRsp := []
deriving DecidableEq, Repr

/-- The thimble (20). -/
structure ThimbleS where
  /-- THIMBLE_STAT.STATE (R469). -/
  state : BitVec 4 := 0
  /-- BOOT_REASON (R469). -/
  bootReason : BitVec 8 := 0
  /-- SVN of the running bundle (R469). -/
  svnRun : BitVec 8 := 0
  /-- Anti-rollback counter (R449, R469). -/
  svnFuse : BitVec 8 := 0
  /-- KEK_EPOCH (R449, R469). -/
  kekEpoch : BitVec 5 := 0
  /-- SLOT0_REVOKED (R449). -/
  slot0Revoked : Bool := false
  /-- ROOT_SLOT (R469). -/
  rootSlot : Bool := false
  /-- COPY (R469). -/
  copy : Bool := false
  /-- Copy B is preferred (R451). -/
  preferB : Bool := false
  /-- RSA_OK (R469). -/
  rsaOk : Bool := false
  /-- SLH_OK (R469). -/
  slhOk : Bool := false
  /-- Bulk pipelines out of service: 0-47 send, 48-95 receive (R466,, R469). -/
  bulkOut : List Nat := []
  /-- Iterated instances out of service, 0-3 (R466,, R469). -/
  iterOut : List Nat := []
  /-- Clocks of the mismatches of a pipeline within 1 s (R466). -/
  bulkMiss : AMap (List Nat) := []
  /-- MR0-MR7 (R456). -/
  mr : AMap (BitVec 384) := []
  /-- Bundle copies held in SPI NOR (0 A, 1 B) (R458). -/
  copyGood : AMap Bundle := []
  /-- Bundle last verified (running after release) (R450). -/
  bundle : Option Bundle := none
  /-- SVN a commit in progress heads for (R455). -/
  wantSvn : Option (BitVec 8) := none
  /-- Slot 0 revocation in progress (R455). -/
  wantRevoke : Bool := false
  /-- BOOT_OK signalled (R455). -/
  bootOk : Bool := false
  /-- Clock when the control processors were released (BOOT_OK within 10 s) (R455). -/
  releasedAt : Nat := 0
  /-- Boot copies tried in this attempt (R450, R451). -/
  attempt : Nat := 0
  /-- FW_UPDATE in progress: command, copy, ACTIVATE (R458). -/
  update : Option (Issue × Nat × Bool) := none
  /-- The 32 MiB update buffer's bundle (R458). -/
  updateBuf : Option Bundle := none
  /-- Reports being made or waiting, oldest first: ATTEST command (none: GET_REPORT), SPDM transport, nonce (R461). -/
  reports : List (Option Issue × Nat × BitVec 256) := []
  /-- Bytes 0x000-0x1FF of the report being signed, as signing began (R461). -/
  repBody : List (BitVec 8) := []
  /-- Identity sector unreadable (R459). -/
  idLost : Bool := false
  /-- SPDM state per transport (0 VDM, 1 I3C) (R460). -/
  spdm : AMap SpdmS := []
  /-- DHCP lease address (R451). -/
  netIp : Option (BitVec 32) := none
  /-- TFTP blocks received (R451). -/
  netBlock : Nat := 0
  /-- Bundle bytes received by TFTP (R451). -/
  netBytes : Nat := 0
  /-- TFTP transfer in progress (R451). -/
  netFile : Bool := false
  /-- The PF mailbox is served by the thimble (R452). -/
  booting : Bool := false
  /-- Module in its manufacturing state (R449). -/
  manufacturing : Bool := false
deriving DecidableEq, Repr

/-- A wake pattern (R475). -/
structure Wake where
  /-- Enabled (R481). -/
  en : Bool := false
  /-- LEN (R481). -/
  len : Nat := 0
  /-- MASK (R481). -/
  mask : BitVec 128 := 0
  /-- PATTERN (R481). -/
  pat : List (BitVec 8) := []
deriving DecidableEq, Repr

/-- Management port and tacking (21). -/
structure MgmtS where
  /-- MODE (R470, R482). -/
  mode : Bool := false
  /-- IPV4_ADDR (R481). -/
  ip : BitVec 32 := 0
  /-- IPV4_MASK (R481). -/
  mask : BitVec 32 := 0
  /-- IPV4_GW (R481). -/
  gw : BitVec 32 := 0
  /-- OOB_PORT (R479). -/
  oobPort : BitVec 16 := 47600
  /-- OOB_KEY_SLOT (R481). -/
  oobSlot : BitVec 16 := 0xFFFF
  /-- ORIGIN plane or spine index (R481). -/
  originPlane : Option Nat := none
  /-- ORIGIN row (R481). -/
  originRow : Nat := 0
  /-- ORIGIN plane written to SPI NOR (R481). -/
  nvPlane : Option Nat := none
  /-- ORIGIN row written to SPI NOR (R481). -/
  nvRow : Nat := 0
  /-- Wake patterns 0-7 (RWS) (R475). -/
  wakes : AMap Wake := []
  /-- Column word last decoded on TACK_IN (R476). -/
  lastWord : Option Nat := none
  /-- PRED_COL (R482). -/
  predCol : Option Nat := none
  /-- TACK_STATE (R482). -/
  tackState : BitVec 4 := 0
  /-- PAUSED (R482). -/
  paused : Bool := false
  /-- Pause quanta in force (R472). -/
  pauseQ : Nat := 0
  /-- EUI-48 (R482). -/
  eui : BitVec 48 := 0
  /-- Module serial number (R543). -/
  serial : BitVec 128 := 0
  /-- Frames waiting to be sent (R470). -/
  txq : List MgmtFrame := []
  /-- Frames sent (model's own observation, log 12) (R471). -/
  sent : List MgmtFrame := []
  /-- Collisions of the frame at the head (R471). -/
  attempts : Nat := 0
  /-- Back-off in progress (R471). -/
  backoff : Bool := false
  /-- OFFERs unanswered: EUI, column, times sent (R478). -/
  offers : List (BitVec 48 × Nat × Nat) := []
  /-- Columns given since cold reset (R478). -/
  given : List (Nat × BitVec 48) := []
  /-- Highest SEQ accepted (R480). -/
  oobHigh : Option Nat := none
  /-- SEQs accepted among the last 64 (R480). -/
  oobSeen : List Nat := []
  /-- Replies of the last 8 executed, with their results (R480). -/
  oobLast : List (Nat × Reply × List (BitVec 8)) := []
  /-- Source address and port of the requests accepted, by counter (R480). -/
  oobFrom : AMap (Nat × Nat) := []
  /-- Clocks of the OOB authentication failures within 1 s (R478). -/
  oobFails : List Nat := []
  /-- MGMT_CNT0-15 (R482). -/
  cnt : AMap (BitVec 64) := []
deriving DecidableEq, Repr

/-- An open recovery window (R519). -/
structure FWindow where
  /-- 1 block, 2 partition, 3 host domain, 4 warm (R519). -/
  rung : Nat := 1
  /-- Block kind*256+index, or partition (R519). -/
  dom : Nat := 0
  /-- SEQ of the recovery (R521). -/
  seq : BitVec 32 := 0
deriving DecidableEq, Repr

/-- A recovery in progress (R522). -/
structure FRec where
  /-- RUNG (R515). -/
  rung : Nat := 1
  /-- Domain (R519). -/
  dom : Nat := 0
  /-- Block kind (R518). -/
  kind : Nat := 0
  /-- Block index (R518). -/
  idx : Nat := 0
  /-- SEQ of its record (R521). -/
  seq : BitVec 32 := 0
deriving DecidableEq, Repr

/-- Faults, sticky log and ladder (23). -/
structure FaultS where
  /-- NEXT_SEQ (R515). -/
  nextSeq : BitVec 32 := 0
  /-- Sticky entries 0-63 (R514). -/
  fatal : List FaultRec := []
  /-- The 192 most recent other records, oldest first (R514). -/
  others : List FaultRec := []
  /-- OTHERS_NEXT (R515). -/
  othersNext : BitVec 8 := 64
  /-- Pending list, at most 32 (R522). -/
  pending : List FPend := []
  /-- Recovery in progress (R515). -/
  cur : Option FRec := none
  /-- Open windows (R519). -/
  windows : List FWindow := []
  /-- FAULT_HALT (R523). -/
  halt : BitVec 64 := 0
deriving DecidableEq, Repr

/-- Where a granule lies: tier, triple, frame (R69). -/
structure Frame3 where
  /-- Tier: false near, true far (R69). -/
  far : Bool := false
  /-- Triple index (R69). -/
  triple : Nat := 0
  /-- Frame 0-32,767 of the triple (R69). -/
  frame : Nat := 0
deriving DecidableEq, Repr

/-- One LPDDR6 channel (key tier*48+channel). -/
structure Chan where
  /-- 0 in a triple, 1 standby, 2 retired, 3 untrained (R68, R89). -/
  st : Nat := 0
  /-- CE1 count (R75, R89). -/
  ce1 : BitVec 64 := 0
  /-- CE2 count (R75, R89). -/
  ce2 : BitVec 64 := 0
  /-- UE count (R78, R89). -/
  ue : BitVec 64 := 0
  /-- Repaired rows (R81, R89). -/
  repaired : BitVec 64 := 0
  /-- Retired frames (R81, R89). -/
  retiredF : BitVec 64 := 0
  /-- Clock of the last record of a line (R78). -/
  lastUe : AMap Nat := []
deriving DecidableEq, Repr

/-- Error history of a DRAM row (key per R80). -/
structure DRow where
  /-- Clocks of corrected single-bit errors within 24 h (R80). -/
  ceAt : List Nat := []
  /-- Patrol passes within 72 h that found a corrected error, with the clock (R80). -/
  passes : AMap Nat := []
  /-- Repair needed (R80). -/
  need : Bool := false
deriving DecidableEq, Repr

/-- A granule move in progress (R87). -/
structure Mig where
  /-- Destination frame (R87). -/
  dst : Frame3 := {}
  /-- Granule it swaps with (R87). -/
  swap : Option Nat := none
  /-- 0 policy, 1 repair, 2 frame retirement, 3 evacuation, 4 pin (R81, R86, R89). -/
  why : Nat := 0
  /-- An uncorrectable word was met (R81). -/
  lost : Bool := false
deriving DecidableEq, Repr

/-- An evacuation of a dissolved triple (R82). -/
structure Evac where
  /-- Tier (R82). -/
  far : Bool := false
  /-- Triple dissolved (R82). -/
  triple : Nat := 0
  /-- Channel retired (R82). -/
  chan : Nat := 0
  /-- Granules still to place (R82). -/
  left : List Nat := []
  /-- Granules at the start (R82). -/
  total : Nat := 0
  /-- MEM_CHAN_RETIRE waiting for it (R82). -/
  issue : Option Issue := none
deriving DecidableEq, Repr

/-- A long memory command in progress (R89). -/
structure MemJob where
  /-- The command (R89). -/
  issue : Issue := {}
  /-- Granules left (R89). -/
  left : List Nat := []
  /-- Granules named (R89). -/
  total : Nat := 0
  /-- Tier wanted (MEM_PIN) (R89). -/
  far : Bool := false
  /-- 0 pin, 1 clear damaged (R89). -/
  kind : Nat := 0
deriving DecidableEq, Repr

/-- Memory tiers and data protection (04). -/
structure MemS where
  /-- MEMINIT_DONE (R91). -/
  init : Bool := false
  /-- Channels, key tier*48+channel (R68). -/
  chans : AMap Chan := []
  /-- TRIPLE, key tier*64+index (R68). -/
  triples : AMap (List Nat) := []
  /-- GMAP: granule to frame; keys 2^20 + i are the backing store's granules (R69). -/
  gmap : AMap Frame3 := []
  /-- Frames out of service (tier, triple, frame) (R81). -/
  retiredF : List (Nat × Nat × Nat) := []
  /-- Row error histories (R80). -/
  rows : AMap DRow := []
  /-- Spare rows used per bank (R80). -/
  spares : AMap Nat := []
  /-- Rows or frames waiting for a free frame: (0 repair or 1 retire, row key) (R81). -/
  waiting : List (Nat × Nat) := []
  /-- DAMAGED granules (R84). -/
  damaged : List Nat := []
  /-- Stored uncorrectable 64-bit words, by target-0 word number (R76). -/
  badWords : List Nat := []
  /-- Lines accessed this tier epoch per granule (R86). -/
  counts : AMap (BitVec 24) := []
  /-- Pinned granules: true far (R89). -/
  pins : AMap Bool := []
  /-- Partition for which a granule is pinned (R89, R91). -/
  pinOwner : AMap Nat := []
  /-- Bounds per partition in GiB (R89). -/
  bounds : AMap (Nat × Nat) := []
  /-- Active tiering block (R90). -/
  tierAct : BitVec 64 := 0x1000_19_10_000A_00_00
  /-- Basting tiering block (R90). -/
  tierBast : BitVec 64 := 0x1000_19_10_000A_00_00
  /-- SCRUB_HOURS (R79). -/
  scrubHours : BitVec 8 := 24
  /-- Patrol pass number (R79). -/
  scrubPass : Nat := 0
  /-- Clock when the present pass began (R79). -/
  scrubBegan : Nat := 0
  /-- SCRUB_OVERRUN posted for the present pass (R79). -/
  scrubLate : Bool := false
  /-- Next line per channel (R79). -/
  scrubPos : AMap Nat := []
  /-- Moves in progress, key granule (R87). -/
  migs : AMap Mig := []
  /-- Evacuations, oldest first; the first of each tier runs (R82). -/
  evacs : List Evac := []
  /-- MEM_PIN and MEM_CLEAR_DAMAGED in progress (R89). -/
  jobs : List MemJob := []
  /-- Clocks at which frames of a triple were retired within 24 h (R82). -/
  retires24 : AMap (List Nat) := []
deriving DecidableEq, Repr

/-- A 1 GiB memory unit (R437). -/
structure UnitS where
  /-- 0 FREE, 1 HELD, 2 ERASING, 3 ERASE_PENDING (R437). -/
  st : Nat := 0
  /-- Partition that holds it (R437). -/
  owner : Nat := 0
  /-- Held at a warm reset and not since (R70, R437). -/
  retained : Bool := false
  /-- Its granules have frames (R70). -/
  framed : Bool := false
deriving DecidableEq, Repr

/-- An MSI-X table entry (R394). -/
structure MsixE where
  /-- Message address (R394). -/
  addr : BitVec 64 := 0
  /-- Message data (R394). -/
  data : BitVec 32 := 0
  /-- Vector control (R394). -/
  ctl : BitVec 32 := 1
deriving DecidableEq, Repr

/-- A long command's record (R430). -/
structure LongC where
  /-- TAG (R430). -/
  tag : BitVec 16 := 0
  /-- OPCODE (R428). -/
  opcode : BitVec 16 := 0
  /-- PERMILLE (R430). -/
  permille : Nat := 0
  /-- POSITION (R430). -/
  position : Nat := 0
  /-- STATUS (R431). -/
  status : BitVec 8 := 21
  /-- DATA of the final reply (R431). -/
  data : BitVec 64 := 0
  /-- Final reply written (R430). -/
  done : Bool := false
  /-- Clock when it ended (R431). -/
  endedAt : Nat := 0
  /-- How it was sent (R430). -/
  path : Path := .admin
deriving DecidableEq, Repr

/-- A scheduled sync event (R375). -/
structure Event where
  /-- Armed (R375). -/
  armed : Bool := false
  /-- AT_NS, or the next instant of a periodic event (R375). -/
  atNs : Nat := 0
  /-- PERIOD_US (R375). -/
  period : Nat := 0
  /-- OP: true SET (R375). -/
  set : Bool := false
  /-- INDEX (R375). -/
  index : Nat := 0
  /-- VALUE (R375). -/
  value : BitVec 64 := 0
deriving DecidableEq, Repr

/-- A loaded program (R304, R306). -/
structure Prog where
  /-- KIND (R304). -/
  kind : Nat := 1
  /-- NEEDLES_MIN (R304). -/
  nmin : Nat := 1
  /-- TEXT_LEN (R304). -/
  textLen : Nat := 4
  /-- ENTRY (R304). -/
  entry : Nat := 0
  /-- BUDGET_US (R304). -/
  budget : Nat := 1
  /-- QCFG (R304). -/
  qcfg : List (BitVec 32) := []
  /-- Text address in instruction memory (R306). -/
  addr : Nat := 0
  /-- Runs started (R318). -/
  runs : Nat := 0
  /-- Faults (R318). -/
  faults : Nat := 0
  /-- PROG_UNLOAD in progress (R317). -/
  unloading : Option Issue := none
deriving DecidableEq, Repr

/-- A binding (R307), key TKIND*2^32 + target. -/
structure Bind where
  /-- The block of R307 (R307). -/
  blk : BitVec 256 := 0
  /-- Partition (R307). -/
  part : Nat := 0
  /-- FAULTED (R316). -/
  faulted : Bool := false
  /-- PROG_UNBIND in progress (R317). -/
  unbinding : Option Issue := none
  /-- Slots held, by cluster*64+slot: ((connection+1)*2^32+MSN)*2^18+chunk of a transform, 2^80+run of a handler or hook (R311, R312, R313). -/
  slots : AMap Nat := []
deriving DecidableEq, Repr

/-- A partition (19). -/
structure PartS where
  /-- State: 0 ABSENT 1 EMPTY 2 ACTIVE 3 HALTED 4 RESETTING 5 DESTROYING (R438). -/
  st : Nat := 0
  /-- Holds an allotment (R439). -/
  held : Bool := false
  /-- Partition 0's allotment was replaced (R440). -/
  replaced : Bool := false
  /-- Queues (R436). -/
  nq : Nat := 0
  /-- Pinned connections allotted (R436). -/
  npins : Nat := 0
  /-- Connection IDs allotted (R436). -/
  conns : Ranges := []
  /-- Window indices allotted (R436). -/
  wins : Ranges := []
  /-- Sync objects allotted, in local order (R436). -/
  syncs : Ranges := []
  /-- Shapers allotted, in local order (R436). -/
  shps : Ranges := []
  /-- Collective slots allotted, in local order (R436). -/
  colls : Ranges := []
  /-- Key slots allotted, in local order (R436). -/
  keys : Ranges := []
  /-- Contexts allotted (R436). -/
  ctxs : Ranges := []
  /-- Clusters held, ascending (R436). -/
  clusters : List Nat := []
  /-- Units held, ascending (R436). -/
  units : List Nat := []
  /-- REQUIRE_SIG (R305). -/
  requireSig : Bool := false
  /-- Loaded programs by index (R306). -/
  progs : AMap Prog := []
  /-- Generation per program index (R306). -/
  progGen : AMap Nat := []
  /-- PROG_LOADs checked that wait for clusters in CLEARING: command, program, text (R306). -/
  loadWait : List (Issue × Prog × List (BitVec 8)) := []
  /-- Records of long commands (R430). -/
  long : List LongC := []
  /-- 64 scheduled events (R375). -/
  events : AMap Event := []
  /-- SYNC_LOST (R356). -/
  syncLost : BitVec 32 := 0
  /-- SYNC_REFUSED (R357). -/
  syncRefused : BitVec 32 := 0
  /-- Active congestion block (R155). -/
  ccAct : BitVec 128 := 0x0000_01F4_0010_40_80_0040_0004_2000_0003
  /-- Basting congestion block (R155). -/
  ccBast : BitVec 128 := 0x0000_01F4_0010_40_80_0040_0004_2000_0003
  /-- Active scheduler weight (R167). -/
  wAct : Nat := 16
  /-- Basting scheduler weight (R167). -/
  wBast : Nat := 16
  /-- Indirect commands whose parameter read is outstanding: command, opcode, LENGTH, PARAM_VA (R426). -/
  paramWait : List (Issue × Nat × Nat × Nat) := []
  /-- TAGs of ADMIN commands that wait for their first reply (R418, R429). -/
  owed : List Nat := []
  /-- Step of R442 in progress, 1-10 (R442). -/
  resetStep : Nat := 0
  /-- PART_RESET commands or FLRs waiting for the end (R442). -/
  resetFrom : List (Option Issue) := []
  /-- PART_DESTROY in progress (R446). -/
  destroy : Option Issue := none
  /-- Units held at the teardown's start (R446). -/
  eraseTotal : Nat := 0
  /-- PART_CREATEs that wait for MEMINIT_DONE, an erase or BIST (R439). -/
  waitCreate : List (Issue × Nats) := []
deriving DecidableEq, Repr

/-- A mailbox (R360). -/
structure Mbox where
  /-- DATA0-DATA15 (R360). -/
  data : AMap (BitVec 32) := []
  /-- GO (R360). -/
  go : Bool := false
  /-- SENDER (R360). -/
  sender : BitVec 8 := 0xFF
deriving DecidableEq, Repr

/-- An admin configuration (R423). -/
structure AdminCfg where
  /-- ADMIN_SQ_BASE (R423). -/
  sq : BitVec 64 := 0
  /-- ADMIN_CQ_BASE (R423). -/
  cq : BitVec 64 := 0
  /-- ADMIN_IDX_BASE (R423). -/
  idx : BitVec 64 := 0
  /-- ADMIN_CFG (R423). -/
  cfg : BitVec 64 := 0
deriving DecidableEq, Repr

/-- One function's registers (15, 17, 18, 23, 26). -/
structure FuncS where
  /-- Non-secure mailbox (R360). -/
  mbox : Mbox := {}
  /-- DB_H2A (R364). -/
  dbH2A : BitVec 32 := 0
  /-- DB_A2H (R364). -/
  dbA2H : BitVec 32 := 0
  /-- DB_A2H_MASK (R364). -/
  dbA2HMask : BitVec 32 := 0xFFFFFFFF
  /-- DB_VEC (R364). -/
  dbVec : BitVec 11 := 0
  /-- MGR_H2A_MASK of this tenant (R365). -/
  h2aMask : BitVec 32 := 0xFFFFFFFF
  /-- LINK_EVENTS.RIDDEN (R401). -/
  ridden : Bool := false
  /-- LINK_EVENTS.RIDE_COUNT (R401). -/
  rideCount : BitVec 8 := 0
  /-- Basting admin configuration (R423). -/
  adminBast : AdminCfg := {}
  /-- Active admin configuration (R423). -/
  adminAct : AdminCfg := {}
  /-- ADMIN_STATE (R423). -/
  adminState : BitVec 4 := 0
  /-- DISABLE accepted: fetching stopped, OFF once every taken command has replied (R424). -/
  adminStop : Bool := false
  /-- HALT_Q (R423). -/
  haltQ : BitVec 16 := 0
  /-- HALT_SLOT (R423). -/
  haltSlot : BitVec 16 := 0
  /-- DB_REFUSED (R423). -/
  dbRefused : BitVec 16 := 0
  /-- QSTATUS.HALTED (R423). -/
  haltedBit : Bool := false
  /-- FQ_OVERFLOW (R513). -/
  fqOverflow : Bool := false
  /-- FQ_LOST0-15 (R513). -/
  fqLost : AMap (BitVec 32) := []
  /-- Pending summary LOST fields (R512). -/
  sumLost : AMap (BitVec 16) := []
  /-- FIRST_SEQ of the pending summary (R512). -/
  sumFirst : BitVec 32 := 0
  /-- LAST_SEQ of the pending summary (R512). -/
  sumLast : BitVec 32 := 0
  /-- SUMMARY_PENDING (R513). -/
  sumPending : Bool := false
  /-- Bus Master Enable (R395). -/
  busMaster : Bool := false
  /-- MSI-X Enable (R394). -/
  msixEn : Bool := false
  /-- Function mask (R394). -/
  msixMask : Bool := false
  /-- MSI-X table (R394). -/
  msix : AMap MsixE := []
  /-- Pending bits set (R394). -/
  msixPend : List Nat := []
deriving DecidableEq, Repr

/-- A queue (18), key partition*65536+number. -/
structure QueueS where
  /-- KIND (R404). -/
  kind : Nat := 0
  /-- The block of R419 (R419). -/
  blk : BitVec 256 := 0
  /-- PI (the doorbell's on host rings; the adapter's on adapter rings) (R406). -/
  pi : BitVec 32 := 0
  /-- CI (the adapter's on host rings; the host's on adapter rings) (R406). -/
  ci : BitVec 32 := 0
  /-- PI last read from the index record (R409). -/
  recPi : BitVec 32 := 0
  /-- CI last written to the index record (R407). -/
  ciRep : BitVec 32 := 0
  /-- An index record read is outstanding (R409). -/
  reading : Bool := false
  /-- A doorbell arrived during a read (R409). -/
  again : Bool := false
  /-- Times a lagging record was read again (R409). -/
  rereads : Nat := 0
  /-- ARM (R408). -/
  armed : Bool := false
  /-- Entries waiting for room in the ring (R410). -/
  held : List (BitVec 512) := []
  /-- CQ_FULL posted for this episode (R410). -/
  fullEpisode : Bool := false
  /-- Descriptors fetched and not completed (model ids, oldest first) (R420). -/
  work : List Nat := []
  /-- Completions waiting for their turn, by model id: entry, last host address to flush plus 1, lines awaiting GO, sync object (R418). -/
  done : AMap (BitVec 256 × Nat × List (BitVec 64) × Option Nat) := []
deriving DecidableEq, Repr

/-- A host request issued (17). -/
structure HReq where
  /-- 0 posted write, 1 read, 2 flushing read, 3 MSI-X, 4 ItoMWr, 5 RdOwn, 6 RdShared, 7 DirtyEvict, 8 CleanEvict (R387). -/
  kind : Nat := 0
  /-- Requester function (R384). -/
  func : Nat := 0
  /-- Address (R387). -/
  addr : BitVec 64 := 0
  /-- Bytes written (R387). -/
  data : List (BitVec 8) := []
deriving DecidableEq, Repr

/-- What a host read is for. -/
inductive HUse where
  /-- A piece of a transfer (R57). -/
  | xfer (id off len : Nat)
  /-- A READ request served from host space (R109). -/
  | serve (conn : Nat) (pkt : Pkt)
  /-- A FETCH_ADD or CMP_SWAP on a host-space window (R101). -/
  | atomic (conn : Nat) (pkt : Pkt)
deriving DecidableEq, Repr

/-- A host read outstanding (R392). -/
structure HRead where
  /-- What it is for (R392). -/
  use : HUse := .xfer 0 0 0
  /-- Requester function (R384). -/
  func : Nat := 0
  /-- Address (R387). -/
  addr : BitVec 64 := 0
  /-- Bytes (R387). -/
  len : Nat := 0
  /-- By CXL.cache (R387). -/
  coh : Bool := false
deriving DecidableEq, Repr

/-- A line of the device coherency cache (R388). -/
structure CLine where
  /-- 0 Invalid (asked for), 1 Shared, 2 Exclusive, 3 Modified (R388). -/
  st : Nat := 0
  /-- 64 bytes (R388). -/
  data : List (BitVec 8) := []
  /-- Bytes to merge once the line arrives, by offset (R387). -/
  merge : AMap (BitVec 8) := []
  /-- Last use, for least-recent-use eviction (R388). -/
  used : Nat := 0
  /-- Function it serves (R388). -/
  func : Nat := 0
deriving DecidableEq, Repr

/-- A report waiting for its data (R390). -/
structure HWait where
  /-- Line of the flushing read awaited (R391). -/
  addr : Nat := 0
  /-- Function (R390). -/
  func : Nat := 0
  /-- Queue key of the report (R390). -/
  q : Nat := 0
  /-- The entry to write, or the entry whose PI is to be written (R390). -/
  entry : BitVec 512 := 0
  /-- 0 waits for the data's flushing read, 1 for the entry's own, 2 for GO of the lines, 3 for its turn (R390). -/
  stage : Nat := 0
  /-- The PI to write once the entry's flushing read is back (R390). -/
  pi : BitVec 32 := 0
  /-- Sync object raised once the entry is written (R414, R339). -/
  sig : Option Nat := none
  /-- Message (connection, MSN) delivered when the wait ends, in place of an entry (R117). -/
  msg : Option (Nat × BitVec 32) := none
  /-- Lines whose GO is awaited (R390). -/
  lines : List (BitVec 64) := []
deriving DecidableEq, Repr

/-- The host link (17). -/
structure HostS where
  /-- Data link up (R396). -/
  up : Bool := false
  /-- LAST_RIDE_US (R400). -/
  lastRide : BitVec 16 := 0
  /-- RIDES (R400). -/
  rides : BitVec 8 := 0
  /-- CACHE_EN (R400). -/
  cacheEn : Bool := false
  /-- FLIT (R400). -/
  flit : Bool := true
  /-- WIDTH (R400). -/
  width : BitVec 5 := 16
  /-- SPEED (R400). -/
  speed : BitVec 4 := 7
  /-- HOST_CNT0-15 (R402). -/
  cnt : AMap (BitVec 64) := []
  /-- Ride-through in progress (R397). -/
  riding : Bool := false
  /-- Ns since the data link went down (R397). -/
  rideNs : Nat := 0
  /-- Host write hold buffer, oldest first (R397). -/
  hold : List HReq := []
  /-- Reads kept for reissue (R397). -/
  reissue : List HReq := []
  /-- Host reads outstanding (R392). -/
  reads : List HRead := []
  /-- Requests waiting for Bus Master Enable, oldest first (R395). -/
  bmeWait : List HReq := []
  /-- Packets answered HOST_GONE until PF Bus Master Enable is next set (R398). -/
  gone : Bool := false
  /-- Requests issued, oldest first (model's own observation, log 12) (R390). -/
  issued : List HReq := []
  /-- Reports waiting for a flushing read or GO (R390). -/
  waits : List HWait := []
  /-- Device coherency cache by line address (R388). -/
  cache : AMap CLine := []
  /-- VF Enable (R384). -/
  vfEnable : Bool := false
  /-- Every host request stopped (partition 0's ADMIN HALTED, R520) (R422). -/
  stopped : Bool := false
  /-- RRS answered (R489). -/
  rrs : Bool := true
  /-- LTSSM Loopback as slave (R530). -/
  loopback : Bool := false
deriving DecidableEq, Repr

/-- A segment drain in progress (R58, R59). -/
structure Drain where
  /-- The command waiting for its reply (R58). -/
  issue : Issue := {}
  /-- Segments draining (R55). -/
  segs : List Nat := []
  /-- The command is SEG_STITCH, not SEG_UNMAP (R58). -/
  isStitch : Bool := false
deriving DecidableEq, Repr

/-- A translation context (R45). -/
structure CtxS where
  /-- Header, basting copy (R52). -/
  hdrBast : BitVec 128 := 0
  /-- Header, active copy (R52). -/
  hdrAct : BitVec 128 := 0
  /-- Segments, basting copy (R49, R60). -/
  bast : AMap (BitVec 256) := []
  /-- Segments, active copy (R49, R60). -/
  act : AMap (BitVec 256) := []
  /-- Epochs (R55, R60). -/
  epoch : AMap (BitVec 16) := []
  /-- HOT_NOSLOT (R63). -/
  hotNoSlot : BitVec 32 := 0
  /-- HOT_LOST (R64). -/
  hotLost : BitVec 32 := 0
  /-- Drain in progress (R58). -/
  drain : Option Drain := none
  /-- Commands waiting their turn: opcode, command, SEG (or SEG and COPY), entry or header (R56). -/
  waiting : List (Nat × Issue × Nat × BitVec 256) := []
  /-- Segments not counted until the next interval (R65). -/
  hotSkip : List Nat := []
deriving DecidableEq, Repr

/-- A transfer held by an engine (R57, R247). -/
structure Xfer where
  /-- What it works for (R57). -/
  who : XWho := .copyQ 0 0
  /-- Copy engine 0-127; 128 + n transport engine n (R247). -/
  eng : Nat := 0
  /-- Partition (R46). -/
  part : Nat := 0
  /-- Translation context (R46). -/
  ctx : Nat := 0
  /-- Source end (R57). -/
  src : XEnd := .pkt
  /-- Destination end (R57). -/
  dst : XEnd := .pkt
  /-- Bytes of the row or transfer (R414). -/
  len : Nat := 0
  /-- Bytes issued (R57). -/
  done : Nat := 0
  /-- Pieces issued and not yet accepted by their door (R58). -/
  unacc : Nat := 0
  /-- Pieces issued and not yet finished (R57). -/
  flying : Nat := 0
  /-- Host address last written, for the flushing read (R390). -/
  lastHost : Option Nat := none
  /-- Coherent lines whose GO the report awaits (R390). -/
  lines : List (BitVec 64) := []
  /-- Status so far (R433). -/
  status : BitVec 8 := 0
  /-- Offset of the first failing line (R77). -/
  fail : Option Nat := none
  /-- No later piece is issued (R57). -/
  stopped : Bool := false
  /-- Waits for a segment-cache miss (R61). -/
  missing : Bool := false
  /-- Bytes of the rows already issued (R294). -/
  before : Nat := 0
  /-- Rows still to issue, as translated when the transfer began (R294). -/
  more : List (XEnd × XEnd) := []
  /-- Ended, waiting its turn to be reported (R418). -/
  ended : Bool := false
  /-- Sync object to raise (R294, R414). -/
  sync : Option Nat := none
  /-- SY index for CPYST (R294). -/
  syIdx : Nat := 0
  /-- WR_ID (R414). -/
  wrId : BitVec 64 := 0
  /-- NO_CQE (R414). -/
  noCqe : Bool := false
  /-- FENCE (R414). -/
  fence : Bool := false
  /-- Model id of the descriptor (R418). -/
  work : Nat := 0
  /-- Run that issued it (CPY) (R315). -/
  run : Option Nat := none
  /-- Its VAs are still to be translated (FENCE) (R57). -/
  xlate : Bool := false
  /-- Segment connection its remote pieces travel on (R107). -/
  conn : Option Nat := none
deriving DecidableEq, Repr

/-- A message being sent (R130). -/
structure TxMsg where
  /-- MSN (R130). -/
  msn : BitVec 32 := 0
  /-- OP (R101). -/
  op : BitVec 8 := 0
  /-- The descriptor (R100). -/
  d : Desc := 0
  /-- Send queue key (R93). -/
  q : Nat := 0
  /-- Model id of the descriptor (R418). -/
  work : Nat := 0
  /-- First PSN, once begun (R130). -/
  psn : BitVec 32 := 0
  /-- Packets of the message, or response PSNs of a READ (R129). -/
  n : Nat := 1
  /-- Its first packet has been formed (R130). -/
  began : Bool := false
  /-- Packets formed, or response PSNs taken (R129). -/
  cut : Nat := 0
  /-- Wire length (R129, R311). -/
  len : Nat := 0
  /-- Source bytes read and not yet formed into packets, by offset (R101). -/
  buf : AMap Bytes := []
  /-- Recorded FPA of LOCAL_VA (R47). -/
  lfpa : Nat := 0
  /-- Local segment (R57). -/
  seg : Nat := 0
  /-- Recorded epoch (R57). -/
  epoch : BitVec 16 := 0
  /-- Status so far (R113). -/
  status : BitVec 8 := 0
  /-- Settled by a NAK (R141). -/
  settled : Bool := false
  /-- PLACED_BYTES, or READ bytes placed (R141). -/
  placed : Nat := 0
  /-- Host address of the last byte a READ or atomic placed (R118). -/
  last : Nat := 0
  /-- Complete, waiting its turn to be reported (R134). -/
  fin : Bool := false
  /-- NO_RECV resends (R140). -/
  tries : Nat := 0
  /-- Transform chunks of the message (R311). -/
  chunks : Nat := 0
  /-- Transform chunks that have been given a slot (R311). -/
  given : Nat := 0
  /-- Transform chunks not yet joined to the wire bytes (R311). -/
  wait : Nat := 0
  /-- Output length of each finished chunk (R311). -/
  outLen : AMap Nat := []
  /-- Not to be sent (a faulted transform) (R316). -/
  held : Bool := false
  /-- Transfer and offset whose piece or signal it carries (R107). -/
  piece : Option (Nat × Nat) := none
deriving DecidableEq, Repr

/-- A PSN outstanding (R130). -/
structure TxPsn where
  /-- PSN (R130). -/
  psn : BitVec 32 := 0
  /-- MSN (R130). -/
  msn : BitVec 32 := 0
  /-- Packet index in the message (R129). -/
  idx : Nat := 0
  /-- Bytes charged to the congestion window, still counted (R151). -/
  size : Nat := 0
  /-- Transmitted at least once (R130). -/
  sent : Bool := false
  /-- Recorded received by the peer (R131). -/
  acked : Bool := false
  /-- Retransmissions (R137). -/
  tries : Nat := 0
  /-- Ns of the last transmission (R138). -/
  lastNs : Nat := 0
  /-- Index of its ENTROPY value (R135). -/
  ent : Nat := 0
  /-- SKIP is sent in its place, with this status (R141). -/
  skip : Option (BitVec 8) := none
  /-- Ns of the first CBUSY refusal in a row (R142). -/
  busySince : Option Nat := none
  /-- Refused and to be resent: 1 after the CBUSY hold, 2 after the NO_RECV hint (R140). -/
  refused : Nat := 0
  /-- Waits to be sent (R150). -/
  queued : Bool := false
  /-- Stands for a READ response (R130). -/
  resp : Bool := false
  /-- The packet as formed (R123). -/
  pkt : Pkt := {}
deriving DecidableEq, Repr

/-- A packet waiting in an output queue (R166). -/
structure QPkt where
  /-- The packet (R123). -/
  pkt : Pkt := {}
  /-- Input port 0-31, or 32 for this adapter (R166). -/
  src : Nat := 32
  /-- Partition (own packets) (R167). -/
  part : Nat := 0
  /-- Connection (own packets) (R167). -/
  conn : Option Nat := none
  /-- PSN it carries (own request and data packets) (R130). -/
  psn : Option (BitVec 32) := none
  /-- ACK, NAK, ERROR_NOTICE or NOTICE_ACK (R167). -/
  ctl : Bool := false
  /-- Chosen through a detour port (R204). -/
  detour : Bool := false
  /-- Its leaving frees the slots of its input port (those of a relayed multicast copy were freed as it was copied) (R184, R212). -/
  slot : Bool := true
  /-- Ns when it entered the queue (R169). -/
  atNs : Nat := 0
deriving DecidableEq, Repr

/-- A receive buffer posted (R104). -/
structure RBuf where
  /-- VA (R104). -/
  va : BitVec 64 := 0
  /-- LENGTH (R104). -/
  len : Nat := 0
  /-- WR_ID (R104). -/
  wrId : BitVec 64 := 0
  /-- Model id of the descriptor (R418). -/
  work : Nat := 0
  /-- Receive queue key (R104). -/
  q : Nat := 0
deriving DecidableEq, Repr

/-- A message being received (R136). -/
structure RxMsg where
  /-- MSN (R131). -/
  msn : BitVec 32 := 0
  /-- OPCODE (R128). -/
  op : BitVec 8 := 0
  /-- Packets placed (R136). -/
  count : Nat := 0
  /-- Bytes placed (R136). -/
  bytes : Nat := 0
  /-- PKT_COUNT (R136). -/
  expect : Option Nat := none
  /-- Status that settled it (R141). -/
  settled : Option (BitVec 8) := none
  /-- Code of its NAK (R140). -/
  nakCode : BitVec 8 := 0
  /-- Receive buffer assigned (R105). -/
  buf : Option RBuf := none
  /-- Longer than its buffer (R105). -/
  small : Bool := false
  /-- Sync object (adapter-wide) and value (R101). -/
  sig : Option (Nat × BitVec 64) := none
  /-- IMM (R112). -/
  imm : BitVec 32 := 0
  /-- Handler runs not yet at EXIT (R313). -/
  runs : Nat := 0
  /-- Waits for its flushing read (R117). -/
  flushing : Bool := false
  /-- READ or atomic served (R136). -/
  served : Bool := false
  /-- READ_REQs and atomics waiting for earlier messages, with the errors their read will meet (R136). -/
  reqs : List (Pkt × WordErrs) := []
  /-- Packets of an ORDERED message held in miss staging (R120). -/
  waitP : List Pkt := []
  /-- A SEND that takes a receive buffer (R105). -/
  needBuf : Bool := false
  /-- Packets whose handler run has not started (R313). -/
  hq : List Pkt := []
  /-- Status of its receive buffer (R104). -/
  bufSt : Nat := 0
  /-- Host address of the last byte placed in its receive buffer (R118). -/
  hostAt : Option Nat := none
  /-- Coherent lines of its receive buffer whose GO is not back (R118). -/
  hostLines : List (BitVec 64) := []
  /-- Times it was refused for want of a receive buffer (R140). -/
  noRecv : Nat := 0
  /-- Requests being read from host memory (R136). -/
  serving : Nat := 0
  /-- PSN of the packet last taken, which a later NAK of the message names (R140). -/
  psn : BitVec 32 := 0
deriving DecidableEq, Repr

/-- A connection (05, 06, 07). -/
structure ConnS where
  /-- Partition (R93). -/
  part : Nat := 0
  /-- TYPE is UD (R92). -/
  ud : Bool := false
  /-- State: 0 FREE 1 INIT 2 READY 3 ERROR (R94). -/
  st : Nat := 0
  /-- CONN_CREATE block (R96). -/
  blk : BitVec 256 := 0
  /-- PEER_ID (R95). -/
  peerId : BitVec 16 := 0
  /-- PEER_CONN (R95). -/
  peerConn : BitVec 24 := 0
  /-- PEER_GEN (R95). -/
  peerGen : BitVec 8 := 0
  /-- A segment connection (R107). -/
  seg : Bool := false
  /-- Pinned in the bobbin (R98). -/
  pinned : Bool := false
  /-- Resident in the bobbin (R97). -/
  resident : Bool := true
  /-- Last use, for least-recent-use eviction (R97). -/
  lru : Nat := 0
  /-- A refill is in progress (R98). -/
  refill : Bool := false
  /-- Packets in miss staging, with the tape at their arrival (R142). -/
  staged : List (Pkt × WordErrs × BitVec 32) := []
  /-- Host address last written through a window and not yet flushed (R117). -/
  dirtyAt : Option Nat := none
  /-- Coherent lines written through a window whose GO is not back (R117). -/
  dirtyLines : List (BitVec 64) := []
  /-- Descriptors waiting for the refill: queue key, id, descriptor, OP (R98). -/
  waitD : List (Nat × Nat × Desc × BitVec 8) := []
  /-- Bobbin misses (R95). -/
  misses : BitVec 64 := 0
  /-- Next send PSN (R130). -/
  psn : BitVec 32 := 0
  /-- Next send MSN (R130). -/
  msn : BitVec 32 := 0
  /-- Messages in flight, oldest first (R130). -/
  tx : List TxMsg := []
  /-- PSNs outstanding, ascending (R130). -/
  outs : List TxPsn := []
  /-- MSN of the newest ACK (R133). -/
  ackMsn : BitVec 32 := 0
  /-- Last 64 ACK_SEQ accepted (R133). -/
  ackSeen : List (BitVec 32) := []
  /-- Cumulative point C (R131). -/
  c : BitVec 32 := 0
  /-- PSNs received at or after C (R131). -/
  seen : List (BitVec 32) := []
  /-- Holds a reorder tracker (R131). -/
  tracker : Bool := false
  /-- Open messages, by MSN (R131). -/
  rx : List RxMsg := []
  /-- Oldest MSN neither delivered nor settled (R133). -/
  rxMsn : BitVec 32 := 0
  /-- Results of the last 4 atomics by PSN (R132). -/
  atoms : List (BitVec 32 × BitVec 64) := []
  /-- Next ACK_SEQ (R133). -/
  ackSeq : BitVec 32 := 0
  /-- Next RESP_SEQ (R133). -/
  respSeq : BitVec 32 := 0
  /-- Packets arrived since the last ACK (R133). -/
  since : Nat := 0
  /-- Marked packets since the last ACK (R127). -/
  marks : BitVec 16 := 0
  /-- An arrival no ACK has covered (R133). -/
  uncovered : Bool := false
  /-- TX_TAPE of the most recent arrival (R133). -/
  echo : BitVec 32 := 0
  /-- Tape when that arrival reached the receiver (R133). -/
  rxTape : BitVec 32 := 0
  /-- SRTT in ns (R137). -/
  srtt : Option Nat := none
  /-- RTTVAR in ns (R137). -/
  rttvar : Nat := 0
  /-- Rotation over the 16 ENTROPY values (R135). -/
  rot : Nat := 0
  /-- ENTROPY indexes skipped, with packets left (R135). -/
  skipEnt : List (Nat × Nat) := []
  /-- CBUSY hold: ns at which it ends (R142). -/
  holdTo : Option Nat := none
  /-- PSN held by a NO_RECV hint (R140). -/
  recvHold : Option (BitVec 32) := none
  /-- Error notices sent (R121). -/
  notices : Nat := 0
  /-- Peer acknowledged the notice (R121). -/
  noticeAcked : Bool := false
  /-- Status that put it in ERROR (R121). -/
  errStatus : BitVec 8 := 0
  /-- Own packets waiting for their gates, oldest first (R150). -/
  ready : List QPkt := []
  /-- Packets of the connection assigned to a port and subject to the round robin (R150). -/
  slotted : Nat := 0
  /-- Its head packet is held by the injection window (R171). -/
  e2eHeld : Bool := false
  /-- Highest counter accepted per nonce KIND, with its wraps (R146). -/
  rxHigh : AMap Nat := []
  /-- Outstanding bytes (R151). -/
  outB : Nat := 0
  /-- CWND in bytes (R151). -/
  cwnd : Nat := 0
  /-- FAST (R152). -/
  fast : Bool := true
  /-- LAST_DEC in ns (R152). -/
  lastDec : Option Nat := none
  /-- Minimum OWD of this 50 ms period (R152). -/
  baseCur : Option Nat := none
  /-- Minimum OWD of the previous period (R152). -/
  basePrev : Option Nat := none
  /-- 50 ms tape period of baseCur (R152). -/
  period : Nat := 0
  /-- Override MODE (R156). -/
  ovMode : Nat := 0
  /-- LO (R156). -/
  ovLo : Nat := 0
  /-- HI (R156). -/
  ovHi : Nat := 0
  /-- FIXED (R156). -/
  ovFix : Nat := 0
  /-- Traffic key and SALT read at CONN_CONNECT (R467). -/
  key : Option (BitVec 256 × BitVec 32) := none
  /-- WRAP of each KIND's counter (R146, R468). -/
  wraps : AMap Nat := []
  /-- KEY_AGING posted (R468). -/
  aged : Bool := false
  /-- KEY_EXHAUSTED posted (R468). -/
  exhausted : Bool := false
  /-- Clocks of AUTH_FAILs within 1 ms (R147). -/
  authFails : List Nat := []
  /-- No traffic for the present period (segment connections) (R107). -/
  idle : Bool := false
deriving DecidableEq, Repr

/-- A window (R108). -/
structure WinS where
  /-- Open (R108). -/
  st : Bool := false
  /-- The entry of R108 (R108). -/
  entry : BitVec 256 := 0
  /-- Generation (R110). -/
  gen : BitVec 12 := 1
  /-- WIN_REVOKE waiting for its reply (R111). -/
  revoke : Option Issue := none
deriving DecidableEq, Repr

/-- A shaper (R163). -/
structure ShpS where
  /-- Active entry (R163, R164). -/
  act : BitVec 256 := 0
  /-- Basting entry (R163). -/
  bast : BitVec 256 := 0
  /-- TC in 1/8,000 B (R162). -/
  tc : Nat := 0
  /-- TP in 1/8,000 B (R162). -/
  tp : Nat := 0
  /-- Ns at which the buckets were last filled (R162). -/
  atNs : Nat := 0
  /-- Green bytes (R168). -/
  green : BitVec 64 := 0
  /-- Yellow bytes (R168). -/
  yellow : BitVec 64 := 0
deriving DecidableEq, Repr

/-- Injection window towards a destination (R157). -/
structure E2E where
  /-- SENT (R157). -/
  sent : Nat := 0
  /-- ACCEPTED over the baseline (R157). -/
  acc : Nat := 0
  /-- LOST (R157). -/
  lost : Nat := 0
  /-- Last cumulative figure returned (R158). -/
  raw : BitVec 48 := 0
  /-- INCARNATION recorded (R158). -/
  inc : Option (BitVec 16) := none
deriving DecidableEq, Repr

/-- Bytes accepted from a source (R158). -/
structure E2ER where
  /-- Running total (R158). -/
  total : BitVec 48 := 0
  /-- Bytes not yet returned (R158). -/
  unret : Nat := 0
deriving DecidableEq, Repr

/-- A queue's histograms (R169, R170). -/
structure Hist where
  /-- 16 depth bins (R169). -/
  depth : AMap (BitVec 32) := []
  /-- 16 delay bins (R169). -/
  delay : AMap (BitVec 32) := []
  /-- SAMPLES (R170). -/
  samples : BitVec 64 := 0
  /-- MAX_DEPTH (R170). -/
  maxDepth : Nat := 0
  /-- MAX_DELAY (R170). -/
  maxDelay : Nat := 0
deriving DecidableEq, Repr

/-- A booking (R377). -/
structure Book where
  /-- CYCLE (R377). -/
  cycle : Nat := 0
  /-- Bitmap (R377). -/
  bits : Nat := 0
deriving DecidableEq, Repr

/-- A fabric port (08, 09, 10). -/
structure PortS where
  /-- OBS_ID (R40). -/
  obsId : BitVec 16 := 0
  /-- OBS_PORT (R40). -/
  obsPort : BitVec 8 := 0
  /-- VALID the peer sent last (R41). -/
  obsValid : Bool := false
  /-- REASON (R40, R42). -/
  reason : BitVec 4 := 0
  /-- CHECK (R40, R41). -/
  check : BitVec 4 := 0
  /-- LINK_STATn.STATE (R191, R192). -/
  state : BitVec 4 := 0
  /-- LOOP_NS (R191). -/
  loopNs : BitVec 16 := 0
  /-- STOP_RX (R191). -/
  stopRx : BitVec 4 := 0
  /-- STOP_TX (R191). -/
  stopTx : BitVec 4 := 0
  /-- FC_MODE (R191, R189). -/
  onoff : Option Bool := none
  /-- LINK_SET asked for on/off (R194). -/
  wantOnOff : Bool := false
  /-- Counters 0-15 (R193). -/
  cnt : AMap (BitVec 64) := []
  /-- FSEQ of the next new DATA flit (R174, R180). -/
  txSeq : BitVec 16 := 0
  /-- FSEQs in the replay buffer, oldest first (R180). -/
  replay : List (BitVec 16) := []
  /-- Replay in progress: next FSEQ to resend (R180). -/
  replayFrom : Option (BitVec 16) := none
  /-- FSEQ the replay in progress was asked from (R180). -/
  replayQ : BitVec 16 := 0
  /-- FSEQ expected (R180). -/
  rxSeq : BitVec 16 := 0
  /-- RETRY_REQ outstanding, DATA flits discarded (R180). -/
  discarding : Bool := false
  /-- DATA flits accepted since the last FACK (R178). -/
  unacked : Nat := 0
  /-- RETRY_REQs in a row naming one FSEQ (R181). -/
  retrySame : Nat := 0
  /-- That FSEQ (R181). -/
  retryLast : BitVec 16 := 0
  /-- Clocks of bad flits within 1 ms (R181). -/
  badMs : List Nat := []
  /-- FSEQs in the replay buffer with which a packet ends (R44, R180). -/
  replayEnd : List (BitVec 16) := []
  /-- Flits accepted per VC of a packet not yet received whole (R182, R183). -/
  prog : AMap Nat := []
  /-- Credits held per VC (absent: the full count) (R186). -/
  credits : AMap Nat := []
  /-- Last cumulative value received per VC (R178). -/
  creditRx : AMap (BitVec 14) := []
  /-- Slots freed since the link came up per VC (R178). -/
  freed : AMap (BitVec 14) := []
  /-- Slots freed per VC since the last CREDIT (R178). -/
  freedNew : AMap Nat := []
  /-- Input slots held per VC (R184). -/
  slots : AMap Nat := []
  /-- VCs skipping to the next START (R182). -/
  skipTo : List Nat := []
  /-- Control words waiting to be sent, oldest first (R178). -/
  words : List (BitVec 64) := []
  /-- MODE_ACK(1) sent (R188). -/
  sentMode : Bool := false
  /-- This end asked for the change (R188). -/
  reqMode : Bool := false
  /-- Cookie of the last LOOP_PING sent (R185). -/
  cookie : BitVec 32 := 0
  /-- LOOP_PINGs unanswered with their departure (R185). -/
  pings : List (BitVec 32 × Nat) := []
  /-- LOOP_ECHOs received in this measurement (R185). -/
  echoes : Nat := 0
  /-- TX_MASK (R234). -/
  txMask : BitVec 16 := 0
  /-- RX_MASK (R234). -/
  rxMask : BitVec 16 := 0
  /-- RX_OK (R234). -/
  rxOk : BitVec 16 := 0
  /-- RX_OK the peer reports (R227). -/
  peerRxOk : BitVec 16 := 0
  /-- LANE_SWAPS (R234). -/
  swaps : BitVec 8 := 0
  /-- NARROWINGS (R234). -/
  narrow : BitVec 8 := 0
  /-- Training step in progress, 0 none (R227). -/
  step : Nat := 0
  /-- Training is cold (not a retrain) (R227). -/
  cold : Bool := true
  /-- Successive identity words, newest first, at most 3 (R227). -/
  idSeen : List (BitVec 16 × Bool × BitVec 8) := []
  /-- Lane number received on each lane (R221). -/
  laneIn : AMap Nat := []
  /-- Light above LOS on at least 4 lanes (R227). -/
  light : Bool := false
  /-- Ns of the last TRAIN_FAIL record (R227). -/
  trainFailAt : Option Nat := none
  /-- Ns of the last widening retrain (R230). -/
  widenAt : Option Nat := none
  /-- LEVEL of the latest push (R213). -/
  pushLvl : Option (BitVec 256) := none
  /-- LEVELs in use for costs since the last tape epoch boundary (R203, R204). -/
  ahead : BitVec 256 := 0
  /-- PORT_UP of the latest push (R213). -/
  pushUp : BitVec 32 := 0
  /-- Epochs since the latest push (R213). -/
  pushAge : Nat := 0
  /-- Active booking (R377). -/
  bookAct : Book := {}
  /-- Basting booking (R377). -/
  bookBast : Book := {}
  /-- BOOK_STITCH pending: AT_NS and command (R377). -/
  bookAt : Option (Nat × Issue) := none
  /-- Bookings suspended (R378). -/
  bookSusp : Bool := false
  /-- Inside a booked slot (R377). -/
  vc0Open : Bool := false
  /-- LINK_SET waiting for a state (R194). -/
  linkCmd : Option (Issue × BitVec 4) := none
  /-- After a retrain, the replay waits for the first FACK (R181). -/
  waitFack : Bool := false
  /-- Control words sent, oldest first (model's own observation, log 12) (R178, R179). -/
  ctlOut : List (BitVec 64) := []
  /-- Held off by an engine RETIRED (R518). -/
  shut : Bool := false
  /-- Out of service for an ELS release or power transition (R231). -/
  els : Bool := false
  /-- VC3 packets of the last 10 us: clock and bytes (R165). -/
  vc3 : List (Nat × Nat) := []
  /-- Largest depth per VC in this epoch (R214). -/
  snapB : AMap Nat := []
  /-- Packet bytes sent this epoch (R214). -/
  epochTx : Nat := 0
  /-- Packet bytes received this epoch (R214). -/
  epochRx : Nat := 0
  /-- Packets marked this epoch (R214). -/
  epochMark : Nat := 0
  /-- FC_WAIT flit times this epoch (R214). -/
  epochWait : Nat := 0
deriving DecidableEq, Repr

/-- A routing bank (R200, R201). -/
structure BankS where
  /-- State (R201). -/
  st : BitVec 4 := 0
  /-- 64 entries: PLANE 0-31, COL 32-47, ROW 48-63 (R200). -/
  ents : AMap (BitVec 64) := []
deriving DecidableEq, Repr

/-- Routing (09). -/
structure RouteS where
  /-- Bank A (R201). -/
  a : BankS := {}
  /-- Bank B (R201). -/
  b : BankS := {}
  /-- INJ_EPOCH (R207). -/
  inj : Bool := false
  /-- Clock when INJ_EPOCH last changed (R207). -/
  flipAt : Option Nat := none
  /-- SEED (R205). -/
  seed : BitVec 16 := 0
  /-- SLACK (R205). -/
  slack : BitVec 8 := 32
  /-- RT_CNT0-15 (R218). -/
  cnt : AMap (BitVec 64) := []
  /-- Group entries (R211). -/
  mcast : AMap (BitVec 64) := []
  /-- Output depth snapshot in KiB, key port*4+VC (R203). -/
  depth : AMap Nat := []
  /-- MAP_SEQ (R214). -/
  mapSeq : BitVec 64 := 0
  /-- Compiled congestion map, key offset (R214). -/
  map : AMap (BitVec 64) := []
deriving DecidableEq, Repr

/-- A laser module (R235). -/
structure ElsS where
  /-- PRESENT (R235). -/
  present : Bool := true
  /-- STATE (R235). -/
  st : BitVec 3 := 0
  /-- TEMP (R235). -/
  temp : BitVec 8 := 0
  /-- FAILED (R235). -/
  failed : BitVec 16 := 0
  /-- LIT (R235). -/
  lit : BitVec 16 := 0
  /-- SPARE_GROUP (R235). -/
  spare : BitVec 8 := 0xFF
  /-- Spare of wavelength w being started for group g (R224). -/
  starting : AMap Nat := []
  /-- Emitters whose EMITTER_WEAR was posted (R225). -/
  worn : List Nat := []
  /-- ELS_RELEASE or ELS_START in progress (R236). -/
  cmd : Option Issue := none
deriving DecidableEq, Repr

/-- A stream queue (R249). -/
structure SQ where
  /-- Items, oldest first, at most 64 (R249). -/
  items : List (BitVec 72) := []
  /-- DRAINING (R251). -/
  draining : Bool := false
  /-- STALE (R252). -/
  stale : Bool := false
  /-- STALE_US (R252). -/
  us : Nat := 0
  /-- STALE_SYNC (R252). -/
  sync : Nat := 0x3FFF
  /-- Timer running (R252). -/
  timer : Bool := false
  /-- Needles stalled on a push, oldest first (R250). -/
  stalled : List Nat := []
deriving DecidableEq, Repr

/-- A needle cluster (R267). -/
structure ClusS where
  /-- OWNER (R267). -/
  owner : Option Nat := none
  /-- STATE: 0 UNALLOTTED 1 CLEARING 2 READY 3 RUNNING 4 REPAIRING (R267). -/
  st : Nat := 0
  /-- PRESENT (R267). -/
  present : BitVec 8 := 0xFF
  /-- Failed slots waiting for a spare (R266). -/
  repair : List Nat := []
  /-- Stream queues 0-31 (R237). -/
  sqs : AMap SQ := []
  /-- Under BIST_RUN (R532). -/
  bist : Bool := false
  /-- Slots with no spare left (R266). -/
  lostSlots : List Nat := []
deriving DecidableEq, Repr

/-- A needle die (R264). -/
structure DieS where
  /-- Spares left (R266, R267). -/
  spares : Nat := 4
  /-- MIN_MHZ (R264). -/
  minM : Nat := 1200
  /-- MAX_MHZ (R264). -/
  maxM : Nat := 4000
  /-- CUR_MHZ (R264). -/
  cur : Nat := 0
  /-- LIMIT (R264). -/
  limit : BitVec 2 := 0
deriving DecidableEq, Repr

/-- A needle (R244). -/
structure NeedleS where
  /-- S0-s31 (R244, R245). -/
  s : AMap (BitVec 64) := []
  /-- V0-v31 (R244, R245). -/
  v : AMap (BitVec 1024) := []
  /-- P0-p7 (R244, R245). -/
  p : AMap (BitVec 128) := []
  /-- A0-a7 (R244, R245). -/
  a : AMap (BitVec 512) := []
  /-- NSTAT (R246, R245). -/
  nstat : BitVec 4 := 0
  /-- SRSEED (R244, R245). -/
  srseed : BitVec 32 := 0
  /-- PC (R244). -/
  pc : BitVec 32 := 0
  /-- CYCLES (R276). -/
  cycles : Nat := 0
  /-- CPYST (R294). -/
  cpyst : BitVec 64 := 0
  /-- 0 idle 1 running 2 stalled on SQPUSH 3 in SYWAIT 4 at EXIT while its run goes on (R300). -/
  st : Nat := 0
  /-- Run it belongs to (R301). -/
  run : Option Nat := none
  /-- Object of its SYWAIT (R297). -/
  waitObj : Nat := 0
  /-- Threshold of its SYWAIT (R297). -/
  waitT : BitVec 64 := 0
  /-- Destination of its SYWAIT (R297). -/
  waitD : BitVec 5 := 0
  /-- Value that satisfied it (R297, R355). -/
  waitOk : Option (BitVec 64) := none
  /-- Queue of its stalled push (R250). -/
  pushQ : Nat := 0
  /-- Item of its stalled push (R250). -/
  pushI : BitVec 72 := 0
  /-- TRAP_CODE (R300). -/
  trapCode : BitVec 8 := 0
  /-- TRAP_PC (R300). -/
  trapPc : BitVec 32 := 0
  /-- TRAP_INFO (R300). -/
  trapInfo : BitVec 64 := 0
  /-- Instants of the corrected errors in its local memory within 24 h (R266). -/
  ce : List Nat := []
deriving DecidableEq, Repr

/-- A program run (R301). -/
structure RunS where
  /-- 1 kernel 2 send transform 3 receive handler 4 collective hook (R301). -/
  kind : Nat := 1
  /-- Partition (R301). -/
  part : Nat := 0
  /-- Handle (R306). -/
  prog : BitVec 16 := 0
  /-- Binding key (R307). -/
  bind : Option Nat := none
  /-- Clusters in rank order (R310). -/
  clusters : List Nat := []
  /-- Needles in service it holds (R301). -/
  needles : List Nat := []
  /-- Needles not yet at EXIT (R310). -/
  left : List Nat := []
  /-- Compute queue key (R310). -/
  q : Nat := 0
  /-- Model id of the descriptor (R418). -/
  work : Nat := 0
  /-- WR_ID (R417). -/
  wrId : BitVec 64 := 0
  /-- Ns at its start (R314). -/
  startNs : Nat := 0
  /-- Budget in us (R314). -/
  budget : Nat := 0
  /-- Translation context (R46). -/
  ctx : Nat := 0
  /-- Connection (R309). -/
  conn : Nat := 0
  /-- MSN (R309). -/
  msn : BitVec 32 := 0
  /-- Chunk index (R311). -/
  chunk : Nat := 0
  /-- Slot number on its cluster (R311). -/
  slot : Nat := 0
  /-- Input bytes (R311). -/
  inB : Nat := 0
  /-- Last chunk (R309). -/
  last : Bool := false
  /-- Faulted (R315). -/
  faulted : Bool := false
  /-- Hook phase: true RESULT (R344). -/
  phase : Bool := false
  /-- Collective slot (R344). -/
  coll : Nat := 0
  /-- Last host address its CPYs wrote, for the launch completion (R310, R390). -/
  lastHost : Option Nat := none
  /-- Coherent lines its CPYs wrote whose GO the launch completion awaits (R310, R390). -/
  lines : List (BitVec 64) := []
deriving DecidableEq, Repr

/-- A compute descriptor waiting to start (R310, R340). -/
structure LaunchW where
  /-- Queue key (R310). -/
  q : Nat := 0
  /-- Model id (R418). -/
  work : Nat := 0
  /-- Partition (R310). -/
  part : Nat := 0
  /-- A LAUNCH (R416). -/
  launch : Option Desc := none
  /-- A COLL_START (R340). -/
  coll : Option Desc := none
deriving DecidableEq, Repr

/-- A chunk of a collective at this member (R334-R338). -/
structure CChunk where
  /-- Own contribution in the accumulator or sent (R330). -/
  own : Bool := false
  /-- Accumulator, FP32 or INT32 words (R335). -/
  acc : List (BitVec 32) := []
  /-- Packets received per child rank (R334). -/
  kidGot : AMap (BitVec 64) := []
  /-- PKT_COUNT per child rank (R334). -/
  kidN : AMap Nat := []
  /-- Payload of each packet, key rank*64+packet (R334). -/
  kidWire : AMap (List (BitVec 8)) := []
  /-- Child ranks whose chunk has been added or forwarded (R334). -/
  added : List Nat := []
  /-- Wire bytes formed here (forwarded up, or WORK) (R330). -/
  wire : List (BitVec 8) := []
  /-- Sent to the parent (R334). -/
  upSent : Bool := false
  /-- Acknowledged whole (R334). -/
  upAcked : Bool := false
  /-- Resends without an answer (R334). -/
  resends : Nat := 0
  /-- Result packets received (R338). -/
  rGot : BitVec 64 := 0
  /-- PKT_COUNT of the result chunk (R338). -/
  rN : Nat := 0
  /-- Payload of each result packet (R338). -/
  rWire : AMap (List (BitVec 8)) := []
  /-- Digest (R336). -/
  digest : BitVec 64 := 0
  /-- Rank that sent it (R326). -/
  source : Nat := 0
  /-- Verified (R338). -/
  verified : Bool := false
  /-- Written to DST (R339). -/
  placed : Bool := false
  /-- FETCHes without an answer (R338). -/
  fetches : Nat := 0
  /-- Digest failures (R338). -/
  fails : Nat := 0
  /-- Hook run wanted or in progress: false CONTRIB, true RESULT (R344). -/
  hook : Option Bool := none
  /-- Bytes handed to the hook run (R344). -/
  pend : List (BitVec 8) := []
deriving DecidableEq, Repr

/-- A collective in progress (R342). -/
structure CollRun where
  /-- The descriptor (R340). -/
  d : Desc := 0
  /-- Compute queue key (R340). -/
  q : Nat := 0
  /-- Model id (R418). -/
  work : Nat := 0
  /-- Chunks by index (R328). -/
  chunks : AMap CChunk := []
  /-- SEAL of each tree: chunk count and digest (R337). -/
  seals : AMap (Nat × BitVec 64) := []
  /-- Trees whose SEAL this member formed or forwarded (R337). -/
  sealSent : List Nat := []
  /-- ARRIVEs received (tree, rank) (R349). -/
  arrive : List (Nat × Nat) := []
  /-- Trees in which ARRIVE was sent (R349). -/
  arrived : List Nat := []
  /-- LIMIT granted by a receiver, key tree*8192+rank; absent: the initial LIMIT (R334). -/
  limit : AMap Nat := []
  /-- Completion status so far (R339). -/
  status : BitVec 8 := 0
  /-- Members that have returned SEAL_ACK (R339). -/
  served : List Nat := []
  /-- Last address written in host memory (R339, R118). -/
  lastHost : Option Nat := none
  /-- Lines of coherent writes that await GO (R339, R118). -/
  lines : List (BitVec 64) := []
  /-- Completion written (R339). -/
  complete : Bool := false
deriving DecidableEq, Repr

/-- A collective slot (14). -/
structure CollS where
  /-- Basting block (R321). -/
  bast : BitVec 512 := 0
  /-- Active block (R321). -/
  act : BitVec 512 := 0
  /-- STATE (R348). -/
  st : Nat := 0
  /-- SEQ (R323). -/
  seq : BitVec 32 := 0
  /-- STAGE in bytes (R323). -/
  stage : Nat := 0
  /-- Member table (R322). -/
  table : List (BitVec 32) := []
  /-- Stitched copy waiting for the next start (R323). -/
  defer : Option (BitVec 512 × List (BitVec 32) × Nat) := none
  /-- Collective in progress (R342). -/
  run : Option CollRun := none
  /-- ABORTs sent per neighbour rank not yet answered (R346). -/
  aborts : AMap Nat := []
  /-- Status of the last abort (R345). -/
  abortSt : BitVec 8 := 0
  /-- Origin rank of the last abort (R345). -/
  abortOrg : Nat := 0
  /-- Chunk of the last abort (R345). -/
  abortChunk : Nat := 0
  /-- Chunks resent (R350). -/
  cResent : BitVec 64 := 0
  /-- FETCHes (R350). -/
  cFetch : BitVec 64 := 0
  /-- Digest failures (R350). -/
  cFail : BitVec 64 := 0
  /-- NOT_STARTED sent (R350). -/
  cNot : BitVec 64 := 0
  /-- Packets discarded (R350). -/
  cDisc : BitVec 64 := 0
  /-- Staging corrections (R350). -/
  cCorr : BitVec 64 := 0
deriving DecidableEq, Repr

/-- A sync object (R351). -/
structure SyncS where
  /-- Value (R352, R359). -/
  val : BitVec 64 := 0
  /-- Host waiter armed (R356, R359). -/
  armed : Bool := false
  /-- THRESH (R356). -/
  thresh : BitVec 64 := 0
  /-- EVQ (R356, R359). -/
  evq : Option Nat := none
deriving DecidableEq, Repr

/-- A key slot (R449). -/
structure KeyS where
  /-- TYPE (R463). -/
  ty : Nat := 0
  /-- KEY (R463). -/
  key : BitVec 256 := 0
  /-- SALT (R463). -/
  salt : BitVec 32 := 0
deriving DecidableEq, Repr

/-- A loop-back (R529). -/
structure LbS where
  /-- STATE (R529). -/
  st : BitVec 2 := 0
  /-- DEPTH (R529). -/
  depth : BitVec 4 := 0
  /-- ERRORS (R529). -/
  errors : BitVec 16 := 0
  /-- Units checked (R529). -/
  units : Nat := 0
deriving DecidableEq, Repr

/-- The I3C targets (R542, R543). -/
structure I3cS where
  /-- Offset last written (R543). -/
  off : BitVec 16 := 0
  /-- Recovery LENGTH (R543). -/
  len : BitVec 32 := 0
  /-- Recovery status (R543). -/
  status : BitVec 8 := 0
  /-- BOOT_REASON of a REFUSED status (R543). -/
  reason : BitVec 8 := 0
  /-- Bundle bytes received (R543). -/
  got : Nat := 0
  /-- Dynamic addresses: 0 register target, 1 MCTP endpoint (R542). -/
  dyn : AMap (BitVec 7) := []
deriving DecidableEq, Repr

/-- Transport, congestion and scheduling shared by the adapter (06, 07). -/
structure TpS where
  /-- TP_CNT0-63 (R148). -/
  tpCnt : AMap (BitVec 64) := []
  /-- CC_CNT0-15 (R171). -/
  ccCnt : AMap (BitVec 64) := []
  /-- Generation of each connection ID (R93). -/
  gens : AMap (BitVec 8) := []
  /-- FAB_QCFG.E2E_WIN (R159). -/
  e2eWin : BitVec 14 := 1024
  /-- FAB_QCFG.MARK_THRESH (R159). -/
  markTh : BitVec 11 := 64
  /-- Injection windows by destination ID (R157). -/
  e2e : AMap E2E := []
  /-- Bytes accepted by source ID (R158). -/
  e2eR : AMap E2ER := []
  /-- Own INCARNATION (R158). -/
  inc : BitVec 16 := 0
  /-- Finish tags F, key (port*4+VC)*64+partition, in 1/256 units (R167). -/
  fTag : AMap Nat := []
  /-- Virtual time V, key port*4+VC (R167). -/
  vTime : AMap Nat := []
  /-- DRR deficits, key (port*4+VC)*33+source (R166). -/
  deficit : AMap Nat := []
  /-- Source whose turn it is, key port*4+VC (R166). -/
  drrAt : AMap Nat := []
  /-- Connection last served, key (port*4+VC)*64+partition (R167). -/
  rrAt : AMap Nat := []
  /-- Histograms by QUEUE (R169). -/
  hist : AMap Hist := []
  /-- Output queues, key port*4+VC, oldest first (R160). -/
  outq : AMap (List QPkt) := []
  /-- Packets that have left, with their port (32 inside the adapter), oldest first (model's own observation, log 12) (R123). -/
  wire : List (Nat × Pkt) := []
  /-- Packets to this adapter's own ID on their way back to the transport engine (R95). -/
  loop : List Pkt := []
deriving DecidableEq, Repr

/-- The whole machine: everything the manual gives the adapter, and the queue of waiting commands. -/
structure State where
  /-- Commands waiting, first in first out (the model's own queue). -/
  pending : List Instr := []
  /-- The model's own counter: index of the next free value. -/
  fresh : Nat := 0
  /-- The model's own clock: ns since State.reset, advanced by a tick. -/
  clockNs : Nat := 0
  /-- The model's own counter: identity of the next descriptor, transfer or run. -/
  nextId : Nat := 0
  /-- DEVID.VALID (R31). -/
  devidValid : Bool := false
  /-- DEVID.ID (R31). -/
  devid : BitVec 16 := 0
  /-- Straps as sampled (R493). -/
  straps : Straps := {}
  /-- Pin levels (R538). -/
  pins : Pins := {}
  /-- Reset and bring-up (R483). -/
  rst : ResetS := {}
  /-- Power manager (R495). -/
  power : PowerS := {}
  /-- The tape (R367). -/
  tape : TapeS := {}
  /-- The thimble (R449). -/
  thimble : ThimbleS := {}
  /-- Secure mailboxes 0-7 (R363). -/
  secMbox : AMap Mbox := []
  /-- Key slots, adapter-wide number (R449). -/
  keys : AMap KeyS := []
  /-- Management port (R470). -/
  mgmt : MgmtS := {}
  /-- Faults and ladder (R514). -/
  faults : FaultS := {}
  /-- Memory tiers (R66). -/
  mem : MemS := {}
  /-- Memory units 0-2,047 (R437). -/
  units : AMap UnitS := []
  /-- Device memory: target 0 offsets (R35, R91). -/
  devMem : Memory := []
  /-- Cluster shared memory, key cluster*2^22 + offset (R238, R243). -/
  shared : Memory := []
  /-- Needle local memory, key needle*2^20 + offset (R238, R243). -/
  localM : Memory := []
  /-- Instruction memory, key cluster*2^18 + offset (R238, R243). -/
  imem : Memory := []
  /-- Host link (R382). -/
  host : HostS := {}
  /-- Functions 0-63 (R384). -/
  funcs : AMap FuncS := []
  /-- Partitions 0-63 (R438). -/
  parts : AMap PartS := []
  /-- Queues, key partition*65536 + number (R404). -/
  queues : AMap QueueS := []
  /-- Contexts 0-4,095 (R45). -/
  ctxs : AMap CtxS := []
  /-- Segment cache: (CTX, SEG), most recent first, at most 4,096 (R61). -/
  segCache : List (Nat × Nat) := []
  /-- Outstanding misses (CTX, SEG, transfer), at most 64 (R61). -/
  segMiss : List (Nat × Nat × Nat) := []
  /-- Counter slots: ((CTX, SEG, granule), bytes), at most 16,384 (R63). -/
  hot : List ((Nat × Nat × Nat) × Nat) := []
  /-- Transfers in flight by id (R57, R247). -/
  xfers : AMap Xfer := []
  /-- Connections by ID (R93). -/
  conns : AMap ConnS := []
  /-- Free receive buffers per receive queue key, in posted order (R105). -/
  rbufs : AMap (List RBuf) := []
  /-- Windows by index (R108). -/
  wins : AMap WinS := []
  /-- Transport and scheduling (R148). -/
  tp : TpS := {}
  /-- Shapers, adapter-wide number (R161). -/
  shps : AMap ShpS := []
  /-- Fabric ports 0-31 (R40). -/
  ports : AMap PortS := []
  /-- Routing (R200). -/
  route : RouteS := {}
  /-- Laser modules 0-3 (R235). -/
  els : AMap ElsS := []
  /-- OPT_WARN times and alarms: key kind*65536+index, value ns of the last warning; key + 2^24 is listed while in alarm (R233). -/
  optAlarm : AMap Nat := []
  /-- Needle clusters 0-63 (R267). -/
  clus : AMap ClusS := []
  /-- Needle dies 0-3 (R264). -/
  dies : AMap DieS := []
  /-- Needles 0-511 (R244). -/
  needles : AMap NeedleS := []
  /-- Bindings, key TKIND*2^32 + target (R307). -/
  binds : AMap Bind := []
  /-- Runs by id (R301). -/
  runs : AMap RunS := []
  /-- Compute descriptors waiting to start, oldest first (R310). -/
  launches : List LaunchW := []
  /-- Collective slots 0-63 (R319). -/
  colls : AMap CollS := []
  /-- Sync objects 0-16,383 (R351). -/
  sync : AMap SyncS := []
  /-- Loop-backs by LB_STAT index (R529). -/
  lb : AMap LbS := []
  /-- State of a looped port before LOOPBACK_SET (R528). -/
  lbPrior : AMap (BitVec 4) := []
  /-- BIST runs by id: target, index, command (R532). -/
  bist : AMap (Nat × Nat × Issue) := []
  /-- TAP instruction (R533). -/
  tapIr : Nat := 1
  /-- I3C targets (R542). -/
  i3c : I3cS := {}
deriving DecidableEq, Repr

/-- The machine right after a cold reset has begun, before the first stage of bring-up is released: every field at its
default (assumption logs 5 and 6). -/
def State.reset : State := {}

/-- Why the block could stop with a fault. The manual gives the block no such stop: every command has an effect, a reply
or a drop that it states, so the type has no constructor and no step ends so. -/
inductive Fault where
deriving DecidableEq, Repr

/-- Why the block could refuse a command. -/
inductive Refusal where
  /-- The command has no meaning yet. Raised by the dispatch table alone, for a row not reached; safe: the model stops
  where the adapter goes on. -/
  | notModelled (mnemonic : String)
deriving DecidableEq, Repr

end Sys2Proof.Machine
end

