-- ==== Sys2Proof/Machine/Ops.lean ====
section
/-!
DEFINITION. The operations every meaning is written with: bit fields, sparse lists, memories, pools, reading and updating
one item of the state, free values, and the passing of a nanosecond on an idle block.
-/

namespace Sys2Proof

/-! ### Bit fields -/

/-- Bits [hi:lo] of a word, as a number (R4). -/
def fld {w : Nat} (b : BitVec w) (hi lo : Nat) : Nat := (b.toNat / 2 ^ lo) % 2 ^ (hi + 1 - lo)

/-- Bit `i` of a word. -/
def bitAt {w : Nat} (b : BitVec w) (i : Nat) : Bool := b.getLsbD i

/-- A word with bits [hi:lo] replaced. -/
def setFld {w : Nat} (b : BitVec w) (hi lo v : Nat) : BitVec w :=
  BitVec.ofNat w (b.toNat - fld b hi lo * 2 ^ lo + v % 2 ^ (hi + 1 - lo) * 2 ^ lo)

/-- One field of a layout: high bit, low bit, value. -/
abbrev Fld := Nat × Nat × Nat

/-- A word laid out field by field, every bit not named zero. -/
def pack (w : Nat) (fs : List Fld) : BitVec w :=
  BitVec.ofNat w (fs.foldl (fun a f => a + f.2.2 % 2 ^ (f.1 + 1 - f.2.1) * 2 ^ f.2.1) 0)

/-- A Boolean as a bit. -/
def b2n (b : Bool) : Nat := if b then 1 else 0

/-- Whether bits [hi:lo] are zero. -/
def zeroFld {w : Nat} (b : BitVec w) (hi lo : Nat) : Bool := fld b hi lo == 0

/-- The `n` bytes of a number, least significant first (R4). -/
def bytesLE : Nat → Nat → Bytes
  | 0, _ => []
  | n + 1, v => BitVec.ofNat 8 v :: bytesLE n (v / 256)

/-- The number that bytes spell, least significant first. -/
def natLE : Bytes → Nat
  | [] => 0
  | b :: bs => b.toNat + 256 * natLE bs

/-- The `n` bytes of a number, most significant first. -/
def bytesBE (n v : Nat) : Bytes := (bytesLE n v).reverse

/-- The number that bytes spell, most significant first. -/
def natBE (bs : Bytes) : Nat := natLE bs.reverse

/-- A counter of `w` bits that saturates (R11). -/
def satAdd {w : Nat} (c : BitVec w) (n : Nat) : BitVec w :=
  if c.toNat + n < 2 ^ w then BitVec.ofNat w (c.toNat + n) else BitVec.ofNat w (2 ^ w - 1)

/-- `a` comes before `b` in serial arithmetic modulo 2^32 (R130). -/
def serLt (a b : BitVec 32) : Bool := let d := (b - a).toNat; 0 < d && d < 2 ^ 31

/-- `a` comes before `b` or is `b`. -/
def serLe (a b : BitVec 32) : Bool := a == b || serLt a b

/-- Zero filling up to `n` bytes. -/
def zeros (n : Nat) : Bytes := List.replicate n 0

/-- The first `n` bytes, zero filled. -/
def padTo (n : Nat) (bs : Bytes) : Bytes := (bs ++ zeros (n - bs.length)).take n

/-- Rounding up to a multiple of `m`. -/
def roundUp (n m : Nat) : Nat := if m = 0 then n else (n + m - 1) / m * m

/-! ### Sparse lists -/

/-- The entry of key `k`, if one is listed. -/
def AMap.get? {α : Type} : AMap α → Nat → Option α
  | [], _ => none
  | (j, a) :: m, k => if j = k then some a else AMap.get? m k

/-- The entry of key `k`, or `d` where none is listed. -/
def AMap.get {α : Type} (m : AMap α) (k : Nat) (d : α) : α := (AMap.get? m k).getD d

/-- Entry `k` set, keeping the keys in rising order. -/
def AMap.set {α : Type} : AMap α → Nat → α → AMap α
  | [], k, a => [(k, a)]
  | (j, b) :: m, k, a => if k < j then (k, a) :: (j, b) :: m else if k = j then (k, a) :: m else (j, b) :: AMap.set m k a

/-- Entry `k` removed. -/
def AMap.erase {α : Type} (m : AMap α) (k : Nat) : AMap α := m.filter (fun e => e.1 != k)

/-- Entry `k` set in a map that lists no zero: zero removes it. -/
def AMap.put {w : Nat} (m : AMap (BitVec w)) (k : Nat) (v : BitVec w) : AMap (BitVec w) :=
  if v = 0 then AMap.erase m k else AMap.set m k v

/-- Entry `k` changed by `f`, from `d` where none is listed. -/
def AMap.upd {α : Type} (m : AMap α) (k : Nat) (d : α) (f : α → α) : AMap α := AMap.set m k (f (AMap.get m k d))

/-- Every entry changed by `f`. -/
def AMap.mapAll {α : Type} (m : AMap α) (f : Nat → α → α) : AMap α := m.map (fun e => (e.1, f e.1 e.2))

/-- The listed keys. -/
def AMap.keys {α : Type} (m : AMap α) : Nats := m.map Prod.fst

/-- The map with the entries that `p` keeps. -/
def AMap.keep {α : Type} (m : AMap α) (p : Nat → α → Bool) : AMap α := m.filter (fun e => p e.1 e.2)

/-- The numbers below `n` without an entry that `p` accepts, lowest first. -/
def AMap.firstFree {α : Type} (m : AMap α) (n : Nat) : Option Nat := (List.range n).find? (fun k => (AMap.get? m k).isNone)

/-! ### Memories -/

/-- The byte at an address: zero where none is listed (assumption log 8). -/
def Memory.rd (m : Memory) (a : Nat) : Byte := AMap.get m a 0

/-- One byte written; a zero byte removes the entry. -/
def Memory.wr (m : Memory) (a : Nat) (b : Byte) : Memory := if b = 0 then AMap.erase m a else AMap.set m a b

/-- `n` bytes from an address. -/
def Memory.rds (m : Memory) : Nat → Nat → Bytes
  | _, 0 => []
  | a, n + 1 => Memory.rd m a :: Memory.rds m (a + 1) n

/-- Bytes written from an address. -/
def Memory.wrs : Memory → Nat → Bytes → Memory
  | m, _, [] => m
  | m, a, b :: bs => Memory.wrs (Memory.wr m a b) (a + 1) bs

/-- Every byte from `a` on for `n` bytes made zero. -/
def Memory.zero (m : Memory) (a n : Nat) : Memory := m.filter (fun e => e.1 < a || a + n ≤ e.1)

/-- Keys strictly rising. -/
def risingB {α : Type} : AMap α → Bool
  | [] => true
  | [_] => true
  | (j, _) :: (k, b) :: m => decide (j < k) && risingB ((k, b) :: m)

/-- The canonical form of a memory: addresses strictly rising, no zero byte listed. -/
def Memory.wf (m : Memory) : Bool := risingB m && m.all (fun e => e.2 != 0)

/-! ### Pools -/

/-- Items in an allotment. -/
def Ranges.count (r : Ranges) : Nat := (r.map Prod.snd).sum

/-- The adapter-wide number of local item `i`. -/
def Ranges.item : Ranges → Nat → Option Nat
  | [], _ => none
  | (b, n) :: r, i => if i < n then some (b + i) else Ranges.item r (i - n)

/-- Whether an adapter-wide number lies in the allotment. -/
def Ranges.has (r : Ranges) (k : Nat) : Bool := r.any (fun e => decide (e.1 ≤ k) && decide (k < e.1 + e.2))

/-- The local number of an adapter-wide item. -/
def Ranges.localOf : Ranges → Nat → Option Nat
  | [], _ => none
  | (b, n) :: r, k => if b ≤ k ∧ k < b + n then some (k - b) else (Ranges.localOf r k).map (· + n)

/-- The adapter-wide numbers of the allotment. -/
def Ranges.items (r : Ranges) : Nats := r.flatMap (fun e => List.range' e.1 e.2)

/-- A number put into a rising list, once. -/
def insertUp (k : Nat) : Nats → Nats
  | [] => [k]
  | j :: js => if k < j then k :: j :: js else if k = j then j :: js else j :: insertUp k js

/-- A list of numbers in rising order, each once. -/
def sortUp (ks : Nats) : Nats := ks.foldr insertUp []

/-- The runs of a pool of `total` items that no run of `used` covers, lowest first. -/
def gapsOf (used : Ranges) (total : Nat) : Ranges :=
  let starts := sortUp ((0 :: used.map (fun e => e.1 + e.2)).filter (fun c => decide (c < total) && !Ranges.has used c))
  starts.map (fun c => (c, ((used.map (fun e => e.1)).filter (fun b => decide (c ≤ b))).foldl min total - c))

/-- `n` items taken from the lowest free numbers of a pool (assumption log 9); none where too few are free. -/
def takeFree : Ranges → Nat → Option Ranges
  | _, 0 => some []
  | [], _ + 1 => none
  | (b, k) :: r, n + 1 => if k = 0 then takeFree r (n + 1) else if n + 1 ≤ k then some [(b, n + 1)]
      else (takeFree r (n + 1 - k)).map ((b, k) :: ·)

end Sys2Proof

namespace Sys2Proof.Machine

/-- What every meaning answers. -/
abbrev Out := Host.Outcome State Fault Refusal

/-- Steps done one after another. -/
def State.chain (s : State) (fs : List (State → State)) : State := fs.foldl (fun t f => f t) s

/-- A step done only where `b` holds. -/
def State.onIf (s : State) (b : Bool) (f : State → State) : State := if b then f s else s

/-- A step done for every number of a list, in order. -/
def State.each (s : State) (ks : Nats) (f : Nat → State → State) : State := ks.foldl (fun t k => f k t) s

/-- A step done for every item of a list, in order. -/
def State.eachOf {α : Type} (s : State) (xs : List α) (f : α → State → State) : State := xs.foldl (fun t x => f x t) s

/-! ### One item of the state -/

/-- Partition `p`. -/
def State.part (s : State) (p : Nat) : PartS := AMap.get s.parts p {}
/-- Partition `p` changed. -/
def State.updPart (s : State) (p : Nat) (f : PartS → PartS) : State := { s with parts := AMap.upd s.parts p {} f }
/-- Function `p` (R384). -/
def State.func (s : State) (p : Nat) : FuncS := AMap.get s.funcs p {}
/-- Function `p` changed. -/
def State.updFunc (s : State) (p : Nat) (f : FuncS → FuncS) : State := { s with funcs := AMap.upd s.funcs p {} f }
/-- Number of queue `q` of partition `p` among all queues. -/
def qkey (p q : Nat) : Nat := p * 65536 + q
/-- Queue by key, if it exists. -/
def State.queue? (s : State) (k : Nat) : Option QueueS := AMap.get? s.queues k
/-- Queue by key, as created at reset where it does not exist. -/
def State.queue (s : State) (k : Nat) : QueueS := AMap.get s.queues k {}
/-- A queue that exists, changed. -/
def State.updQueue (s : State) (k : Nat) (f : QueueS → QueueS) : State :=
  match AMap.get? s.queues k with
  | some q => { s with queues := AMap.set s.queues k (f q) }
  | none => s
/-- Context `c`. -/
def State.ctx (s : State) (c : Nat) : CtxS := AMap.get s.ctxs c {}
/-- Context `c` changed. -/
def State.updCtx (s : State) (c : Nat) (f : CtxS → CtxS) : State := { s with ctxs := AMap.upd s.ctxs c {} f }
/-- Connection `c`. -/
def State.conn (s : State) (c : Nat) : ConnS := AMap.get s.conns c {}
/-- Connection `c` changed. -/
def State.updConn (s : State) (c : Nat) (f : ConnS → ConnS) : State := { s with conns := AMap.upd s.conns c {} f }
/-- Window `w`. -/
def State.win (s : State) (w : Nat) : WinS := AMap.get s.wins w {}
/-- Window `w` changed. -/
def State.updWin (s : State) (w : Nat) (f : WinS → WinS) : State := { s with wins := AMap.upd s.wins w {} f }
/-- Shaper `n`. -/
def State.shp (s : State) (n : Nat) : ShpS := AMap.get s.shps n {}
/-- Shaper `n` changed. -/
def State.updShp (s : State) (n : Nat) (f : ShpS → ShpS) : State := { s with shps := AMap.upd s.shps n {} f }
/-- Port `n`. -/
def State.port (s : State) (n : Nat) : PortS := AMap.get s.ports n {}
/-- Port `n` changed; no effect for a number no port has (R17). -/
def State.updPort (s : State) (n : Nat) (f : PortS → PortS) : State :=
  if n < 32 then { s with ports := AMap.upd s.ports n {} f } else s
/-- Laser module `k`. -/
def State.elsm (s : State) (k : Nat) : ElsS := AMap.get s.els k {}
/-- Laser module `k` changed. -/
def State.updEls (s : State) (k : Nat) (f : ElsS → ElsS) : State :=
  if k < 4 then { s with els := AMap.upd s.els k {} f } else s
/-- Cluster `c`. -/
def State.clu (s : State) (c : Nat) : ClusS := AMap.get s.clus c {}
/-- Cluster `c` changed. -/
def State.updClu (s : State) (c : Nat) (f : ClusS → ClusS) : State :=
  if c < 64 then { s with clus := AMap.upd s.clus c {} f } else s
/-- Needle die `d`. -/
def State.die (s : State) (d : Nat) : DieS := AMap.get s.dies d {}
/-- Needle die `d` changed. -/
def State.updDie (s : State) (d : Nat) (f : DieS → DieS) : State :=
  if d < 4 then { s with dies := AMap.upd s.dies d {} f } else s
/-- Needle `n`. -/
def State.needle (s : State) (n : Nat) : NeedleS := AMap.get s.needles n {}
/-- Needle `n` changed. -/
def State.updNeedle (s : State) (n : Nat) (f : NeedleS → NeedleS) : State :=
  if n < 512 then { s with needles := AMap.upd s.needles n {} f } else s
/-- A run that exists, changed. -/
def State.updRun (s : State) (r : Nat) (f : RunS → RunS) : State :=
  match AMap.get? s.runs r with
  | some x => { s with runs := AMap.set s.runs r (f x) }
  | none => s
/-- Collective slot `k`. -/
def State.coll (s : State) (k : Nat) : CollS := AMap.get s.colls k {}
/-- Collective slot `k` changed. -/
def State.updColl (s : State) (k : Nat) (f : CollS → CollS) : State :=
  if k < 64 then { s with colls := AMap.upd s.colls k {} f } else s
/-- Sync object `k`, adapter-wide. -/
def State.obj (s : State) (k : Nat) : SyncS := AMap.get s.sync k {}
/-- Sync object `k` changed. -/
def State.updObj (s : State) (k : Nat) (f : SyncS → SyncS) : State := { s with sync := AMap.upd s.sync k {} f }
/-- Memory unit `u`. -/
def State.unit (s : State) (u : Nat) : UnitS := AMap.get s.units u {}
/-- Memory unit `u` changed. -/
def State.updUnit (s : State) (u : Nat) (f : UnitS → UnitS) : State := { s with units := AMap.upd s.units u {} f }
/-- A transfer that exists, changed. -/
def State.updXfer (s : State) (x : Nat) (f : Xfer → Xfer) : State :=
  match AMap.get? s.xfers x with
  | some t => { s with xfers := AMap.set s.xfers x (f t) }
  | none => s
/-- Key slot `k`, adapter-wide. -/
def State.key (s : State) (k : Nat) : KeyS := AMap.get s.keys k {}
/-- Transport state changed. -/
def State.updTp (s : State) (f : TpS → TpS) : State := { s with tp := f s.tp }
/-- Memory tiers changed. -/
def State.updMem (s : State) (f : MemS → MemS) : State := { s with mem := f s.mem }
/-- Host link changed. -/
def State.updHost (s : State) (f : HostS → HostS) : State := { s with host := f s.host }
/-- Reset state changed. -/
def State.updRst (s : State) (f : ResetS → ResetS) : State := { s with rst := f s.rst }
/-- Power manager changed. -/
def State.updPower (s : State) (f : PowerS → PowerS) : State := { s with power := f s.power }
/-- Tape changed. -/
def State.updTape (s : State) (f : TapeS → TapeS) : State := { s with tape := f s.tape }
/-- Thimble changed. -/
def State.updThimble (s : State) (f : ThimbleS → ThimbleS) : State := { s with thimble := f s.thimble }
/-- Management port changed. -/
def State.updMgmt (s : State) (f : MgmtS → MgmtS) : State := { s with mgmt := f s.mgmt }
/-- Faults changed. -/
def State.updFaults (s : State) (f : FaultS → FaultS) : State := { s with faults := f s.faults }
/-- Routing changed. -/
def State.updRoute (s : State) (f : RouteS → RouteS) : State := { s with route := f s.route }

/-- The next model number for a descriptor, transfer or run (assumption log 7). -/
def State.takeId (s : State) : Nat × State := (s.nextId, { s with nextId := s.nextId + 1 })

/-- A fresh free value (assumption log 1). -/
def State.freshVal (s : State) : BitVec 64 × State := (Config.freshBits s.fresh, { s with fresh := s.fresh + 1 })

/-! ### Facts other chapters read -/

/-- The tape's nanosecond count; 0 until the time unit is released (R367). -/
def State.now (s : State) : BitVec 64 := if s.tape.running then s.tape.ns else 0

/-- The device ID; 0x0000 while VALID is 0 (R31). -/
def State.myId (s : State) : Nat := if s.devidValid then s.devid.toNat else 0

/-- Spine mode (R33). -/
def State.spine (s : State) : Bool := !s.straps.spineModeN

/-- Row master (R478). -/
def State.rowMaster (s : State) : Bool := !s.straps.rowMasterN

/-- A function's VF is enabled; the PF always is (R384). -/
def State.funcOn (s : State) (p : Nat) : Bool := p == 0 || (p < 64 && s.host.vfEnable)

/-- A block is in reset behind its closed selvedge (R491). -/
def State.isolated (s : State) (kind idx : Nat) : Bool := s.rst.blocks.contains (kind, idx)

/-- Vuino firmware serves commands: the host interface is released and no reset, halt or thimble boot holds it (R489, R485). -/
def State.serving (s : State) : Bool := decide (5 ≤ s.rst.stage.toNat) && !s.rst.halted && !s.rst.inReset

/-- Transport counter `i` raised by `n` (R148). -/
def State.cntTp (s : State) (i n : Nat) : State :=
  s.updTp (fun t => { t with tpCnt := AMap.upd t.tpCnt i 0 (satAdd · n) })
/-- Congestion counter `i` raised by `n` (R171). -/
def State.cntCc (s : State) (i n : Nat) : State :=
  s.updTp (fun t => { t with ccCnt := AMap.upd t.ccCnt i 0 (satAdd · n) })
/-- Routing counter `i` raised by `n` (R218). -/
def State.cntRt (s : State) (i n : Nat) : State :=
  s.updRoute (fun t => { t with cnt := AMap.upd t.cnt i 0 (satAdd · n) })
/-- Host counter `i` raised by `n` (R402). -/
def State.cntHost (s : State) (i n : Nat) : State :=
  s.updHost (fun t => { t with cnt := AMap.upd t.cnt i 0 (satAdd · n) })
/-- Management counter `i` raised by `n` (R482). -/
def State.cntMgmt (s : State) (i n : Nat) : State :=
  s.updMgmt (fun t => { t with cnt := AMap.upd t.cnt i 0 (satAdd · n) })
/-- Counter `i` of port `n` raised by `k` (R193). -/
def State.cntPort (s : State) (n i k : Nat) : State :=
  s.updPort n (fun p => { p with cnt := AMap.upd p.cnt i 0 (satAdd · k) })

/-- IDLE is left on a doorbell, a packet terminated here or a tape event (R495). -/
def State.leaveIdle (s : State) : State := s.onIf (s.power.state == 1) (fun t => t.updPower (fun p => { p with state := 0 }))

/-- A nanosecond of the tape; a residual offset is slewed by 6 units of 2^-16 ns in each, within 100 ppm (R367, R374; assumption log
2). -/
def tapeTick (t : TapeS) : TapeS :=
  if !t.running then t
  else
    let d : Int := max (-6) (min 6 t.slew)
    let v : Int := (t.ns.toNat * 65536 + t.frac.toNat + 65536 : Nat) + d
    { t with ns := BitVec.ofInt 64 (v / 65536), frac := BitVec.ofInt 16 (v % 65536), slew := t.slew - d }

/-- The management MAC may send: powered, past the rails, not looped, not in back-off and not paused (R470-R472, R526). -/
def State.macSends (s : State) : Bool :=
  s.pins.powered && !s.rst.inReset && s.rst.stage != 0 && (AMap.get s.lb 32 {}).st != 1 && (if s.mgmt.mode then !s.mgmt.paused else !s.mgmt.backoff)

/-- The frame at the head leaves the MAC (R471; assumption log 2). -/
def State.macTick (s : State) : State :=
  match s.mgmt.txq with
  | [] => s
  | f :: rest =>
    if s.macSends then (s.updMgmt (fun m => { m with txq := rest, sent := m.sent ++ [f], attempts := 0 })).cntMgmt 0 1 else s

/-- What passes on an idle block: one nanosecond of its clock and of the running tape, and the frame at the head of the management MAC
leaves (assumption log 2). -/
def tick (s : State) : State := { s.macTick with clockNs := s.clockNs + 1, tape := tapeTick s.tape }

end Sys2Proof.Machine
end

