-- ==== Sys2Proof/Machine/Flags.lean ====
section
/-!
DEFINITION. The check values the manual computes bit by bit: the CRC-64 of packets (R145) and the check code of device
memory with its syndromes (R72, R73, R75).
-/

namespace Sys2Proof.Machine

/-! ### CRC-64 -/

/-- One bit into the CRC-64 register, most significant bit first (ECMA-182 polynomial, R145). -/
def crc64Bit (c : BitVec 64) (b : Bool) : BitVec 64 :=
  if c.msb != b then (c <<< 1) ^^^ 0x42F0E1EBA9EA3693#64 else c <<< 1

/-- One byte into the CRC-64 register. -/
def crc64Byte (c : BitVec 64) (b : Byte) : BitVec 64 :=
  (List.range 8).foldl (fun c i => crc64Bit c (b.getLsbD (7 - i))) c

/-- The CRC-64 of R145 over bytes in wire order. -/
def crc64 (bs : Bytes) : BitVec 64 := (bs.foldl crc64Byte (BitVec.allOnes 64)) ^^^ BitVec.allOnes 64

/-! ### The check code of device memory -/

/-- Multiplication by α in GF(2^7) with x^7 + x^3 + 1 (R72). -/
def gfStep (a : BitVec 7) : BitVec 7 := if a.msb then (a <<< 1) ^^^ 0x09#7 else a <<< 1

/-- α^n. -/
def gfPow : Nat → BitVec 7
  | 0 => 1
  | n + 1 => gfStep (gfPow n)

/-- Exponent of the locator of a code position, none for c[14]: positions 0-63 are d, 64-79 are c, 80-118 are A (R72). -/
def locExp (pos : Nat) : Option Nat :=
  if pos < 64 then some (14 + pos)
  else if pos < 78 then some (pos - 64)
  else if pos = 78 then none
  else if pos = 79 then some 117
  else some (78 + (pos - 80))

/-- Marker of a code position. -/
def locMark (pos : Nat) : Bool := decide (79 ≤ pos)

/-- The column of a position: row 0 is bit 0 (R72). -/
def eccColumn (pos : Nat) : BitVec 16 :=
  let b := match locExp pos with | some e => gfPow e | none => 0
  let b3 := match locExp pos with | some e => gfPow (3 * e % 127) | none => 0
  pack 16 [(0, 0, 1), (7, 1, b.toNat), (14, 8, b3.toNat), (15, 15, b2n (locMark pos))]

/-- Every position's column, by position. -/
def eccColumns : List (BitVec 16) := (List.range 119).map eccColumn

/-- XOR of the columns of the set bits of a pattern over the 119 positions. -/
def eccSyndrome (e : BitVec 119) : BitVec 16 :=
  (List.range 119).foldl (fun a i => if e.getLsbD i then a ^^^ eccColumn i else a) 0

/-- The remainder of x^n by the generator polynomial of the two minimal polynomials of α and α^3, degree 14 (R73 step 2). -/
def genPow : Nat → BitVec 14
  | 0 => 1
  | n + 1 => let p := genPow n
    if p.msb then (p <<< 1) ^^^ 0x0377#14 else p <<< 1

/-- The check bits of a word stored at folded address A (R73). -/
def checkBits (d : BitVec 64) (a : BitVec 39) : BitVec 16 :=
  let parity {w : Nat} (v : BitVec w) : Bool := (List.range w).foldl (fun p i => p != v.getLsbD i) false
  let c15 := parity a
  let dPart := (List.range 64).foldl (fun x i => if d.getLsbD i then x ^^^ genPow (14 + i) else x) (0 : BitVec 14)
  let aPart := (List.range 39).foldl (fun x i => if a.getLsbD i then x ^^^ genPow (78 + i) else x) (0 : BitVec 14)
  let low := dPart ^^^ aPart ^^^ (if c15 then genPow 117 else 0)
  let c14 := parity d != (parity a != (parity low != c15))
  pack 16 [(13, 0, low.toNat), (14, 14, b2n c14), (15, 15, b2n c15)]

/-- What the syndrome of a word read says (R75). -/
inductive EccOut where
  /-- Zero syndrome. -/
  | clean
  /-- One stored bit corrected. -/
  | ce1
  /-- Two stored bits corrected. -/
  | ce2
  /-- Read from the wrong location. -/
  | ueAddr
  /-- Uncorrectable data. -/
  | ueData
deriving DecidableEq, Repr

/-- Whether a syndrome is the XOR of the columns of two different positions, the first in `ps`, the second in `qs`. -/
def isPair (y : BitVec 16) (ps qs : Nats) : Bool :=
  ps.any (fun p => qs.any (fun q => p != q && y == eccColumn p ^^^ eccColumn q))

/-- The outcome of a syndrome, by the rows of R75. -/
def eccOutcome (y : BitVec 16) : EccOut :=
  let stored := List.range 80
  let addr := (List.range 39).map (· + 80)
  if y == 0 then .clean
  else if y.getLsbD 0 && stored.any (fun p => y == eccColumn p) then .ce1
  else if !y.getLsbD 0 && isPair y stored stored then .ce2
  else if addr.any (fun p => y == eccColumn p) || isPair y addr (List.range 119) then .ueAddr
  else .ueData

/-- The outcome of reading one word, from what is wrong with it. -/
def wordOutcome (e : BitVec 119) : EccOut := eccOutcome (eccSyndrome e)

end Sys2Proof.Machine
end

