-- ==== Sys2Proof/Machine/HostIO.lean ====
section
/-!
DEFINITION. Host requests, rings the adapter writes, MSI-X messages, fault records and sync objects: what every chapter uses
to tell the host, the manager and the needles of something (R387-R395, R406-R413, R504-R514, R352-R356).
-/

namespace Sys2Proof.Machine

/-! ### Host requests -/

/-- A host request of this kind moves bytes towards the host (R387): posted write, MSI-X, ItoMWr or an eviction. -/
def HReq.isWrite (r : HReq) : Bool := r.kind == 0 || r.kind == 3 || r.kind == 4 || r.kind == 7

/-- The request goes out on the host link, and is counted (R402). -/
def State.issueReq (s : State) (r : HReq) : State :=
  let s := s.updHost (fun h => { h with issued := h.issued ++ [r] })
  let s := s.onIf (r.kind == 0 || r.kind == 3) (fun t => t.cntHost 1 r.data.length)
  let s := s.onIf (r.kind == 2) (fun t => t.cntHost 2 1)
  let s := s.onIf (r.kind == 3) (fun t => t.cntHost 3 1)
  let s := s.onIf (r.kind == 5 || r.kind == 6) (fun t => t.cntHost 5 1)
  s.onIf (r.kind == 7) (fun t => t.cntHost 7 1)

/-- Bytes waiting in the host write hold buffer (R397). -/
def HostS.holdBytes (h : HostS) : Nat := (h.hold.map (fun r => r.data.length)).sum

/-- The host write hold buffer is full: 16 MiB (R397). -/
def HostS.holdFull (h : HostS) : Bool := decide (2 ^ 24 ≤ h.holdBytes)

/-- A host request made for a function: dropped while every host request is stopped (R422), waiting while the function's Bus
Master Enable is 0 (R395), held while the data link is down (R397), issued otherwise. -/
def State.hostReq (s : State) (r : HReq) : State :=
  if s.host.stopped then s
  else if !(s.func r.func).busMaster then s.updHost (fun h => { h with bmeWait := h.bmeWait ++ [r] })
  else if s.host.up then s.issueReq r
  else if r.isWrite then
    let was := s.host.holdFull
    let s := s.updHost (fun h => { h with hold := h.hold ++ [r] })
    s.onIf (!was && s.host.holdFull) (fun t => t.cntHost 10 1)
  else s.updHost (fun h => { h with reissue := h.reissue ++ [r] })

/-- A posted write of bytes at a host I/O virtual address. -/
def State.hostWrite (s : State) (func addr : Nat) (data : Bytes) : State :=
  if data.isEmpty then s else s.hostReq { kind := 0, func, addr := BitVec.ofNat 64 addr, data }

/-- A flushing read addressed to the line of an address (R391). -/
def State.hostFlush (s : State) (func addr : Nat) : State :=
  s.hostReq { kind := 2, func, addr := BitVec.ofNat 64 (addr / 64 * 64) }

/-! ### The device coherency cache -/

/-- Lines of a set of the cache (R388): 32,768 sets. -/
def cacheSet (addr : Nat) : Nat := addr / 64 % 32768

/-- A line leaves the cache: a Modified line is written back, a clean one dropped (R388). -/
def State.cacheEvict (s : State) (line : Nat) : State :=
  match AMap.get? s.host.cache line with
  | none => s
  | some c =>
    let s := s.updHost (fun h => { h with cache := AMap.erase h.cache line })
    s.hostReq { kind := if c.st == 3 then 7 else 8, func := c.func, addr := BitVec.ofNat 64 line,
                data := if c.st == 3 then c.data else [] }

/-- Room for one more line in its set: the least recently used of 16 lines leaves (R388); one still asked for stays. -/
def State.cacheRoom (s : State) (line : Nat) : State :=
  let here := s.host.cache.filter (fun e => cacheSet e.1 == cacheSet line)
  if here.length < 16 then s
  else match (here.filter (fun e => e.2.st != 0)).foldl (fun b e => match b with
        | none => some e
        | some o => if e.2.used < o.2.used then some e else some o) (none : Option (Nat × CLine)) with
    | some e => s.cacheEvict e.1
    | none => s

/-- Bytes of a coherent write that fall in one line: whole lines go by ItoMWr, parts of a line by RdOwn and a merge once the
line arrives, or at once into a line held Exclusive or Modified (R387). -/
def State.cohWriteLine (s : State) (func line off : Nat) (bs : Bytes) : State :=
  if bs.length = 64 then
    let s := s.updHost (fun h => { h with cache := AMap.erase h.cache line })
    s.hostReq { kind := 4, func, addr := BitVec.ofNat 64 line, data := bs }
  else
    match AMap.get? s.host.cache line with
    | some c =>
      if 2 ≤ c.st then
        let c' := { c with st := 3, data := c.data.take off ++ bs ++ c.data.drop (off + bs.length), used := s.nextId }
        s.updHost (fun h => { h with cache := AMap.set h.cache line c' })
      else
        let merge := (List.zip (List.range' off bs.length) bs).foldl (fun m e => AMap.set m e.1 e.2) c.merge
        let s := s.onIf (c.st == 1) (fun t => t.hostReq { kind := 5, func, addr := BitVec.ofNat 64 line })
        s.updHost (fun h => { h with cache := AMap.set h.cache line { c with merge } })
    | none =>
      let s := s.cacheRoom line
      let merge := (List.zip (List.range' off bs.length) bs).foldl (fun m e => AMap.set m e.1 e.2) ([] : AMap Byte)
      let s := s.updHost (fun h => { h with cache := AMap.set h.cache line { st := 0, func, merge, used := s.nextId } })
      s.hostReq { kind := 5, func, addr := BitVec.ofNat 64 line }

/-- The parts of a write by 64-byte line: line address, offset in the line, bytes. The first argument bounds the lines. -/
def lineParts : Nat → Nat → Bytes → List (Nat × Nat × Bytes)
  | 0, _, _ => []
  | n + 1, a, bs =>
    if bs.isEmpty then []
    else let k := 64 - a % 64
         (a / 64 * 64, a % 64, bs.take k) :: lineParts n (a + k) (bs.drop k)

/-- A write by CXL.cache ownership (R387): the lines it touches, and the state after its requests. -/
def State.cohWrite (s : State) (func addr : Nat) (bs : Bytes) : State :=
  s.eachOf (lineParts (bs.length / 64 + 2) addr bs) (fun p t => t.cohWriteLine func p.1 p.2.1 p.2.2)

/-- The lines of a coherent write whose GO the report must await (R390): those not already held Exclusive or Modified. -/
def State.cohLines (s : State) (addr n : Nat) : List (BitVec 64) :=
  ((lineParts (n / 64 + 2) addr (zeros n)).filter (fun p => match AMap.get? s.host.cache p.1 with
    | some c => decide (c.st < 2)
    | none => true)).map (fun p => BitVec.ofNat 64 p.1)

/-! ### MSI-X -/

/-- One notice on a vector of a function: a message, or the pending bit while masked; nothing with MSI-X Enable 0 (R394). -/
def State.msix (s : State) (func vec : Nat) : State :=
  let f := s.func func
  let e := AMap.get f.msix vec {}
  if !f.msixEn then s
  else if f.msixMask || bitAt e.ctl 0 then
    s.updFunc func (fun f => { f with msixPend := insertUp vec f.msixPend })
  else s.hostReq { kind := 3, func, addr := e.addr, data := bytesLE 4 e.data.toNat }

/-! ### Rings -/

/-- Partition of a queue key. -/
def qpart (k : Nat) : Nat := k / 65536
/-- Partition-local number of a queue key. -/
def qnum (k : Nat) : Nat := k % 65536
/-- RING_VA of a queue (R419). -/
def QueueS.ringVa (q : QueueS) : Nat := fld q.blk 255 192
/-- IDX_VA of a queue. -/
def QueueS.idxVa (q : QueueS) : Nat := fld q.blk 191 128
/-- CQ of a queue, partition-local. -/
def QueueS.cq (q : QueueS) : Nat := fld q.blk 111 96
/-- CTX of a queue. -/
def QueueS.ctx (q : QueueS) : Nat := fld q.blk 95 84
/-- CLUSTER of a queue, partition-local. -/
def QueueS.cluster (q : QueueS) : Nat := fld q.blk 83 78
/-- VECTOR of a queue. -/
def QueueS.vector (q : QueueS) : Nat := fld q.blk 77 67
/-- SIZE of a ring (R406). -/
def QueueS.size (q : QueueS) : Nat := 2 ^ fld q.blk 12 8
/-- NO_FLUSH. -/
def QueueS.noFlush (q : QueueS) : Bool := bitAt q.blk 7
/-- FAULT. -/
def QueueS.isFault (q : QueueS) : Bool := q.kind == 6 && bitAt q.blk 6
/-- DBBITS. -/
def QueueS.isDbBits (q : QueueS) : Bool := q.kind == 6 && bitAt q.blk 5
/-- Whether the host writes the ring (R404). -/
def QueueS.hostWritten (q : QueueS) : Bool := q.kind == 1 || q.kind == 2 || q.kind == 4 || q.kind == 5 || q.kind == 7
/-- Bytes of an entry (R404). -/
def QueueS.entryBytes (q : QueueS) : Nat := if q.hostWritten || q.isFault then 64 else 32
/-- Entries between CI and PI (R406). -/
def QueueS.used (q : QueueS) : Nat := (q.pi - q.ci).toNat
/-- The ring is full (R410). -/
def QueueS.full (q : QueueS) : Bool := decide (q.size ≤ q.used)

/-- PHASE of the entry of an index (R410). -/
def phaseOf (idx size : Nat) : Nat := 1 - idx / size % 2

/-- Entries of a ring whose own flushing read is outstanding (R390). -/
def State.unflushed (s : State) (k : Nat) : Nat := (s.host.waits.filter (fun w => w.q == k && w.stage == 1)).length

/-- An armed ring that holds an entry, past that entry's own flushing read, sends its message and disarms (R390, R410). -/
def State.ringNotify (s : State) (k : Nat) : State :=
  let q := s.queue k
  if q.armed && decide (s.unflushed k < q.used) then (s.updQueue k (fun q => { q with armed := false })).msix (qpart k) q.vector
  else s

/-- The ring's PI is written to its index record, and an armed ring notifies (R407, R410). -/
def State.ringPi (s : State) (k : Nat) (pi : BitVec 32) : State :=
  ((s.hostWrite (qpart k) (s.queue k).idxVa (bytesLE 4 pi.toNat))).ringNotify k

/-- One entry written into a ring with room: with the PHASE of its index; a completion queue's PI follows at once, an event
queue's and the ADMIN_CQ's after the flushing read of the entry (R390, R410). -/
def State.ringPutNow (s : State) (k : Nat) (e : BitVec 512) : State :=
  let q := s.queue k
  let idx := q.pi.toNat
  let e := setFld e 15 15 (phaseOf idx q.size)
  let a := q.ringVa + idx % q.size * q.entryBytes
  let s := s.hostWrite (qpart k) a ((bytesLE 64 e.toNat).take q.entryBytes)
  let pi := q.pi + 1
  let s := s.updQueue k (fun q => { q with pi })
  if q.kind == 3 then s.ringPi k pi
  else
    let s := s.hostFlush (qpart k) a
    s.updHost (fun h => { h with waits := h.waits ++ [{ addr := a / 64 * 64, func := qpart k, q := k, entry := e, stage := 1, pi }] })

/-- One entry for an event queue: false where the queue is absent or full (R410). -/
def State.putEvent (s : State) (k : Nat) (e : BitVec 512) : State × Bool :=
  match s.queue? k with
  | none => (s, false)
  | some q => if q.kind != 6 || q.full || s.host.stopped then (s, false) else (s.ringPutNow k e, true)

/-! ### Fault records -/

/-- A fault to be recorded (R504): class, reason, partition concerned, block, details, action, and where it goes beyond its
own queue. -/
structure Rec where
  /-- CLASS. -/
  cls : Nat := 0
  /-- REASON. -/
  reason : Nat := 0
  /-- PARTITION, none for the whole adapter. -/
  part : Option Nat := none
  /-- BLOCK, 0xFFFF for none. -/
  blk : Nat := 0xFFFF
  /-- DETAIL0. -/
  d0 : Nat := 0
  /-- DETAIL1. -/
  d1 : Nat := 0
  /-- DETAIL2. -/
  d2 : Nat := 0
  /-- DETAIL3. -/
  d3 : Nat := 0
  /-- ACTION. -/
  act : Nat := 0
  /-- SEVERITY, where the ladder states it (R507); otherwise by action, class and reason. -/
  sev : Option Nat := none
  /-- The reason's chapter sends it to the manager too. -/
  mgr : Bool := false
  /-- The reason's chapter names the sticky log only. -/
  logOnly : Bool := false
  /-- The reason's chapter names the sticky log beside its queue. -/
  alsoLog : Bool := false
deriving DecidableEq, Repr

/-- SEVERITY of a record (R507). -/
def Rec.severity (r : Rec) : Nat :=
  match r.sev with
  | some v => v
  | none =>
    if r.act == 4 || r.act == 5 then 7
    else if r.act == 3 then 6
    else if r.act == 2 then 5
    else if r.act == 1 then 4
    else if r.act == 8 then 2
    else match r.cls, r.reason with
      | 9, 1 => 5 | 10, 1 => 5 | 9, 2 => 6 | 8, 3 => 7 | 11, 1 => 7 | 13, 4 => 7
      | 1, 3 => 1 | 1, 4 => 1 | 1, 8 => 1 | 1, 10 => 1 | 1, 5 => 2 | 1, 6 => 2 | 1, 7 => 2
      | 2, 2 => 1 | 2, 5 => 1 | 2, 6 => 1 | 2, 10 => 1
      | 2, 1 => 2 | 2, 3 => 2 | 2, 4 => 2 | 2, 7 => 2 | 2, 8 => 2 | 2, 9 => 2 | 2, 11 => 2
      | 5, 2 => 1 | 5, 5 => 1 | 5, 3 => 2
      | 11, 2 => 1 | 11, 3 => 1 | 11, 4 => 1 | 11, 6 => 1 | 11, 5 => 2
      | 8, 1 => 1 | 8, 2 => 2 | 12, 4 => 1
      | 13, 1 => 1 | 13, 2 => 1 | 13, 5 => 1 | 13, 3 => 2
      | 14, 1 => 1 | 14, 2 => 2 | 14, 3 => 2
      | _, _ => 3

/-- The 64-byte record (R504). -/
def Rec.bits (r : Rec) (seq : BitVec 32) (now : BitVec 64) (logged copy : Bool) : FaultRec :=
  pack 512 [(511, 448, r.d3), (447, 384, r.d2), (383, 320, r.d1), (319, 256, r.d0), (255, 192, now.toNat),
    (191, 160, seq.toNat), (159, 144, r.blk), (63, 56, r.part.getD 0xFF), (55, 48, r.act), (43, 40, r.severity),
    (39, 32, r.reason), (31, 24, r.cls), (18, 18, b2n logged), (17, 17, b2n copy), (7, 0, 4)]

/-- A record written to the sticky log (R514): the first 64 fatal ones keep their place, others form a ring of 192. -/
def FaultS.log (f : FaultS) (r : FaultRec) (fatal : Bool) : FaultS :=
  if fatal && decide (f.fatal.length < 64) then { f with fatal := f.fatal ++ [r] }
  else { f with
    others := (f.others ++ [r]).drop (f.others.length + 1 - 192)
    othersNext := if f.othersNext == 255 then 64 else f.othersNext + 1 }

/-- The fault queue of a partition (R419). -/
def State.faultQueue (s : State) (p : Nat) : Option Nat :=
  (s.queues.find? (fun e => qpart e.1 == p && e.2.isFault)).map Prod.fst

/-- A record that a partition's fault queue cannot take is counted and kept for the summary (R511). -/
def State.faultLost (s : State) (p cls : Nat) (seq : BitVec 32) : State :=
  s.updFunc p (fun f => { f with
    fqOverflow := true
    fqLost := AMap.upd (AMap.upd f.fqLost 0 0 (satAdd · 1)) cls 0 (satAdd · 1)
    sumLost := AMap.upd (AMap.upd f.sumLost 0 0 (satAdd · 1)) cls 0 (satAdd · 1)
    sumFirst := if f.sumPending then f.sumFirst else seq
    sumLast := seq
    sumPending := true })

/-- The summary entry of a function (R512). -/
def FuncS.summary (f : FuncS) (now : BitVec 64) : BitVec 512 :=
  pack 512 ((List.range 16).map (fun i => (256 + 16 * i + 15, 256 + 16 * i, (AMap.get f.sumLost i 0).toNat)) ++
    [(255, 192, now.toNat), (191, 160, f.sumFirst.toNat), (159, 128, f.sumLast.toNat), (7, 0, 5)])

/-- The pending summary of a partition is posted where its fault queue has room (R511). -/
def State.postSummary (s : State) (p : Nat) : State :=
  match s.faultQueue p with
  | none => s
  | some k =>
    if (s.func p).sumPending then
      let r := s.putEvent k ((s.func p).summary s.now)
      r.1.onIf r.2 (fun t => t.updFunc p (fun f => { f with sumPending := false, sumLost := [], sumFirst := 0, sumLast := 0 }))
    else s

/-- A record offered to one partition's fault queue, after a pending summary; lost where there is no room (R511). The
answer says whether it was taken. -/
def State.recTo (s : State) (p cls : Nat) (seq : BitVec 32) (r : FaultRec) : State × Bool :=
  let s := s.postSummary p
  match s.faultQueue p with
  | none => (s.faultLost p cls seq, false)
  | some k =>
    if (s.func p).sumPending then (s.faultLost p cls seq, false)
    else let t := s.putEvent k r
         if t.2 then (t.1, true) else (t.1.faultLost p cls seq, false)

/-- The manager's copy, written to the sticky log where partition 0's queue cannot take it (R510, R511, R514). -/
def State.recToManager (s : State) (r : Rec) (seq : BitVec 32) (now : BitVec 64) (logged copy : Bool) : State :=
  let t := s.recTo 0 r.cls seq (r.bits seq now logged copy)
  t.1.onIf (!t.2 && !logged) (fun u => u.updFaults (fun f => f.log (r.bits seq now true copy) (decide (5 ≤ r.severity))))

/-- The partitions that hold an allotment. -/
def State.partsHeld (s : State) : Nats := (s.parts.filter (fun e => e.2.held)).map Prod.fst

/-- A fault record is given the next SEQ and posted where R510 sends it. -/
def State.postRec (s : State) (r : Rec) : State :=
  let seq := s.faults.nextSeq
  let now := s.now
  let sev := r.severity
  let toLog := sev == 7 || r.logOnly || r.alsoLog || r.act == 4 || r.act == 5
  let s := s.updFaults (fun f => { f with nextSeq := f.nextSeq + 1 })
  let s := s.onIf toLog (fun t => t.updFaults (fun f => f.log (r.bits seq now true false) (decide (5 ≤ sev))))
  if r.logOnly || r.act == 4 || r.act == 5 then s
  else if r.act == 3 then
    s.each s.partsHeld (fun p t => if p = 0 then t.recToManager r seq now toLog false
      else (t.recTo p r.cls seq (r.bits seq now toLog false)).1)
  else match r.part with
    | none => s.recToManager r seq now toLog false
    | some 0 => s.recToManager r seq now toLog false
    | some p =>
      let s := (s.recTo p r.cls seq (r.bits seq now toLog false)).1
      s.onIf (decide (5 ≤ sev) || r.mgr) (fun t => t.recToManager r seq now toLog true)

/-- A record of class SEC for the manager (R469). -/
def State.secRec (s : State) (reason d0 : Nat) : State :=
  s.postRec { cls := 11, reason, d0, alsoLog := reason == 5 || reason == 8, logOnly := reason == 1 }

/-! ### Fault guards of the cipher engines (R465, R466) -/

/-- Bulk pipelines in service: direction 0 send, 1 receive. -/
def ThimbleS.bulkUp (t : ThimbleS) (dir : Nat) : Nat := 48 - (t.bulkOut.filter (fun i => i / 48 == dir)).length

/-- Iterated instances in service. -/
def ThimbleS.iterUp (t : ThimbleS) : Nat := 4 - t.iterOut.length

/-- A bulk pipeline leaves service until cold reset. -/
def State.bulkLost (s : State) (i : Nat) : State :=
  if s.thimble.bulkOut.contains i then s else (s.updThimble (fun t => { t with bulkOut := insertUp i t.bulkOut })).secRec 5 i

/-- A guard mismatch of a bulk pipeline: the third within 1 s takes it out of service. -/
def State.bulkMismatch (s : State) (i : Nat) : State :=
  let l := s.clockNs :: (AMap.get s.thimble.bulkMiss i []).filter (fun c => decide (s.clockNs < c + 10 ^ 9))
  let s := s.updThimble (fun t => { t with bulkMiss := AMap.set t.bulkMiss i l })
  s.onIf (decide (3 ≤ l.length)) (fun s => s.bulkLost i)

/-- A guard mismatch of the iterated engine: the dissenting instance leaves service, and below two the engine is lost. -/
def State.iterMismatch (s : State) (i : Nat) : State :=
  if 3 < i || s.thimble.iterOut.contains i then s
  else
    let s := (s.updThimble (fun t => { t with iterOut := insertUp i t.iterOut })).secRec 4 i
    if s.thimble.iterUp < 2 then (s.updThimble (fun t => { t with state := 5 })).secRec 5 i else s

/-! ### Entries of rings that wait or follow data -/

/-- Header of a completion entry by FORMAT (R412); the ring sets PHASE. -/
def fmt (n : Nat) : Fld := (11, 8, n)

/-- One entry for a completion ring or the ADMIN_CQ: written, or held on the adapter while the ring is full, with one
CQ_FULL record for each episode (R410). -/
def State.ringPut (s : State) (k : Nat) (e : BitVec 256) : State :=
  match s.queue? k with
  | none => s
  | some q =>
    let e := e.setWidth 512
    if q.full || !q.held.isEmpty then
      let s := s.updQueue k (fun q => { q with held := q.held ++ [e], fullEpisode := true })
      s.onIf (!q.fullEpisode) (fun t => t.postRec {
        cls := 9, reason := 3, part := some (qpart k),
        d0 := qnum k + q.pi.toNat % q.size * 2 ^ 16, d1 := fld e 63 0 })
    else s.ringPutNow k e

/-- Entries that waited for room are written as far as the ring now takes them (R410). -/
def State.ringDrain (s : State) (k : Nat) : State :=
  let s := s.eachOf (s.queue k).held (fun e t =>
    if (t.queue k).full then t
    else (t.updQueue k (fun q => { q with held := q.held.drop 1 })).ringPutNow k e)
  s.updQueue k (fun q => { q with fullEpisode := !q.held.isEmpty })

/-! ### Sync objects -/

/-- The partition that holds a sync object, with its local index. -/
def State.objOwner (s : State) (obj : Nat) : Option (Nat × Nat) :=
  (s.parts.find? (fun e => Ranges.has e.2.syncs obj)).bind (fun e => (Ranges.localOf e.2.syncs obj).map (fun i => (e.1, i)))

/-- The SYNC_REACHED entry (R356). -/
def syncReached (val thresh now : BitVec 64) (idx : Nat) : BitVec 512 :=
  pack 512 [(255, 192, val.toNat), (191, 128, thresh.toNat), (127, 64, now.toNat), (29, 16, idx), (7, 0, 2)]

/-- The host waiter of an object fires on a value at or above its threshold (R356). -/
def State.hostWaiter (s : State) (obj : Nat) (val : BitVec 64) : State :=
  let o := s.obj obj
  if o.armed && decide (o.thresh.toNat ≤ val.toNat) then
    let s := s.updObj obj (fun o => { o with armed := false })
    match s.objOwner obj with
    | none => s
    | some (p, i) =>
      let r := match o.evq with
        | some k => s.putEvent k (syncReached val o.thresh s.now i)
        | none => (s, false)
      r.1.onIf (!r.2) (fun t => t.updPart p (fun x => { x with syncLost := satAdd x.syncLost 1 }))
  else s

/-- Needles waiting on an object are satisfied by a value at or above their threshold (R355, R297). -/
def State.needleWaiters (s : State) (obj : Nat) (val : BitVec 64) : State :=
  { s with needles := AMap.mapAll s.needles (fun _ n =>
      if n.st == 3 && n.waitObj == obj && n.waitOk.isNone && decide (n.waitT.toNat ≤ val.toNat)
      then { n with waitOk := some val } else n) }

/-- A value is written to an object and compared with every waiter (R355). -/
def State.syncPut (s : State) (obj : Nat) (val : BitVec 64) : State :=
  ((s.updObj obj (fun o => { o with val })).needleWaiters obj val).hostWaiter obj val

/-- ADD to an object, modulo 2^64 (R352). -/
def State.syncAdd (s : State) (obj : Nat) (v : BitVec 64) : State := s.syncPut obj ((s.obj obj).val + v)

/-! ### Completions in step with their data -/

/-- How the data of a completion reached host memory (R390, R118): not at all or in order behind the entry, by writes that
a flushing read must follow (last line written), or by coherent writes whose lines await GO. -/
inductive DataPath where
  /-- Nothing to wait for. -/
  | none
  /-- A flushing read of this line comes first. -/
  | flush (addr : Nat)
  /-- GO for these lines comes first. -/
  | lines (ls : List (BitVec 64))
deriving DecidableEq, Repr

/-- A completion entry, then the raising of a sync object by 1 (R414). -/
def State.entryNow (s : State) (k : Nat) (e : BitVec 256) (sig : Option Nat) : State :=
  let s := s.ringPut k e
  match sig with
  | some o => s.syncAdd o 1
  | none => s

/-- A completion entry offered to a ring, after the data it reports and after the entries already waiting for that ring. -/
def State.complete (s : State) (k : Nat) (e : BitVec 256) (d : DataPath) (sig : Option Nat) : State :=
  let waiting := s.host.waits.any (fun w => w.q == k && w.stage != 1)
  let w : HWait := { func := qpart k, q := k, entry := e.setWidth 512, sig }
  match d with
  | .none =>
    if waiting then s.updHost (fun h => { h with waits := h.waits ++ [{ w with stage := 3 }] }) else s.entryNow k e sig
  | .flush a => (s.hostFlush (qpart k) a).updHost (fun h => { h with waits := h.waits ++ [{ w with stage := 0, addr := a / 64 * 64 }] })
  | .lines ls =>
    if ls.isEmpty && !waiting then s.entryNow k e sig
    else s.updHost (fun h => { h with waits := h.waits ++ [{ w with stage := if ls.isEmpty then 3 else 2, lines := ls }] })

end Sys2Proof.Machine
end

