-- ==== Sys2Proof/Machine/Operands.lean ====
section
/-!
DEFINITION. The operands of Vuino commands: their layout in the parameter area and its checks (R427), the layout of results
(R562), the reply packet and where it goes (R428, R361, R480), and the gates every command passes before its own meaning
(R430, R434, R496).
-/

namespace Sys2Proof.Machine

/-! ### Layouts -/

/-- One parameter of a command: bytes it takes, its alignment, and its width in bits (R427). -/
structure PF where
  /-- Bytes. -/
  bytes : Nat
  /-- Alignment. -/
  align : Nat
  /-- Width; bits above it are reserved. -/
  width : Nat
deriving DecidableEq, Repr

/-- A scalar of this many bits: the smallest of 1, 2, 4 or 8 bytes that holds it (R427). -/
def scal (w : Nat) : PF :=
  let n := if w ≤ 8 then 1 else if w ≤ 16 then 2 else if w ≤ 32 then 4 else 8
  { bytes := n, align := n, width := w }

/-- A block of this many bytes, aligned to 8 (R427). -/
def blockF (n : Nat) : PF := { bytes := n, align := 8, width := 8 * n }

/-- Byte offsets of the parameters of a layout, from an offset on. -/
def offsets : List PF → Nat → Nats
  | [], _ => []
  | f :: fs, o => let a := roundUp o f.align; a :: offsets fs (a + f.bytes)

/-- The offset past the last parameter. -/
def layoutEnd : List PF → Nat → Nat
  | [], o => o
  | f :: fs, o => layoutEnd fs (roundUp o f.align + f.bytes)

/-- What the opcode table says of a command (R434): issued by partition 0 only, long, its parameters, and bytes of an entry of
a closing list. -/
structure OpInfo where
  /-- Issued by partition 0 only. -/
  zeroOnly : Bool := false
  /-- Long. -/
  long : Bool := false
  /-- Served in SLUMBER (R496). -/
  slumber : Bool := false
  /-- Parameters. -/
  lay : List PF := []
  /-- Bytes of an entry of a closing list, 0 for none. -/
  tail : Nat := 0
deriving DecidableEq, Repr

/-- The opcode table (R434) with the layouts of each command's own rule; none for a value outside it. -/
def opInfo (op : Nat) : Option OpInfo :=
  match op with
  | 0x0001 => some { slumber := true }
  | 0x0002 => some { slumber := true }
  | 0x0003 => some { slumber := true, lay := [scal 16] }
  | 0x0010 => some { lay := [blockF 32] }
  | 0x0011 => some { lay := [scal 16] }
  | 0x0012 => some { slumber := true, lay := [scal 16] }
  | 0x0100 => some { lay := [scal 12, scal 4, blockF 32] }
  | 0x0101 => some { lay := [scal 12, blockF 16] }
  | 0x0102 => some { lay := [scal 12] }
  | 0x0103 => some { lay := [scal 12, scal 4] }
  | 0x0104 => some { slumber := true, lay := [scal 12, scal 4, scal 8] }
  | 0x0200 => some { zeroOnly := true, lay := [blockF 8] }
  | 0x0201 => some { zeroOnly := true, lay := [scal 8, scal 16, scal 16] }
  | 0x0202 => some { long := true, lay := [scal 64, scal 32, scal 8] }
  | 0x0203 => some { long := true, lay := [scal 64, scal 32] }
  | 0x0204 => some { zeroOnly := true, lay := [scal 8] }
  | 0x0205 => some { zeroOnly := true, long := true, lay := [scal 8, scal 8] }
  | 0x0206 => some { zeroOnly := true, slumber := true, lay := [scal 8, scal 8] }
  | 0x0300 => some { lay := [blockF 32] }
  | 0x0301 => some { lay := [scal 24, scal 16, scal 24, scal 8, scal 32, scal 32] }
  | 0x0302 => some { lay := [scal 24] }
  | 0x0303 => some { lay := [scal 24] }
  | 0x0304 => some { lay := [scal 24, scal 8] }
  | 0x0305 => some { slumber := true, lay := [scal 24] }
  | 0x0310 => some { lay := [blockF 32] }
  | 0x0311 => some { lay := [scal 32] }
  | 0x0400 => some { zeroOnly := true, lay := [scal 8, blockF 16] }
  | 0x0401 => some { zeroOnly := true, lay := [scal 8] }
  | 0x0402 => some { zeroOnly := true, lay := [scal 24, scal 8, scal 16, scal 16, scal 16] }
  | 0x0410 => some { lay := [scal 16, blockF 32] }
  | 0x0411 => some { lay := [scal 16, scal 16] }
  | 0x0412 => some { slumber := true, lay := [scal 16, scal 8] }
  | 0x0420 => some { zeroOnly := true, lay := [scal 8, scal 8] }
  | 0x0421 => some { zeroOnly := true }
  | 0x0430 => some { zeroOnly := true, lay := [scal 8, scal 8] }
  | 0x0500 => some { zeroOnly := true, lay := [scal 8, scal 8] }
  | 0x0510 => some { zeroOnly := true, lay := [scal 8, scal 8, scal 8, scal 8], tail := 8 }
  | 0x0511 => some { zeroOnly := true, lay := [scal 8] }
  | 0x0512 => some { zeroOnly := true, lay := [scal 8] }
  | 0x0513 => some { zeroOnly := true, lay := [scal 8] }
  | 0x0514 => some { zeroOnly := true, slumber := true, lay := [scal 8, scal 8, scal 8, scal 8] }
  | 0x0520 => some { zeroOnly := true, lay := [scal 16, blockF 8] }
  | 0x0521 => some { zeroOnly := true, slumber := true, lay := [scal 16] }
  | 0x0530 => some { zeroOnly := true, long := true, lay := [scal 8] }
  | 0x0531 => some { zeroOnly := true, long := true, lay := [scal 8] }
  | 0x0532 => some { zeroOnly := true, slumber := true, lay := [scal 8, scal 8] }
  | 0x0600 => some { zeroOnly := true, lay := [scal 8, scal 16, scal 16] }
  | 0x0610 => some { long := true, lay := [scal 12, scal 48, scal 32] }
  | 0x0611 => some { lay := [scal 24, blockF 32] }
  | 0x0612 => some { long := true, lay := [scal 8, scal 24, scal 8] }
  | 0x0613 => some { long := true, lay := [scal 16, scal 8] }
  | 0x0614 => some { slumber := true, lay := [scal 16] }
  | 0x0615 => some { zeroOnly := true, lay := [scal 8, scal 8] }
  | 0x0700 => some { lay := [scal 8, blockF 64] }
  | 0x0701 => some { lay := [scal 8] }
  | 0x0702 => some { lay := [scal 8] }
  | 0x0703 => some { slumber := true, lay := [scal 8, scal 8] }
  | 0x0800 => some { lay := [scal 14, scal 16, scal 8, scal 64] }
  | 0x0801 => some { lay := [scal 14, scal 8, scal 64] }
  | 0x0802 => some { slumber := true, lay := [scal 14, scal 8] }
  | 0x0810 => some { zeroOnly := true, lay := [scal 64] }
  | 0x0811 => some { lay := [scal 8, scal 64, scal 32, scal 8, scal 14, scal 64] }
  | 0x0812 => some { lay := [scal 8] }
  | 0x0820 => some { zeroOnly := true, lay := [scal 8, scal 16, blockF 512] }
  | 0x0821 => some { zeroOnly := true, long := true, lay := [scal 64, scal 32] }
  | 0x0822 => some { zeroOnly := true, slumber := true, lay := [scal 8, scal 8] }
  | 0x0900 => some { zeroOnly := true, lay := [scal 8, scal 32, scal 32, scal 16, scal 32, scal 16, scal 16, scal 8,
      scal 32, scal 16, scal 64, blockF 256] }
  | 0x0901 => some { zeroOnly := true, lay := [scal 8, scal 8] }
  | 0x0902 => some { zeroOnly := true, long := true, lay := [scal 8] }
  | 0x0903 => some { zeroOnly := true, slumber := true, lay := [scal 8] }
  | 0x0A00 => some { lay := [scal 8, scal 16, blockF 48] }
  | 0x0A01 => some { lay := [scal 8, scal 16] }
  | 0x0A10 => some { zeroOnly := true, long := true, lay := [scal 12, scal 48, scal 32, scal 8, scal 8] }
  | 0x0A20 => some { zeroOnly := true, long := true, lay := [blockF 32] }
  | 0x0B00 => some { zeroOnly := true, lay := [] }
  | 0x0B10 => some { zeroOnly := true }
  | 0x0B11 => some { zeroOnly := true }
  | 0x0B12 => some { zeroOnly := true, slumber := true, lay := [scal 8] }
  | 0x0B13 => some { zeroOnly := true, lay := [scal 16] }
  | 0x0B20 => some { zeroOnly := true, lay := [scal 8, scal 16, scal 8] }
  | 0x0B30 => some { zeroOnly := true, lay := [scal 8, scal 8, scal 8, scal 16] }
  | 0x0B31 => some { zeroOnly := true, long := true, lay := [scal 8, scal 8] }
  | _ => none

/-- The layout of MGMT_CFG by its SUB (R481); only SUB itself where that is refused. -/
def mgmtLay (sub : Nat) : List PF :=
  match sub with
  | 0 => [scal 8, scal 8, scal 32, scal 32, scal 32, scal 16, scal 16]
  | 1 => [scal 8, scal 8, scal 8]
  | 2 => [scal 8, scal 8, scal 8, scal 8, blockF 16, blockF 128]
  | _ => [scal 8]

/-- The layout of a command given the first parameter byte. -/
def opLay (op first : Nat) : List PF :=
  if op = 0x0B00 then mgmtLay first else match opInfo op with | some i => i.lay | none => []

/-- The byte offset of the first parameter that sets reserved bits (R427). -/
def reservedAt (fs : List PF) (vals : Nats) : Option Nat :=
  ((List.zip (List.zip fs (offsets fs 0)) vals).find? (fun e => decide (2 ^ e.1.1.width ≤ e.2))).map (fun e => e.1.2)

/-- Offsets of the bytes inside parameters. -/
def covered (fs : List PF) (tailStart : Nat) (i : Nat) : Bool :=
  (List.zip fs (offsets fs 0)).any (fun e => decide (e.2 ≤ i ∧ i < e.2 + e.1.bytes)) || decide (tailStart ≤ i)

/-- Values read from a parameter area: the parameters in order, then the entries of a closing list; or the INDEX of the first
missing byte or of the first non-zero byte outside every parameter (R427). -/
def readParams (fs : List PF) (tail count : Nat) (ps : Bytes) : Nats ⊕ Nat :=
  let e := layoutEnd fs 0
  let len := roundUp (if tail = 0 then e else roundUp e 8 + tail * count) 8
  if ps.length < len then .inr ps.length
  else
    let bad := (List.range ps.length).find? (fun i =>
      ps.getD i 0 != 0 && !(covered fs (if tail = 0 then len else roundUp e 8) i && decide (i < len)))
    match bad with
    | some i => .inr i
    | none => .inl ((List.zip fs (offsets fs 0)).map (fun f => natLE ((ps.drop f.2).take f.1.bytes)) ++
        (if tail = 0 then [] else (List.range count).map (fun i => natLE ((ps.drop (roundUp e 8 + tail * i)).take tail))))

/-! ### Results -/

/-- An item of a result: its alignment and bytes (R562). -/
abbrev Items := List (Nat × Bytes)

/-- A scalar item of `n` bytes. -/
def sc (n v : Nat) : Nat × Bytes := (n, bytesLE n v)

/-- An entry or block item. -/
def blkItem (n v : Nat) : Nat × Bytes := (8, bytesLE n v)

/-- Bytes of the items from an offset on, gaps zero. -/
def layItems : Items → Nat → Bytes
  | [], _ => []
  | (a, bs) :: xs, o => let g := roundUp o a - o; zeros g ++ bs ++ layItems xs (o + g + bs.length)

/-- A list of per-item results: entries follow one another without gaps from an 8-byte boundary (R562). -/
def listItem (es : List Items) : Nat × Bytes := (8, es.flatMap (fun e => layItems e 0))

/-- The whole result, its length a multiple of 8. -/
def resultBytes (xs : Items) : Bytes := let b := layItems xs 0; padTo (roundUp b.length 8) b

/-! ### Replies -/

/-- What a command's own meaning answers: the state, STATUS (R433), INDEX, REASON, result, and whether the reply is still to
come. -/
structure Ans where
  /-- State after the command. -/
  st : State
  /-- STATUS. -/
  status : Nat := 0
  /-- INDEX. -/
  index : Nat := 0
  /-- REASON. -/
  reason : Nat := 0
  /-- POSITION. -/
  position : Nat := 0
  /-- PERMILLE. -/
  permille : Nat := 0
  /-- Result. -/
  items : Items := []
  /-- The reply comes later. -/
  later : Bool := false

/-- INVALID_PARAM. -/
def Ans.bad (s : State) (index : Nat := 0) (reason : Nat := 0) : Ans := { st := s, status := 18, index, reason }
/-- NO_RESOURCE. -/
def Ans.noRes (s : State) (index : Nat := 0) : Ans := { st := s, status := 17, index }
/-- BUSY. -/
def Ans.busy (s : State) (index : Nat := 0) : Ans := { st := s, status := 20, index }
/-- OK with a result. -/
def Ans.ok (s : State) (items : Items := []) : Ans := { st := s, items }
/-- The reply comes later. -/
def Ans.wait (s : State) : Ans := { st := s, later := true }

/-- A reply packet without its HEADER (R428). -/
def replyBits (op tag status index reason permille position data : Nat) (final : Bool) : Reply :=
  pack 256 [(255, 192, data), (175, 128, position), (127, 96, index), (87, 80, reason), (73, 64, permille),
    (56, 56, b2n final), (55, 48, status), (47, 32, tag), (31, 16, op)]

/-- DB_A2H bits of a function set, with one notice for bits newly set and unmasked (R366). -/
def State.setA2H (s : State) (func : Nat) (bits : BitVec 32) : State :=
  let f := s.func func
  let new := bits &&& ~~~f.dbA2H &&& ~~~f.dbA2HMask
  let s := s.updFunc func (fun f => { f with dbA2H := f.dbA2H ||| bits })
  s.onIf (new != 0) (fun t => t.msix func f.dbVec.toNat)

/-- A reply written into a mailbox: DATA0-7, DATA8-15 zero, GO cleared, DB_A2H bit 31 set (R361, R428). -/
def State.replyMbox (s : State) (func : Nat) (r : Reply) : State :=
  let data : AMap (BitVec 32) := (List.range 8).map (fun i => (i, BitVec.ofNat 32 (fld r (32 * i + 31) (32 * i))))
  (s.updFunc func (fun f => { f with mbox := { f.mbox with data := AMap.keep data (fun _ v => v != 0), go := false } })).setA2H
    func 0x80000000#32

/-- Bytes 0 to 3 of an out-of-band payload with its SEQ word (R479). -/
def oobHead (dir : Bool) (seq : Nat) : Bytes := bytesLE 2 1 ++ zeros 2 ++ bytesLE 8 (b2n dir * 2 ^ 63 + seq)

/-- The reply datagram of a request: its counter with DIR = 1, sealed, to the request's source (R479, R480). -/
def State.oobFrame (s : State) (seq : Nat) (r : Reply) (res : Bytes) : MgmtFrame :=
  let k := s.key (((Ranges.item (s.part 0).keys s.mgmt.oobSlot.toNat).getD 0))
  let head := oobHead true seq ++ bytesLE 32 r.toNat ++ res.take 1024
  let nonce := pack 96 [(95, 64, k.salt.toNat), (63, 0, 2 ^ 63 + seq)]
  let to_ := AMap.get s.mgmt.oobFrom seq (0, 0)
  { kind := 2, src := s.mgmt.eui, body := head ++ bytesBE 16 (Config.gcmTag k.key nonce head []).toNat, ip := BitVec.ofNat 32 to_.1, port := to_.2 }

/-- An out-of-band reply: sent, and kept among the last 8 (R480). -/
def State.replyOob (s : State) (seq : Nat) (r : Reply) (res : Bytes) : State :=
  let f := s.oobFrame seq r res
  s.updMgmt (fun m =>
    let others := m.oobLast.filter (fun e => e.1 != seq)
    { m with txq := m.txq ++ [f], oobLast := (others ++ [(seq, r, res.take 1024)]).drop (others.length + 1 - 8) })

/-- The DATA of a reply and what is written at RESULT_VA (R426): a result of 8 bytes or less is wholly in DATA; a longer one
is written with INDIRECT, DATA giving its length, and otherwise gives its first 8 bytes; out of band, DATA gives its length. -/
def replyData (h : Issue) (res : Bytes) : Nat × Bytes :=
  if res.length ≤ 8 then (natLE res, [])
  else if h.indirect then (res.length, res.take h.resultLen)
  else match h.path with
    | .oob _ => (res.length, res)
    | _ => (natLE (res.take 8), [])

/-- A reply sent by the way the command came (R361, R428, R480), after its result. A final reply of a command sent by mailbox
after its first goes to the ADMIN_CQ while that is ON (R430). -/
def State.sendReply (s : State) (h : Issue) (r : Reply) (res : Bytes) (first : Bool) : State :=
  let s := match h.path with
    | .oob _ => s
    | _ => s.hostWrite h.part h.resultVa res
  let cq := setFld r 11 8 6
  let d : DataPath := if res.isEmpty then .none else .flush (h.resultVa + (res.length - 1))
  match h.path with
  | .admin => s.complete (qkey h.part 1) cq d none
  | .mailbox => if first then s.replyMbox h.part r else s.complete (qkey h.part 1) cq d none
  | .oob seq => s.replyOob seq r res

/-- The admin queue goes OFF once DISABLE has been accepted and every command taken has replied (R424). -/
def State.adminSettle (s : State) (p : Nat) : State :=
  let f := s.func p
  if f.adminStop && (s.part p).long.all (fun l => l.done) && (s.part p).paramWait.isEmpty && (s.part p).owed.isEmpty then
    { s.updFunc p (fun f => { f with adminStop := false, adminState := 0 }) with
      queues := AMap.erase (AMap.erase s.queues (qkey p 0)) (qkey p 1) }
  else s

/-- A command of the ADMIN queue waits for its first reply: first replies follow ring order, so that the queue's next command waits too
(R418, R429). -/
def State.owe (s : State) (h : Issue) : State :=
  match h.path with
  | .admin => s.updPart h.part (fun p => { p with owed := p.owed ++ [h.tag] })
  | _ => s

/-- The first reply of a command that waited for it has been written. -/
def State.paid (s : State) (h : Issue) : State :=
  match h.path with
  | .admin => s.onIf ((s.part h.part).owed.contains h.tag) (fun s =>
      (s.updPart h.part (fun p => { p with owed := p.owed.erase h.tag })).adminSettle h.part)
  | _ => s

/-- An answer turned into the command's only or first reply. -/
def State.answer (s : State) (h : Issue) (op : Nat) (a : Ans) (final : Bool) : State :=
  let d := replyData h (resultBytes a.items)
  (s.sendReply h (replyBits op h.tag a.status a.index a.reason a.permille a.position d.1 final) d.2 true).paid h

/-- The reply of a command that is not long and whose work has now ended (R56, R95, R111). -/
def State.answerLater (s : State) (h : Issue) (op status : Nat) (items : Items := []) : State :=
  s.answer h op { st := s, status, items } true

/-- Long commands of a partition still in progress (R430). -/
def PartS.running (p : PartS) : List LongC := p.long.filter (fun l => !l.done)

/-- A long command begins: its record replaces an ended one of the same TAG (R430). -/
def State.longStart (s : State) (h : Issue) (op : Nat) : State :=
  let l : LongC := { tag := BitVec.ofNat 16 h.tag, opcode := BitVec.ofNat 16 op, path := h.path }
  s.updPart h.part (fun p => { p with long := p.long.filter (fun x => x.tag.toNat != h.tag) ++ [l] })

/-- Progress of a long command; PERMILLE and POSITION never decrease (R430). -/
def State.longProgress (s : State) (h : Issue) (permille position : Nat) : State :=
  s.updPart h.part (fun p => { p with long := p.long.map (fun l =>
    if l.tag.toNat == h.tag && !l.done
    then { l with permille := max l.permille permille, position := max l.position position } else l) })

/-- A long command ends with its one final reply, PERMILLE 1,000 (R430); its record is kept for CMD_PROGRESS. -/
def State.longEnd (s : State) (h : Issue) (op : Nat) (a : Ans) : State :=
  let d := replyData h (resultBytes a.items)
  let known := (s.part h.part).long.any (fun l => l.tag.toNat == h.tag && !l.done)
  if !known then s
  else
    let s := s.updPart h.part (fun p => { p with long := p.long.map (fun l =>
      if l.tag.toNat == h.tag && !l.done
      then { l with done := true, status := BitVec.ofNat 8 a.status, data := BitVec.ofNat 64 d.1, permille := 1000,
                    endedAt := s.clockNs, position := max l.position a.position }
      else l) })
    let s := s.sendReply h (replyBits op h.tag a.status a.index a.reason 1000 a.position d.1 true) d.2 false
    s.adminSettle h.part

/-- A Vuino command as every one runs: nothing while no firmware serves its way in; BUSY in SLUMBER for what that state does
not serve (R496), and while the control processor that holds the command is isolated (R492); INVALID_PARAM for the TAG of a long command in progress (R430), for a tenant's use of a command of partition
0 (R434) and for reserved bits of a parameter (R427); otherwise its own meaning, replied to at once, or with IN_PROGRESS where
it is long and not yet done (BUSY where the partition holds 8 already), or later where the meaning keeps the reply. -/
def vuino (h : Issue) (op : Nat) (vals : Nats) (body : State → Ans) (s : State) : State :=
  match opInfo op with
  | none => if s.serving then s.answer h op { st := s, status := 19 } true else s
  | some i =>
    if !s.serving then s
    else if s.power.state.toNat ≥ 2 && !i.slumber then s.answer h op (Ans.busy s) true
    else if s.isolated 9 (Config.processorOf h.part h.tag) then s.answer h op (Ans.busy s) true
    else if (s.part h.part).running.any (fun l => l.tag.toNat == h.tag) then s.answer h op (Ans.bad s) true
    else if i.zeroOnly && h.part != 0 then s.answer h op (Ans.bad s) true
    else match reservedAt (opLay op (vals.headD 0)) vals with
      | some o => s.answer h op (Ans.bad s o (if op / 256 = 1 then 12 else 0)) true
      | none =>
        let a := body s
        if a.later then
          if !i.long then a.st.owe h
          else if 8 ≤ (s.part h.part).running.length then s.answer h op (Ans.busy s) true
          else (a.st.longStart h op).answer h op { a with status := 21 } false
        else a.st.answer h op a true

end Sys2Proof.Machine
end

