-- ==== Sys2Proof/Machine/Tiers.lean ====
section
/-!
DEFINITION. Device memory (chapter 04): from offset to line, reads and writes under the check code, damaged granules, repair
and retirement, tiering, and the memory commands.
-/

namespace Sys2Proof.Machine

/-! ### From offset to line (R69) -/

/-- Granule of a target 0 offset. -/
def granOf (o : Nat) : Nat := o / 2 ^ 21

/-- First key of the backing store's granules in the granule map (R70). -/
def backing : Nat := 2 ^ 20

/-- A line of a channel: tier, channel, line number. -/
structure LineAt where
  /-- Far tier. -/
  far : Bool
  /-- Channel of the tier. -/
  chan : Nat
  /-- Line. -/
  line : Nat
deriving DecidableEq, Repr

/-- Key of a triple. -/
def tripleKey (far : Bool) (t : Nat) : Nat := b2n far * 64 + t
/-- Key of a channel. -/
def chanKey (far : Bool) (c : Nat) : Nat := b2n far * 48 + c

/-- The line of a target 0 offset, where its granule holds a frame (R69). -/
def State.lineOf (s : State) (o : Nat) : Option LineAt :=
  match AMap.get? s.mem.gmap (granOf o) with
  | none => none
  | some f =>
    let sl := f.frame * 4096 + o / 2 ^ 9 % 4096
    let j := o / 64 % 8
    some { far := f.far, chan := (AMap.get s.mem.triples (tripleKey f.far f.triple) []).getD (j % 3) 0, line := 3 * sl + j / 3 }

/-- The triple that a channel serves. -/
def State.tripleOf (s : State) (far : Bool) (c : Nat) : Option (Nat × Nats) :=
  (s.mem.triples.find? (fun e => decide (e.1 / 64 = b2n far) && e.2.contains c)).map (fun e => (e.1 % 64, e.2))

/-- The granule that lies in a frame. -/
def State.granAt (s : State) (far : Bool) (t f : Nat) : Option Nat :=
  (s.mem.gmap.find? (fun e => e.2.far == far && e.2.triple == t && e.2.frame == f)).map Prod.fst

/-- The target 0 offset whose data a line of a channel holds; none for check lines, free frames and the backing store. -/
def State.offsetOf (s : State) (l : LineAt) : Option Nat :=
  match s.tripleOf l.far l.chan with
  | none => none
  | some (t, cs) =>
    let j := 3 * (l.line % 3) + cs.idxOf l.chan
    let sl := l.line / 3
    match s.granAt l.far t (sl / 4096) with
    | none => none
    | some g => if j = 8 || backing ≤ g then none else some (g * 2 ^ 21 + sl % 4096 * 2 ^ 9 + j * 64)

/-- The folded address of a word of a line (R72). -/
def foldedAddr (l : LineAt) (word : Nat) : Nat := b2n l.far * 2 ^ 38 + l.chan * 2 ^ 32 + l.line % 2 ^ 29 * 8 + word

/-- The key of the DRAM row that holds a line (R80). -/
def rowOf (l : LineAt) : Nat := (chanKey l.far l.chan * 16 + l.line % 16) * 2 ^ 20 + l.line / 16 / 32
/-- The bank of a row, among all banks. -/
def bankOfRow (row : Nat) : Nat := row / 2 ^ 20
/-- Tier and channel of a row. -/
def chanOfRow (row : Nat) : Nat := row / 2 ^ 24

/-! ### Errors (R75, R78, R80) -/

/-- The partition that holds the memory unit of an offset. -/
def State.unitOwner (s : State) (o : Nat) : Option Nat :=
  let u := s.unit (o / 2 ^ 30)
  if u.st == 1 then some u.owner else none

/-- A MEM record for a line (R78, R505): to the owning partition and the manager. -/
def State.memRec (s : State) (reason : Nat) (o : Option Nat) (folded : Nat) : State :=
  s.postRec {
    cls := 1, reason, part := o.bind s.unitOwner, mgr := true,
    d0 := o.getD (2 ^ 64 - 1), d1 := folded }

/-- A granule is marked DAMAGED and recorded, once (R84). -/
def State.damage (s : State) (g : Nat) : State :=
  if s.mem.damaged.contains g then s
  else (s.updMem (fun m => { m with damaged := insertUp g m.damaged })).memRec 8 (some (g * 2 ^ 21)) 0

/-- 24 hours, in nanoseconds. -/
def day : Nat := 86400 * 10 ^ 9

/-- What one word's reading does: counts, records and the history of its row (R75, R78, R80). -/
def State.wordRead (s : State) (l : LineAt) (word : Nat) (o : Option Nat) (r : EccOut) : State :=
  let ck := chanKey l.far l.chan
  let row := rowOf l
  match r with
  | .clean => s
  | .ce1 => s.updMem (fun m => { m with
      chans := AMap.upd m.chans ck {} (fun c => { c with ce1 := c.ce1 + 1 })
      rows := AMap.upd m.rows row {} (fun d =>
        let ceAt := s.clockNs :: d.ceAt.filter (fun c => decide (s.clockNs < c + day))
        { d with ceAt, need := d.need || decide (16 ≤ ceAt.length) }) })
  | .ce2 => (s.updMem (fun m => { m with
      chans := AMap.upd m.chans ck {} (fun c => { c with ce2 := c.ce2 + 1 })
      rows := AMap.upd m.rows row {} (fun d => { d with need := true }) })).memRec 1 o (foldedAddr l word)
  | _ =>
    let seen := match AMap.get? (AMap.get s.mem.chans ck {}).lastUe l.line with
      | some c => decide (s.clockNs < c + 10 ^ 6)
      | none => false
    let s := s.updMem (fun m => { m with
      chans := AMap.upd m.chans ck {} (fun c => { c with
        ue := c.ue + 1, lastUe := if seen then c.lastUe else AMap.set c.lastUe l.line s.clockNs })
      rows := AMap.upd m.rows row {} (fun d => { d with need := true }) })
    s.onIf (!seen) (fun t => t.memRec (if r == .ueAddr then 3 else 2) o (foldedAddr l word))

/-- Whether a reading leaves the word unusable. -/
def EccOut.bad (r : EccOut) : Bool := r == .ueAddr || r == .ueData

/-- Words of an access whose reading is not clean: word number of target 0, and outcome. `errs` numbers words from the first
line of the access; stored uncorrectable words stay so (R76). -/
def State.faultyWords (s : State) (o n : Nat) (errs : WordErrs) : List (Nat × EccOut) :=
  let w0 := o / 64 * 8
  let w1 := (o + n + 63) / 64 * 8
  let stored := (s.mem.badWords.filter (fun w => decide (w0 ≤ w ∧ w < w1))).map (fun w => (w, EccOut.ueData))
  let fresh := (errs.filter (fun e => decide (w0 + e.1 < w1) && !s.mem.badWords.contains (w0 + e.1))).map
    (fun e => (w0 + e.1, wordOutcome e.2))
  stored ++ fresh.filter (fun e => e.2 != .clean)

/-- The effects of an access's faulty words (R75, R78, R80). -/
def State.wordsRead (s : State) (ws : List (Nat × EccOut)) : State :=
  s.eachOf ws (fun w t => match t.lineOf (w.1 * 8) with
    | some l => t.wordRead l (w.1 % 8) (some (w.1 * 8)) w.2
    | none => t)

/-- Accesses counted for tiering: 64-byte lines of a granule, saturating at 24 bits (R86). -/
def State.countLines (s : State) (o n : Nat) : State :=
  s.updMem (fun m => { m with counts := AMap.upd m.counts (granOf o) 0 (satAdd · ((o + n + 63) / 64 - o / 64)) })

/-- Status of an access by its granules: 6 for a DAMAGED one (R84), 7 for one that holds no frame (R71), 0 otherwise. -/
def State.granStatus (s : State) (o n : Nat) : Nat :=
  let gs := List.range' (granOf o) (granOf (o + n - 1) + 1 - granOf o)
  if n = 0 then 0
  else if gs.any (fun g => s.mem.damaged.contains g) then 6
  else if gs.any (fun g => (AMap.get? s.mem.gmap g).isNone) then 7 else 0

/-- The memory controller that holds a target 0 offset is isolated: an access of it ends MEM_UNCORRECTABLE (R492). -/
def State.cut (s : State) (o : Nat) : Bool :=
  match s.lineOf o with
  | some l => s.isolated 4 (chanKey l.far l.chan)
  | none => false

/-- A read of device memory: state, bytes of each 64-byte part (none where the part is withheld, R77), by offset, and the
status. -/
def State.memRead (s : State) (o n : Nat) (errs : WordErrs) : State × List (Nat × Option Bytes) × Nat :=
  let g := s.granStatus o n
  if g ≠ 0 then (s, [], g)
  else
    let ws := s.faultyWords o n errs
    let t := (s.wordsRead ws).countLines o n
    let badLine (a k : Nat) := ws.any (fun w => w.2.bad && decide (w.1 * 8 < a + k ∧ a < w.1 * 8 + 8))
    let parts := (lineParts (n / 64 + 2) o (zeros n)).map (fun p =>
      let a := p.1 + p.2.1
      let k := p.2.2.length
      (a, if badLine a k || s.cut a then none else some (Memory.rds s.devMem a k)))
    (t, parts, if parts.any (fun p => p.2.isNone) then 5 else 0)

/-- All bytes of a read whose parts were all usable. -/
def partsBytes (ps : List (Nat × Option Bytes)) : Bytes := ps.flatMap (fun p => p.2.getD [])

/-- A write of device memory: a word it covers only in part and that is uncorrectable keeps its bits, and the write then ends
MEM_UNCORRECTABLE; a word it replaces whole is made good (R76).
An isolated memory controller takes nothing (R492). -/
def State.memWrite (s : State) (o : Nat) (bs : Bytes) : State × Nat :=
  let n := bs.length
  let g := s.granStatus o n
  if g ≠ 0 then (s, g)
  else
    let whole (w : Nat) := decide (o ≤ w * 8 ∧ w * 8 + 8 ≤ o + n)
    let touch (w : Nat) := decide (o < w * 8 + 8 ∧ w * 8 < o + n)
    let ws := (s.faultyWords o n []).filter (fun w => !whole w.1)
    let keepW := s.mem.badWords.filter (fun w => touch w && !whole w)
    let t := (s.wordsRead ws).countLines o n
    let cells := (List.zip (List.range' o n) bs).filter (fun c => !keepW.contains (c.1 / 8) && !s.cut c.1)
    ({ t with
       devMem := cells.foldl (fun m c => Memory.wr m c.1 c.2) t.devMem
       mem := { t.mem with badWords := t.mem.badWords.filter (fun w => !whole w || s.cut (w * 8)) } },
     if keepW.isEmpty && !(List.range' o n).any s.cut then 0 else 5)

/-! ### Frames -/

/-- The first number from `i` on, within `fuel`, that a test accepts. -/
def searchFrom (p : Nat → Bool) : Nat → Nat → Option Nat
  | 0, _ => none
  | fuel + 1, i => if p i then some i else searchFrom p fuel (i + 1)

/-- The triples of a tier, lowest first. -/
def State.triplesOf (s : State) (far : Bool) : Nats :=
  (s.mem.triples.filter (fun e => decide (e.1 / 64 = b2n far))).map (fun e => e.1 % 64)

/-- A triple that is being evacuated takes no granule. -/
def State.dissolving (s : State) (far : Bool) (t : Nat) : Bool := s.mem.evacs.any (fun e => e.far == far && e.triple == t)

/-- Whether a frame holds no granule, is no move's destination and is in service (R70). -/
def State.frameFree (s : State) (far : Bool) (t f : Nat) : Bool :=
  (s.granAt far t f).isNone && !s.mem.retiredF.contains (b2n far, t, f) &&
  !s.mem.migs.any (fun e => e.2.dst.far == far && e.2.dst.triple == t && e.2.dst.frame == f && e.2.swap.isNone)

/-- The lowest free frame of a triple. -/
def State.freeInTriple (s : State) (far : Bool) (t : Nat) : Option Frame3 :=
  if s.dissolving far t then none
  else (searchFrom (s.frameFree far t) 32768 0).map (fun f => { far, triple := t, frame := f })

/-- The lowest free frame of a tier (assumption log 9). -/
def State.freeFrame (s : State) (far : Bool) : Option Frame3 := (s.triplesOf far).findSome? (fun t => s.freeInTriple far t)

/-- A free frame, in the same tier first and otherwise in the other (R81). -/
def State.freeEither (s : State) (far : Bool) : Option Frame3 := (s.freeFrame far).orElse (fun _ => s.freeFrame (!far))

/-- A granule's map entry points at a frame. -/
def State.mapTo (s : State) (g : Nat) (f : Frame3) : State := s.updMem (fun m => { m with gmap := AMap.set m.gmap g f })

/-- Uncorrectable words stored in a granule. -/
def State.hasBad (s : State) (g : Nat) : Bool := s.mem.badWords.any (fun w => w * 8 / 2 ^ 21 == g)

/-- Frames in service: of the triples, less those retired (R85). -/
def State.framesInService (s : State) : Nat :=
  32768 * (s.mem.triples.filter (fun e => !s.dissolving (e.1 / 64 == 1) (e.1 % 64))).length - s.mem.retiredF.length

/-- Units allotted, being erased or waiting for it. -/
def State.unitsTaken (s : State) : Nat := (s.units.filter (fun e => e.2.st != 0)).length

/-- Retained units (R70). -/
def State.unitsRetained (s : State) : Nat := (s.units.filter (fun e => e.2.st == 0 && e.2.retained)).length

/-- Units that hold no frames and can still be backed (R85). -/
def State.unitsBackable (s : State) : Nat :=
  (s.framesInService - 2048 - 512 * (s.unitsTaken + s.unitsRetained)) / 512

/-- ALLOTTABLE_UNITS (R85). -/
def State.allottable (s : State) : Nat := s.unitsRetained + s.unitsBackable

/-- The tier that takes a new unit: near while it has room for the whole unit, else far (assumption log 9). -/
def State.unitTier (s : State) : Bool :=
  let used := (s.mem.gmap.filter (fun e => !e.2.far)).length + (s.mem.retiredF.filter (fun e => e.1 == 0)).length
  decide (32768 * (s.triplesOf false).length < used + 512)

/-- A unit that holds no frames has its 512 granules placed in rotation over the triples of a tier (R70). -/
def State.placeUnit (s : State) (u : Nat) : State :=
  let far := s.unitTier
  let ts := s.triplesOf far
  (s.each (List.range 512) (fun i t =>
    match (t.freeInTriple far (ts.getD (i % ts.length) 0)).orElse (fun _ => t.freeEither far) with
    | some f => t.mapTo (u * 512 + i) f
    | none => t)).updUnit u (fun x => { x with framed := true })

/-- Granules of a unit leave their frames (R70, R446). -/
def State.unplaceUnit (s : State) (u : Nat) : State :=
  (s.updMem (fun m => { m with
    gmap := AMap.keep m.gmap (fun g _ => !decide (u * 512 ≤ g ∧ g < u * 512 + 512))
    migs := AMap.keep m.migs (fun g _ => !decide (u * 512 ≤ g ∧ g < u * 512 + 512)) })).updUnit u
      (fun x => { x with framed := false })

/-! ### Triples (R68, R82) -/

/-- Standby channels of a tier, lowest first; a looped one joins no triple (R526). -/
def State.standby (s : State) (far : Bool) : Nats :=
  (List.range 48).filter (fun c =>
    (AMap.get s.mem.chans (chanKey far c) {}).st == 1 && (AMap.get s.lb (64 + chanKey far c) {}).st != 1)

/-- A new triple is formed from three standby channels, at the lowest index not in use (R68). -/
def State.formTriple (s : State) (far : Bool) : State :=
  match s.standby far with
  | a :: b :: c :: _ =>
    match searchFrom (fun t => (AMap.get? s.mem.triples (tripleKey far t)).isNone) 16 0 with
    | none => s
    | some t => s.updMem (fun m => { m with
        triples := AMap.set m.triples (tripleKey far t) [a, b, c]
        chans := [a, b, c].foldl (fun cs k => AMap.upd cs (chanKey far k) {} (fun x => { x with st := 0 })) m.chans })
  | _ => s

/-- A channel is retired: the evacuation of its triple is queued, or a standby channel just leaves (R82). -/
def State.retireChan (s : State) (far : Bool) (c : Nat) (h : Option Issue) : State :=
  let s' := s.updMem (fun m => { m with chans := AMap.upd m.chans (chanKey far c) {} (fun x => { x with st := 2 }) })
  match s.tripleOf far c with
  | none => s'.postRec { cls := 1, reason := 7, mgr := true, d0 := 2 ^ 64 - 1 }
  | some (t, _) =>
    let gs := (s.mem.gmap.filter (fun e => e.2.far == far && e.2.triple == t)).map Prod.fst
    s'.updMem (fun m => { m with evacs := m.evacs ++
      [{ far, triple := t, chan := c, left := gs, total := gs.length, issue := h }] })

/-! ### Repair and retirement (R81) -/

/-- The one or two frames that hold lines of a row, with their tier and triple. -/
def State.framesOfRow (s : State) (row : Nat) : List (Bool × Nat × Nat) :=
  let far := decide (48 ≤ chanOfRow row)
  let c := chanOfRow row % 48
  let first := row / 2 ^ 20 % 16 + 512 * (row % 2 ^ 20)
  match s.tripleOf far c with
  | none => []
  | some (t, _) => (([first / 3 / 4096, (first + 496) / 3 / 4096] : Nats).dedup).map (fun f => (far, t, f))

/-- A granule moves to a free frame for repair, retirement or evacuation: an uncorrectable word makes it DAMAGED, a pin that
its tier cannot keep is displaced; false where no frame is free. -/
def State.moveOff (s : State) (g : Nat) (far lost : Bool) : State × Bool :=
  match s.freeEither far with
  | none => (s, false)
  | some f =>
    let bad := s.hasBad g || lost
    let s := s.mapTo g f
    let s := s.updMem (fun m => { m with badWords := m.badWords.filter (fun w => w * 8 / 2 ^ 21 != g), migs := AMap.erase m.migs g })
    let s := s.onIf (bad && decide (g < backing)) (fun t => t.damage g)
    (s.onIf (match AMap.get? s.mem.pins g with | some t => t != f.far | none => false)
      (fun t => t.memRec 9 (some (g * 2 ^ 21)) 0), true)

/-- Granules move off the frames of a row; false where one finds no free frame, and then none of the rest moves. -/
def State.clearRow (s : State) (row : Nat) : State × Bool :=
  (s.framesOfRow row).foldl (fun r f =>
    if !r.2 then r
    else match r.1.granAt f.1 f.2.1 f.2.2 with
      | none => r
      | some g => r.1.moveOff g f.1 false) (s, true)

/-- A move waits for a free frame: RETIRE_PENDING is posted once (R81). -/
def State.retirePending (s : State) (kind row : Nat) : State :=
  if s.mem.waiting.contains (kind, row) then s
  else (s.updMem (fun m => { m with waiting := m.waiting ++ [(kind, row)] })).memRec 6 none 0

/-- A row is repaired: its granules move off, a spare row takes its place, its counts start again (R81). -/
def State.repairRow (s : State) (row : Nat) : State :=
  let r := s.clearRow row
  if !r.2 then s.retirePending 0 row
  else
    let t := r.1.updMem (fun m => { m with
      rows := AMap.erase m.rows row
      spares := AMap.upd m.spares (bankOfRow row) 0 (· + 1)
      chans := AMap.upd m.chans (chanOfRow row) {} (fun c => { c with repaired := c.repaired + 1 })
      waiting := m.waiting.filter (fun w => w != (0, row)) })
    t.memRec 4 none 0

/-- Frames of a row leave service for good; more than 8 frames of the triple within 24 h retire the row's channel (R81,
R82). -/
def State.retireRow (s : State) (row : Nat) : State :=
  let fs := s.framesOfRow row
  let r := s.clearRow row
  if !r.2 then s.retirePending 1 row
  else
    let t := r.1.updMem (fun m => { m with
      rows := AMap.erase m.rows row
      retiredF := (fs.map (fun f => (b2n f.1, f.2.1, f.2.2))).foldl (fun l f => if l.contains f then l else l ++ [f]) m.retiredF
      retires24 := fs.foldl (fun c f => AMap.upd c (tripleKey f.1 f.2.1) [] (fun l => s.clockNs :: l)) m.retires24
      chans := AMap.upd m.chans (chanOfRow row) {} (fun c => { c with retiredF := c.retiredF + BitVec.ofNat 64 fs.length })
      waiting := m.waiting.filter (fun w => w != (1, row)) })
    let t := t.memRec 5 none 0
    let far := decide (48 ≤ chanOfRow row)
    let c := chanOfRow row % 48
    let tooMany := fs.any (fun f => decide (8 < ((AMap.get t.mem.retires24 (tripleKey f.1 f.2.1) []).filter
      (fun x => decide (t.clockNs < x + day))).length))
    t.onIf (tooMany && (AMap.get t.mem.chans (chanKey far c) {}).st != 2) (fun u => u.retireChan far c none)

/-- Spare rows used of a row's bank reach the four it has (R80). -/
def State.spareLeft (s : State) (row : Nat) : Bool := decide (AMap.get s.mem.spares (bankOfRow row) 0 < 4)

/-- ROW_REPAIR: a row marked for repair is repaired while its bank has a spare row (R80, R81). -/
def execRowRepair (row : Nat) (s : State) : Out :=
  .next (if (AMap.get s.mem.rows row {}).need && s.spareLeft row && !s.power.scrubPaused then s.repairRow row else s)

/-- FRAME_RETIRED: a row marked for repair in a bank without a spare row has its frames retired (R80-R82). -/
def execFrameRetired (row : Nat) (s : State) : Out :=
  .next (if (AMap.get s.mem.rows row {}).need && !s.spareLeft row && !s.power.scrubPaused then s.retireRow row else s)

/-- FREE_FRAME_AVAILABLE: the oldest repair or retirement that waits is started where a frame is free (R81). -/
def execFreeFrameAvailable (tier : Nat) (s : State) : Out :=
  .next (match s.mem.waiting with
    | [] => s
    | (k, row) :: _ =>
      if (s.freeFrame (tier == 1)).isNone then s else if k == 0 then s.repairRow row else s.retireRow row)

/-! ### Channels (R82) -/

/-- CHANNEL_FAILURE: a running channel that fails is retired (R82). -/
def execChannelFailure (tier chan : Nat) (s : State) : Out :=
  .next (if 2 ≤ tier || 48 ≤ chan || (AMap.get s.mem.chans (chanKey (tier == 1) chan) {}).st == 2 then s
    else s.retireChan (tier == 1) chan none)

/-- The order in which an evacuation places granules (R82, R83): the backing store, then by access count falling, the lower
granule number first, granules that lost data last. -/
def evacOrder (counts : AMap (BitVec 24)) (lost gs : Nats) : Nats :=
  let key (g : Nat) : Nat :=
    (if backing ≤ g then 0 else 1) * 2 ^ 60 + (if lost.contains g then 1 else 0) * 2 ^ 58
      + (2 ^ 24 - (AMap.get counts g 0).toNat) * 2 ^ 30 + g
  (sortUp (gs.map key)).map (fun k => k % 2 ^ 30)

/-- EVACUATION_END: the granules of the dissolved triple are placed in free frames, those without one become DAMAGED, the
surviving channels join the standby pool and CHAN_RETIRED is posted (R82-R84, R68). -/
def execEvacuationEnd (tier : Nat) (lost : Nats) (s : State) : Out :=
  let far := tier == 1
  .next (match s.mem.evacs.find? (fun e => e.far == far) with
    | none => s
    | some e =>
      if s.power.scrubPaused then s
      else
        let s := s.each (evacOrder s.mem.counts lost e.left) (fun g t =>
          let r := t.moveOff g far (lost.contains g)
          if r.2 then r.1
          else (t.updMem (fun m => { m with gmap := AMap.erase m.gmap g })).onIf (decide (g < backing)) (fun u => u.damage g))
        let cs := AMap.get s.mem.triples (tripleKey far e.triple) []
        let s := s.updMem (fun m => { m with
          triples := AMap.erase m.triples (tripleKey far e.triple)
          evacs := m.evacs.erase e
          chans := (cs.filter (fun c => c != e.chan)).foldl (fun x c => AMap.upd x (chanKey far c) {} (fun y => { y with st := 1 })) m.chans })
        let s := s.formTriple far
        let s := s.postRec { cls := 1, reason := 7, mgr := true, d0 := 2 ^ 64 - 1 }
        match e.issue with
        | some h => s.longEnd h 0x0205 { st := s, position := e.total }
        | none => s)

/-! ### Scrub (R79) -/

/-- SCRUB_LINE: the next line of a channel in use is read and corrected words are written back; a corrected word counts for
its pass, two passes within 72 h or 16 errors within 24 h mark the row; a pass longer than SCRUB_HOURS is recorded once
(R79, R80). -/
def execScrubLine (tier chan : Nat) (errs : WordErrs) (s : State) : Out :=
  let far := tier == 1
  let ck := chanKey far chan
  .next (if 2 ≤ tier || 48 ≤ chan || s.power.scrubPaused || s.power.migHalved || !((s.tripleOf far chan).isSome) then s
    else
      let pos := AMap.get s.mem.scrubPos ck 0
      let l : LineAt := { far, chan, line := pos }
      let o := s.offsetOf l
      let outs := errs.map (fun e => (e.1, wordOutcome e.2))
      let s := s.eachOf outs (fun w t => t.wordRead l w.1 (o.map (· + 8 * w.1)) w.2)
      let s := s.onIf (outs.any (fun w => w.2 == .ce1)) (fun t => t.updMem (fun m => { m with
        rows := AMap.upd m.rows (rowOf l) {} (fun d =>
          let ps := AMap.set (AMap.keep d.passes (fun _ c => decide (s.clockNs < c + 3 * day))) m.scrubPass s.clockNs
          { d with passes := ps, need := d.need || decide (2 ≤ ps.length) }) }))
      let s := s.updMem (fun m => { m with
        badWords := (outs.filter (fun w => w.2.bad)).foldl (fun b w => match o with
          | some a => insertUp (a / 8 + w.1) b
          | none => b) m.badWords
        scrubPos := AMap.set m.scrubPos ck ((pos + 1) % 402653184) })
      let late := decide (s.mem.scrubHours.toNat * 3600 * 10 ^ 9 < s.clockNs - s.mem.scrubBegan)
      let s := s.onIf (late && !s.mem.scrubLate) (fun t => (t.updMem (fun m => { m with scrubLate := true })).memRec 10 none 0)
      s.onIf (pos + 1 == 402653184) (fun t => t.updMem (fun m => { m with
        scrubPass := m.scrubPass + 1, scrubBegan := t.clockNs, scrubLate := false })))

/-! ### Tiering (R86, R87, R90) -/

/-- Granules of a partition in the near tier, in granules. -/
def State.nearOf (s : State) (p : Nat) : Nat :=
  (s.mem.gmap.filter (fun e => !e.2.far && decide (e.1 < backing) && s.unitOwner (e.1 * 2 ^ 21) == some p)).length

/-- NEAR_MAX of a partition in granules: its bound, or no limit (assumption log 6). -/
def State.nearMax (s : State) (p : Nat) : Nat := ((AMap.get s.mem.bounds p (0, 2048)).2) * 512
/-- NEAR_MIN of a partition in granules. -/
def State.nearMin (s : State) (p : Nat) : Nat := ((AMap.get s.mem.bounds p (0, 2048)).1) * 512

/-- Granules that policy may move: of allotted units, not pinned, not already moving (R70, R86). -/
def State.movable (s : State) (g : Nat) : Bool :=
  decide (g < backing) && (s.unitOwner (g * 2 ^ 21)).isSome && (AMap.get? s.mem.pins g).isNone &&
  (AMap.get? s.mem.migs g).isNone && !s.mem.damaged.contains g &&
  !s.mem.migs.any (fun e => e.2.swap == some g)

/-- Numbers of a list with their weights, heaviest first, the lower number first among equals. -/
def heaviest (ws : List (Nat × Nat)) : List (Nat × Nat) :=
  ws.foldr (fun x acc =>
    let before := acc.takeWhile (fun y => decide (x.2 < y.2) || (x.2 == y.2 && decide (y.1 < x.1)))
    before ++ x :: acc.drop before.length) []

/-- One ranked far granule is promoted to a free near frame, or swaps with the unpinned near granule of lowest count, within
the bounds of both partitions (R86). The budget is in bytes of copy reads left (R87). -/
def State.promote (s : State) (hyst budget g cnt : Nat) : State × Nat :=
  let p := (s.unitOwner (g * 2 ^ 21)).getD 0
  match s.freeFrame false with
  | some f =>
    if budget < 2 ^ 21 || s.nearMax p ≤ s.nearOf p then (s, budget)
    else (s.updMem (fun m => { m with migs := AMap.set m.migs g { dst := f } }), budget - 2 ^ 21)
  | none =>
    let near := (s.mem.gmap.filter (fun e => !e.2.far && s.movable e.1)).map (fun e => (e.1, (AMap.get s.mem.counts e.1 0).toNat))
    match (heaviest near).getLast? with
    | none => (s, budget)
    | some (v, vc) =>
      let q := (s.unitOwner (v * 2 ^ 21)).getD 0
      if budget < 2 ^ 22 || cnt * 8 < hyst * vc || (p != q && (s.nearOf q ≤ s.nearMin q || s.nearMax p ≤ s.nearOf p)) then (s, budget)
      else match AMap.get? s.mem.gmap v with
        | none => (s, budget)
        | some f => (s.updMem (fun m => { m with migs := AMap.set m.migs g { dst := f, swap := some v } }), budget - 2 ^ 22)

/-- TIER_EPOCH_END: far granules at or above MIN_COUNT are ranked and promoted or swapped as far as MIG_BW allows in an
epoch; the counts start again and the tiering block's basting copy takes effect (R86, R87, R90). -/
def execTierEpochEnd (s : State) : Out :=
  let a := s.mem.tierAct
  let bw := (if s.power.migHalved then fld a 47 40 / 2 else fld a 47 40) * fld a 31 16 * 10 ^ 6
  let far := (s.mem.gmap.filter (fun e => e.2.far && s.movable e.1)).map (fun e => (e.1, (AMap.get s.mem.counts e.1 0).toNat))
  let ranked := heaviest (far.filter (fun e => decide (fld a 63 48 ≤ e.2)))
  let s := if fld a 7 0 = 1 || s.power.scrubPaused then s
    else (ranked.foldl (fun r e => r.1.promote (fld a 39 32) r.2 e.1 e.2) (s, bw)).1
  .next (s.updMem (fun m => { m with counts := [], tierAct := m.tierBast }))

/-- A MEM_PIN in progress ends once every granule it names sits in its tier (R89). -/
def State.pinSettle (s : State) : State :=
  s.eachOf s.mem.jobs (fun j t =>
    if j.kind != 0 then t
    else
      let left := j.left.filter (fun g => match AMap.get? t.mem.gmap g with
        | some f => f.far != j.far
        | none => false)
      let n := j.total - left.length
      let t := t.updMem (fun m => { m with jobs := m.jobs.map (fun x => if x == j then { x with left } else x) })
      if left.isEmpty then
        (t.updMem (fun m => { m with jobs := m.jobs.filter (fun x => x != { j with left }) })).longEnd j.issue 0x0202
          { st := t, position := j.total }
      else t.longProgress j.issue (n * 1000 / j.total) n)

/-- GRANULE_MOVE_DONE: a granule's copy ends and its map entry switches, a swap's both; a policy move that met an
uncorrectable word is abandoned, any other makes the granule DAMAGED (R77, R81, R87). -/
def execGranuleMoveDone (granule : Nat) (uncorrectable : Bool) (s : State) : Out :=
  .next (match AMap.get? s.mem.migs granule, AMap.get? s.mem.gmap granule with
    | some m, some src =>
      let bad := uncorrectable || s.hasBad granule || (m.swap.map s.hasBad).getD false
      let s := s.updMem (fun x => { x with migs := AMap.erase x.migs granule })
      if bad && m.why != 4 then s
      else
        let s := s.mapTo granule m.dst
        let s := match m.swap with | some v => s.mapTo v src | none => s
        let s := s.onIf bad (fun t => t.damage granule)
        s.pinSettle
    | _, _ => s)

/-! ### Commands (R89, R90) -/

/-- MEM_TIER_SET: the tiering block's basting copy (R90). -/
def execMemTierSet (h : Issue) (blk : BitVec 64) (s : State) : Out :=
  .next (vuino h 0x0200 [blk.toNat] (fun s =>
    let bw := fld blk 47 40
    let hy := fld blk 39 32
    let ep := fld blk 31 16
    if bw = 0 || 200 < bw || hy < 8 || 64 < hy || ep = 0 || 1000 < ep || !zeroFld blk 15 8 || 1 < fld blk 7 0 then Ans.bad s
    else Ans.ok (s.updMem (fun m => { m with tierBast := blk }))) s)

/-- MEM_BOUND: NEAR_MIN and NEAR_MAX of a partition (R89). -/
def execMemBound (h : Issue) (part nearMin nearMax : Nat) (s : State) : Out :=
  .next (vuino h 0x0201 [part, nearMin, nearMax] (fun s =>
    let sum := ((s.mem.bounds.filter (fun e => e.1 != part)).map (fun e => e.2.1)).sum + nearMin
    let nearUnits := (32768 * (s.triplesOf false).length - (s.mem.retiredF.filter (fun f => f.1 == 0)).length) / 512
    if 64 ≤ part || nearMax < nearMin || (s.part part).units.length < nearMax then Ans.bad s
    else if nearUnits < sum then Ans.noRes s
    else Ans.ok (s.updMem (fun m => { m with bounds := AMap.set m.bounds part (nearMin, nearMax) }))) s)

/-- Whether a range of granules may be named by an issuer: partition 0 any granule of target 0, a tenant those of its own
units (R89). -/
def State.granRangeOk (s : State) (h : Issue) (offset count : Nat) : Bool :=
  decide (0 < count) && offset % 2 ^ 21 == 0 && decide (offset / 2 ^ 21 + count ≤ backing) &&
  (h.part == 0 || (List.range' (offset / 2 ^ 30) ((offset + count * 2 ^ 21 - 1) / 2 ^ 30 + 1 - offset / 2 ^ 30)).all
    (fun u => (s.part h.part).units.contains u))

/-- MEM_PIN: granules are pinned to a tier, moving those in the other, or unpinned (R89). -/
def execMemPin (h : Issue) (offset count tier : Nat) (s : State) : Out :=
  .next (vuino h 0x0202 [offset, count, tier] (fun s =>
    if !s.granRangeOk h offset count || 2 < tier then Ans.bad s
    else
      let gs := List.range' (offset / 2 ^ 21) count
      let p := (s.unitOwner offset).getD h.part
      let pinned := (s.mem.pins.filter (fun e => !e.2 && AMap.get s.mem.pinOwner e.1 64 == p && !gs.contains e.1)).length
      if tier = 0 then Ans.ok (s.updMem (fun m => { m with
        pins := AMap.keep m.pins (fun g _ => !gs.contains g), pinOwner := AMap.keep m.pinOwner (fun g _ => !gs.contains g) }))
      else if tier = 1 && decide (s.nearMax p < pinned + count) then Ans.noRes s
      else
        let far := tier == 2
        let s := s.updMem (fun m => { m with
          pins := gs.foldl (fun x g => AMap.set x g far) m.pins
          pinOwner := gs.foldl (fun x g => AMap.set x g p) m.pinOwner })
        let left := gs.filter (fun g => match AMap.get? s.mem.gmap g with | some f => f.far != far | none => false)
        if left.isEmpty then Ans.ok s
        else
          let s := s.each left (fun g t => match t.freeFrame far with
            | some f => t.updMem (fun m => { m with migs := AMap.set m.migs g { dst := f, why := 4 } })
            | none =>
              let near := (t.mem.gmap.filter (fun e => e.2.far == far && t.movable e.1)).map
                (fun e => (e.1, (AMap.get t.mem.counts e.1 0).toNat))
              match (heaviest near).getLast? with
              | some (v, _) =>
                let mv : Mig := { dst := AMap.get t.mem.gmap v {}, swap := some v, why := 4 }
                t.updMem (fun m => { m with migs := AMap.set m.migs g mv })
              | none => t)
          Ans.wait (s.updMem (fun m => { m with jobs := m.jobs ++ [{ issue := h, left, total := count, far, kind := 0 }] }))) s)

/-- MEM_CLEAR_DAMAGED: DAMAGED granules of the range get frames filled with zeros, as far as frames are free (R84, R89). -/
def execMemClearDamaged (h : Issue) (offset count : Nat) (s : State) : Out :=
  .next (vuino h 0x0203 [offset, count] (fun s =>
    if !s.granRangeOk h offset count then Ans.bad s
    else
      let gs := (List.range' (offset / 2 ^ 21) count).filter (fun g => s.mem.damaged.contains g)
      let r := gs.foldl (fun (r : State × Nat) g =>
        let f := match AMap.get? r.1.mem.gmap g with | some f => some f | none => r.1.freeFrame false |>.orElse (fun _ => r.1.freeFrame true)
        match f with
        | none => (r.1, r.2 + 1)
        | some f =>
          let t := r.1.mapTo g f
          ({ t with
             devMem := Memory.zero t.devMem (g * 2 ^ 21) (2 ^ 21)
             mem := { t.mem with
               damaged := t.mem.damaged.filter (· != g)
               badWords := t.mem.badWords.filter (fun w => w * 8 / 2 ^ 21 != g) } }, r.2)) (s, 0)
      if r.2 = 0 then { Ans.ok r.1 with position := count, permille := 1000 }
      else { Ans.noRes r.1 with position := count - r.2 }) s)

/-- MEM_SCRUB_SET: SCRUB_HOURS (R89). -/
def execMemScrubSet (h : Issue) (hours : Nat) (s : State) : Out :=
  .next (vuino h 0x0204 [hours] (fun s =>
    if hours = 0 || 168 < hours then Ans.bad s
    else Ans.ok (s.updMem (fun m => { m with scrubHours := BitVec.ofNat 8 hours }))) s)

/-- MEM_CHAN_RETIRE: a channel is retired; the reply follows its evacuation (R82, R89). -/
def execMemChanRetire (h : Issue) (tier chan : Nat) (s : State) : Out :=
  .next (vuino h 0x0205 [tier, chan] (fun s =>
    if 1 < tier || 47 < chan || (AMap.get s.mem.chans (chanKey (tier == 1) chan) {}).st == 2 then Ans.bad s
    else if (s.tripleOf (tier == 1) chan).isNone then Ans.ok (s.retireChan (tier == 1) chan none)
    else Ans.wait (s.retireChan (tier == 1) chan (some h))) s)

/-- MEM_QUERY: a channel's counts, repairs and place, ALLOTTABLE_UNITS and MEMINIT_DONE (R89). -/
def execMemQuery (h : Issue) (tier chan : Nat) (s : State) : Out :=
  .next (vuino h 0x0206 [tier, chan] (fun s =>
    if 1 < tier || 47 < chan then Ans.bad s
    else
      let c := AMap.get s.mem.chans (chanKey (tier == 1) chan) {}
      let place := match s.tripleOf (tier == 1) chan with
        | some (t, _) => t
        | none => if c.st == 1 then 0xFE else 0xFF
      Ans.ok s [sc 8 c.ce1.toNat, sc 8 c.ce2.toNat, sc 8 c.ue.toNat, sc 8 c.repaired.toNat, sc 8 c.retiredF.toNat,
        sc 1 place, sc 2 s.allottable, sc 1 (b2n s.mem.init)]) s)

end Sys2Proof.Machine
end

