-- ==== Sys2Proof/Machine/Routing.lean ====
section
/-!
DEFINITION. Positions and addresses (chapter 02), the fabric header, the hop classes, tables and choice of ports (chapter 09),
and the output queues that packets wait in (R160, R166).
-/

namespace Sys2Proof.Machine

/-! ### Positions (R23, R28) -/

/-- Kind bit of a device ID: a spine. -/
def idSpine (d : Nat) : Bool := decide (2 ^ 15 ≤ d)
/-- Plane of an adapter ID, or spine index of a spine ID. -/
def idPlane (d : Nat) : Nat := d / 2 ^ 10 % (if idSpine d then 2 else 32)
/-- Row of a device ID. -/
def idRow (d : Nat) : Nat := d / 2 ^ 6 % 16
/-- Column of a device ID. -/
def idCol (d : Nat) : Nat := d / 2 ^ 2 % 16
/-- The device ID of an adapter. -/
def mkId (p r c : Nat) : Nat := p * 2 ^ 10 + r * 2 ^ 6 + c * 2 ^ 2
/-- The device ID of a spine. -/
def mkSpine (s r c : Nat) : Nat := 2 ^ 15 + s * 2 ^ 10 + r * 2 ^ 6 + c * 2 ^ 2
/-- An ID that sets no bit the table of R28 marks zero. -/
def validId (d : Nat) : Bool := decide (d < 2 ^ 16) && d % 4 == 0 && (!idSpine d || d / 2 ^ 11 % 16 == 0)

/-- The port code of port `n` (R40). -/
def portCode (spine : Bool) (n : Nat) : Nat := if spine then 128 + n else if n < 15 then n else if n < 30 then 64 + n - 15 else 128 + n - 30

/-- Column (or row) that the port of index `k` leads to from column (or row) `c` (R24). -/
def leadsTo (k c : Nat) : Nat := if k < c then k else k + 1
/-- Index of the port that leads from `c` to `d` (R24). -/
def portTo (c d : Nat) : Nat := if d < c then d else d - 1

/-- The device ID and port code expected at the far end of port `n` of an adapter at this position (R24, R25). -/
def expected (me n : Nat) : Nat × Nat :=
  if idSpine me then (mkId n (idRow me) (idCol me), 128 + idPlane me)
  else
    let p := idPlane me; let r := idRow me; let c := idCol me
    if n < 15 then let d := leadsTo n c; (mkId p r d, portTo d c)
    else if n < 30 then let d := leadsTo (n - 15) r; (mkId p d c, 64 + portTo d r)
    else (mkSpine (n - 30) r c, 128 + p)

/-- Whether port `n` retries flits and starts in credit mode: a row or column port (R180, R186). -/
def State.rowCol (s : State) (n : Nat) : Bool := !s.spine && decide (n < 30)

/-- The port carries packets: UP with MATCH (R192). -/
def PortS.open (p : PortS) : Bool := p.state == 3 && p.check == 2

/-- The port runs in a loop-back (R526, R527). -/
def State.looped (s : State) (n : Nat) : Bool := (AMap.get? s.lbPrior n).isSome

/-- Port `n` may be chosen for a packet: it carries packets and no release or loop-back holds it out of the candidate sets (R231,
R526). -/
def State.portOpen (s : State) (n : Nat) : Bool :=
  decide (n < 32) && (s.port n).open && !(s.port n).els && !s.looped n && s.devidValid

end Sys2Proof.Machine

namespace Sys2Proof

/-! ### The fabric header (R124) -/

/-- DEST_ID. -/
def Pkt.dest (p : Pkt) : Nat := fld p.fab 127 112
/-- SRC_ID. -/
def Pkt.src (p : Pkt) : Nat := fld p.fab 111 96
/-- VC. -/
def Pkt.vc (p : Pkt) : Nat := fld p.fab 95 94
/-- EPOCH. -/
def Pkt.epoch (p : Pkt) : Bool := bitAt p.fab 93
/-- MARK. -/
def Pkt.mark (p : Pkt) : Bool := bitAt p.fab 92
/-- MCAST. -/
def Pkt.mcast (p : Pkt) : Bool := bitAt p.fab 91
/-- RELAY. -/
def Pkt.relay (p : Pkt) : Bool := bitAt p.fab 90
/-- HOPS. -/
def Pkt.hops (p : Pkt) : Nat := fld p.fab 87 84
/-- PROTO. -/
def Pkt.proto (p : Pkt) : Nat := fld p.fab 83 80
/-- MGROUP. -/
def Pkt.mgroup (p : Pkt) : Nat := fld p.fab 79 64
/-- LENGTH. -/
def Pkt.flen (p : Pkt) : Nat := fld p.fab 63 51
/-- ENTROPY. -/
def Pkt.entropy (p : Pkt) : Nat := fld p.fab 47 32
/-- TX_TAPE. -/
def Pkt.txTape (p : Pkt) : Nat := fld p.fab 31 0
/-- OPCODE of a transport packet (R126). -/
def Pkt.op (p : Pkt) : Nat := fld p.hdr 255 248
/-- ENC of a transport packet. -/
def Pkt.enc (p : Pkt) : Bool := p.proto == 0 && bitAt p.hdr 243

/-- Bytes of a packet on the wire (R123): the header, LENGTH and the trailer. -/
def Pkt.size (p : Pkt) : Nat := 16 + p.flen + (if p.enc then 16 else 8)

/-- DATA flits a packet fills when it is sent by itself: 248 bytes each (R174, R176). -/
def Pkt.flits (p : Pkt) : Nat := (roundUp p.size 8 + 247) / 248

/-- A packet whose bytes the injection window counts (R157). -/
def Pkt.counted (p : Pkt) : Bool :=
  (p.proto == 0 || p.proto == 1) && !p.mcast && (p.vc == 1 || p.vc == 2) &&
  !(p.proto == 0 && (p.op == 0x42 || p.op == 0x43 || p.op == 0x44 || p.op == 0x45 || p.op == 0x46 || p.op == 0x09))

/-- The fabric header of a packet made here; EPOCH, HOPS and TX_TAPE are set as it leaves. -/
def fabHead (dest src vc proto len entropy : Nat) : BitVec 128 :=
  pack 128 [(127, 112, dest), (111, 96, src), (95, 94, vc), (83, 80, proto), (63, 51, len), (47, 32, entropy)]

end Sys2Proof

namespace Sys2Proof.Machine

/-! ### Hop classes and the turn rule (R195, R196) -/

/-- The class of the hop by which a packet arrived on port `n` of an adapter in a plane: 2 S_DOWN to 6 Y_DESC; 0 for a packet
made here. -/
def arrivedBy (me n : Nat) : Nat :=
  if 32 ≤ n then 0
  else if n < 15 then (if n < idCol me then 3 else 4)
  else if n < 30 then (if n - 15 < idRow me then 5 else 6)
  else 2

/-- The class of a hop that leaves by port `n` of an adapter in a plane for this destination. -/
def leavesBy (me dest n : Nat) : Nat :=
  if n < 15 then (if idCol me ≤ n then 3 else 4)
  else if n < 30 then (if idRow me ≤ n - 15 then 5 else 6)
  else if idSpine dest then 7 else 1

/-- The turn rule for a packet from port `inp` (32 for one made here) to port `out` (R196, R166). -/
def State.turnOk (s : State) (inp out dest : Nat) : Bool :=
  let me := s.myId
  if s.spine then inp == 32 || (inp != out && !idSpine dest)
  else inp != out && decide (arrivedBy me inp < leavesBy me dest out)

/-! ### Lookup (R199-R201) -/

/-- What a lookup gives. -/
inductive Lookup where
  /-- The packet is for this adapter. -/
  | here
  /-- One port, without a choice: S_EXIT or a spine's own packet. -/
  | port (n : Nat)
  /-- A table entry: MASK, PENALTY in KiB, and the ports that are no detour. -/
  | entry (mask : BitVec 32) (penalty : Nat) (direct : Nats)
  /-- The bank is WRITING. -/
  | stale
deriving DecidableEq, Repr

/-- The bank that an epoch bit selects. -/
def RouteS.bank (r : RouteS) (e : Bool) : BankS := if e then r.b else r.a

/-- An entry of a table: its index among the bank's 64, and the ports that lead straight to its destination (R200). -/
def State.bankEntry (s : State) (useTables epoch : Bool) (idx : Nat) (direct : Nats) (minimal : Nat) : Lookup :=
  let b := s.route.bank epoch
  if useTables && b.st == 1 then .stale
  else if !useTables || b.st == 0 then .entry (BitVec.ofNat 32 (2 ^ minimal)) 0 [minimal]
  else let e := AMap.get b.ents idx 0
       .entry (e.setWidth 32) (fld e 47 40) direct

/-- The lookup of R199 at an adapter in a plane, or at a spine. -/
def State.lookup (s : State) (useTables epoch : Bool) (dest : Nat) : Lookup :=
  let me := s.myId
  let p := idPlane me; let r := idRow me; let c := idCol me
  if dest = me then .here
  else if s.spine then
    if idSpine dest then match (List.range 32).find? s.portOpen with
      | some n => .port n
      | none => .entry 0 0 []
    else s.bankEntry useTables epoch (idPlane dest) [idPlane dest] (idPlane dest)
  else if !idSpine dest && idPlane dest != p then
    s.bankEntry useTables epoch (idPlane dest) [30, 31] (if s.portOpen 30 then 30 else 31)
  else
    let e := idRow dest; let d := idCol dest
    if d != c then s.bankEntry useTables epoch (32 + d) [portTo c d] (portTo c d)
    else if e != r then s.bankEntry useTables epoch (48 + e) [15 + portTo r e] (15 + portTo r e)
    else .port (30 + idPlane dest)

/-- The port an adapter at `me` takes next by minimal routing (R201, R203). -/
def minimalPort (me dest : Nat) : Nat :=
  if idSpine me then idPlane dest
  else if !idSpine dest && idPlane dest != idPlane me then 30
  else if idCol dest != idCol me then portTo (idCol me) (idCol dest)
  else if idRow dest != idRow me then 15 + portTo (idRow me) (idRow dest)
  else 30 + idPlane dest

/-! ### Output queues -/

/-- Key of the output queue of a port and VC. -/
def oqKey (port vc : Nat) : Nat := port * 4 + vc
/-- The output queue of a port and VC. -/
def State.outq (s : State) (port vc : Nat) : List QPkt := AMap.get s.tp.outq (oqKey port vc) []
/-- An output queue changed. -/
def State.updOutq (s : State) (port vc : Nat) (f : List QPkt → List QPkt) : State :=
  s.updTp (fun t => { t with outq := AMap.upd t.outq (oqKey port vc) [] f })
/-- Bytes waiting in an output queue. -/
def State.depth (s : State) (port vc : Nat) : Nat := ((s.outq port vc).map (fun q => q.pkt.size)).sum

/-- A packet joins an output queue: MARK where the queue is at or above MARK_THRESH, on any VC but VC3 (R160). -/
def State.enqueue (s : State) (port : Nat) (q : QPkt) : State :=
  let vc := q.pkt.vc
  let m := vc != 3 && decide (s.tp.markTh.toNat * 1024 ≤ s.depth port vc)
  let s := s.onIf m (fun t => (t.cntCc 0 1).updPort port (fun p => { p with epochMark := p.epochMark + 1 }))
  let pkt := if m then { q.pkt with fab := setFld q.pkt.fab 92 92 1 } else q.pkt
  let s := s.updOutq port vc (· ++ [{ q with pkt, atNs := s.now.toNat }])
  s.updPort port (fun p => { p with snapB := AMap.upd p.snapB vc 0 (max (s.depth port vc)) })

/-! ### The choice of a port (R203) -/

/-- LEVEL of a neighbour's port for a VC, as it stood at the last tape epoch boundary (R203, R204, R213). -/
def PortS.level (p : PortS) (nport vc : Nat) : Nat :=
  if 32 ≤ nport then 0
  else
    let b := fld p.ahead (255 - 8 * nport) (248 - 8 * nport)
    if vc == 1 then b / 16 else if vc == 2 then b % 16 else 0

/-- The cost of a candidate in KiB (R203). -/
def State.cost (s : State) (n vc dest pen : Nat) (direct : Nats) : Nat :=
  let nb := (expected s.myId n).1
  AMap.get s.route.depth (oqKey n vc) 0 + (if nb = dest then 0 else 16 * (s.port n).level (minimalPort nb dest) vc)
    + (if direct.contains n then 0 else pen)

/-- The index that ENTROPY gives among `k` ports (R203). -/
def entropyPick (entropy seed id k : Nat) : Nat :=
  let h := (entropy ^^^ seed ^^^ id) % 65536
  let h := h * 40503 % 65536 / 256
  if k = 0 then 0 else h % k

/-- Where a packet goes. -/
inductive Route where
  /-- Delivered here. -/
  | here
  /-- Out of this port; whether it is a detour. -/
  | out (n : Nat) (detour : Bool)
  /-- Dropped, counted in this routing counter. -/
  | drop (cnt : Nat)
deriving DecidableEq, Repr

/-- The port of a packet from input `inp` (32 for one made here), by the lookup, the turn rule and the choice of R203. -/
def State.routeBy (s : State) (useTables : Bool) (inp : Nat) (p : Pkt) : Route :=
  match s.lookup useTables p.epoch p.dest with
  | .here => .here
  | .stale => .drop 1
  | .port n => if !s.portOpen n then .drop 0 else if s.turnOk inp n p.dest then .out n false else .drop 2
  | .entry mask pen direct =>
    let up := (List.range 32).filter (fun n => mask.getLsbD n && s.portOpen n)
    let cs := up.filter (fun n => s.turnOk inp n p.dest)
    match cs with
    | [] => if up.isEmpty then .drop 0 else .drop 2
    | c :: rest =>
      if p.vc = 0 then .out c (!direct.contains c)
      else
        let costs := (c :: rest).map (fun n => (n, s.cost n p.vc p.dest pen direct))
        let low := (rest.map (fun n => s.cost n p.vc p.dest pen direct)).foldl min (s.cost c p.vc p.dest pen direct)
        let pref := (costs.filter (fun e => decide (e.2 ≤ low + s.route.slack.toNat))).map Prod.fst
        let n := pref.getD (entropyPick p.entropy s.route.seed.toNat s.myId pref.length) c
        .out n (!direct.contains n)

/-- The tape is LOCKED or HOLDOVER (R210). -/
def State.tapeAges (s : State) : Bool := s.tape.state == 2 || s.tape.state == 3

/-- The port of a packet made here, by the bank that it is stamped with (R206) or, with the tape unaged, by minimal routing
(R210). -/
def State.routeOwn (s : State) (p : Pkt) : Route :=
  s.routeBy s.tapeAges 32 { p with fab := setFld p.fab 93 93 (b2n s.route.inj) }

/-! ### Input slots (R184) -/

/-- Slots of a port and its on/off limit for a VC (R184). -/
def State.slotTotal (s : State) (n : Nat) : Nat := if s.rowCol n then 4096 else 12288
/-- On/off limit of a VC (R184). -/
def stopLimit (vc : Nat) : Nat := if vc = 0 then 640 else if vc = 3 then 256 else 832

/-- The STOP bits a port sends in on/off mode, from the slots it holds and those it was sending (R187). -/
def State.updStop (s : State) (n : Nat) : State :=
  s.updPort n (fun p =>
    let onoff := !s.rowCol n || p.onoff == some true || p.state == 4
    let held (v : Nat) : Nat := AMap.get p.slots v 0
    let free := s.slotTotal n - (held 0 + held 1 + held 2 + held 3)
    let loop := (p.loopNs.toNat * 25 + 15) / 16
    let bit (v : Nat) : Bool :=
      if !onoff then false
      else if stopLimit v ≤ held v || free ≤ loop + 256 then true
      else if held v + 64 ≤ stopLimit v && decide (loop + 512 < free) then false
      else bitAt p.stopTx v
    { p with stopTx := pack 4 ((List.range 4).map (fun v => (v, v, b2n (bit v)))) })

/-- Slots of an input port's VC are freed as a packet leaves it; freed slots are reported by CREDIT words (R178). -/
def State.freeSlots (s : State) (port vc n : Nat) : State :=
  if 32 ≤ port then s
  else
    let k := min n (AMap.get (s.port port).slots vc 0)
    let s := s.updPort port (fun p => { p with
      slots := AMap.upd p.slots vc 0 (· - k)
      freed := AMap.upd p.freed vc 0 (· + BitVec.ofNat 14 k)
      freedNew := AMap.upd p.freedNew vc 0 (· + k) })
    let p := s.port port
    let credit := s.rowCol port && p.onoff != some true && p.state != 4
    (s.onIf (credit && decide (32 ≤ AMap.get p.freedNew vc 0)) (fun t => t.updPort port (fun p =>
      let w : BitVec 64 := pack 64 [(63, 56, 1), (55, 42, (AMap.get p.freed 0 0).toNat), (41, 28, (AMap.get p.freed 1 0).toNat),
        (27, 14, (AMap.get p.freed 2 0).toNat), (13, 0, (AMap.get p.freed 3 0).toNat)]
      { p with freedNew := [], words := p.words ++ [w] }))).updStop port

/-- A packet is dropped at its input: its slots are freed. -/
def State.dropIn (s : State) (port : Nat) (p : Pkt) : State := s.freeSlots port p.vc p.flits

/-! ### Arrival -/

/-- A packet arrives on a port (32: from this adapter itself, R95): none where it is discarded there, because no packet is
accepted without a device ID (R32) or outside UP with MATCH (R44), or because it is none of the packets on their way inside the
adapter. -/
def State.arrive (s : State) (port : Nat) (p : Pkt) : State × Bool :=
  if port = 32 then
    if s.tp.loop.contains p then (s.updTp (fun t => { t with loop := t.loop.erase p }), true) else (s, false)
  else if 32 < port then (s, false)
  else if !s.devidValid then (s, false)
  else if !(s.port port).open then ((s.cntPort port 10 1).dropIn port p, false)
  else ((s.cntPort port 1 1).updPort port (fun x => { x with prog := AMap.upd x.prog p.vc 0 (· - p.flits) }), true)

end Sys2Proof.Machine
end

