-- ==== Sys2Proof/Machine/Segments.lean ====
section
/-!
DEFINITION. Segments and translation (chapter 03): entries, translation, stitching and unmapping with their drains, the segment
cache and the hot-granule counters.
-/

namespace Sys2Proof.Machine

/-! ### Entries (R49) -/

/-- VALID. -/
def segValid (e : BitVec 256) : Bool := bitAt e 199
/-- COHERENT. -/
def segCoh (e : BitVec 256) : Bool := bitAt e 198
/-- FLUSH. -/
def segFlush (e : BitVec 256) : Nat := fld e 197 196
/-- HOT_EN. -/
def segHot (e : BitVec 256) : Bool := bitAt e 195
/-- WKEY. -/
def segWkey (e : BitVec 256) : Nat := fld e 191 160
/-- LENGTH in bytes. -/
def segLen (e : BitVec 256) : Nat := fld e 153 128 * 2 ^ 16
/-- FPA_BASE. -/
def segFpa (e : BitVec 256) : Nat := fld e 127 64
/-- VA_BASE. -/
def segVa (e : BitVec 256) : Nat := fld e 47 0
/-- A reserved bit is set. -/
def segReserved (e : BitVec 256) : Bool := !(zeroFld e 255 200 && zeroFld e 194 192 && zeroFld e 159 154 && zeroFld e 63 48)

/-- DEVICE of an FPA (R34). -/
def fpaDev (f : Nat) : Nat := f / 2 ^ 48
/-- TARGET of an FPA. -/
def fpaTarget (f : Nat) : Nat := f / 2 ^ 45 % 8
/-- OFFSET of an FPA. -/
def fpaOff (f : Nat) : Nat := f % 2 ^ 45

/-- Bytes of a target that are honoured (R35). -/
def targetRange (t : Nat) : Nat := if t = 0 then 2 ^ 41 else if t = 1 then 2 ^ 45 else if t = 2 then 0x30000 else 0

/-- The active entry of a segment. -/
def State.seg (s : State) (ctx seg : Nat) : BitVec 256 := AMap.get (s.ctx ctx).act seg 0
/-- The epoch of a segment. -/
def State.segEpoch (s : State) (ctx seg : Nat) : BitVec 16 := AMap.get (s.ctx ctx).epoch seg 0

/-- The partition a context is allotted to. -/
def State.ctxOwner (s : State) (ctx : Nat) : Option Nat :=
  (s.parts.find? (fun e => e.2.held && Ranges.has e.2.ctxs ctx)).map Prod.fst

/-- Translation of a range of VAs (R47): segment and FPA, or SEG_FAULT (1) or SEG_RANGE (2). -/
def State.translate (s : State) (ctx va len : Nat) : (Nat × Nat) ⊕ Nat :=
  let hit := (List.range 16).find? (fun k => let e := s.seg ctx k
    segValid e && decide (segVa e ≤ va ∧ va < segVa e + segLen e))
  match hit with
  | none => .inr 1
  | some k => let e := s.seg ctx k
    if va + len ≤ segVa e + segLen e then .inl (k, segFpa e + (va - segVa e)) else .inr 2

/-! ### Drains (R57-R59) -/

/-- One end of a transfer holds an old epoch of a segment of the list. -/
def XEnd.oldIn (s : State) (ctx : Nat) (segs : Nats) : XEnd → Bool
  | .va seg _ _ epoch => segs.contains seg && epoch != s.segEpoch ctx seg
  | _ => false

/-- Transfers that hold a piece issued under an old epoch and not yet accepted by its door (R58). -/
def State.undrained (s : State) (ctx : Nat) (segs : Nats) : List (Nat × Xfer) :=
  s.xfers.filter (fun e => e.2.ctx == ctx && decide (0 < e.2.unacc) && (e.2.src.oldIn s ctx segs || e.2.dst.oldIn s ctx segs))

/-- Segments of a context get a new epoch, lose their counts for this interval, and leave the segment cache (R55, R65). -/
def State.newEpochs (s : State) (ctx : Nat) (segs : Nats) : State :=
  let s := s.updCtx ctx (fun c => { c with
    epoch := segs.foldl (fun m k => AMap.upd m k 0 (· + 1)) c.epoch
    hotSkip := c.hotSkip ++ segs })
  { s with
    segCache := s.segCache.filter (fun e => e.1 != ctx)
    hot := s.hot.filter (fun e => e.1.1 != ctx || !segs.contains e.1.2.1) }

/-- A drain begins: nothing to wait for, or a reply that waits (R55, R58). -/
def State.drainOr (s : State) (h : Issue) (ctx : Nat) (segs : Nats) (isStitch : Bool) : Ans :=
  if (s.undrained ctx segs).isEmpty then Ans.ok s
  else Ans.wait (s.updCtx ctx (fun c => { c with drain := some { issue := h, segs, isStitch } }))

/-! ### Stitching (R54, R55) -/

/-- Whether a range of device memory lies in a partition's units (R48). -/
def State.inUnits (s : State) (p off len : Nat) : Bool :=
  decide (0 < len) && decide (off + len ≤ 2 ^ 41) &&
  (List.range' (off / 2 ^ 30) ((off + len - 1) / 2 ^ 30 + 1 - off / 2 ^ 30)).all (fun u => (s.part p).units.contains u)

/-- SEG_REASON of a basting segment, 0 for none (R54, R35, R51, R389). -/
def State.segReason (s : State) (owner ctx k : Nat) : Nat :=
  let b := (s.ctx ctx).bast
  let e := AMap.get b k 0
  let va := segVa e; let len := segLen e; let fpa := segFpa e
  let dev := fpaDev fpa; let t := fpaTarget fpa; let off := fpaOff fpa
  let own := dev == s.myId
  let laps := (List.range k).any (fun j => let f := AMap.get b j 0
    segValid f && decide (va < segVa f + segLen f ∧ segVa f < va + len))
  if len = 0 then 1
  else if 2 ^ 41 < len then 2
  else if va % 2 ^ 16 ≠ 0 ∨ 2 ^ 48 < va + len then 3
  else if laps then 4
  else if fpa % 2 ^ 16 ≠ 0 then 5
  else if !validId dev || 3 ≤ t || (decide (t < 2) && idSpine dev) || targetRange t < off + len
      || (s.spine && decide (t < 2) && !own) then 6
  else if t == 2 && (owner != 0 || own) then 7
  else if own && t == 0 && !s.inUnits owner off len then 8
  else if segFlush e == 3 || ((segCoh e || segFlush e != 0 || segHot e) && !(own && t == 1)) || (segCoh e && !s.host.cacheEn) then 9
  else if segReserved e then 12
  else 0

/-- The header of a context is refused at stitch (R52). -/
def headerBad (h : BitVec 128) : Bool :=
  decide (fld h 45 32 < 10) || decide (10000 < fld h 45 32) || decide (fld h 5 0 < 16) || decide (32 < fld h 5 0)

/-- The basting copy becomes the active copy in one step (R55). -/
def State.stitch (s : State) (h : Issue) (ctx : Nat) : Ans :=
  let c := s.ctx ctx
  let changed := (List.range 16).filter (fun k => AMap.get c.act k 0 != AMap.get c.bast k 0)
  let s := (s.updCtx ctx (fun c => { c with act := c.bast, hdrAct := c.hdrBast })).newEpochs ctx changed
  s.drainOr h ctx changed true

/-! ### Commands (R53) -/

/-- What a segment command does in its turn: opcode, SEG (for SEG_QUERY, SEG + 16 × COPY), entry or header. -/
def segTurn (op : Nat) (h : Issue) (ctx seg : Nat) (v : BitVec 256) (s : State) : Ans :=
  let owner := (s.ctxOwner ctx).getD 64
  if op = 0x100 then
    if segReserved v then Ans.bad s 0 12 else Ans.ok (s.updCtx ctx (fun c => { c with bast := AMap.set c.bast seg v }))
  else if op = 0x101 then
    let hd : BitVec 128 := v.setWidth 128
    if !(zeroFld hd 127 80 && zeroFld hd 63 46 && zeroFld hd 31 6) then Ans.bad s 0 12
    else Ans.ok (s.updCtx ctx (fun c => { c with hdrBast := hd }))
  else if op = 0x102 then
    if !s.devidValid then Ans.bad s 0 13
    else
      let c := s.ctx ctx
      let valid := (List.range 16).filter (fun k => segValid (AMap.get c.bast k 0))
      match valid.find? (fun k => s.segReason owner ctx k != 0) with
      | some k => Ans.bad s k (s.segReason owner ctx k)
      | none =>
        if valid.any (fun k => segHot (AMap.get c.bast k 0)) && headerBad c.hdrBast then Ans.bad s 0x1F 10
        else s.stitch h ctx
  else if op = 0x103 then
    let clear (m : AMap (BitVec 256)) : AMap (BitVec 256) := AMap.upd m seg 0 (fun e => setFld e 199 199 0)
    let s := (s.updCtx ctx (fun c => { c with act := clear c.act, bast := clear c.bast })).newEpochs ctx [seg]
    s.drainOr h ctx [seg] false
  else
    let c := s.ctx ctx
    let k := seg % 16
    let e := if seg / 16 = 0 then AMap.get c.act k 0 else AMap.get c.bast k 0
    Ans.ok s ([blkItem 32 e.toNat, sc 2 (AMap.get c.epoch k 0).toNat] ++
      (if seg / 16 = 0 then [sc 4 c.hotNoSlot.toNat, sc 4 c.hotLost.toNat] else []))

/-- A segment command as accepted: refused for a context not the issuer's, in turn otherwise (R53, R56). A write while a stitch
drains acts at once on the basting copy; any other command, or one behind a waiting command, waits. -/
def segCmd (op : Nat) (h : Issue) (ctx seg : Nat) (v : BitVec 256) (s : State) : Ans :=
  match s.ctxOwner ctx with
  | none => Ans.bad s 0 11
  | some p =>
    let c := s.ctx ctx
    if h.part != 0 && h.part != p then Ans.bad s 0 11
    else if c.drain.isSome && (!c.waiting.isEmpty || (op != 0x100 && op != 0x101)) then
      Ans.wait (s.updCtx ctx (fun c => { c with waiting := c.waiting ++ [(op, h, seg, v)] }))
    else segTurn op h ctx seg v s

/-- Waiting commands of a context take their turns until one drains (R56). -/
def segResume (ctx : Nat) : Nat → State → State
  | 0, s => s
  | n + 1, s =>
    match (s.ctx ctx).waiting with
    | [] => s
    | (op, h, seg, v) :: rest =>
      if (s.ctx ctx).drain.isSome then s
      else
        let a := segTurn op h ctx seg v (s.updCtx ctx (fun c => { c with waiting := rest }))
        segResume ctx n (if a.later then a.st else a.st.answer h op a true)

/-- A drain ends with this status, and the commands behind it go on (R55, R56, R58, R59). -/
def State.drainEnd (s : State) (ctx status : Nat) : State :=
  match (s.ctx ctx).drain with
  | none => s
  | some d =>
    let s := s.updCtx ctx (fun c => { c with drain := none })
    let op := if d.isStitch then 0x102 else 0x103
    let s := s.answerLater d.issue op status
    segResume ctx (s.ctx ctx).waiting.length s

/-- SEG_WRITE: one segment of the basting copy (R53). -/
def execSegWrite (h : Issue) (ctx seg : Nat) (entry : BitVec 256) (s : State) : Out :=
  .next (vuino h 0x0100 [ctx, seg, entry.toNat] (segCmd 0x0100 h ctx seg entry) s)

/-- CTX_WRITE: the header's basting copy (R53). -/
def execCtxWrite (h : Issue) (ctx : Nat) (hdr : BitVec 128) (s : State) : Out :=
  .next (vuino h 0x0101 [ctx, hdr.toNat] (segCmd 0x0101 h ctx 0 (hdr.setWidth 256)) s)

/-- SEG_STITCH: the whole basting copy becomes active, after its checks; the reply follows the drain (R54, R55). -/
def execSegStitch (h : Issue) (ctx : Nat) (s : State) : Out :=
  .next (vuino h 0x0102 [ctx] (segCmd 0x0102 h ctx 0 0) s)

/-- SEG_UNMAP: VALID cleared in both copies; the reply follows the drain (R58). -/
def execSegUnmap (h : Issue) (ctx seg : Nat) (s : State) : Out :=
  .next (vuino h 0x0103 [ctx, seg] (segCmd 0x0103 h ctx seg 0) s)

/-- SEG_QUERY: entry, EPOCH and, for the active copy, HOT_NOSLOT and HOT_LOST (R53). COPY is a field of one bit. -/
def execSegQuery (h : Issue) (ctx seg copy : Nat) (s : State) : Out :=
  .next (vuino h 0x0104 [ctx, seg, copy] (fun s =>
    if 1 < copy then Ans.bad s 3 12 else segCmd 0x0104 h ctx (seg + 16 * copy) 0 s) s)

/-- SEG_DRAIN_END: the last piece issued under an old epoch has been accepted; the command replies (R58). -/
def execSegDrainEnd (ctx : Nat) (s : State) : Out :=
  .next (match (s.ctx ctx).drain with
    | none => s
    | some d => if (s.undrained ctx d.segs).isEmpty then s.drainEnd ctx 0 else s)

/-! ### The segment cache (R61) -/

/-- A pair enters the segment cache, or becomes its most recent. -/
def State.segCached (s : State) (ctx seg : Nat) : State :=
  { s with segCache := ((ctx, seg) :: s.segCache.filter (· != (ctx, seg))).take 4096 }

/-- SEG_CACHE_MISS_FILL: one of the 64 outstanding misses returns and its transfer goes on (R61). -/
def execSegCacheMissFill (ctx seg xfer : Nat) (s : State) : Out :=
  .next (if (s.segMiss.take 64).contains (ctx, seg, xfer) then
      let s := { s with segMiss := s.segMiss.erase (ctx, seg, xfer) }
      let s := s.segCached ctx seg
      if s.segMiss.any (fun m => m.2.2 == xfer) then s else s.updXfer xfer (fun x => { x with missing := false })
    else s)

/-! ### Hot granules (R62-R65) -/

/-- Bytes of an access in one granule are counted in its slot. -/
def State.hotAdd (s : State) (ctx seg g n : Nat) : State :=
  let k := (ctx, seg, g)
  if s.hot.any (fun e => e.1 == k) then
    { s with hot := s.hot.map (fun e => if e.1 == k then (k, e.2 + n) else e) }
  else if s.hot.length < 16384 then { s with hot := s.hot ++ [(k, n)] }
  else s.updCtx ctx (fun c => { c with hotNoSlot := satAdd c.hotNoSlot 1 })

/-- An access through a HOT_EN segment is counted in each granule it touches (R62, R63). -/
def State.hotCount (s : State) (ctx seg va n : Nat) : State :=
  if n = 0 || !segHot (s.seg ctx seg) || (s.ctx ctx).hotSkip.contains seg then s
  else s.each (List.range' (va / 2 ^ 21) ((va + n - 1) / 2 ^ 21 + 1 - va / 2 ^ 21)) (fun g t =>
    t.hotAdd ctx seg g (min (va + n) ((g + 1) * 2 ^ 21) - max va (g * 2 ^ 21)))

/-- HOT_INTERVAL_END: each granule at its threshold posts HOT_GRANULE, or is counted lost; the slots are freed (R63, R64). -/
def execHotIntervalEnd (ctx : Nat) (s : State) : Out :=
  let c := s.ctx ctx
  let evq := qkey ((s.ctxOwner ctx).getD 0) (fld c.hdrAct 79 64)
  let hits := s.hot.filter (fun e => e.1.1 == ctx && decide (2 ^ fld c.hdrAct 5 0 ≤ e.2))
  let s := { s with hot := s.hot.filter (fun e => e.1.1 != ctx) }
  let s := s.updCtx ctx (fun c => { c with hotSkip := [] })
  .next (s.eachOf hits (fun e t =>
    let g := e.1.2.2 - segVa (t.seg ctx e.1.2.1) / 2 ^ 21
    let ent : BitVec 512 := pack 512 [(255, 192, t.now.toNat), (191, 160, min e.2 (2 ^ 32 - 1)), (127, 107, g),
      (103, 100, e.1.2.1), (99, 88, ctx), (7, 0, 1)]
    let r := if (t.queue evq).isFault then (t, false) else t.putEvent evq ent
    r.1.onIf (!r.2) (fun u => u.updCtx ctx (fun c => { c with hotLost := satAdd c.hotLost 1 }))))

end Sys2Proof.Machine
end

