-- ==== Sys2Proof/Machine/Wire.lean ====
section
/-!
DEFINITION. Packets on the wire (chapter 06) and the gates and scheduler that let them leave (chapter 07): headers, integrity
trailers, nonces, the injection window, shapers, and the choice of the next packet of a port and VC.
-/

namespace Sys2Proof

/-! ### The transport header (R126) -/

/-- FIRST. -/
def Pkt.isFirst (p : Pkt) : Bool := bitAt p.hdr 247
/-- LAST. -/
def Pkt.isLast (p : Pkt) : Bool := bitAt p.hdr 246
/-- ORDERED. -/
def Pkt.ordered (p : Pkt) : Bool := bitAt p.hdr 245
/-- EXT. -/
def Pkt.hasExt (p : Pkt) : Bool := p.proto == 0 && bitAt p.hdr 244
/-- CONN. -/
def Pkt.conn (p : Pkt) : Nat := fld p.hdr 239 216
/-- GEN. -/
def Pkt.gen (p : Pkt) : Nat := fld p.hdr 215 208
/-- PSN. -/
def Pkt.psn (p : Pkt) : BitVec 32 := BitVec.ofNat 32 (fld p.hdr 207 176)
/-- MSN. -/
def Pkt.msn (p : Pkt) : BitVec 32 := BitVec.ofNat 32 (fld p.hdr 175 144)
/-- OFFSET. -/
def Pkt.offset (p : Pkt) : Nat := fld p.hdr 143 96
/-- WKEY, or the sequence counter in its place. -/
def Pkt.wkey (p : Pkt) : Nat := fld p.hdr 95 64
/-- PKT_COUNT. -/
def Pkt.pktCount (p : Pkt) : Nat := fld p.hdr 63 44
/-- AUX. -/
def Pkt.aux (p : Pkt) : Nat := fld p.hdr 43 0

/-- Bytes that the trailer covers, without the payload (R145, R146): SRC_ID, DEST_ID, the header and the extension; 32 bytes of
header for PROTO 0 and 1, and the 16 or 64 bytes of body for PROTO 2. -/
def Pkt.aad (p : Pkt) : Bytes :=
  bytesBE 2 p.src ++ bytesBE 2 p.dest ++
  (if p.proto = 2 then (if fld p.hdr 511 504 = 2 then bytesBE 64 p.hdr.toNat else bytesBE 16 p.hdr.toNat) else bytesBE 32 p.hdr.toNat) ++
  (if p.hasExt then bytesBE 16 p.ext.toNat else [])

/-- The packet with its CRC-64 trailer (R145). -/
def Pkt.withCrc (p : Pkt) : Pkt := { p with trailer := (Machine.crc64 (p.aad ++ p.payload)).setWidth 128 }

/-- The CRC-64 trailer is good. -/
def Pkt.crcOk (p : Pkt) : Bool := p.trailer == (Machine.crc64 (p.aad ++ p.payload)).setWidth 128

/-- The packets a shaper and the congestion window apply to (R150). -/
def Pkt.gated (p : Pkt) : Bool := p.proto == 0 && decide (1 ≤ p.op ∧ p.op ≤ 8)

/-- KIND of a packet's nonce (R146). -/
def Pkt.nonceKind (p : Pkt) : Nat :=
  if p.op = 0x40 || p.op = 0x41 then 1 else if p.op = 0x42 || p.op = 0x43 || p.op = 0x45 || p.op = 0x46 then 2
  else if p.op = 0x44 then 3 else 0

/-- The counter a packet's nonce is under. -/
def Pkt.nonceSeq (p : Pkt) : Nat := if p.nonceKind = 0 || p.nonceKind = 3 then p.psn.toNat else p.wkey

/-- The nonce of a packet sent on connection `from_` of its sender (R146). -/
def Pkt.nonce (p : Pkt) (sender wrap : Nat) (salt : BitVec 32) : BitVec 96 :=
  let dir := decide (p.dest * 2 ^ 24 + p.conn < p.src * 2 ^ 24 + sender)
  pack 96 [(95, 94, p.nonceKind), (93, 93, b2n dir), (92, 85, p.gen), (84, 64, wrap), (63, 32, salt.toNat), (31, 0, p.nonceSeq)]

/-- The packet enciphered and tagged (R146). -/
def Pkt.withTag (p : Pkt) (k : BitVec 256) (nonce : BitVec 96) : Pkt :=
  let c := Config.gcmCrypt k nonce p.payload
  { p with payload := c, trailer := Config.gcmTag k nonce p.aad c }

end Sys2Proof

namespace Sys2Proof.Machine

/-! ### A connection's block (R96) -/

/-- KEY_SLOT. -/
def ConnS.keySlot (c : ConnS) : Nat := fld c.blk 207 192
/-- SHAPER. -/
def ConnS.shaper (c : ConnS) : Nat := fld c.blk 191 176
/-- CQ. -/
def ConnS.cq (c : ConnS) : Nat := fld c.blk 175 160
/-- RQ. -/
def ConnS.rq (c : ConnS) : Nat := fld c.blk 159 144
/-- SQ. -/
def ConnS.sq (c : ConnS) : Nat := fld c.blk 143 128
/-- RECV_RETRY. -/
def ConnS.recvRetry (c : ConnS) : Nat := fld c.blk 11 9
/-- ENCRYPT. -/
def ConnS.encrypt (c : ConnS) : Bool := bitAt c.blk 7

/-- The generation of a connection ID (R93). -/
def State.gen (s : State) (c : Nat) : BitVec 8 := AMap.get s.tp.gens c 0

/-! ### Building packets -/

/-- The fields of a transport packet before its trailer. -/
structure PF0 where
  /-- OPCODE. -/
  op : Nat
  /-- VC. -/
  vc : Nat := 1
  /-- FIRST. -/
  first : Bool := false
  /-- LAST. -/
  last : Bool := false
  /-- ORDERED. -/
  ordered : Bool := false
  /-- PSN. -/
  psn : BitVec 32 := 0
  /-- MSN. -/
  msn : BitVec 32 := 0
  /-- OFFSET. -/
  offset : Nat := 0
  /-- WKEY. -/
  wkey : Nat := 0
  /-- PKT_COUNT. -/
  count : Nat := 0
  /-- AUX. -/
  aux : Nat := 0
  /-- The signal extension's operand. -/
  ext : Option (BitVec 64) := none
  /-- Payload. -/
  payload : Bytes := []
deriving DecidableEq, Repr

/-- A transport packet to a connection of a device, without ENC and trailer. -/
def State.rawPkt (s : State) (dest conn gen : Nat) (enc : Bool) (f : PF0) : Pkt :=
  let len := 32 + (if f.ext.isSome then 16 else 0) + f.payload.length
  let hdr : BitVec 512 := pack 512 [(255, 248, f.op), (247, 247, b2n f.first), (246, 246, b2n f.last), (245, 245, b2n f.ordered),
    (244, 244, b2n f.ext.isSome), (243, 243, b2n enc), (239, 216, conn), (215, 208, gen), (207, 176, f.psn.toNat),
    (175, 144, f.msn.toNat), (143, 96, f.offset), (95, 64, f.wkey), (63, 44, f.count), (43, 0, f.aux)]
  { fab := fabHead dest s.myId f.vc 0 len 0, hdr, ext := (pack 128 [(127, 64, (f.ext.getD 0).toNat)]), payload := f.payload }

/-- WRAP of a counter value of a nonce KIND on the sending side (R146): PSNs of KIND 3 wrap with those of KIND 0, and a PSN ahead
of the next one to be sent belongs to the wrap before. -/
def ConnS.wrapOf (c : ConnS) (kind seq : Nat) : Nat :=
  let w := AMap.get c.wraps (if kind = 3 then 0 else kind) 0
  if (kind = 0 || kind = 3) && decide (c.psn.toNat < seq) then w - 1 else w

/-- A packet of a connection, with the trailer that its ENCRYPT chooses (R145). -/
def State.connPkt (s : State) (cid : Nat) (f : PF0) : Pkt :=
  let c := s.conn cid
  let p := s.rawPkt c.peerId.toNat c.peerConn.toNat c.peerGen.toNat c.encrypt f
  match c.encrypt, c.key with
  | true, some (k, salt) => p.withTag k (p.nonce cid (c.wrapOf p.nonceKind p.nonceSeq) salt)
  | _, _ => p.withCrc

/-- A nonce counter that returns to zero adds one to its WRAP; KEY_AGING at 2^20 and KEY_EXHAUSTED as the last value is used are
posted once (R468). `seq` is the value just used. -/
def State.usedSeq (s : State) (cid kind : Nat) (seq : BitVec 32) : State :=
  let c := s.conn cid
  if !c.encrypt || seq != BitVec.allOnes 32 then s
  else
    let w := AMap.get c.wraps kind 0
    let rec1 (r : Nat) : Rec := { cls := 11, reason := r, d0 := cid }
    if w = 2 ^ 21 - 1 then
      (s.onIf (!c.exhausted) (fun t => t.postRec (rec1 7))).updConn cid (fun c => { c with exhausted := true, wraps := AMap.set c.wraps (kind + 4) 1 })
    else
      let s := s.updConn cid (fun c => { c with wraps := AMap.set c.wraps kind (w + 1) })
      if w + 1 = 2 ^ 20 && !c.aged then (s.postRec (rec1 6)).updConn cid (fun c => { c with aged := true }) else s

/-- The counter of a KIND is used up: no new packet of the KIND (R468). -/
def ConnS.spent (c : ConnS) (kind : Nat) : Bool := c.encrypt && AMap.get c.wraps (kind + 4) 0 == 1

/-! ### The injection window (R157) -/

/-- Count towards a destination. -/
def State.e2eOf (s : State) (d : Nat) : E2E := AMap.get s.tp.e2e d {}
/-- INFLIGHT towards a destination. -/
def State.inflight (s : State) (d : Nat) : Nat := let e := s.e2eOf d; e.sent - (e.acc + e.lost)
/-- The injection window has room for a packet. -/
def State.e2eOpen (s : State) (p : Pkt) : Bool :=
  !p.counted || p.dest == s.myId || decide (s.inflight p.dest < s.tp.e2eWin.toNat * 1024)

/-! ### Shapers (R161-R164) -/

/-- Colours of a judgement. -/
inductive Colour where
  /-- Held. -/
  | red
  /-- Eligible after green. -/
  | yellow
  /-- Eligible. -/
  | green
deriving DecidableEq, Repr

/-- VALID of a shaper entry (R163). -/
def shpValid (e : BitVec 256) : Bool := bitAt e 192
/-- CIR. -/
def shpCir (e : BitVec 256) : Nat := fld e 191 160
/-- PIR. -/
def shpPir (e : BitVec 256) : Nat := fld e 159 128
/-- CBS. -/
def shpCbs (e : BitVec 256) : Nat := fld e 127 96
/-- PBS. -/
def shpPbs (e : BitVec 256) : Nat := fld e 95 64

/-- Buckets filled up to a moment, in 1/8,000 B (R162). -/
def ShpS.filled (h : ShpS) (now : Nat) : ShpS :=
  let dt := now - h.atNs
  { h with
    tc := if shpCir h.act = 0 then 0 else min (shpCbs h.act * 8000) (h.tc + dt * shpCir h.act)
    tp := if shpPir h.act = 0 then 0 else min (shpPbs h.act * 8000) (h.tp + dt * shpPir h.act)
    atNs := now }

/-- The judgement of a packet of `n` bytes (R162). -/
def ShpS.judge (h : ShpS) (n : Nat) : Colour :=
  if !shpValid h.act then .green
  else if h.tp < n * 8000 then .red
  else if shpCir h.act = 0 || h.tc < n * 8000 then .yellow else .green

/-- The adapter-wide shaper of a connection, if it has one. -/
def State.shaperOf (s : State) (cid : Nat) : Option Nat :=
  let c := s.conn cid
  if c.shaper = 0xFFFF then none else Ranges.item (s.part c.part).shps c.shaper

/-- Colour of a connection's packet at this moment. -/
def State.colour (s : State) (cid : Option Nat) (p : Pkt) : Colour :=
  match cid.bind s.shaperOf with
  | none => .green
  | some n => if p.gated then ((s.shp n).filled s.clockNs).judge p.size else .green

/-- Tokens of a packet that leaves (R162). -/
def State.takeTokens (s : State) (cid : Option Nat) (p : Pkt) : State :=
  match cid.bind s.shaperOf with
  | none => s
  | some n =>
    if !p.gated || !shpValid (s.shp n).act then s
    else s.updShp n (fun h =>
      let h := h.filled s.clockNs
      let b := p.size * 8000
      match h.judge p.size with
      | .green => { h with tp := h.tp - b, tc := h.tc - b, green := h.green + BitVec.ofNat 64 p.size }
      | _ => { h with tp := h.tp - b, yellow := h.yellow + BitVec.ofNat 64 p.size })

/-! ### Admission to an output queue (R150, R167) -/

/-- The next ENTROPY index of a connection, skipping those a timeout has struck (R135). The first argument bounds the search. -/
def nextEntropy (skips : List (Nat × Nat)) : Nat → Nat → Nat
  | 0, i => i % 16
  | n + 1, i => if skips.any (fun e => e.1 == i % 16) then nextEntropy skips n (i + 1) else i % 16

/-- The packet gets its ENTROPY and its port, and joins the output queue; with no port that may be taken it is dropped, as in
transit (R197), and counts as transmitted. -/
def State.assign (s : State) (q : QPkt) : State :=
  let cid := q.conn.getD 0
  let c := s.conn cid
  let i := nextEntropy c.skipEnt 16 c.rot
  let s := s.onIf q.conn.isSome (fun t => t.updConn cid (fun c => { c with
    rot := (i + 1) % 16
    skipEnt := (c.skipEnt.map (fun e => (e.1, e.2 - 1))).filter (fun e => e.2 != 0)
    outs := c.outs.map (fun o => if q.psn == some o.psn && !q.ctl then { o with ent := i } else o) }))
  let ent := if q.conn.isSome then (Config.entropy cid i).toNat else fld q.pkt.fab 47 32
  let pkt := { q.pkt with fab := setFld q.pkt.fab 47 32 ent }
  if pkt.dest = s.myId && !pkt.mcast then s.enqueue 32 { q with pkt }
  else match s.routeOwn pkt with
    | .out n detour => s.enqueue n { q with pkt, detour }
    | .here => s.enqueue 32 { q with pkt }
    | .drop k =>
      let s := s.cntRt k 1
      s.onIf q.conn.isSome (fun t => t.updConn cid (fun c => { c with
        slotted := if q.ctl then c.slotted else c.slotted - 1
        outs := c.outs.map (fun o => if q.psn == some o.psn && !q.ctl
          then { o with queued := false, sent := true, lastNs := t.clockNs } else o) }))

/-- The gates of a connection's head packet, other than hop flow control (R150, R142, R466). -/
def State.gatesOpen (s : State) (cid : Nat) (q : QPkt) : Bool :=
  let c := s.conn cid
  (!q.pkt.gated || decide (c.outB < c.cwnd)) && (q.psn.isNone || c.holdTo.isNone) &&
  s.e2eOpen q.pkt && s.colour (some cid) q.pkt != .red && (!q.pkt.enc || s.thimble.bulkUp 0 != 0)

/-- A connection's packets take their places: control packets at once, then its head packet while its gates are open and no
other packet of it holds a place (R167). -/
def State.admitReady (s : State) (cid : Nat) : State :=
  let ctl := (s.conn cid).ready.filter (fun q => q.ctl)
  let s := s.updConn cid (fun c => { c with ready := c.ready.filter (fun q => !q.ctl) })
  let s := s.eachOf ctl (fun q t => t.assign q)
  let c := s.conn cid
  match c.ready with
  | [] => s
  | q :: rest =>
    if c.slotted != 0 then s
    else if s.gatesOpen cid q then
      (s.updConn cid (fun c => { c with ready := rest, slotted := 1, e2eHeld := false })).assign q
    else
      let held := !s.e2eOpen q.pkt
      let s := s.onIf (held && !c.e2eHeld) (fun t => t.cntCc 4 1)
      let s := s.onIf (s.colour (some cid) q.pkt == .red) (fun t => t.cntCc 7 1)
      s.updConn cid (fun c => { c with e2eHeld := held })

/-- Every connection with waiting packets is considered. -/
def State.admitAll (s : State) : State :=
  s.each ((s.conns.filter (fun e => !e.2.ready.isEmpty)).map Prod.fst) (fun c t => t.admitReady c)

/-- A packet of a connection joins those waiting, and the connection is considered. -/
def State.inject (s : State) (cid : Nat) (pkt : Pkt) (psn : Option (BitVec 32)) (ctl : Bool) : State :=
  let q : QPkt := { pkt, src := 32, part := (s.conn cid).part, conn := some cid, psn, ctl }
  (s.updConn cid (fun c => { c with ready := c.ready ++ [q] })).admitReady cid

/-- A packet that belongs to no connection is sent: fabric control, REMOTE_ERROR, collectives. -/
def State.sendLoose (s : State) (part : Nat) (pkt : Pkt) (ctl : Bool) : State :=
  s.assign { pkt, src := 32, part, ctl }

/-! ### The egress scheduler (R165-R167) -/

/-- Credits a transmitter holds for a VC (R186). -/
def PortS.creditsOf (p : PortS) (vc : Nat) : Nat := AMap.get p.credits vc (if vc = 3 then 256 else 1280)

/-- VC3 bytes sent by a port in the last 10 µs (R165). -/
def PortS.vc3Bytes (p : PortS) (now : Nat) : Nat := ((p.vc3.filter (fun e => decide (now < e.1 + 10000))).map Prod.snd).sum

/-- Hop flow control and the port's own limits let a packet of `n` flits and `b` bytes start on a VC (R150, R165, R180, R186,
R187). -/
def State.hopOpen (s : State) (port vc n b : Nat) : Bool :=
  if port = 32 then true
  else
    let p := s.port port
    let onoff := !s.rowCol port || p.onoff == some true
    p.open && s.devidValid && p.replayFrom.isNone && !p.waitFack &&
    (if onoff then !bitAt p.stopRx vc else decide (n ≤ p.creditsOf vc)) &&
    (!s.rowCol port || decide (p.replay.length + n ≤ 2048)) &&
    (vc != 0 || p.vc0Open) && (vc != 3 || decide (p.vc3Bytes s.clockNs + b ≤ 250000))

/-- The power manager holds injection at this moment: for the first eighths of each 10 µs, or by temperature (R497, R498). -/
def State.injHeld (s : State) : Bool := decide (s.clockNs % 10000 < max s.power.throttle s.power.throttleT * 1250)

/-- Whether a waiting packet may be chosen now: its shaper and hop flow control (R150). -/
def State.pickable (s : State) (port vc : Nat) (q : QPkt) : Bool :=
  s.hopOpen port vc q.pkt.flits q.pkt.size && (q.src != 32 || ((vc == 3 || !s.injHeld) && s.colour q.conn q.pkt != .red))

/-- The head packets of the transit sources of a queue, with their source (R166). -/
def headsOf (qs : List QPkt) : List (Nat × QPkt) :=
  qs.foldl (fun hs q => if q.src == 32 || hs.any (fun e => e.1 == q.src) then hs else hs ++ [(q.src, q)]) []

/-- The first item of a list after a number in cyclic order, by key. -/
def nextAfter {α : Type} (k : Nat) (xs : List (Nat × α)) : Option (Nat × α) :=
  match xs.foldl (fun (b : Option (Nat × α)) x => if k < x.1 then match b with
      | some y => if x.1 < y.1 then some x else b
      | none => some x else b) none with
  | some x => some x
  | none => xs.foldl (fun (b : Option (Nat × α)) x => match b with
      | some y => if x.1 < y.1 then some x else b
      | none => some x) none

/-- Key of a packet's connection in the round robin: packets of none stand behind every connection. -/
def QPkt.rrKey (q : QPkt) : Nat := q.conn.getD (2 ^ 24)

/-- The packet that the injection source offers, with its partition (R167). -/
def State.ownPick (s : State) (port vc : Nat) (qs : List QPkt) : Option QPkt :=
  let own := qs.filter (fun q => q.src == 32 && s.pickable port vc q)
  let k := oqKey port vc
  let parts := sortUp (own.map (fun q => q.part))
  let v := AMap.get s.tp.vTime k 0
  let tag (p : Nat) : Nat := AMap.get s.tp.fTag (k * 64 + p) v
  match parts with
  | [] => none
  | p0 :: ps =>
    let p := ps.foldl (fun b p => if tag p < tag b then p else b) p0
    let mine := own.filter (fun q => q.part == p)
    match mine.find? (fun q => q.ctl) with
    | some q => some q
    | none =>
      let green := mine.filter (fun q => s.colour q.conn q.pkt == .green)
      let pool := if green.isEmpty then mine else green
      (nextAfter (AMap.get s.tp.rrAt (k * 64 + p) 0) (pool.map (fun q => (q.rrKey, q)))).map Prod.snd

/-- The packet a port and VC would send next, and its source (R166). -/
def State.pick (s : State) (port vc : Nat) : Option (Nat × QPkt) :=
  let qs := s.outq port vc
  let k := oqKey port vc
  let transit := (headsOf qs).filter (fun e => s.pickable port vc e.2)
  let offers := transit ++ (match s.ownPick port vc qs with | some q => [(32, q)] | none => [])
  let cur := AMap.get s.tp.drrAt k 0
  match offers.find? (fun e => e.1 == cur && decide (e.2.pkt.size ≤ AMap.get s.tp.deficit (k * 33 + cur) 0)) with
  | some e => some e
  | none => nextAfter cur offers

/-- The scheduler's books after a packet is chosen (R166, R167): the turn and deficit of its source, and, for this adapter's own,
the finish tags and round robin of partitions and connections. -/
def State.served (s : State) (port vc src : Nat) (q : QPkt) : State :=
  let k := oqKey port vc
  let n := q.pkt.size
  let cur := AMap.get s.tp.drrAt k 0
  let d := AMap.get s.tp.deficit (k * 33 + src) 0
  let d := if src = cur && decide (n ≤ d) then d - n else d + 4176 - n
  let live := sortUp ((s.outq port vc).filter (fun q => q.src == 32 && s.pickable port vc q) |>.map (fun q => q.part))
  let s := s.updTp (fun t => { t with
    drrAt := AMap.set t.drrAt k src
    deficit := AMap.keep (AMap.set t.deficit (k * 33 + src) d) (fun j _ =>
      j / 33 != k || (s.outq port vc).any (fun x => x.src == j % 33)) })
  if src != 32 then s
  else
    let v := AMap.get s.tp.vTime k 0
    let f := max v (AMap.get s.tp.fTag (k * 64 + q.part) v) + n * 256 / max 1 (s.part q.part).wAct
    s.updTp (fun t => { t with
      fTag := AMap.set (AMap.keep t.fTag (fun j _ => j / 64 != k || live.contains (j % 64))) (k * 64 + q.part) f
      vTime := AMap.set t.vTime k f
      rrAt := if q.ctl then t.rrAt else AMap.set t.rrAt (k * 64 + q.part) q.rrKey })

/-- FSEQs from a first one on. -/
def seqRun : Nat → BitVec 16 → List (BitVec 16)
  | 0, _ => []
  | n + 1, q => q :: seqRun n (q + 1)

/-- A packet begins on a port: counters, credits and the replay buffer (R180, R186, R193). -/
def State.portSend (s : State) (port vc : Nat) (p : Pkt) : State :=
  if port = 32 then s
  else
    let n := p.flits
    let rc := s.rowCol port
    let s := ((s.cntPort port 0 1).cntPort port 2 p.size).cntPort port 4 n
    s.updPort port (fun x => { x with
      epochTx := x.epochTx + p.size
      credits := if rc && x.onoff != some true then AMap.set x.credits vc (x.creditsOf vc - n) else x.credits
      replay := if rc then x.replay ++ seqRun n x.txSeq else x.replay
      replayEnd := if rc then x.replayEnd ++ [x.txSeq + BitVec.ofNat 16 n - 1] else x.replayEnd
      txSeq := x.txSeq + BitVec.ofNat 16 n
      vc3 := if vc = 3 then (s.clockNs, p.size) :: x.vc3.filter (fun e => decide (s.clockNs < e.1 + 10000)) else x.vc3 })

/-- Bytes a packet charges to the congestion window when first sent (R151). -/
def chargeOf (p : Pkt) : Nat := if p.op = 3 then 64 + fld p.hdr 30 0 else p.size

/-- What a transmission of a connection's packet records (R130, R151, R157). -/
def State.sentRecord (s : State) (q : QPkt) : State :=
  match q.conn with
  | none => s
  | some cid =>
    let s := s.updConn cid (fun c => { c with
      slotted := if q.ctl then c.slotted else c.slotted - 1 })
    if q.ctl then s
    else match q.psn with
      | none => s
      | some psn =>
        let c := s.conn cid
        let firstTime := (c.outs.find? (fun o => o.psn == psn)).any (fun o => !o.sent)
        let size := chargeOf q.pkt
        s.updConn cid (fun c => { c with
          outB := if firstTime && q.pkt.gated then c.outB + size else c.outB
          outs := c.outs.map (fun o => if o.psn == psn then
            { o with queued := false, sent := true, lastNs := s.clockNs, size := if o.sent then o.size else if q.pkt.gated then size else 0 }
            else o) })

/-- The scheduler may serve this VC now: no VC ahead of it in the order of R165 has a packet to send. -/
def State.vcTurn (s : State) (port vc : Nat) : Bool :=
  let ahead : Nats := if vc = 0 then [] else if vc = 3 then [0] else if vc = 2 then [0, 3] else [0, 3, 2]
  ahead.all (fun v => (s.pick port v).isNone)

/-- A packet leaves: stamped (R206, R210), recorded, counted, and put on the wire or on its way inside the adapter (R95). -/
def State.depart (s : State) (port vc src : Nat) (q : QPkt) : State :=
  let own := q.src == 32
  let fab := if own then setFld (setFld q.pkt.fab 93 93 (b2n s.route.inj)) 31 0 (s.now.toNat % 2 ^ 32) else q.pkt.fab
  let fab := if port = 32 then fab else setFld fab 87 84 (q.pkt.hops + 1)
  let pkt := { q.pkt with fab }
  let s := s.served port vc src q
  let s := s.updOutq port vc (fun qs => qs.erase q)
  let s := s.takeTokens q.conn q.pkt
  let s := s.sentRecord q
  let s := s.onIf (own && pkt.counted && port != 32) (fun t => t.updTp (fun x => { x with
    e2e := AMap.upd x.e2e pkt.dest {} (fun e => { e with sent := e.sent + pkt.size }) }))
  let s := s.onIf q.detour (fun t => t.cntRt 6 1)
  let s := s.portSend port vc pkt
  let s := if own || !q.slot then s else s.freeSlots q.src vc pkt.flits
  let s := s.updTp (fun t => { t with
    wire := t.wire ++ [(port, pkt)], loop := if port = 32 then t.loop ++ [pkt] else t.loop })
  match q.conn with
  | some cid => s.admitReady cid
  | none => s

end Sys2Proof.Machine
end

