-- ==== Sys2Proof/Machine/Pieces.lean ====
section
/-!
DEFINITION. The ends of transfers: where the bytes of a piece land, and how a copy is reported once its pieces are done (R57,
R238, R247, R390, R414, R415).
-/

namespace Sys2Proof.Machine

/-- A ring key that no queue has. -/
def noQueue : Nat := 2 ^ 40

/-- A ring key of a partition that no queue of it has: what is reported there only raises a sync object. -/
def noRing (p : Nat) : Nat := qkey p 0xFFFF

/-- Key of a shared-memory address of a cluster (R238). -/
def sharedKey (cluster addr : Nat) : Nat := cluster * 2 ^ 22 + addr % 2 ^ 22
/-- Key of a local-memory address of a needle. -/
def localKey (needle addr : Nat) : Nat := needle * 2 ^ 20 + addr % 2 ^ 20

/-- A cluster address names shared memory (R238). -/
def isShared (addr : Nat) : Bool := decide (0x01000000 ≤ addr ∧ addr ≤ 0x013FFFFF)
/-- A cluster address names local memory. -/
def isLocal (addr : Nat) : Bool := decide (addr ≤ 0xFFFFF)

/-- A flushing read precedes the report of a transfer that wrote host memory through a segment (R50, R118): the segment's FLUSH,
or the completing queue's own setting. -/
def State.flushChosen (s : State) (ctx seg cq : Nat) : Bool :=
  match segFlush (s.seg ctx seg) with
  | 1 => true
  | 2 => false
  | _ => !(s.queue cq).noFlush

/-- An end of a transfer names another device. -/
def XEnd.remote (s : State) : XEnd → Bool
  | .va _ _ fpa _ => fpaDev fpa != s.myId
  | _ => false

/-- An end of a transfer names this adapter's host. -/
def XEnd.isHost (s : State) : XEnd → Bool
  | .va _ _ fpa _ => fpaDev fpa == s.myId && fpaTarget fpa == 1
  | _ => false

/-- Bytes placed at an FPA of this adapter through a segment: state, status (R76, R84), and how a report must follow them. -/
def State.putLocal (s : State) (part ctx seg cq fpa : Nat) (bs : Bytes) : State × Nat × DataPath :=
  if bs.isEmpty then (s, 0, .none)
  else if fpaTarget fpa = 0 then
    let r := s.memWrite (fpaOff fpa) bs
    (r.1, if r.2 = 7 then 6 else r.2, .none)
  else if segCoh (s.seg ctx seg) then
    let ls := s.cohLines (fpaOff fpa) bs.length
    (s.cohWrite part (fpaOff fpa) bs, 0, .lines ls)
  else
    (s.hostWrite part (fpaOff fpa) bs, 0, if s.flushChosen ctx seg cq then .flush (fpaOff fpa + (bs.length - 1)) else .none)

/-- `n` bytes at a VA of a context, read as one: from device memory, or as the host answered; none with the status of the failure. -/
def State.ctxRead (s : State) (part ctx va n : Nat) (errs : WordErrs) (data : Bytes) (rd : ReadEnd) : State × (Bytes ⊕ Nat) :=
  match s.translate ctx va n with
  | .inr st => (s, .inr st)
  | .inl (_, fpa) =>
    if fpaDev fpa != s.myId then (s, .inr 4)
    else if fpaTarget fpa = 0 then
      let r := s.memRead (fpaOff fpa) n errs
      if r.2.2 = 0 then (r.1, .inl (partsBytes r.2.1)) else (r.1, .inr r.2.2)
    else if rd != .ok then (s.postRec { cls := 8, reason := 5, part := some part, d0 := part, d1 := fpaOff fpa }, .inr 5)
    else (s, .inl (padTo n data))

/-- The completion ring of a transfer's owner; none for a needle's copy. -/
def State.xferCq (s : State) (x : Xfer) : Nat :=
  match x.who with
  | .copyQ p q => qkey p (s.queue (qkey p q)).cq
  | _ => noQueue

/-- Bytes of a piece land at a transfer's destination. -/
def State.putEnd (s : State) (id : Nat) (off : Nat) (bs : Bytes) : State × Nat :=
  match AMap.get? s.xfers id with
  | none => (s, 0)
  | some x =>
    match x.dst with
    | .va seg _ fpa _ =>
      let r := s.putLocal x.part x.ctx seg (s.xferCq x) (fpa + off) bs
      (r.1.updXfer id (fun y => match r.2.2 with
        | .flush a => { y with lastHost := some a }
        | .lines ls => { y with lines := (y.lines ++ ls).dedup }
        | .none => y), r.2.1)
    | .clus a => ({ s with shared := Memory.wrs s.shared (sharedKey (x.eng / 2) (a + off)) bs }, 0)
    | .loc n a => ({ s with localM := Memory.wrs s.localM (localKey n (a + off)) bs }, 0)
    | .pkt => (s, 0)

/-- The copy engine of a cluster that holds fewer transfers; ties go to engine 0 (R294). -/
def State.copyEngine (s : State) (cluster : Nat) : Nat :=
  let n (e : Nat) : Nat := (s.xfers.filter (fun x => x.2.eng == e && !x.2.ended)).length
  if n (2 * cluster + 1) < n (2 * cluster) then 2 * cluster + 1 else 2 * cluster

/-! ### The code of the cluster memories (R242) -/

/-- A record of class NEEDLE (R268, R505). -/
def State.needleRec (s : State) (reason c slot addr : Nat) : State :=
  s.postRec { cls := 5, reason, part := (s.clu c).owner, d0 := c + slot * 256, d1 := addr, mgr := true }

/-- Flipped stored bits of a word of a cluster memory. -/
def cmemFlips (e : BitVec 119) : Nat := ((List.range 72).filter (fun i => e.getLsbD i)).length

/-- A copy engine reads `n` bytes of a cluster memory, at `addr` of its key: the 64-byte lines in order, without bytes where a word has
two flipped bits; words are counted from the one the range begins in. The first argument bounds the lines. -/
def clusterLines (m : Memory) (start : Nat) (errs : WordErrs) : Nat → Nat → Nat → List (Nat × Option Bytes)
  | 0, _, _ => []
  | k + 1, a, n =>
    if n = 0 then []
    else
      let len := min n (64 - a % 64)
      let bad := errs.any (fun e => decide (2 ≤ cmemFlips e.2) && decide ((start / 8 + e.1) / 8 = a / 64))
      (a, if bad then none else some (Memory.rds m a len)) :: clusterLines m start errs k (a + len) (n - len)

/-- A corrected error in a needle's local memory is counted: the instants of the last 24 hours (R266). -/
def State.countCe (s : State) (n : Nat) : State :=
  s.updNeedle n (fun d => { d with ce := (d.ce.filter (fun t => decide (s.clockNs < t + 86400 * 10 ^ 9))) ++ [s.clockNs] })

/-! ### Bindings (R307) -/

/-- Clusters a binding names, adapter-wide, lowest first. -/
def State.bindClusters (s : State) (b : Bind) : Nats :=
  (List.range 64).filterMap (fun i => if bitAt b.blk (64 + i) then (s.part b.part).clusters[i]? else none)

/-- Chunk size of a binding. -/
def Bind.chunk (b : Bind) : Nat := 2 ^ (fld b.blk 35 32 + 12)
/-- IN_BASE. -/
def Bind.inBase (b : Bind) : Nat := fld b.blk 191 160
/-- OUT_BASE. -/
def Bind.outBase (b : Bind) : Nat := fld b.blk 159 128

/-- Free slots of a cluster among its first `n` slots. -/
def Bind.freeSlots (b : Bind) (n c : Nat) : Nats := (List.range n).filter (fun k => (AMap.get? b.slots (c * 64 + k)).isNone)

/-- A free slot on the cluster with the most free slots, ties to the lower number (R311): cluster and slot. -/
def State.pickSlot (s : State) (b : Bind) (n : Nat) : Option (Nat × Nat) :=
  let best := (s.bindClusters b).foldl (fun (m : Option Nat) c => match m with
    | none => some c
    | some d => if (b.freeSlots n d).length < (b.freeSlots n c).length then some c else some d) none
  best.bind (fun c => ((b.freeSlots n c).head?).map (fun k => (c, k)))

/-- Slots per cluster of a send queue's or connection's binding. -/
def Bind.slotCount (b : Bind) : Nat := fld b.blk 39 36 + 1

/-- Mark of a slot that a chunk of a message holds. -/
def chunkMark (cid msn idx : Nat) : Nat := ((cid + 1) * 2 ^ 32 + msn) * 2 ^ 18 + idx

/-- Mark of a slot that a run of a handler or a hook holds. -/
def runMark (r : Nat) : Nat := 2 ^ 80 + r

/-- Binding `k` changed. -/
def State.updBind (s : State) (k : Nat) (f : Bind → Bind) : State :=
  match AMap.get? s.binds k with
  | some b => { s with binds := AMap.set s.binds k (f b) }
  | none => s

/-- A run of a send transform uses this slot of a cluster of its binding. -/
def State.slotInRun (s : State) (bk c k : Nat) : Bool :=
  s.runs.any (fun r => r.2.kind == 2 && r.2.bind == some bk && r.2.clusters == [c] && r.2.slot == k)

/-! ### The end of a copy (R414, R415, R418) -/

/-- The copy completion of a transfer (R415). -/
def Xfer.copyCqe (x : Xfer) (q : Nat) : BitVec 256 :=
  pack 256 [(255, 192, x.wrId.toNat), (191, 152, if x.status == 0 then x.before + x.len else x.before + x.done),
    (127, 80, x.fail.getD 0), (63, 48, q), (31, 24, x.status.toNat), fmt 3]

/-- How the report of a transfer follows its data (R390). -/
def Xfer.path (x : Xfer) : DataPath :=
  match x.lastHost with
  | some a => .flush a
  | none => if x.lines.isEmpty then .none else .lines x.lines

/-- Ended copies at the head of their queue are reported in descriptor order; SIG_OBJ rises after the entry, or by itself with
NO_CQE (R414, R418). The first argument bounds the copies. -/
def copyRetire (p q : Nat) : Nat → State → State
  | 0, s => s
  | n + 1, s =>
    let k := qkey p q
    match (s.queue k).work with
    | [] => s
    | w :: rest =>
      match s.xfers.find? (fun e => e.2.work == w && e.2.who == .copyQ p q) with
      | none => s
      | some (id, x) =>
        if !x.ended then s
        else
          let s := { s with xfers := AMap.erase s.xfers id }
          let s := s.updQueue k (fun u => { u with work := rest })
          let ring := if x.noCqe && x.status == 0 then noRing p else qkey p (s.queue k).cq
          copyRetire p q n (s.complete ring (x.copyCqe q) x.path x.sync)

/-- A transfer whose last piece is done: a copy is reported in its turn; a message's source read just leaves; a needle's copy
waits for CPY_DONE. -/
def State.xferSettle (s : State) (id : Nat) : State :=
  match AMap.get? s.xfers id with
  | none => s
  | some x =>
    if x.flying != 0 || !(x.stopped || (decide (x.len ≤ x.done) && x.more.isEmpty)) then s
    else match x.who with
      | .copyQ p q => copyRetire p q ((s.queue (qkey p q)).work.length + 1) (s.updXfer id (fun y => { y with ended := true }))
      | .cpy _ => s.updXfer id (fun y => { y with ended := true })
      | _ => { s with xfers := AMap.erase s.xfers id }

/-- A transfer keeps its first status other than OK, and the offset of the first failing line (R77). -/
def Xfer.noteStatus (x : Xfer) (off st : Nat) : Xfer :=
  if st = 0 then x
  else { x with
    status := if x.status == 0 then BitVec.ofNat 8 st else x.status
    fail := if st = 5 then some (match x.fail with | some a => min a (x.before + off) | none => x.before + off) else x.fail }

/-- One piece of a transfer has been accepted by its door (R58). -/
def State.pieceAccepted (s : State) (id : Nat) : State := s.updXfer id (fun x => { x with unacc := x.unacc - 1 })

/-- One piece of a transfer is done, with this status at this offset. -/
def State.pieceDone (s : State) (id off st : Nat) : State :=
  (s.updXfer id (fun x => { x.noteStatus off st with flying := x.flying - 1 })).xferSettle id

end Sys2Proof.Machine
end

