-- ==== Sys2Proof/Machine/Conns.lean ====
section
/-!
DEFINITION. Connections (chapter 05): completions in order, the bobbin, receive buffers, errors, and the commands that create,
connect, reset, pin and query them.
-/

namespace Sys2Proof.Machine

/-! ### Queues of a connection -/

/-- Key of the connection's completion queue. -/
def ConnS.cqKey (c : ConnS) : Nat := qkey c.part c.cq
/-- Key of the connection's receive queue. -/
def ConnS.rqKey (c : ConnS) : Nat := qkey c.part c.rq

/-- A descriptor of a queue has completed: it no longer holds the queue (R420). -/
def State.workDone (s : State) (q work : Nat) : State := s.updQueue q (fun u => { u with work := u.work.erase work })

/-! ### Completion entries (R112) -/

/-- A connection completion entry. -/
def connCqe (wrId bytes imm conn op msn wq src status format : Nat) : BitVec 256 :=
  pack 256 [(255, 192, wrId), (191, 160, bytes), (159, 128, imm), (127, 104, conn), (103, 96, op), (95, 64, msn), (63, 48, wq),
    (47, 32, src), (31, 24, status), fmt format]

/-- Bytes a finished message reports (R112, R134). -/
def TxMsg.bytes (m : TxMsg) : Nat :=
  if m.settled || m.status != 0 || m.op == 3 || m.op == 5 || m.op == 6 then m.placed else m.len

/-- A message at the head of its connection is reported: its completion entry, except an OK one under NO_CQE (R114), or the end of
the piece it carried (R107). -/
def State.reportMsg (s : State) (cid : Nat) (m : TxMsg) : State :=
  let c := s.conn cid
  match m.piece with
  | some (x, off) => s.pieceDone x off m.status.toNat
  | none =>
    let s := s.workDone m.q m.work
    let quiet := bitAt m.d 26 && m.status == 0
    if quiet then s
    else
      let e := connCqe (fld m.d 191 128) m.bytes 0 cid m.op.toNat (if c.ud then 0 else m.msn.toNat) (qnum m.q) 0 m.status.toNat 1
      let d : DataPath := if m.last = 0 then .none else
        let seg := s.seg (s.queue m.q).ctx m.seg
        if segCoh seg then .lines (s.cohLines m.last 1)
        else if s.flushChosen (s.queue m.q).ctx m.seg c.cqKey then .flush m.last else .none
      s.complete c.cqKey e d none

/-- Finished messages at the head of a connection are reported in descriptor order (R114). The first argument bounds them. -/
def txRetire (cid : Nat) : Nat → State → State
  | 0, s => s
  | n + 1, s =>
    match (s.conn cid).tx with
    | [] => s
    | m :: rest =>
      if m.fin then txRetire cid n ((s.updConn cid (fun c => { c with tx := rest })).reportMsg cid m) else s

/-- All that can be reported now is. -/
def State.retire (s : State) (cid : Nat) : State := txRetire cid (s.conn cid).tx.length s

/-- Source transfers of a connection's messages end (R121, R122). -/
def State.dropSources (s : State) (cid : Nat) : State :=
  { s with
    xfers := AMap.keep s.xfers (fun _ x => match x.who with | .msg c _ => c != cid | .chunk c _ _ _ => c != cid | _ => true)
    segMiss := s.segMiss.filter (fun e => match AMap.get? s.xfers e.2.2 with
      | some x => (match x.who with | .msg c _ => c != cid | .chunk c _ _ _ => c != cid | _ => true)
      | none => false) }

/-- Packets of a connection that wait to be sent are dropped, but for its ACKs, NAKs and notices. -/
def State.dropWaiting (s : State) (cid : Nat) : State :=
  let s := s.updConn cid (fun c => { c with ready := c.ready.filter (fun q => q.ctl), outs := [], outB := 0, slotted := 0, holdTo := none, recvHold := none })
  s.updTp (fun t => { t with outq := AMap.mapAll t.outq (fun _ qs => qs.filter (fun q => q.conn != some cid || q.ctl)) })

/-! ### Slots of send transforms, and the ends of bindings and programs (R307, R311, R317) -/

/-- The send transform bound to a queue, while it takes new messages (R307, R311, R317). -/
def State.transformOf (s : State) (qk : Nat) : Option Bind :=
  match AMap.get? s.binds qk with
  | some b => if b.unbinding.isSome then none else some b
  | none => none

/-- The next chunk that waits for a slot of a queue's transform: the oldest descriptor's (R311). -/
def State.nextChunk (s : State) (qk : Nat) : Option (Nat × TxMsg) :=
  let ms := s.conns.flatMap (fun e => (e.2.tx.filter (fun m =>
    m.q == qk && !m.fin && !m.settled && !m.held && decide (m.given < m.chunks))).map (fun m => (e.1, m)))
  ms.foldl (fun (b : Option (Nat × TxMsg)) x => match b with
    | some y => if x.2.work < y.2.work then some x else b
    | none => some x) none

/-- Chunks take free slots, in the order of their descriptors, and a copy engine of the slot's cluster reads each in (R311). The
first argument bounds them. -/
def giveChunks (qk : Nat) : Nat → State → State
  | 0, s => s
  | n + 1, s =>
    match AMap.get? s.binds qk, s.nextChunk qk with
    | some b, some (cid, m) =>
      match s.pickSlot b b.slotCount with
      | none => s
      | some (c, k) =>
        let off := m.given * b.chunk
        let x : Xfer := {
          who := .chunk cid m.msn.toNat m.given (c * 64 + k), eng := s.copyEngine c, part := b.part, ctx := (s.queue qk).ctx
          src := .va m.seg (fld m.d 239 192 + off) (m.lfpa + off) m.epoch, dst := .clus (b.inBase + k * b.chunk)
          len := min b.chunk (m.len - off), work := m.work }
        let r := s.takeId
        let s := { r.2 with xfers := AMap.set r.2.xfers r.1 x }
        let s := s.updBind qk (fun b => { b with slots := AMap.set b.slots (c * 64 + k) (chunkMark cid m.msn.toNat m.given) })
        giveChunks qk n (s.updConn cid (fun c => { c with tx := c.tx.map (fun t =>
          if t.msn == m.msn && !t.fin then { t with given := t.given + 1 } else t) }))
    | _, _ => s

/-- Every chunk that a slot is free for gets one. -/
def State.assignChunks (s : State) (qk : Nat) : State := giveChunks qk 4096 s

/-- A binding still has work: a run, or a message of its send queue whose chunks have slots and are not all joined (R308, R317). -/
def State.bindInUse (s : State) (k : Nat) : Bool :=
  s.runs.any (fun r => r.2.bind == some k) ||
  (decide (k < 2 ^ 32) && s.conns.any (fun e => e.2.tx.any (fun m =>
    m.q == k && !m.fin && !m.settled && !m.held && m.wait != 0 && m.given != 0)))

/-- Bindings being undone whose work has ended go, and PROG_UNBIND replies; a program being unloaded goes once no binding names it and
no needle runs it: its handle's generation rises, wrapping from 255 to 1 (R306, R317). -/
def State.programsSettle (s : State) : State :=
  let s := s.eachOf (s.binds.filter (fun e => e.2.unbinding.isSome && !s.bindInUse e.1)) (fun e t =>
    let t := { t with binds := AMap.erase t.binds e.1 }
    let byUnload := (AMap.get (t.part e.2.part).progs (fld e.2.blk 7 0) {}).unloading == e.2.unbinding
    match e.2.unbinding with
    | some h => if byUnload then t else t.longEnd h 0x0612 (Ans.ok t)
    | none => t)
  s.eachOf (s.parts.flatMap (fun e => (e.2.progs.filter (fun g => g.2.unloading.isSome)).map (fun g => (e.1, g)))) (fun e t =>
    let handle := AMap.get (t.part e.1).progGen e.2.1 1 * 256 + e.2.1
    let used := t.binds.any (fun b => b.2.part == e.1 && fld b.2.blk 15 0 == handle) ||
      t.runs.any (fun r => r.2.part == e.1 && r.2.prog.toNat == handle)
    match e.2.2.unloading with
    | some h =>
      if used then t
      else
        let t := t.updPart e.1 (fun p => { p with
          progs := AMap.erase p.progs e.2.1
          progGen := AMap.upd p.progGen e.2.1 1 (fun g => if g = 255 then 1 else g + 1) })
        t.longEnd h 0x0613 (Ans.ok t)
    | none => t)

/-- Slots of a send transform held for a connection are given back, but for those a run still uses; waiting chunks take them. -/
def State.dropSlots (s : State) (cid : Nat) : State :=
  let mine := s.binds.filter (fun b => b.2.slots.any (fun v => v.2 / 2 ^ 50 == cid + 1))
  let s := { s with binds := AMap.mapAll s.binds (fun bk b => { b with slots := AMap.keep b.slots (fun k v =>
      v / 2 ^ 50 != cid + 1 || s.slotInRun bk (k / 64) (k % 64)) }) }
  (s.each (mine.map Prod.fst) (fun qk t => t.assignChunks qk)).programsSettle

/-! ### Receive buffers (R104, R105) -/

/-- The completion of a receive buffer (R112). -/
def State.recvCqe (s : State) (cid : Nat) (b : RBuf) (bytes imm msn src status : Nat) (d : DataPath) : State :=
  let s := s.workDone b.q b.work
  s.complete (s.conn cid).cqKey (connCqe b.wrId.toNat bytes imm cid 4 msn (qnum b.q) src status 2) d none

/-- Receive buffers assigned to messages of a connection complete FLUSHED (R121, R95). -/
def State.flushRecv (s : State) (cid : Nat) : State :=
  let s' := s.eachOf ((s.conn cid).rx.filter (fun m => m.buf.isSome)) (fun m t => match m.buf with
    | some b => t.recvCqe cid b 0 0 m.msn.toNat 0 16 .none
    | none => t)
  s'.updConn cid (fun c => { c with rx := [] })

/-! ### Errors (R121) -/

/-- Every unfinished message of a connection is finished with a status: the given one for the message named, FLUSHED for the others,
each with a completion even under NO_CQE. -/
def State.flushTx (s : State) (cid : Nat) (cur : Option (BitVec 32)) (status : Nat) : State :=
  let s := s.updConn cid (fun c => { c with tx := c.tx.map (fun m =>
    if m.fin then m
    else if cur == some m.msn then { m with fin := true, status := BitVec.ofNat 8 status }
    else { m with fin := true, status := 16 }) })
  s.retire cid

/-- Descriptors that wait for a refill complete FLUSHED. -/
def State.flushWaitD (s : State) (cid : Nat) : State :=
  let ws := (s.conn cid).waitD
  let s := s.updConn cid (fun c => { c with waitD := [], tx := c.tx ++ ws.map (fun w =>
    { q := w.1, work := w.2.1, d := w.2.2.1, op := w.2.2.2, fin := true, status := 16 }) })
  s.retire cid

/-- The PSN and MSN fields of a notice are zero; AUX carries the status (R127). -/
def State.sendNotice (s : State) (cid op : Nat) (status : BitVec 8) : State :=
  let c := s.conn cid
  if c.spent 2 then s
  else
    let p := s.connPkt cid { op, vc := 3, wkey := c.ackSeq.toNat, aux := status.toNat * 2 ^ 36 }
    let s := s.usedSeq cid 2 c.ackSeq
    (s.updConn cid (fun c => { c with ackSeq := c.ackSeq + 1 })).inject cid p none true

/-- A connection enters ERROR (R121): its current message completes with the status, later ones FLUSHED; buffers are flushed, a
notice is sent and a record posted. -/
def State.connError (s : State) (cid : Nat) (status : Nat) (cur : Option (BitVec 32)) (notice : Bool) : State :=
  let c := s.conn cid
  if c.st != 2 || c.ud then s
  else
    let cur := match cur with
      | some m => some m
      | none => (c.tx.find? (fun m => !m.fin)).map (fun m => m.msn)
    let s := (s.dropSources cid).dropWaiting cid
    let s := s.updConn cid (fun c => { c with st := 3, errStatus := BitVec.ofNat 8 status, staged := [] })
    let s := (s.flushTx cid cur status).flushWaitD cid
    let s := (s.flushRecv cid).dropSlots cid
    let s := s.postRec {
      cls := 4, reason := 1, part := some c.part,
      d0 := cid + (s.gen cid).toNat * 2 ^ 24 + status * 2 ^ 32 + c.peerId.toNat * 2 ^ 48, d1 := (cur.getD 0).toNat }
    if notice then
      (s.updConn cid (fun c => { c with notices := 1, noticeAcked := false })).sendNotice cid 0x45 (BitVec.ofNat 8 status)
    else s

/-! ### The bobbin (R97, R98) -/

/-- A context in use becomes the most recent. -/
def State.touch (s : State) (cid : Nat) : State :=
  let s := { s with nextId := s.nextId + 1 }
  s.updConn cid (fun c => { c with lru := s.nextId })

/-- A context that may be evicted: resident, unpinned, with no work in staging or in flight (R97, R142). -/
def ConnS.evictable (c : ConnS) : Bool :=
  c.resident && !c.pinned && c.staged.isEmpty && c.outs.isEmpty && c.tx.isEmpty && c.rx.isEmpty && c.ready.isEmpty && c.waitD.isEmpty

/-- Room for one more resident context: the least recently used one that may leave goes to its home slot. -/
def State.bobbinRoom (s : State) : State :=
  let here := s.conns.filter (fun e => e.2.resident && e.2.st != 0)
  if here.length < 65536 then s
  else match (here.filter (fun e => e.2.evictable)).foldl (fun (b : Option (Nat × ConnS)) e => match b with
      | some o => if e.2.lru < o.2.lru then some e else b
      | none => some e) none with
    | some e => s.updConn e.1 (fun c => { c with resident := false })
    | none => s

/-! ### Commands (R95) -/

/-- The partition holds this connection ID. -/
def State.connOwned (s : State) (p cid : Nat) : Bool := Ranges.has (s.part p).conns cid

/-- A queue of the partition of the given kind exists. -/
def State.queueKind (s : State) (p q kind : Nat) : Bool := ((s.queue? (qkey p q)).any (fun u => u.kind == kind))

/-- The lowest FREE connection of a partition. -/
def State.freeConn (s : State) (p : Nat) : Option Nat := (Ranges.items (s.part p).conns).find? (fun c => (s.conn c).st == 0)

/-- Pinned connections of a partition. -/
def State.pinsOf (s : State) (p : Nat) : Nat := (s.conns.filter (fun e => e.2.part == p && e.2.pinned && e.2.st != 0)).length
/-- Pinned connections of the adapter (R98). -/
def State.pinsAll (s : State) : Nat := (s.conns.filter (fun e => e.2.pinned && e.2.st != 0)).length

/-- A partition may pin one more connection. -/
def State.pinRoom (s : State) (p : Nat) : Bool := decide (s.pinsOf p < (s.part p).npins) && decide (s.pinsAll < 4096)

/-- CONN_CREATE: a free connection with the block of R96: INIT, or READY for a UD endpoint (R94-R96). -/
def execConnCreate (h : Issue) (blk : BitVec 256) (s : State) : Out :=
  .next (vuino h 0x0300 [blk.toNat] (fun s =>
    let p := h.part
    let c : ConnS := { part := p, blk }
    let ud := fld blk 3 0 == 1
    if !(zeroFld blk 255 208 && zeroFld blk 127 12 && zeroFld blk 6 4) || 1 < fld blk 3 0 || (ud && c.encrypt) then Ans.bad s
    else if c.encrypt && (Ranges.item (s.part p).keys c.keySlot).isNone then Ans.bad s
    else if c.shaper != 0xFFFF && (Ranges.item (s.part p).shps c.shaper).isNone then Ans.bad s
    else if !s.queueKind p c.cq 3 || (c.rq != 0xFFFF && !s.queueKind p c.rq 2) || !s.queueKind p c.sq 1 then Ans.bad s
    else match s.freeConn p with
      | none => Ans.noRes s
      | some cid =>
        if bitAt blk 8 && !s.pinRoom p then Ans.noRes s
        else
          let s := s.bobbinRoom
          let c := { c with ud, st := if ud then 2 else 1, pinned := bitAt blk 8, resident := true }
          let s := { s with conns := AMap.set s.conns cid c }
          let s := s.touch cid
          Ans.ok s [(8, bytesLE 8 (cid + (s.gen cid).toNat * 2 ^ 32))]) s)

/-- The lower bound of a connection's window in bytes (R155, R156). -/
def State.winLo (s : State) (c : ConnS) : Nat := 1024 * (if c.ovMode = 1 then c.ovLo else fld (s.part c.part).ccAct 47 32)
/-- The upper bound of a connection's window in bytes. -/
def State.winHi (s : State) (c : ConnS) : Nat := 1024 * (if c.ovMode = 1 then c.ovHi else fld (s.part c.part).ccAct 31 16)
/-- A window held within its bounds; FIXED takes its own value. -/
def State.clampWin (s : State) (c : ConnS) (w : Nat) : Nat :=
  if c.ovMode = 2 then c.ovFix * 1024 else max (s.winLo c) (min (s.winHi c) w)

/-- CONN_CONNECT: an INIT connection gets its peer and PSNs and becomes READY; an encrypted one reads its key (R95, R467). -/
def execConnConnect (h : Issue) (conn peerId peerConn peerGen sendPsn recvPsn : Nat) (s : State) : Out :=
  .next (vuino h 0x0301 [conn, peerId, peerConn, peerGen, sendPsn, recvPsn] (fun s =>
    let c := s.conn conn
    let slot := (Ranges.item (s.part c.part).keys c.keySlot).getD 0
    let k := s.key slot
    let taken := s.conns.any (fun e => e.1 != conn && e.2.encrypt && (e.2.st == 2 || e.2.st == 3) &&
      Ranges.item (s.part e.2.part).keys e.2.keySlot == some slot)
    if !s.connOwned h.part conn || c.st != 1 || c.ud || !s.devidValid then Ans.bad s
    else if !validId peerId || (idSpine peerId && h.part != 0) then Ans.bad s
    else if c.encrypt && (k.ty != 1 || taken) then Ans.bad s
    else
      let c := { c with
        st := 2, peerId := BitVec.ofNat 16 peerId, peerConn := BitVec.ofNat 24 peerConn, peerGen := BitVec.ofNat 8 peerGen,
        psn := BitVec.ofNat 32 sendPsn, c := BitVec.ofNat 32 recvPsn, fast := true, lastDec := none,
        key := if c.encrypt then some (k.key, k.salt) else none }
      Ans.ok ({ s with conns := AMap.set s.conns conn { c with cwnd := s.clampWin c (1024 * fld (s.part c.part).ccAct 63 48) } })) s)

/-- Everything a connection holds is completed FLUSHED or abandoned (R95). -/
def State.connFlush (s : State) (cid : Nat) : State :=
  let s := (s.dropSources cid).dropWaiting cid
  let s := s.updConn cid (fun c => { c with st := 3, staged := [] })
  let s := (s.flushTx cid none 16).flushWaitD cid
  (s.flushRecv cid).dropSlots cid

/-- A connection starts again: generation + 1, INIT, or READY for a UD endpoint; its block, pin and override stay (R94, R95,
R156). -/
def State.connRestart (s : State) (cid : Nat) : State :=
  let s := s.connFlush cid
  let c := s.conn cid
  let s := s.updTp (fun t => { t with gens := AMap.set t.gens cid (s.gen cid + 1) })
  let n : ConnS := {
    part := c.part, ud := c.ud, blk := c.blk, st := if c.ud then 2 else 1, pinned := c.pinned, resident := c.resident
    lru := c.lru, misses := c.misses, ovMode := c.ovMode, ovLo := c.ovLo, ovHi := c.ovHi, ovFix := c.ovFix }
  { s with conns := AMap.set s.conns cid n }

/-- A connection is destroyed: generation + 1, FREE, its ID back in the pool (R95). -/
def State.connDestroy (s : State) (cid : Nat) : State :=
  let s := s.connFlush cid
  let s := s.updTp (fun t => { t with
    gens := AMap.set t.gens cid (s.gen cid + 1)
    outq := AMap.mapAll t.outq (fun _ qs => qs.filter (fun q => q.conn != some cid)) })
  { s with conns := AMap.erase s.conns cid }

/-- CONN_RESET (R95). -/
def execConnReset (h : Issue) (conn : Nat) (s : State) : Out :=
  .next (vuino h 0x0302 [conn] (fun s =>
    if !s.connOwned h.part conn || (s.conn conn).st = 0 then Ans.bad s else Ans.ok (s.connRestart conn)) s)

/-- CONN_DESTROY (R95). -/
def execConnDestroy (h : Issue) (conn : Nat) (s : State) : Out :=
  .next (vuino h 0x0303 [conn] (fun s =>
    if !s.connOwned h.part conn || (s.conn conn).st = 0 then Ans.bad s else Ans.ok (s.connDestroy conn)) s)

/-- CONN_PIN: the context is made resident and pinned, or released (R95, R98). -/
def execConnPin (h : Issue) (conn pin : Nat) (s : State) : Out :=
  .next (vuino h 0x0304 [conn, pin] (fun s =>
    let c := s.conn conn
    if !s.connOwned h.part conn || c.st = 0 || 1 < pin then Ans.bad s
    else if pin = 0 then Ans.ok (s.updConn conn (fun c => { c with pinned := false }))
    else if c.pinned then Ans.ok s
    else if !s.pinRoom c.part then Ans.noRes s
    else
      let s := if c.resident then s else s.bobbinRoom
      Ans.ok (s.updConn conn (fun c => { c with pinned := true, resident := true }))) s)

/-- CONN_QUERY (R95): state, GEN, next send and receive PSN and MSN, packets outstanding, window, bobbin misses. -/
def execConnQuery (h : Issue) (conn : Nat) (s : State) : Out :=
  .next (vuino h 0x0305 [conn] (fun s =>
    let c := s.conn conn
    if !s.connOwned h.part conn || c.st = 0 then Ans.bad s
    else Ans.ok s [sc 1 c.st, sc 1 (s.gen conn).toNat, sc 4 c.psn.toNat, sc 4 c.c.toNat, sc 4 c.msn.toNat, sc 4 c.rxMsn.toNat,
      sc 8 c.outs.length, sc 8 c.cwnd, sc 8 c.misses.toNat]) s)

/-- ERROR_NOTICE_REPEAT: the notice goes again, up to 7 repeats, until it is acknowledged (R121). -/
def execErrorNoticeRepeat (conn : Nat) (s : State) : Out :=
  let c := s.conn conn
  .next (if c.st = 3 && !c.noticeAcked && decide (1 ≤ c.notices ∧ c.notices < 8) then
      (s.updConn conn (fun c => { c with notices := c.notices + 1 })).sendNotice conn 0x45 c.errStatus
    else s)

/-- SEGMENT_CONN_IDLE: a segment connection without traffic for 10 s is destroyed (R107). -/
def execSegmentConnIdle (conn : Nat) (s : State) : Out :=
  let c := s.conn conn
  .next (if c.seg && c.st != 0 && c.tx.isEmpty && c.rx.isEmpty then s.connDestroy conn else s)

end Sys2Proof.Machine
end

