-- ==== Sys2Proof/Machine/Sending.lean ====
section
/-!
DEFINITION. The sending side of a connection (chapters 05 and 06): descriptors and their checks, messages cut into packets,
retransmission, acknowledgments and negative acknowledgments, and the congestion window (chapter 07).
-/

namespace Sys2Proof.Machine

/-! ### Malformed entries (R421, R422) -/

/-- A malformed entry stops fetching on its partition, or every host request on partition 0's ADMIN (R422). -/
def State.malformed (s : State) (p q slot first8 : Nat) : State :=
  if p = 0 && q = 0 then
    let s := s.postRec { cls := 9, reason := 2, part := some 0, d0 := q + slot * 2 ^ 16, d1 := first8, logOnly := true }
    (s.updFunc 0 (fun f => { f with haltQ := BitVec.ofNat 16 q, haltSlot := BitVec.ofNat 16 slot, adminState := 3 })).updHost
      (fun h => { h with stopped := true })
  else
    let s := s.updFunc p (fun f => { f with haltedBit := true, haltQ := BitVec.ofNat 16 q, haltSlot := BitVec.ofNat 16 slot })
    s.postRec { cls := 9, reason := 1, part := some p, d0 := q + slot * 2 ^ 16, d1 := first8, mgr := true }

/-! ### Packets of a message (R127, R129) -/

/-- Bytes of a buffer from an offset on, if all of them are there. The first argument bounds the pieces. -/
def takeBuf (b : AMap Bytes) : Nat → Nat → Nat → Option Bytes
  | _, _, 0 => some []
  | 0, _, _ + 1 => none
  | f + 1, off, n + 1 =>
    match b.find? (fun e => decide (e.1 ≤ off ∧ off < e.1 + e.2.length)) with
    | none => none
    | some (a, bs) =>
      let got := (bs.drop (off - a)).take (n + 1)
      (takeBuf b f (off + got.length) (n + 1 - got.length)).map (got ++ ·)

/-- Bytes at hand without a gap from an offset on. -/
def runLength (b : AMap Bytes) : Nat → Nat → Nat
  | 0, _ => 0
  | f + 1, off =>
    match b.find? (fun e => decide (e.1 ≤ off ∧ off < e.1 + e.2.length)) with
    | none => 0
    | some (a, bs) => let k := bs.length - (off - a); k + runLength b f (off + k)

/-- Packets of a message of `n` bytes (R129). -/
def packetsOf (n : Nat) : Nat := max 1 ((n + 4095) / 4096)

/-- WKEY of a message (R128: a window-less key names TARGET 2). -/
def TxMsg.wkey (m : TxMsg) : Nat := fld m.d 319 288
/-- REMOTE_OFFSET. -/
def TxMsg.roff (m : TxMsg) : Nat := fld m.d 383 336
/-- The VC of a message's requests (R92, R128). -/
def TxMsg.vc (m : TxMsg) : Nat := if m.op == 3 && m.wkey % 2 ^ 12 == 0 then 3 else 1

/-- The signal fields on the LAST packet of a WRITE_SIG and on SYNC_ADD: AUX and the extension (R127). -/
def TxMsg.signal (m : TxMsg) : Nat × Option (BitVec 64) :=
  let v := fld m.d 511 448
  let obj := fld m.d 333 320
  if v < 2 ^ 30 then (obj * 2 ^ 30 + v, none) else (obj * 2 ^ 30, some (BitVec.ofNat 64 v))

/-- Packet `i` of `n` of a message, with its payload (R127). -/
def TxMsg.packet (m : TxMsg) (psn : BitVec 32) (i n : Nat) (payload : Bytes) : PF0 :=
  let last := i + 1 == n
  let f : PF0 := { op := m.op.toNat, vc := m.vc, first := i == 0, last, ordered := bitAt m.d 24, psn, msn := m.msn,
                   count := if last then n else 0, payload }
  let imm := fld m.d 127 96
  match m.op.toNat with
  | 1 => { f with offset := m.roff + 4096 * i, wkey := m.wkey }
  | 2 => let g := if last then m.signal else (0, none)
         { f with offset := m.roff + 4096 * i, wkey := m.wkey, aux := g.1, ext := g.2 }
  | 4 => { f with offset := 4096 * i, aux := if last then imm else 0 }
  | 5 => { f with offset := m.roff, wkey := m.wkey, payload := bytesBE 8 (fld m.d 511 448) }
  | 6 => { f with offset := m.roff, wkey := m.wkey, payload := bytesBE 8 (fld m.d 511 448) ++ bytesBE 8 (fld m.d 447 384) }
  | 7 => { f with wkey := m.wkey, aux := m.signal.1, ext := m.signal.2 }
  | _ => { f with aux := imm }

/-- The READ_REQ that asks for the responses from index `i` up to the end of its group of 1,024 (R129, R146). -/
def TxMsg.readReq (m : TxMsg) (psn : BitVec 32) (i : Nat) : PF0 :=
  let endIdx := min m.n ((i / 1024 + 1) * 1024)
  let bytes := min m.len (endIdx * 4096) - i * 4096
  let groups := (m.n + 1023) / 1024
  let last := endIdx == m.n
  { op := 3, vc := m.vc, first := i == 0, last, ordered := bitAt m.d 24, psn, msn := m.msn, offset := m.roff + 4096 * i,
    wkey := m.wkey, count := if last then groups else 0, aux := bytes }

/-- Serial successor of the highest PSN a READ group of `k` responses takes. -/
def psnRun (psn : BitVec 32) (k : Nat) : List (BitVec 32) := (List.range k).map (fun i => psn + BitVec.ofNat 32 i)

/-- Message `m` of a connection with its fields changed. -/
def State.updMsg (s : State) (cid : Nat) (msn : BitVec 32) (f : TxMsg → TxMsg) : State :=
  s.updConn cid (fun c => { c with tx := c.tx.map (fun m => if m.msn == msn && !m.fin then f m else m) })

/-- A new PSN of a connection is used: KIND 0 (R130, R146). -/
def State.usePsn (s : State) (cid : Nat) : State :=
  let p := (s.conn cid).psn
  (s.usedSeq cid 0 p).updConn cid (fun c => { c with psn := c.psn + 1 })

/-- One packet of a message is formed with the next PSN and joins the connection's packets. -/
def State.formPacket (s : State) (cid : Nat) (m : TxMsg) (i n : Nat) (payload : Bytes) : State :=
  let c := s.conn cid
  let psn := c.psn
  let pkt := s.connPkt cid (m.packet psn i n payload)
  let o : TxPsn := { psn, msn := m.msn, idx := i, queued := true, pkt }
  let s := s.usePsn cid
  let s := s.updConn cid (fun c => { c with outs := c.outs ++ [o] })
  let s := s.updMsg cid m.msn (fun m => { m with psn := if m.began then m.psn else psn, began := true, cut := i + 1 })
  s.inject cid pkt (some psn) false

/-- One READ_REQ is formed: it takes the PSNs of its responses (R130). -/
def State.formRead (s : State) (cid : Nat) (m : TxMsg) (k : Nat) : State :=
  let c := s.conn cid
  let psn := c.psn
  let pkt := s.connPkt cid (m.readReq psn m.cut)
  let os := (List.zip (List.range' m.cut k) (psnRun psn k)).map (fun e =>
    ({ psn := e.2, msn := m.msn, idx := e.1, queued := e.2 == psn, resp := true, pkt } : TxPsn))
  let s := s.each (List.range k) (fun _ t => t.usePsn cid)
  let s := s.updConn cid (fun c => { c with outs := c.outs ++ os })
  let s := s.updMsg cid m.msn (fun m => { m with psn := if m.began then m.psn else psn, began := true, cut := m.cut + k })
  s.inject cid pkt (some psn) false

/-- A message may begin: its FENCE, 64 messages and 4 atomics (R100, R130). -/
def ConnS.mayBegin (c : ConnS) (m : TxMsg) : Bool :=
  let earlier := c.tx.takeWhile (fun x => x.msn != m.msn || x.fin)
  let busy := c.tx.filter (fun x => x.began && !x.fin && (c.outs.any (fun o => o.msn == x.msn)))
  let atoms := c.tx.filter (fun x => x.began && !x.fin && (x.op == 5 || x.op == 6))
  (!bitAt m.d 25 || earlier.all (fun x => x.fin || !(x.op == 3 || x.op == 5 || x.op == 6))) &&
  decide (busy.length < 64) && (!(m.op == 5 || m.op == 6) || decide (atoms.length < 4))

/-- The message whose packets are being formed: the first that is not yet wholly formed. -/
def ConnS.forming (c : ConnS) : Option TxMsg :=
  c.tx.find? (fun m => !m.fin && !m.settled && (decide (m.cut < m.n) || m.wait != 0))

/-- Packets are formed as long as the limits of R130 and the bytes at hand allow. The first argument bounds them. -/
def pumpLoop (cid : Nat) : Nat → State → State
  | 0, s => s
  | f + 1, s =>
    let c := s.conn cid
    match c.forming with
    | none => s
    | some m =>
      if c.st != 2 || m.held || c.spent 0 || (!m.began && !c.mayBegin m) then s
      else if m.op == 3 then
        let k := min 1024 (m.n - m.cut)
        if 4096 < c.outs.length + k then s else pumpLoop cid f (s.formRead cid m k)
      else if 4096 ≤ c.outs.length then s
      else if m.wait != 0 then
        if 4096 * (m.cut + 1) < runLength m.buf (m.buf.length + 1) 0 then
          match takeBuf m.buf (m.buf.length + 1) (4096 * m.cut) 4096 with
          | some bs => pumpLoop cid f (s.formPacket cid m m.cut (m.cut + 2) bs)
          | none => s
        else s
      else
        let k := if m.op == 5 || m.op == 6 || m.op == 7 then 0 else min 4096 (m.len - 4096 * m.cut)
        match takeBuf m.buf (m.buf.length + 1) (4096 * m.cut) k with
        | some bs => pumpLoop cid f (s.formPacket cid m m.cut m.n bs)
        | none => s

/-- The datagram of a UD SEND whose bytes are at hand is formed (R106, R127). -/
def State.pumpUd (s : State) (cid : Nat) : State :=
  match (s.conn cid).tx.find? (fun m => !m.fin && !m.began && !m.held && m.wait == 0) with
  | none => s
  | some m =>
    match takeBuf m.buf (m.buf.length + 1) 0 m.len with
    | none => s
    | some bs =>
      let f : PF0 := { op := 9, vc := 3, first := true, last := true, offset := cid, aux := fld m.d 127 96, payload := bs }
      let p := (s.rawPkt (fld m.d 399 384) (fld m.d 423 400) 0 false f).withCrc
      let s := s.updMsg cid m.msn (fun m => { m with began := true, cut := 1 })
      s.inject cid p (some m.msn) false

/-- What a connection can form now is formed; nothing while its transport engine is isolated (R491). -/
def State.pump (s : State) (cid : Nat) : State :=
  if s.isolated 2 (Config.engineOf cid) then s
  else if (s.conn cid).ud then s.each (List.range (s.conn cid).tx.length) (fun _ t => t.pumpUd cid)
  else pumpLoop cid 4097 s

/-! ### Executing a send descriptor (R100-R103) -/

/-- A field that an OP does not use is not zero, or a reserved bit is set (R100, R102, R421). WKEY is ignored for SEND and
INVOKE. -/
def sendReserved (d : Desc) (ud : Bool) : Bool :=
  let op := fld d 23 16
  let z (hi lo : Nat) : Bool := zeroFld d hi lo
  !(z 335 334 && z 255 240 && z 95 88 && z 63 32 && z 31 27) ||
  (!(op == 2 || op == 5 || op == 6 || op == 7) && !z 511 448) ||
  (!(op == 6 || (op == 4 && ud)) && !z 447 384) || (op == 4 && ud && !z 447 424) ||
  (!(op == 1 || op == 2 || op == 3 || op == 5 || op == 6) && !z 383 336) ||
  (!(op == 2 || op == 7) && !z 333 320) ||
  (!(op == 4 || op == 8) && !z 127 96)

/-- First-stage failures of R102 and R421: the entry is malformed. -/
def State.sendMalformed (s : State) (p q : Nat) (d : Desc) : Bool :=
  let op := fld d 23 16
  let cid := fld d 87 64
  let c := s.conn cid
  fld d 15 12 != 1 || fld d 11 8 != 0 || fld d 7 0 != 1 || op == 0 || 8 < op || c.st == 0 || c.part != p || c.sq != q || c.seg ||
  sendReserved d c.ud

/-- Second-stage failures of R102 that need no translation. -/
def sendBadField (d : Desc) (ud : Bool) : Bool :=
  let op := fld d 23 16
  let len := fld d 287 256
  let atomic := op == 5 || op == 6
  (ud && op != 4) ||
  (atomic && len != 8) || (op == 7 && len != 0) || (op == 8 && decide (4096 < len)) ||
  (ud && decide (4096 < len)) || decide (2 ^ 30 < len) ||
  (atomic && (fld d 239 192 % 8 != 0 || fld d 383 336 % 8 != 0)) ||
  (ud && op == 4 && !validId (fld d 399 384))

/-- The wire bytes of a joined chunk of a message: from, to. -/
def TxMsg.chunkRange (m : TxMsg) (idx : Nat) : Nat × Nat :=
  let a := ((List.range idx).map (fun i => AMap.get m.outLen i 0)).sum
  (a, a + AMap.get m.outLen idx 0)

/-- A chunk's slot is still needed: it runs, waits to be joined, or carries wire bytes whose PSNs are not all recorded received
(R312). -/
def ConnS.chunkHeld (c : ConnS) (v : Nat) : Bool :=
  match c.tx.find? (fun m => m.msn.toNat == v / 2 ^ 18 % 2 ^ 32) with
  | none => false
  | some m =>
    let idx := v % 2 ^ 18
    let r := m.chunkRange idx
    if m.fin || m.settled then false
    else if m.chunks - m.wait ≤ idx then true
    else if r.1 = r.2 then false
    else (decide (m.cut * 4096 < r.2) && (m.wait != 0 || decide (m.cut < m.n))) ||
      c.outs.any (fun o => o.msn == m.msn && !o.acked && decide (r.1 / 4096 ≤ o.idx ∧ o.idx ≤ (r.2 - 1) / 4096))

/-- Slots of a connection's chunks that nothing needs any more are given back, and waiting chunks take them. -/
def State.freeChunks (s : State) (cid : Nat) : State :=
  let mine := s.binds.filter (fun b => b.2.slots.any (fun v => v.2 / 2 ^ 50 == cid + 1))
  let s := { s with binds := AMap.mapAll s.binds (fun bk b => { b with slots := AMap.keep b.slots (fun k v =>
      v / 2 ^ 50 != cid + 1 || s.slotInRun bk (k / 64) (k % 64) || (s.conn cid).chunkHeld v) }) }
  (s.each (mine.map Prod.fst) (fun qk t => t.assignChunks qk)).programsSettle

/-- A message that has ended before anything was sent. -/
def State.endAtOnce (s : State) (cid : Nat) (m : TxMsg) (status : Nat) : State :=
  (s.updConn cid (fun c => { c with tx := c.tx ++ [{ m with fin := true, status := BitVec.ofNat 8 status }] })).retire cid

/-- A descriptor of a READY, resident connection is taken: checked, translated, given its MSN and its source read (R101, R102,
R130). -/
def State.sendNow (s : State) (cid qk work : Nat) (d : Desc) (op : BitVec 8) : State :=
  let c := s.conn cid
  let s := s.touch cid
  let ctx := (s.queue qk).ctx
  let len := fld d 287 256
  let m : TxMsg := { op, d, q := qk, work, len, n := packetsOf len }
  if sendBadField d c.ud then s.endAtOnce cid m 4
  else match s.translate ctx (fld d 239 192) len with
    | .inr st => s.endAtOnce cid m st
    | .inl (seg, fpa) =>
      if fpaDev fpa != s.myId then s.endAtOnce cid m 4
      else
        let epoch := s.segEpoch ctx seg
        let source := op == 1 || op == 2 || op == 4 || op == 8
        let tr := if source then s.transformOf qk else none
        let chunk := match tr with | some b => b.chunk | none => 1
        let chunks := if tr.isSome && len != 0 then (len + chunk - 1) / chunk else 0
        let m := { m with msn := c.msn, lfpa := fpa, seg, epoch, chunks, wait := chunks }
        let s := s.updConn cid (fun c => { c with msn := c.msn + 1, tx := c.tx ++ [m] })
        let s := if source && len != 0 && tr.isNone then
            let x : Xfer := {
              who := .msg cid m.msn.toNat, eng := 128, part := c.part, ctx, src := .va seg (fld d 239 192) fpa epoch, dst := .pkt
              len, work }
            let r := s.takeId
            { r.2 with xfers := AMap.set r.2.xfers r.1 x }
          else s
        (s.onIf (chunks != 0) (fun t => t.assignChunks qk)).pump cid

/-- A send descriptor as fetched (R94, R98, R102): malformed, completed FLUSHED, waiting for a refill, or taken. -/
def State.sendDesc (s : State) (p q slot : Nat) (d : Desc) : State :=
  let qk := qkey p q
  let cid := fld d 87 64
  if !s.queueKind p q 1 then s
  else if s.sendMalformed p q d then s.malformed p q slot (fld d 63 0)
  else
    let r := s.takeId
    let s := r.2.updQueue qk (fun u => { u with work := u.work ++ [r.1] })
    let c := s.conn cid
    let op := BitVec.ofNat 8 (fld d 23 16)
    if c.st != 2 then s.endAtOnce cid { op, d, q := qk, work := r.1 } 16
    else if !c.resident || !c.waitD.isEmpty then
      s.updConn cid (fun c => { c with
        waitD := c.waitD ++ [(qk, r.1, d, op)], refill := true, misses := if c.refill then c.misses else c.misses + 1 })
    else s.sendNow cid qk r.1 d op

/-- The slot that the next entry of a queue occupies. -/
def State.slotOf (s : State) (p q : Nat) : Nat := let u := s.queue (qkey p q); u.ci.toNat % u.size

/-- A descriptor with the OP of the command that executes it. -/
def withOp (d : Desc) (op : Nat) : Desc := setFld d 23 16 op

/-- WRITE: LENGTH local bytes into a remote window (R101). -/
def execWrite (part q : Nat) (d : Desc) (s : State) : Out := .next (s.sendDesc part q (s.slotOf part q) (withOp d 1))
/-- WRITE_SIG: as WRITE, then an add to a sync object (R101). -/
def execWriteSig (part q : Nat) (d : Desc) (s : State) : Out := .next (s.sendDesc part q (s.slotOf part q) (withOp d 2))
/-- READ: LENGTH remote bytes to LOCAL_VA (R101). -/
def execRead (part q : Nat) (d : Desc) (s : State) : Out := .next (s.sendDesc part q (s.slotOf part q) (withOp d 3))
/-- SEND: bytes to the peer's next receive buffer (R101). -/
def execSend (part q : Nat) (d : Desc) (s : State) : Out := .next (s.sendDesc part q (s.slotOf part q) (withOp d 4))
/-- FETCH_ADD (R101). -/
def execFetchAdd (part q : Nat) (d : Desc) (s : State) : Out := .next (s.sendDesc part q (s.slotOf part q) (withOp d 5))
/-- CMP_SWAP (R101). -/
def execCmpSwap (part q : Nat) (d : Desc) (s : State) : Out := .next (s.sendDesc part q (s.slotOf part q) (withOp d 6))
/-- SYNC_ADD (R101). -/
def execSyncAdd (part q : Nat) (d : Desc) (s : State) : Out := .next (s.sendDesc part q (s.slotOf part q) (withOp d 7))
/-- INVOKE (R101). -/
def execInvoke (part q : Nat) (d : Desc) (s : State) : Out := .next (s.sendDesc part q (s.slotOf part q) (withOp d 8))

/-! ### Retransmission (R135, R137-R139) -/

/-- The retransmission timeout of a connection in nanoseconds (R137). -/
def ConnS.rto (c : ConnS) : Nat := match c.srtt with
  | none => 100000
  | some t => max 20000 (t + 4 * c.rttvar)

/-- SRTT, or 0 before a sample. -/
def ConnS.srttNs (c : ConnS) : Nat := c.srtt.getD 0

/-- The wait after the last transmission of a PSN has elapsed: RTO × 2^tries (R137). -/
def ConnS.elapsed (c : ConnS) (o : TxPsn) (now : Nat) : Bool := decide (o.lastNs + c.rto * 2 ^ o.tries ≤ now)

/-- A PSN that waits for an answer: sent, and neither acknowledged nor queued again; a READ's until its response is there. -/
def TxPsn.waits (o : TxPsn) : Bool := o.sent && !o.queued && (o.resp || !o.acked)

/-- A packet of a connection goes before its other waiting packets. -/
def State.injectFront (s : State) (cid : Nat) (pkt : Pkt) (psn : BitVec 32) : State :=
  let q : QPkt := { pkt, src := 32, part := (s.conn cid).part, conn := some cid, psn := some psn }
  (s.updConn cid (fun c =>
    let again := c.ready.takeWhile (fun x => (c.outs.find? (fun o => x.psn == some o.psn)).any (fun o => o.sent))
    { c with ready := again ++ q :: c.ready.drop again.length })).admitReady cid

/-- The packet that stands for a PSN when it is sent again: SKIP for a settled message, a READ_REQ for the first missing response of
its group, otherwise the original bit for bit (R141, R146). -/
def State.resendPkt (s : State) (cid : Nat) (o : TxPsn) : Pkt :=
  match o.skip with
  | some st => s.connPkt cid { op := 0x44, psn := o.psn, msn := o.msn, aux := st.toNat * 2 ^ 36 }
  | none =>
    if o.resp then match (s.conn cid).tx.find? (fun m => m.msn == o.msn) with
      | some m => s.connPkt cid (m.readReq o.psn o.idx)
      | none => o.pkt
    else o.pkt

/-- A PSN is sent again; `count` says whether it counts against the seven retries (R139). -/
def State.resend (s : State) (cid : Nat) (o : TxPsn) (count : Bool) : State :=
  let pkt := s.resendPkt cid o
  let s := s.updConn cid (fun c => { c with outs := c.outs.map (fun x =>
    if x.psn == o.psn then { x with queued := true, refused := 0, tries := if count then x.tries + 1 else x.tries, pkt }
    else if o.resp && x.resp && x.msn == o.msn && x.idx / 1024 == o.idx / 1024 && decide (o.idx < x.idx) then
      { x with lastNs := s.clockNs, tries := if count then x.tries + 1 else x.tries }
    else x) })
  s.injectFront cid pkt o.psn

/-- The window is cut after a loss: at most once per SRTT (R153). -/
def State.lossCut (s : State) (cid : Nat) (num den : Nat) : State :=
  let c := s.conn cid
  let may := match c.lastDec with | none => true | some t => decide (t + c.srttNs ≤ s.clockNs)
  if c.ovMode = 2 || !may then s
  else (s.updConn cid (fun c => { c with
    cwnd := s.clampWin c (c.cwnd * num / den), fast := false, lastDec := some s.clockNs })).cntCc 3 1

/-- PSNs to be sent again after a timeout: for a READ, the first missing response of each group stands for the group. -/
def timeoutList (c : ConnS) (now : Nat) : List TxPsn :=
  let due := (c.outs.filter (fun o => o.waits && o.refused == 0)).zipIdx.filter (fun e => e.2 == 0 || c.elapsed e.1 now)
  (due.map Prod.fst).foldl (fun acc o =>
    if o.resp && acc.any (fun x => x.resp && x.msn == o.msn && x.idx / 1024 == o.idx / 1024) then acc else acc ++ [o]) []

/-- RTO_EXPIRY: the timer of the oldest unacknowledged PSN expires; every PSN whose wait has elapsed is sent again, oldest first, or
the connection fails once the oldest has been sent again seven times (R137, R139, R153, R157). -/
def execRtoExpiry (conn : Nat) (s : State) : Out :=
  let c := s.conn conn
  let l := timeoutList c s.clockNs
  .next (if c.st != 2 || c.ud || c.holdTo.isSome then s
    else match l with
      | [] => s
      | o :: _ =>
        if 7 ≤ o.tries then s.connError conn 14 (some o.msn) true
        else
          let s := s.lossCut conn 1 2
          s.eachOf (l.filter (fun o => decide (o.tries < 7))) (fun o t =>
            let t := t.cntTp 9 1
            let t := t.onIf (o.pkt.counted && o.pkt.dest != t.myId) (fun u => u.updTp (fun x => { x with
              e2e := AMap.upd x.e2e o.pkt.dest {} (fun e => { e with lost := e.lost + o.pkt.size }) }))
            let t := t.updConn conn (fun c => { c with skipEnt := (o.ent, 256) :: c.skipEnt.filter (fun e => e.1 != o.ent) })
            t.resend conn o true))

/-! ### Acknowledgments (R133, R134, R138, R151, R152) -/

/-- A round-trip sample, in the manner of RFC 6298 with gains 1/8 and 1/4 (R137). -/
def ConnS.rttSample (c : ConnS) (r : Nat) : ConnS :=
  match c.srtt with
  | none => { c with srtt := some r, rttvar := r / 2 }
  | some t => { c with srtt := some ((7 * t + r) / 8), rttvar := (3 * c.rttvar + (if t < r then r - t else t - r)) / 4 }

/-- The minimum delay of this and the previous 50 ms period, with one more sample; restarted while the tape is not locked (R152,
R154). -/
def ConnS.baseSample (c : ConnS) (locked : Bool) (now owd : Nat) : ConnS :=
  let period := now / 50000000
  if !locked then { c with baseCur := none, basePrev := none, period }
  else if period = c.period then { c with baseCur := some (match c.baseCur with | some b => min b owd | none => owd) }
  else { c with basePrev := if period = c.period + 1 then c.baseCur else none, baseCur := some owd, period }

/-- The window after an ACK (R152): PKTS is the number of PSNs the ACK newly reports. -/
def State.windowAck (s : State) (cid owd marks pkts acked : Nat) : State :=
  let locked := s.tape.state == 2
  let s := s.updConn cid (fun c => c.baseSample locked s.now.toNat owd)
  let c := s.conn cid
  let a := (s.part c.part).ccAct
  let markEn := bitAt a 1
  let delayEn := bitAt a 0 && locked
  let target := fld a 111 96
  let base := match c.baseCur, c.basePrev with
    | some b, some p => min b p | some b, none => b | none, some p => p | none, none => owd
  let q := owd - base
  let congested := (markEn && decide (0 < marks)) || (delayEn && decide (target < q))
  if c.ovMode = 2 then s
  else if congested then
    let may := match c.lastDec with | none => true | some t => decide (t + c.srttNs ≤ s.clockNs)
    if !may then s
    else
      let mNum := if markEn then fld a 71 64 * min marks pkts else 0
      let mDen := 256 * max 1 pkts
      let dNum := if delayEn && decide (target < q) then fld a 79 72 * (q - target) else 0
      let dDen := 256 * max 1 q
      let byMark := decide (dNum * mDen ≤ mNum * dDen)
      let num := if byMark then mNum else dNum
      let den := if byMark then mDen else dDen
      (s.updConn cid (fun c => { c with
        cwnd := s.clampWin c (c.cwnd * (den - num) / den), lastDec := some s.clockNs, fast := false })).cntCc (if byMark then 1 else 2) 1
  else if c.fast then s.updConn cid (fun c => { c with cwnd := s.clampWin c (c.cwnd + acked) })
  else s.updConn cid (fun c => { c with cwnd := s.clampWin c (c.cwnd + fld a 95 80 * 256 * acked / max 1 c.cwnd) })

/-- A message of a connection has ended by what has been acknowledged (R134, R141). -/
def ConnS.msgDone (c : ConnS) (m : TxMsg) : Bool :=
  let clear := !(c.outs.any (fun o => o.msn == m.msn))
  let whole := decide (m.n ≤ m.cut) && m.wait == 0
  if m.settled then clear
  else if m.op == 2 || m.op == 7 || m.op == 8 then whole && serLt m.msn c.ackMsn
  else whole && clear

/-- Messages that have ended are finished and reported. -/
def State.finishMsgs (s : State) (cid : Nat) : State :=
  let s := s.updConn cid (fun c => { c with tx := c.tx.map (fun m =>
    if !m.fin && m.began && c.msgDone m then
      { m with fin := true, placed := if m.settled || m.op == 3 || m.op == 5 || m.op == 6 then m.placed else m.len } else m) })
  (s.retire cid).freeChunks cid

/-- Packets of these PSNs no longer wait to be sent. -/
def State.unqueue (s : State) (cid : Nat) (psns : List (BitVec 32)) : State :=
  let mine (q : QPkt) : Bool := q.conn == some cid && !q.ctl && psns.any (fun p => q.psn == some p)
  let s := s.updTp (fun t => { t with outq := AMap.mapAll t.outq (fun _ qs => qs.filter (fun q => !mine q)) })
  s.updConn cid (fun c => { c with
    ready := c.ready.filter (fun q => !mine q)
    slotted := ((s.tp.outq.flatMap (fun e => e.2)).filter (fun q => q.conn == some cid && !q.ctl)).length })

/-- A message whose local segment was revoked or whose source was lost (R57, R77, R113): where no packet had left and the status
allows, it alone ends; otherwise the connection enters ERROR. -/
def State.revokedMsg (s : State) (cid : Nat) (m : TxMsg) (st : Nat) : State :=
  let outs := (s.conn cid).outs
  let left := m.began && (outs.any (fun o => o.msn == m.msn && o.sent) || !(outs.any (fun o => o.msn == m.msn)))
  if left || st != 3 then s.connError cid st (some m.msn) true
  else
    let s := s.unqueue cid ((outs.filter (fun o => o.msn == m.msn)).map (fun o => o.psn))
    let s := s.updConn cid (fun c => { c with
      outs := c.outs.filter (fun o => o.msn != m.msn), psn := if m.began then m.psn else c.psn })
    let s := s.updMsg cid m.msn (fun m => { m with fin := true, status := BitVec.ofNat 8 st })
    (s.retire cid).pump cid

/-- The settling of a message at its sender: nothing more of it is sent, and SKIP goes in place of every unacknowledged PSN
(R141). -/
def State.settleTx (s : State) (cid : Nat) (msn : BitVec 32) (status placed : Nat) : State :=
  let st := BitVec.ofNat 8 status
  let s := s.updMsg cid msn (fun m => { m with settled := true, status := st, placed, n := m.cut, wait := 0 })
  let s := { s with xfers := AMap.keep s.xfers (fun _ x => match x.who with
      | .msg c m => !(c == cid && m == msn.toNat)
      | .chunk c m _ _ => !(c == cid && m == msn.toNat)
      | _ => true) }
  let todo := (s.conn cid).outs.filter (fun o => o.msn == msn && !o.acked && o.skip.isNone)
  let s := s.unqueue cid (todo.map (fun o => o.psn))
  let s := s.updConn cid (fun c => { c with
    outs := (c.outs.filter (fun o => !(o.msn == msn && o.acked))).map (fun o =>
      if o.msn == msn then { o with skip := some st, resp := false } else o) })
  let s := s.eachOf todo (fun o t => t.resend cid { o with skip := some st, resp := false } false)
  (s.finishMsgs cid).pump cid

end Sys2Proof.Machine
end

