-- ==== Sys2Proof/Machine/Status.lean ====
section
/-!
DEFINITION. Status words that target 2 (R38) and the registers show: identity, port checks, link state, counters, the compiled
map and the tape block.
-/

namespace Sys2Proof.Machine

/-- IDENT (R555). -/
def identWord : Nat := 0x01060021

/-- DEVID (R31). -/
def State.devidWord (s : State) : Nat := b2n s.devidValid * 2 ^ 31 + s.myId

/-- PORT_PEERn (R40). -/
def State.portPeer (s : State) (n : Nat) : Nat :=
  let p := s.port n
  let e := if s.devidValid then expected s.myId n else (0, 0)
  (pack 64 [(63, 48, p.obsId.toNat), (47, 32, e.1), (31, 24, p.obsPort.toNat), (23, 16, e.2), (11, 8, p.reason.toNat),
    (3, 0, p.check.toNat)]).toNat

/-- Bits set in a word. -/
def popCount {w : Nat} (b : BitVec w) : Nat := ((List.range w).filter (fun i => b.getLsbD i)).length

/-- Wavelength lanes in service on a port: those this end deals flits to (R191, R234). -/
def PortS.lanes (p : PortS) : Nat := popCount p.txMask

/-- FC_MODE of a port: on/off or credit (R191). -/
def State.fcOnOff (s : State) (n : Nat) : Bool := match (s.port n).onoff with
  | some b => b
  | none => !s.rowCol n

/-- LINK_STATn (R191). -/
def State.linkStat (s : State) (n : Nat) : Nat :=
  let p := s.port n
  (pack 64 [(63, 48, p.loopNs.toNat), (36, 32, p.lanes), (19, 16, p.stopRx.toNat), (15, 12, p.stopTx.toNat),
    (9, 8, b2n (s.fcOnOff n)), (3, 0, p.state.toNat)]).toNat

/-- RT_STATUS (R207). -/
def State.rtStatus (s : State) : Nat :=
  let since := match s.route.flipAt with
    | none => 65535
    | some t => min 65535 ((s.clockNs - t) / 1000)
  (pack 64 [(47, 32, since), (11, 8, s.route.b.st.toNat), (7, 4, s.route.a.st.toNat), (0, 0, b2n s.route.inj)]).toNat

/-- TAPE_STATUS (R380). -/
def State.tapeStatus (s : State) : Nat :=
  let t := s.tape
  (pack 64 [(63, 48, t.refId.toNat), (39, 34, t.hops.toNat), (33, 32, t.cls.toNat), (31, 24, t.upstream.toNat),
    (19, 16, t.state.toNat), (15, 8, t.steps.toNat), (1, 0, s.straps.tapeSrc.toNat)]).toNat

/-- A word of the tape block (R380). -/
def State.tapeWord (s : State) (off : Nat) : Nat :=
  match off with
  | 0x00 => s.now.toNat % 2 ^ 48 * 2 ^ 16 + (if s.tape.running then s.tape.frac.toNat else 0)
  | 0x08 => s.tapeStatus
  | 0x10 => s.tape.offset.toNat
  | 0x18 => s.tape.ptpDomain.toNat
  | 0x20 => s.tape.missed.toNat
  | _ => 0

/-- The 8-byte word of target 2 at an offset that is a multiple of 8 (R38). -/
def State.target2 (s : State) (off : Nat) : Nat :=
  if off = 0 then s.devidWord
  else if off = 8 then identWord
  else if 0x100 ≤ off ∧ off < 0x200 then s.portPeer ((off - 0x100) / 8)
  else if 0x1000 ≤ off ∧ off < 0x2000 then
    (AMap.get (s.port ((off - 0x1000) / 128)).cnt ((off - 0x1000) % 128 / 8) 0).toNat
  else if 0x10000 ≤ off ∧ off < 0x20000 then (AMap.get s.route.map (off - 0x10000) 0).toNat
  else if 0x20000 ≤ off ∧ off < 0x21000 then s.tapeWord (off - 0x20000)
  else 0

/-- Bytes of target 2, for an aligned range. -/
def State.target2Bytes (s : State) (off len : Nat) : Bytes :=
  (List.range (len / 8)).flatMap (fun i => bytesLE 8 (s.target2 (off + 8 * i)))

end Sys2Proof.Machine
end

