-- ==== Sys2Proof/Machine/Tape.lean ====
section
/-!
DEFINITION. The tape (chapter 16): comparisons, steps and states, tape marks and upstream choice, PTP and pins, scheduled events,
and booked link slots.
-/

namespace Sys2Proof.Machine

/-! ### Scheduled events (R375, R376) -/

/-- The operation of an event is applied to its object (R353, R375). -/
def State.eventFire (s : State) (part : Nat) (e : Event) : State :=
  let s := s.leaveIdle
  match Ranges.item (s.part part).syncs e.index with
  | none => s
  | some o => if e.set then s.syncPut o e.value else s.syncAdd o e.value

/-- An event is due: its first whole microsecond at or after its instant has come. -/
def Event.due (e : Event) (now : Nat) : Bool := e.armed && decide (roundUp e.atNs 1000 ≤ now)

/-- An event after it has fired: disarmed, or at its next instant (R375). -/
def Event.next (e : Event) : Event := if e.period = 0 then { e with armed := false } else { e with atNs := e.atNs + e.period * 1000 }

/-- An event entry of a partition changed. -/
def State.updEvent (s : State) (part ev : Nat) (f : Event → Event) : State :=
  s.updPart part (fun p => { p with events := AMap.upd p.events ev {} f })

/-- An item put into a list in the order of a key: the first with a smaller key stay in front. -/
def insertBy {α : Type} (lt : α → α → Bool) (x : α) : List α → List α
  | [] => [x]
  | y :: ys => if lt x y then x :: y :: ys else y :: insertBy lt x ys

/-- A list in the order of a relation, equal items in their order. -/
def sortBy {α : Type} (lt : α → α → Bool) (xs : List α) : List α := xs.foldl (fun ys x => insertBy lt x ys) []

/-- Every armed event with its partition and entry. -/
def State.armedEvents (s : State) : List (Nat × Nat × Event) :=
  s.parts.flatMap (fun p => (p.2.events.filter (fun e => e.2.armed)).map (fun e => (p.1, e.1, e.2)))

/-- After a forward step every event passed over fires once, in instant order; a periodic one goes on with its first instant after
the new count, and each instant skipped is counted (R376). -/
def State.stepEvents (s : State) : State :=
  let now := s.now.toNat
  let hit := sortBy (fun a b => decide (a.2.2.atNs < b.2.2.atNs)) (s.armedEvents.filter (fun e => e.2.2.due now))
  s.eachOf hit (fun e t =>
    let t := t.eventFire e.1 e.2.2
    if e.2.2.period = 0 then t.updEvent e.1 e.2.1 (fun v => { v with armed := false })
    else
      let p := e.2.2.period * 1000
      let skipped := (now - e.2.2.atNs) / p
      let t := t.updEvent e.1 e.2.1 (fun v => { v with atNs := e.2.2.atNs + (skipped + 1) * p })
      t.updTape (fun x => { x with missed := x.missed + BitVec.ofNat 64 skipped }))

/-! ### State and what is shown of it (R368, R371) -/

/-- A TAPE record (R374, R505). -/
def State.tapeRec (s : State) (reason : Nat) (step : Int) : State :=
  s.postRec { cls := 14, reason, d0 := (BitVec.ofInt 64 step).toNat, d1 := s.tape.state.toNat }

/-- In-band source (R369). -/
def State.inBand (s : State) : Bool := s.straps.tapeSrc == 2

/-- REF_ID, HOPS and CLASS as this adapter sends and shows them (R371). -/
def State.tapeView (s : State) : State :=
  let t := s.tape
  let cls (locked : BitVec 2) : BitVec 2 := if t.state == 2 then locked else if t.state == 3 then 2 else 3
  s.updTape (fun t =>
    if s.inBand then
      match AMap.get? t.marks t.upstream.toNat with
      | some m => { t with refId := m.refId, hops := if m.hops == 63 then 63 else m.hops + 1, cls := cls m.cls }
      | none => { t with cls := cls 3 }
    else { t with
      refId := BitVec.ofNat 16 s.myId, hops := 0, cls := cls (if s.straps.tapeSrc == 3 then 1 else 0)
      upstream := if s.straps.tapeSrc == 3 then 0xFF else if t.state == 0 then 0xFF else 0xFE })

/-- The tape enters a state. -/
def State.tapeTo (s : State) (st : BitVec 4) : State := (s.updTape (fun t => { t with state := st })).tapeView

/-- The count jumps by an offset, in 2^-16 ns: counted, recorded, and events passed over fire (R374, R376). -/
def State.tapeStep (s : State) (off : Int) (st : BitVec 4) : State :=
  let v : Int := (s.tape.ns.toNat * 65536 + s.tape.frac.toNat : Nat) + off
  let s := s.updTape (fun t => { t with
    ns := BitVec.ofInt 64 (v / 65536), frac := BitVec.ofInt 16 (v % 65536), slew := 0, steps := satAdd t.steps 1 })
  let s := (s.tapeTo st).tapeRec 1 (off / 65536)
  if 0 < off then s.stepEvents else s

/-- A comparison with the discipline (R374). -/
def State.tapeCompare (s : State) (off : Int) : State :=
  let s := s.updTape (fun t => { t with offset := BitVec.ofInt 64 off })
  let big := decide ((65536000 : Int) < |off|)
  let near := decide (|off| ≤ (1310720 : Int))
  let slew (t : State) : State := t.updTape (fun x => { x with slew := off })
  match s.tape.state.toNat with
  | 1 => if near then (slew s).tapeTo 2 else if big then s.tapeStep off 1 else slew s
  | 2 => if big then s.tapeStep off 1 else slew s
  | _ => if big then s.tapeStep off 1 else (slew s).tapeTo 1

/-- The time unit is released (R367, R374): counting begins, a free-run reference is LOCKED. -/
def State.tapeRelease (s : State) : State :=
  if s.tape.running then s
  else
    let s := s.updTape (fun t => { t with running := true })
    if s.straps.tapeSrc == 3 then s.tapeTo 2 else s.tapeView

/-! ### Tape marks (R371, R372, R190) -/

/-- A port may give the upstream: UP, checked, with a usable mark (R372). -/
def State.markFit (s : State) (n : Nat) : Bool :=
  let p := s.port n
  p.state == 3 && (p.check == 1 || p.check == 2) &&
  (match AMap.get? s.tape.marks n with | some m => decide (m.cls.toNat < 3) && decide (m.hops.toNat < 63) | none => false)

/-- The order of R372 as one number. -/
def TMark.rank (m : TMark) (n : Nat) : Nat := ((m.cls.toNat * 2 ^ 16 + m.refId.toNat) * 64 + m.hops.toNat) * 32 + n

/-- The best port for an upstream. -/
def State.bestMark (s : State) : Option Nat :=
  let ns := (List.range 32).filter s.markFit
  let rank (n : Nat) : Nat := (AMap.get s.tape.marks n {}).rank n
  match ns with
  | [] => none
  | a :: rest => some (rest.foldl (fun b n => if rank n < rank b then n else b) a)

/-- The upstream is chosen anew where it no longer qualifies; a better port is noted (R372). -/
def State.chooseUpstream (s : State) : State :=
  if !s.inBand then s
  else
    let up := s.tape.upstream.toNat
    if s.markFit up then
      s.updTape (fun t => { t with better := match s.bestMark with
        | some b => if b = up then none else some b
        | none => none })
    else (s.updTape (fun t => { t with
      upstream := match s.bestMark with | some b => BitVec.ofNat 8 b | none => 0xFF
      better := none })).tapeView

/-- TAPE_MARK: a mark of a port is kept; the upstream's gives an offset (R371, R372). -/
def execTapeMark (port : Nat) (hi lo : BitVec 64) (s : State) : Out :=
  let p := s.port port
  .next (if 32 ≤ port || p.state != 3 || !(p.check == 1 || p.check == 2) then s
    else
      let m : TMark := {
        refId := BitVec.ofNat 16 (fld hi 55 40), hops := BitVec.ofNat 6 (fld hi 39 34), cls := BitVec.ofNat 2 (fld hi 33 32)
        st := BitVec.ofNat 4 (fld hi 31 28), ns := BitVec.ofNat 64 (fld hi 23 0 * 2 ^ 40 + fld lo 55 16), frac := BitVec.ofNat 16 (fld lo 15 0) }
      let s := ((s.cntPort port 14 1).updTape (fun t => { t with marks := AMap.set t.marks port m })).chooseUpstream
      if s.inBand && s.tape.running && s.tape.upstream.toNat == port && s.markFit port then
        let off : Int := ((m.ns.toNat * 65536 + m.frac.toNat + p.loopNs.toNat * 32768 : Nat) : Int) -
          ((s.tape.ns.toNat * 65536 + s.tape.frac.toNat : Nat) : Int)
        (s.tapeView).tapeCompare off
      else s)

/-- The words of a tape mark (R371). -/
def State.markWords (s : State) : List (BitVec 64) :=
  let t := s.tape
  [pack 64 [(63, 56, 4), (55, 40, t.refId.toNat), (39, 34, t.hops.toNat), (33, 32, t.cls.toNat), (31, 28, t.state.toNat),
     (23, 0, t.ns.toNat / 2 ^ 40)],
   pack 64 [(63, 56, 5), (55, 16, t.ns.toNat % 2 ^ 40), (15, 0, t.frac.toNat)]]

/-- TAPE_MARK_SEND: every port in UP with ID_WAIT or MATCH sends a mark, ahead of everything else (R190). -/
def execTapeMarkSend (s : State) : Out :=
  .next (if !s.tape.running then s
    else s.each (List.range 32) (fun n t =>
      let p := t.port n
      if p.state == 3 && (p.check == 1 || p.check == 2) && !t.looped n then t.updPort n (fun p => { p with words := s.markWords ++ p.words }) else t))

/-- UPSTREAM_SWITCH: a port has stayed better than the upstream for 1 ms (R372). -/
def execUpstreamSwitch (s : State) : Out :=
  .next (match s.tape.better with
    | some b => if s.inBand && s.bestMark == some b then
        (s.updTape (fun t => { t with upstream := BitVec.ofNat 8 b, better := none })).tapeView
      else s
    | none => s)

/-- TAPE_LOSS_TIMEOUT: no usable comparison for the loss time (R374). -/
def execTapeLossTimeout (s : State) : Out :=
  .next (if s.straps.tapeSrc == 3 then s
    else if s.tape.state == 2 then (s.tapeTo 3).tapeRec 2 0
    else if s.tape.state == 1 then (s.tapeTo 4).tapeRec 3 0 else s)

/-- HOLDOVER_EXPIRY: 10 s without a discipline (R374). -/
def execHoldoverExpiry (s : State) : Out := .next (if s.tape.state == 3 then (s.tapeTo 4).tapeRec 3 0 else s)

/-- PPS_OUT: high for 100 ms from each whole second in LOCKED and HOLDOVER, low otherwise (R370). -/
def execPpsOut (s : State) : Out :=
  let on := s.tape.running && (s.tape.state == 2 || s.tape.state == 3) && decide (s.now.toNat % 10 ^ 9 < 10 ^ 8)
  .next { s with pins := { s.pins with ppsOut := on } }

/-! ### PTP and pins (R369) -/

/-- Local tape in 2^-16 ns. -/
def State.tapeUnits (s : State) : Int := ((s.tape.ns.toNat * 65536 + s.tape.frac.toNat : Nat) : Int)

/-- The management MAC is released and its port not looped (R470, R489, R526). -/
def State.macOn (s : State) : Bool :=
  s.pins.powered && !s.rst.inReset && !s.rst.halted && s.rst.stage != 0 && (AMap.get s.lb 32 {}).st != 1

/-- A PTP message is this adapter's to follow: source PTP, its domain, its master. -/
def State.ptpMine (s : State) (m : PtpMsg) : Bool :=
  s.macOn && s.straps.tapeSrc == 0 && s.tape.running && m.domain == s.tape.ptpDomain.toNat &&
  (s.tape.ptpMaster == 0 || m.source == s.tape.ptpMaster)

/-- A Sync's origin time meets its arrival: the mean path delay is added and the offset compared. -/
def State.ptpSync (s : State) (t1 t2 : BitVec 64) (corr : Int) : State :=
  let s := s.updTape (fun t => { t with ptpT1 := t1, ptpT2 := t2, ptpWait := none })
  s.tapeCompare ((t1.toNat : Int) * 65536 + corr + s.tape.ptpDelay - (t2.toNat : Int) * 65536)

/-- PTP_EVENT_MESSAGE: a Sync arrives, or a Delay_Req leaves; its timestamp is taken against the tape (R369, R474). -/
def execPtpEventMessage (msg : PtpMsg) (s : State) : Out :=
  let s := s.onIf s.macOn (fun s => (s.cntMgmt 12 1).cntMgmt (if msg.kind = 1 then 0 else 1) 1)
  .next (if !s.ptpMine msg then s
    else match msg.kind with
      | 0 => if msg.twoStep then s.updTape (fun t => { t with ptpWait := some (s.now, BitVec.ofNat 16 msg.seq) })
             else s.ptpSync msg.time s.now msg.correction
      | 1 => s.updTape (fun t => { t with ptpT3 := s.now })
      | _ => s)

/-- PTP_GENERAL_MESSAGE: Follow_Up, Delay_Resp or Announce (R369). -/
def execPtpGeneralMessage (msg : PtpMsg) (s : State) : Out :=
  let s := s.onIf s.macOn (fun s => s.cntMgmt 1 1)
  .next (if msg.kind = 11 && s.macOn && s.straps.tapeSrc == 0 && msg.domain == s.tape.ptpDomain.toNat then
      s.updTape (fun t => { t with ptpMaster := msg.source })
    else if !s.ptpMine msg then s
    else match msg.kind with
      | 8 => match s.tape.ptpWait with
        | some (t2, q) => if q.toNat = msg.seq then s.ptpSync msg.time t2 msg.correction else s
        | none => s
      | 9 =>
        let t := s.tape
        let d : Int := ((t.ptpT2.toNat : Int) - t.ptpT1.toNat + (msg.time.toNat - t.ptpT3.toNat)) * 65536 - msg.correction
        s.updTape (fun t => { t with ptpDelay := d / 2 })
      | _ => s)

/-- PPS_EDGE: a rising edge marks the whole second that TAPE_PPS_SEC numbered; until one is named the state stays ACQUIRING (R369). -/
def execPpsEdge (s : State) : Out :=
  .next (if s.straps.tapeSrc != 1 || !s.tape.running then s
    else match s.tape.ppsSec with
      | none => if s.tape.state == 1 || s.tape.state == 2 then s else s.tapeTo 1
      | some n => (s.updTape (fun t => { t with ppsSec := some (n + 1) })).tapeCompare ((n.toNat : Int) * (10 ^ 9 * 65536) - s.tapeUnits))

/-- TAPE_PPS_SEC: the second of the next edge (R381). -/
def execTapePpsSec (h : Issue) (seconds : Nat) (s : State) : Out :=
  .next (vuino h 0x0810 [seconds] (fun s =>
    if s.straps.tapeSrc != 1 then Ans.bad s else Ans.ok (s.updTape (fun t => { t with ppsSec := some (BitVec.ofNat 64 seconds) }))) s)

/-! ### Event commands (R375, R381) -/

/-- TAPE_EVENT_SET: an entry is filled and armed. -/
def execTapeEventSet (h : Issue) (event atNs periodUs op index value : Nat) (s : State) : Out :=
  .next (vuino h 0x0811 [event, atNs, periodUs, op, index, value] (fun s =>
    if 63 < event || 1000000 < periodUs || 1 < op || (Ranges.item (s.part h.part).syncs index).isNone then Ans.bad s
    else Ans.ok (s.updEvent h.part event (fun _ => {
      armed := true, atNs, period := periodUs, set := op == 1, index, value := BitVec.ofNat 64 value }))) s)

/-- TAPE_EVENT_CANCEL: the entry will not fire again. -/
def execTapeEventCancel (h : Issue) (event : Nat) (s : State) : Out :=
  .next (vuino h 0x0812 [event] (fun s =>
    if 63 < event then Ans.bad s
    else Ans.ok (if (AMap.get (s.part h.part).events event {}).armed then s.updEvent h.part event (fun e => { e with armed := false }) else s)) s)

/-- TAPE_EVENT_DUE: an event's instant has come (R375). -/
def execTapeEventDue (part event : Nat) (s : State) : Out :=
  let e := AMap.get (s.part part).events event {}
  .next (if s.tape.running && e.due s.now.toNat then (s.eventFire part e).updEvent part event Event.next else s)

/-! ### Bookings (R377, R378, R381) -/

/-- BOOK_WRITE: a port's basting booking. -/
def execBookWrite (h : Issue) (port cycle : Nat) (bitmap : BitVec 4096) (s : State) : Out :=
  .next (vuino h 0x0820 [port, cycle, bitmap.toNat] (fun s =>
    let bitmap := bitmap.toNat
    if cycle = 0 || 4096 < cycle || 31 < port then Ans.bad s
    else Ans.ok (s.updPort port (fun p => { p with bookBast := { cycle, bits := bitmap } }))) s)

/-- Ports of a mask. -/
def portsOf (mask : Nat) : Nats := (List.range 32).filter (fun n => mask.testBit n)

/-- BOOK_STITCH: the named ports take their copies at the first epoch boundary at or after AT_NS; the reply follows. -/
def execBookStitch (h : Issue) (atNs portmask : Nat) (s : State) : Out :=
  .next (vuino h 0x0821 [atNs, portmask] (fun s =>
    if portmask = 0 then Ans.bad s
    else if (portsOf portmask).any (fun n => (s.port n).bookAt.isSome) then Ans.busy s
    else Ans.wait (s.each (portsOf portmask) (fun n t => t.updPort n (fun p => { p with bookAt := some (atNs, h) })))) s)

/-- BOOK_QUERY: CYCLE, bitmap and whether the booking is suspended. -/
def execBookQuery (h : Issue) (port copy : Nat) (s : State) : Out :=
  .next (vuino h 0x0822 [port, copy] (fun s =>
    if 31 < port || 1 < copy then Ans.bad s
    else
      let p := s.port port
      let b := if copy = 0 then p.bookAct else p.bookBast
      Ans.ok s [sc 2 b.cycle, blkItem 512 b.bits, sc 1 (b2n p.bookSusp)]) s)

/-- At an epoch boundary, stitched bookings take effect and their commands reply, and bookings resume in LOCKED (R377, R378). -/
def State.bookBoundary (s : State) : State :=
  let ready := (List.range 32).filter (fun n => match (s.port n).bookAt with
    | some (t, _) => decide (t ≤ s.now.toNat)
    | none => false)
  let cmds := (ready.filterMap (fun n => (s.port n).bookAt.map Prod.snd)).dedup
  let s := s.each ready (fun n t => t.updPort n (fun p => { p with bookAct := p.bookBast, bookAt := none }))
  let s := s.eachOf cmds (fun h t => t.longEnd h 0x0821 { st := t })
  if s.tape.state == 2 then
    s.each ((List.range 32).filter (fun n => (s.port n).bookSusp)) (fun n t => t.updPort n (fun p => { p with bookSusp := false }))
  else s

/-- BOOK_SLOT_BOUNDARY: each port enters a booked slot or leaves one; outside LOCKED every booking is suspended (R377, R378). -/
def execBookSlotBoundary (s : State) : Out :=
  let locked := s.tape.state == 2
  let k := s.now.toNat / 2000
  .next (s.each ((List.range 32).filter (fun n => (s.port n).bookAct.cycle != 0 || (s.port n).vc0Open)) (fun n t => t.updPort n (fun p =>
    let susp := p.bookSusp || !locked
    { p with
      bookSusp := susp
      vc0Open := !susp && p.bookAct.cycle != 0 && p.bookAct.bits.testBit (k % max 1 p.bookAct.cycle) })))

end Sys2Proof.Machine
end

