-- ==== Sys2Proof/Machine/Links.lean ====
section
/-!
DEFINITION. Fabric links (chapter 08) and what a port's state brings with it: flits, control words, retry, credits, the change of
mode, loop time, LINK_SET, the neighbour check (R40-R44), and a port's leaving and entering service.
-/

namespace Sys2Proof.Machine

/-! ### Leaving MATCH and leaving service (R44, R181, R183) -/

/-- A packet of this adapter that will not leave counts as transmitted: its transport timer will find it missing. -/
def State.dropOwn (s : State) (q : QPkt) : State :=
  match q.conn with
  | none => s
  | some cid => s.updConn cid (fun c => { c with
      slotted := if q.ctl then c.slotted else c.slotted - 1
      outs := c.outs.map (fun o => if q.psn == some o.psn && !q.ctl
        then { o with queued := false, sent := true, lastNs := s.clockNs } else o) })

/-- Every packet waiting for a port's output is dropped and counted TRANSIT_DROP there (R44). -/
def State.dropQueued (s : State) (n : Nat) : State :=
  s.each (List.range 4) (fun vc t =>
    let qs := t.outq n vc
    let t := (t.updOutq n vc (fun _ => [])).cntPort n 12 qs.length
    t.eachOf qs (fun q u => if q.src == 32 then u.dropOwn q else if !q.slot then u else u.freeSlots q.src vc q.pkt.flits))

/-- The replay buffer is discarded: its packets are dropped and counted ABORTED (R44, R181). -/
def State.dropReplay (s : State) (n : Nat) : State :=
  (s.cntPort n 10 (s.port n).replayEnd.length).updPort n (fun p => { p with
    replay := [], replayEnd := [], replayFrom := none, waitFack := false })

/-- Partial packets at a port's input are abandoned: counted ABORTED, their slots freed (R182, R183). -/
def State.dropPartial (s : State) (n : Nat) : State :=
  let vcs := (s.port n).prog.filter (fun e => e.2 != 0)
  let s := s.cntPort n 10 vcs.length
  let s := s.eachOf vcs (fun e t => t.freeSlots n e.1 e.2)
  s.updPort n (fun p => { p with prog := [] })

/-- A port leaves MATCH (R44). -/
def State.leaveMatch (s : State) (n : Nat) : State := (s.dropQueued n).dropReplay n

/-- A LINK record of a port (R505). -/
def State.linkRec (s : State) (n reason : Nat) : State :=
  let p := s.port n
  let e := if s.devidValid then expected s.myId n else (0, 0)
  s.postRec {
    cls := 2, reason, d1 := 0xFFFF
    d0 := e.1 * 2 ^ 48 + p.obsId.toNat * 2 ^ 32 + e.2 * 2 ^ 24 + p.obsPort.toNat * 2 ^ 16 + n }

/-- REASON of a mismatch, 0 where the peer is the one expected (R42). -/
def State.mismatch (s : State) (n : Nat) : Nat :=
  let p := s.port n
  let id := p.obsId.toNat
  let e := expected s.myId n
  if s.looped n then 0
  else if id = s.myId then 1
  else if !validId id || p.obsPort.toNat / 64 == 3 || bitAt p.obsPort 5 then 2
  else if idSpine id != idSpine e.1 then 3
  else if id != e.1 then 4
  else if p.obsPort.toNat != e.2 then 5
  else 0

/-- The neighbour check of a port whose identity exchange is complete (R40-R44). -/
def State.checkPort (s : State) (n : Nat) : State :=
  let was := (s.port n).check
  let r := s.mismatch n
  let now : BitVec 4 := if !s.devidValid || !(s.port n).obsValid then 1 else if r = 0 then 2 else 3
  let s := s.updPort n (fun p => { p with check := now, reason := if now == 3 then BitVec.ofNat 4 r else 0 })
  let s := s.onIf (was == 2 && now != 2) (fun t => t.leaveMatch n)
  let s := s.onIf (now == 3 && was != 3) (fun t => t.linkRec n 1)
  s.onIf (was != now) State.chooseUpstream

/-- Every completed exchange is checked again, as this adapter's own device ID becomes valid (R41). -/
def State.recheck (s : State) : State :=
  s.each ((List.range 32).filter (fun n => (s.port n).check == 1)) (fun n t => t.checkPort n)

/-- A LINK_SET waiting on a port is answered (R194). -/
def State.linkReply (s : State) (n : Nat) : State :=
  match (s.port n).linkCmd with
  | none => s
  | some (h, _) => (s.updPort n (fun p => { p with linkCmd := none })).answerLater h 0x0500 0

/-- What a link forgets as it stops running. -/
def PortS.stopped (p : PortS) : PortS := { p with
  step := 0, discarding := false, unacked := 0, retrySame := 0, badMs := [], words := [], sentMode := false, reqMode := false, pings := [],
  echoes := 0, idSeen := [], laneIn := [], skipTo := [], stopRx := 0, stopTx := 0 }

/-- A port goes out of service to a state: DOWN or DISABLED. -/
def State.portOut (s : State) (n : Nat) (st : BitVec 4) : State :=
  let s := (s.leaveMatch n).dropPartial n
  let s := s.updPort n (fun p => { p.stopped with
    state := st, check := 4, reason := 0, txMask := 0, rxMask := 0, rxOk := 0, peerRxOk := 0, cold := true })
  (s.chooseUpstream).linkReply n

/-- A retrain begins at step 2 (R227): counted; the replay buffer waits for its end (R181). -/
def State.retrain (s : State) (n : Nat) : State :=
  let st := (s.port n).state
  if st == 3 || st == 4 || st == 5 then
    let s := (s.cntPort n 15 1).dropPartial n
    (s.updPort n (fun p => { p.stopped with state := 7, step := 2, cold := false, replayFrom := none })).chooseUpstream
  else s

/-- A retrain of R181: with its LINK record; a looped port's errors do not count (R528). -/
def State.retrain181 (s : State) (n : Nat) : State :=
  if s.looped n || !(s.port n).state.toNat.beq 3 && !(s.port n).state.toNat.beq 4 then s else (s.linkRec n 2).retrain n

/-! ### Control words (R178) -/

/-- A control word joins those waiting to be sent. -/
def State.sendWord (s : State) (n : Nat) (w : BitVec 64) : State := s.updPort n (fun p => { p with words := p.words ++ [w] })

/-- RETRY_REQ naming the FSEQ expected. -/
def PortS.retryWord (p : PortS) : BitVec 64 := pack 64 [(63, 56, 3), (15, 0, p.rxSeq.toNat)]
/-- FACK naming the last FSEQ accepted in order. -/
def PortS.fackWord (p : PortS) : BitVec 64 := pack 64 [(63, 56, 2), (15, 0, (p.rxSeq - 1).toNat)]
/-- CREDIT with the slots freed since the link came up. -/
def PortS.creditWord (p : PortS) : BitVec 64 :=
  pack 64 [(63, 56, 1), (55, 42, (AMap.get p.freed 0 0).toNat), (41, 28, (AMap.get p.freed 1 0).toNat),
    (27, 14, (AMap.get p.freed 2 0).toNat), (13, 0, (AMap.get p.freed 3 0).toNat)]

/-- The eight LOOP_PINGs of a measurement (R185). -/
def State.sendPings (s : State) (n : Nat) : State :=
  s.updPort n (fun p =>
    let cs := (List.range 8).map (fun i => p.cookie + BitVec.ofNat 32 (i + 1))
    { p with
      cookie := p.cookie + 8, echoes := 0
      pings := cs.map (fun c => (c, s.clockNs))
      words := p.words ++ cs.map (fun c => pack 64 [(63, 56, 6), (31, 0, c.toNat)]) })

/-- The words waiting on a port leave in CONTROL flits: an echo states the time since its ping arrived (R178, R179). -/
def State.sendWords (s : State) (n : Nat) : State :=
  s.updPort n (fun p => { p with
    words := []
    ctlOut := p.ctlOut ++ p.words.map (fun w =>
      if fld w 63 56 = 7 then setFld w 47 32 ((s.clockNs + 65536 - fld w 47 32) % 65536) else w) })

/-- The flits of a replay leave in FSEQ order (R180). -/
def State.sendReplay (s : State) (n : Nat) : State :=
  let p := s.port n
  match p.replayFrom with
  | none => s
  | some q =>
    let again := p.replay.dropWhile (· != q)
    (s.cntPort n 9 again.length).updPort n (fun p => { p with replayFrom := none })

/-- What a port sends ahead of new DATA flits: control words, then a replay (R179). -/
def State.sendFirst (s : State) (n : Nat) : State :=
  if 32 ≤ n then s
  else
    let st := (s.port n).state
    let s := s.onIf (2 ≤ st.toNat && st.toNat ≤ 5) (fun t => t.sendWords n)
    s.onIf ((st == 3 || st == 4) && !(s.port n).waitFack) (fun t => t.sendReplay n)

/-! ### Change of mode (R188) -/

/-- Impaired credit return is seen on a row or column link in credit mode. -/
def State.startModeChange (s : State) (n : Nat) : State :=
  let p := s.port n
  if s.rowCol n && p.onoff != some true && p.state == 3 then
    ((s.updPort n (fun p => { p with state := 4, reqMode := true })).sendWord n (pack 64 [(63, 56, 8), (0, 0, 1)])).updStop n
  else s

/-! ### Flits (R174-R187) -/

/-- A DATA flit or an IDLE flit that must be treated as bad (R175): a failed CRC, TYPE 3, a reserved bit, or a set bit that must be
zero. `data` says that the flit is taken for a DATA flit. -/
def flitBad (f : Flit) (data credit : Bool) : Bool :=
  !f.crcOk || fld f.head 31 30 == 3 || !zeroFld f.head 17 16 || (credit && !zeroFld f.head 21 18) ||
  (if data then fld f.head 31 30 != 0 else fld f.head 31 30 == 0 || !zeroFld f.head 29 22 || !zeroFld f.head 15 0)

/-- Credit mode is in force on a port's receive side (R186). -/
def State.creditMode (s : State) (n : Nat) : Bool := s.rowCol n && (s.port n).onoff != some true && (s.port n).state != 4

/-- A flit discarded as bad: counted; a retry is asked for on row and column ports (R180), the packets in progress are abandoned on S
ports (R182). -/
def State.badFlit (s : State) (n : Nat) : State :=
  let s := s.cntPort n 7 1
  if s.rowCol n then
    let s := s.updPort n (fun p => { p with
      badMs := (s.clockNs :: p.badMs).filter (fun c => decide (s.clockNs < c + 1000000))
      words := if p.discarding then p.words else p.words ++ [p.retryWord]
      discarding := true })
    s.onIf (decide (1000 < (s.port n).badMs.length)) (fun t => t.retrain181 n)
  else (s.dropPartial n).updPort n (fun p => { p with skipTo := [0, 1, 2, 3] })

/-- A DATA flit in place: its slot, its bytes, and an acknowledgment after 64 (R178, R184, R193). -/
def State.takeFlit (s : State) (n vc : Nat) (f : Flit) : State :=
  let s := s.onIf (bitAt f.head 22) (fun t =>
    let k := AMap.get (t.port n).prog vc 0
    ((t.cntPort n 10 1).freeSlots n vc k).updPort n (fun p => { p with prog := AMap.set p.prog vc 0 }))
  let s := (s.cntPort n 3 f.bytes).updPort n (fun p => { p with
    rxSeq := BitVec.ofNat 16 (fld f.head 15 0) + 1
    epochRx := p.epochRx + f.bytes
    slots := AMap.upd p.slots vc 0 (· + 1)
    prog := AMap.upd p.prog vc 0 (· + 1)
    skipTo := p.skipTo.filter (· != vc) })
  let s := s.onIf (s.rowCol n) (fun t => t.updPort n (fun p =>
    if 63 ≤ p.unacked then { p with unacked := 0, discarding := false, words := p.words ++ [p.fackWord] }
    else { p with unacked := p.unacked + 1, discarding := false }))
  s.updStop n

/-- DATA_FLIT_RX: a DATA flit is accepted in FSEQ order, skipped, or discarded (R180, R182, R186, R188). -/
def execDataFlitRx (port : Nat) (flit : Flit) (s : State) : Out :=
  .next (
    let p := s.port port
    let rc := s.rowCol port
    let vc := fld flit.head 29 28
    if 32 ≤ port || !(p.state == 3 || p.state == 4) then s
    else if flitBad flit true (s.creditMode port) then s.badFlit port
    else
      let s := s.onIf (!s.creditMode port) (fun t => t.updPort port (fun p => { p with stopRx := BitVec.ofNat 4 (fld flit.head 21 18) }))
      if rc && fld flit.head 15 0 != p.rxSeq.toNat then
        s.updPort port (fun p => { p with
          words := if p.discarding then p.words else p.words ++ [p.retryWord]
          discarding := true })
      else if s.creditMode port && decide ((if vc = 3 then 256 else 1280) ≤ AMap.get p.slots vc 0) then
        (s.badFlit port).startModeChange port
      else if !rc && p.skipTo.contains vc && fld flit.head 27 23 == 31 then
        s.updPort port (fun p => { p with rxSeq := BitVec.ofNat 16 (fld flit.head 15 0) + 1 })
      else s.takeFlit port vc flit)

/-- IDLE_FLIT_RX: the STOP bits of a good flit are obeyed (R187). -/
def execIdleFlitRx (port : Nat) (flit : Flit) (s : State) : Out :=
  .next (
    let p := s.port port
    if 32 ≤ port || !(p.state == 3 || p.state == 4) then s
    else if flitBad flit false (s.creditMode port) then s.badFlit port
    else if s.creditMode port then s
    else s.updPort port (fun p => { p with stopRx := BitVec.ofNat 4 (fld flit.head 21 18) }))

/-- CREDIT: credits return, or show that their return is impaired (R186, R188). -/
def execCredit (port : Nat) (word : BitVec 64) (s : State) : Out :=
  .next (
    let p := s.port port
    if 32 ≤ port || !s.creditMode port || p.state != 3 then s
    else
      let val (vc : Nat) : BitVec 14 := BitVec.ofNat 14 (fld word (55 - 14 * vc) (42 - 14 * vc))
      let up (vc : Nat) : Nat := p.creditsOf vc + (val vc - AMap.get p.creditRx vc 0).toNat
      if (List.range 4).any (fun vc => decide ((if vc = 3 then 256 else 1280) < up vc)) then s.startModeChange port
      else s.updPort port (fun p => { p with
        credits := (List.range 4).map (fun vc => (vc, up vc))
        creditRx := (List.range 4).map (fun vc => (vc, val vc)) }))

/-- FACK: the replay buffer drops what is acknowledged; a FACK outside it changes nothing (R180, R181). -/
def execFack (port : Nat) (word : BitVec 64) (s : State) : Out :=
  .next (
    let p := s.port port
    let f : BitVec 16 := BitVec.ofNat 16 (fld word 15 0)
    if 32 ≤ port || !s.rowCol port || !(p.state == 3 || p.state == 4) then s
    else
      let inside := p.replay.contains f
      let left := if inside then (p.replay.dropWhile (· != f)).drop 1 else p.replay
      s.updPort port (fun p => { p with
        replay := left
        replayEnd := p.replayEnd.filter left.contains
        replayFrom := if p.waitFack then left.head? else match p.replayFrom with
          | some q => if left.contains q then some q else left.head?
          | none => none
        waitFack := false }))

/-- RETRY_REQ: a replay starts or starts again; the eighth in a row that names one FSEQ makes the link retrain (R180, R181). -/
def execRetryReq (port : Nat) (word : BitVec 64) (s : State) : Out :=
  .next (
    let p := s.port port
    let q : BitVec 16 := BitVec.ofNat 16 (fld word 15 0)
    if 32 ≤ port || !s.rowCol port || !(p.state == 3 || p.state == 4) then s
    else
      let k := if p.retrySame != 0 && p.retryLast == q then p.retrySame + 1 else 1
      let s := s.updPort port (fun p => { p with retrySame := k, retryLast := q })
      if 8 ≤ k then s.retrain181 port
      else if p.replayFrom == some q || !p.replay.contains q then s
      else (s.cntPort port 8 1).updPort port (fun p => { p with replayFrom := some q, replayQ := q }))

/-- LOOP_PING: its cookie is echoed (R178, R185). -/
def execLoopPing (port : Nat) (word : BitVec 64) (s : State) : Out :=
  .next (
    let st := (s.port port).state
    if 32 ≤ port || st.toNat < 2 || 5 < st.toNat then s
    else s.sendWord port (pack 64 [(63, 56, 7), (47, 32, s.clockNs % 65536), (31, 0, fld word 31 0)]))

/-- LOOP_ECHO: the largest loop time since training is kept; over its limit the link enters REACH_EXCEEDED (R185). -/
def execLoopEcho (port : Nat) (word : BitVec 64) (s : State) : Out :=
  .next (
    let p := s.port port
    let c : BitVec 32 := BitVec.ofNat 32 (fld word 31 0)
    if 32 ≤ port || p.state.toNat < 2 || 5 < p.state.toNat then s
    else match p.pings.find? (fun e => e.1 == c) with
      | none => s
      | some e =>
        let t := s.clockNs - e.2 - fld word 47 32
        let s := s.updPort port (fun p => { p with
          loopNs := BitVec.ofNat 16 (max p.loopNs.toNat (min 65535 t))
          pings := p.pings.erase e, echoes := p.echoes + 1 })
        let limit := if port < 30 && !s.spine then 800 else 6000
        if limit < t && p.state != 5 then
          let s := (s.leaveMatch port).linkRec port 3
          ((s.updPort port (fun p => { p with state := 5, step := 0 })).chooseUpstream).linkReply port
        else s)

/-- MODE_REQ: the other end asks for on/off mode (R188). -/
def execModeReq (port : Nat) (word : BitVec 64) (s : State) : Out :=
  .next (
    let p := s.port port
    let ack : BitVec 64 := pack 64 [(63, 56, 9), (0, 0, 1)]
    if 32 ≤ port || !s.rowCol port || !bitAt word 0 || !(p.state == 3 || p.state == 4) then s
    else if p.state == 3 && p.onoff == some true then s.sendWord port ack
    else ((s.updPort port (fun p => { p with
        state := 4, onoff := some true, sentMode := true, reqMode := false })).sendWord port ack).updStop port)

/-- MODE_ACK: the change ends here; the end that asked for it answers (R188). -/
def execModeAck (port : Nat) (word : BitVec 64) (s : State) : Out :=
  .next (
    let p := s.port port
    let ack : BitVec 64 := pack 64 [(63, 56, 9), (0, 0, 1)]
    if 32 ≤ port || !s.rowCol port || !bitAt word 0 then s
    else if p.state == 4 then
      let s := s.onIf (!p.sentMode) (fun t => t.sendWord port ack)
      (s.updPort port (fun p => { p with state := 3, onoff := some true, sentMode := true })).updStop port
    else if p.state == 3 && p.reqMode then s.sendWord port ack else s)

/-- CREDIT_LOSS_TIMER: no CREDIT for 5 µs while the link is up (R188). -/
def execCreditLossTimer (port : Nat) (s : State) : Out := .next (s.startModeChange port)

/-- MODE_REQ_REPEAT: the unanswered word is sent again (R188). -/
def execModeReqRepeat (port : Nat) (s : State) : Out :=
  .next (
    let p := s.port port
    if p.state == 4 then s.sendWord port (pack 64 [(63, 56, if p.sentMode then 9 else 8), (0, 0, 1)]) else s)

/-- MODE_CHANGE_TIMEOUT: no MODE_ACK within 20 µs makes the link retrain (R188, R181). -/
def execModeChangeTimeout (port : Nat) (s : State) : Out := .next (if (s.port port).state == 4 then s.retrain181 port else s)

/-- FACK_TIMER: 200 ns after an accept not yet acknowledged (R178). -/
def execFackTimer (port : Nat) (s : State) : Out :=
  .next (if s.rowCol port && (s.port port).unacked != 0
    then s.updPort port (fun p => { p with unacked := 0, words := p.words ++ [p.fackWord] }) else s)

/-- CREDIT_TIMER: at least every 1 µs in credit mode (R178). -/
def execCreditTimer (port : Nat) (s : State) : Out :=
  .next (if s.creditMode port && (s.port port).state == 3
    then s.updPort port (fun p => { p with freedNew := [], words := p.words ++ [p.creditWord] }) else s)

/-- RETRY_REQ_TIMER: the expected flit has not arrived in the loop time and 200 ns (R180). -/
def execRetryReqTimer (port : Nat) (s : State) : Out :=
  .next (let p := s.port port
    if s.rowCol port && p.discarding && (p.state == 3 || p.state == 4) then s.sendWord port p.retryWord else s)

/-- FACK_STALL: flits unacknowledged for 20 µs with no FACK (R181). -/
def execFackStall (port : Nat) (s : State) : Out :=
  .next (if s.rowCol port && !(s.port port).replay.isEmpty then s.retrain181 port else s)

/-- LOOP_MEASURE_TIMER: the measurement is repeated every 1 ms (R185). -/
def execLoopMeasureTimer (port : Nat) (s : State) : Out :=
  .next (let st := (s.port port).state
    if 32 ≤ port || st.toNat < 3 || 5 < st.toNat then s else s.sendPings port)

/-! ### Coming into service -/

/-- The link comes up (R186, R189, R181): full credits, counts of freed slots from zero, the mode that LINK_SET asked for; after a
retrain the FACK that lets replay resume. -/
def State.linkUp (s : State) (n : Nat) : State :=
  let rc := s.rowCol n
  let s := s.updPort n (fun p => { p with
    state := 3, step := 0, credits := [], creditRx := [], freed := [], freedNew := [], prog := []
    txSeq := if p.cold then 0 else p.txSeq, rxSeq := if p.cold then 0 else p.rxSeq
    onoff := if rc then some p.wantOnOff else p.onoff, wantOnOff := false
    waitFack := !p.replay.isEmpty, cold := false
    words := p.words ++ (if rc && !p.cold then [p.fackWord] else []) })
  ((s.updStop n).chooseUpstream).linkReply n

/-- Whether a port may train: not held down by LINK_SET, by a retired or switched-off engine (R518, R233), or by its laser module
(R231). -/
def PortS.mayTrain (p : PortS) : Bool := p.state == 0 && !p.shut && !p.els && p.light

/-- A cold training starts at step 2, its light being there (R227) and its optical engine not isolated (R491). -/
def State.trainCold (s : State) (n : Nat) : State :=
  if (s.port n).mayTrain && !s.isolated 5 (n / 2) then s.updPort n (fun p => { p.stopped with state := 1, check := 0, step := 2, cold := true }) else s

/-- LINK_SET: a port is enabled, disabled or made to retrain (R194); ENABLE of either port of a RETIRED engine gives both back
(R518). -/
def execLinkSet (h : Issue) (port action : Nat) (s : State) : Out :=
  .next (vuino h 0x0500 [port, action] (fun s =>
    let p := s.port port
    if 32 ≤ port || 3 < action then Ans.bad s
    else if p.linkCmd.isSome then Ans.busy s
    else if action = 0 then
      let e := port / 2 * 2
      let s := s.onIf p.shut (fun t => t.each [e, e + 1] (fun n t => t.updPort n (fun p => { p with shut := false })))
      Ans.ok (s.each (if p.shut then [e, e + 1] else [port]) (fun n t =>
        if (t.port n).state == 6 && !t.looped n then (t.updPort n (fun p => { p with state := 0 })).trainCold n else t))
    else if action = 1 then Ans.ok (if p.state == 6 then s else s.portOut port 6)
    else if p.state == 0 || p.state == 6 then Ans.ok s
    else
      let s := (s.retrain port).updPort port (fun p => { p with
        wantOnOff := decide (action = 3) && s.rowCol port, linkCmd := some (h, BitVec.ofNat 4 action) })
      Ans.wait s) s)

/-! ### The end of a loop-back (R525, R528) -/

/-- A running loop-back ends: PASSED where ERRORS is 0 and UNITS, which counts 1,024 at a time, is not, FAILED otherwise; a fabric port
takes the state it had before (R528, R529). -/
def State.lbEnd (s : State) (j errors units : Nat) (failed : Bool) : State :=
  let l := AMap.get s.lb j {}
  if l.st != 1 then s
  else
    let shown := min (2 ^ 32 - 1) (units / 1024)
    let st : BitVec 2 := if !failed && errors = 0 && shown != 0 then 2 else 3
    let s := { s with lb := AMap.set s.lb j { l with st, errors := BitVec.ofNat 16 (min 65535 errors), units := shown } }
    match AMap.get? s.lbPrior j with
    | some st => { (s.portOut j st) with lbPrior := AMap.erase s.lbPrior j }
    | none => s

/-- A running loop-back ends before its time: the units checked until then and their errors are free values, for the model runs no
pattern (R528, R529). -/
def State.lbStop (s : State) (j : Nat) (failed : Bool) : State :=
  let v := s.freshVal
  v.2.lbEnd j (v.1.toNat % 2 ^ 16) (v.1.toNat / 2 ^ 16) failed

end Sys2Proof.Machine
end

