-- ==== Sys2Proof/Machine/Sync.lean ====
section
/-!
DEFINITION. The host's side of sync objects and the doorbell bits (chapter 15): SYNC_CTL, SYNC_OP, SYNC_QUERY, the SYNC_DB
register, and the bits that a tenant and the manager set for each other (R351-R366).
-/

namespace Sys2Proof.Machine

/-- A function's BAR0 takes writes: the function exists, the host interface stands released, its partition is not being reset, and no
halt of partition 0's ADMIN queue discards them (R422, R484, R489, R560). -/
def State.barOpen (s : State) (func : Nat) : Bool :=
  s.funcOn func && !s.host.stopped && !s.rst.perstHold && (s.rst.stage == 5 || s.rst.stage == 6) && (s.part func).resetStep == 0

/-- A register write that reaches a function. -/
def State.barDo (s : State) (func : Nat) (f : State → State) : State := s.onIf (s.barOpen func) f

/-! ### Sync commands (R358) -/

/-- An event queue of a partition that is not its fault queue (R358). -/
def State.evqOk (s : State) (p q : Nat) : Bool := (s.queue? (qkey p q)).any (fun u => u.kind == 6 && !u.isFault)

/-- The host waiter of an object armed at a threshold: it fires at once where the value has reached it (R356). -/
def State.armWaiter (s : State) (obj : Nat) (t : BitVec 64) : State :=
  (s.updObj obj (fun o => { o with armed := true, thresh := t })).hostWaiter obj (s.obj obj).val

/-- SYNC_CTL: the object's event queue, and its host waiter armed or disarmed. -/
def execSyncCtl (h : Issue) (index evq arm thresh : Nat) (s : State) : Out :=
  .next (vuino h 0x0800 [index, evq, arm, thresh] (fun s =>
    match Ranges.item (s.part h.part).syncs index with
    | none => Ans.bad s
    | some o =>
      if !s.evqOk h.part evq || 1 < arm then Ans.bad s
      else
        let s := s.updObj o (fun x => { x with evq := some (qkey h.part evq) })
        Ans.ok (if arm = 1 then s.armWaiter o (BitVec.ofNat 64 thresh) else s.updObj o (fun x => { x with armed := false }))) s)

/-- SYNC_OP: ADD or SET, answered with the resulting value. -/
def execSyncOp (h : Issue) (index op value : Nat) (s : State) : Out :=
  .next (vuino h 0x0801 [index, op, value] (fun s =>
    match Ranges.item (s.part h.part).syncs index with
    | none => Ans.bad s
    | some o =>
      if 1 < op then Ans.bad s
      else
        let v := if op = 0 then (s.obj o).val + BitVec.ofNat 64 value else BitVec.ofNat 64 value
        Ans.ok (s.syncPut o v) [sc 8 v.toNat]) s)

/-- SYNC_QUERY: the objects of a range, then the partition's counts. -/
def execSyncQuery (h : Issue) (first count : Nat) (s : State) : Out :=
  .next (vuino h 0x0802 [first, count] (fun s =>
    let p := s.part h.part
    if count = 0 || 64 < count || Ranges.count p.syncs < first + count then Ans.bad s
    else
      let one (i : Nat) : Items :=
        let o := s.obj ((Ranges.item p.syncs i).getD 0)
        [sc 8 o.val.toNat, sc 1 (b2n o.armed), sc 8 o.thresh.toNat, sc 2 ((o.evq.map qnum).getD 0)]
      Ans.ok s [listItem ((List.range' first count).map one), sc 4 p.syncLost.toNat, sc 4 p.syncRefused.toNat]) s)

/-! ### SYNC_DB (R357) -/

/-- A SYNC_DB write with an index inside the allotment does `f` to that object; outside it, it is counted as refused. -/
def State.syncDb (s : State) (func index : Nat) (f : Nat → State → State) : State :=
  s.barDo func (fun s => let s := s.leaveIdle; match Ranges.item (s.part func).syncs index with
    | some o => f o s
    | none => s.updPart func (fun p => { p with syncRefused := satAdd p.syncRefused 1 }))

/-- VALUE of SYNC_DB, 48 bits, zero-extended. -/
def dbValue (value : Nat) : BitVec 64 := BitVec.ofNat 64 (value % 2 ^ 48)

/-- SYNC_DB, OP ADD. -/
def execSyncDbAdd (func index value : Nat) (s : State) : Out := .next (s.syncDb func index (fun o t => t.syncAdd o (dbValue value)))

/-- SYNC_DB, OP SET. -/
def execSyncDbSet (func index value : Nat) (s : State) : Out := .next (s.syncDb func index (fun o t => t.syncPut o (dbValue value)))

/-- SYNC_DB, OP ARM. -/
def execSyncDbArm (func index value : Nat) (s : State) : Out := .next (s.syncDb func index (fun o t => t.armWaiter o (dbValue value)))

/-- SYNC_DB, OP 3: refused and counted. -/
def State.syncDbRefused (s : State) (func : Nat) : State :=
  s.barDo func (fun s => s.updPart func (fun p => { p with syncRefused := satAdd p.syncRefused 1 }))

/-! ### Doorbell bits (R364-R366) -/

/-- The DB_BITS entry (R413). -/
def dbBitsEntry (p : Nat) (bits : BitVec 32) (now : BitVec 64) : BitVec 512 :=
  pack 512 [(127, 64, now.toNat), (63, 32, bits.toNat), (21, 16, p), (7, 0, 3)]

/-- One DB_BITS entry on the manager's queue for the bits that caused it; discarded where it is absent or full (R410). -/
def State.noteH2A (s : State) (p : Nat) (bits : BitVec 32) : State :=
  if bits = 0 then s
  else match s.queues.find? (fun e => qpart e.1 == 0 && e.2.isDbBits) with
    | some (k, _) => (s.putEvent k (dbBitsEntry p bits s.now)).1
    | none => s

/-- DB_H2A of a tenant's function: bits set, and one notice of those newly set and unmasked; function 0 ignores it. -/
def State.setH2A (s : State) (func : Nat) (bits : BitVec 32) : State :=
  if func = 0 then s
  else
    let f := s.func func
    (s.updFunc func (fun f => { f with dbH2A := f.dbH2A ||| bits })).noteH2A func (bits &&& ~~~f.dbH2A &&& ~~~f.h2aMask)

/-- DB_A2H_MASK: bits unmasked while set give one notice. -/
def State.maskA2H (s : State) (func : Nat) (mask : BitVec 32) : State :=
  let f := s.func func
  let new := f.dbA2H &&& f.dbA2HMask &&& ~~~mask
  (s.updFunc func (fun f => { f with dbA2HMask := mask })).onIf (new != 0) (fun t => t.msix func f.dbVec.toNat)

/-- MGR_H2A_MASK: bits unmasked while set give one notice. -/
def State.maskH2A (s : State) (p : Nat) (mask : BitVec 32) : State :=
  let f := s.func p
  (s.updFunc p (fun f => { f with h2aMask := mask })).noteH2A p (f.dbH2A &&& f.h2aMask &&& ~~~mask)

/-- A tenant's number. -/
def isTenant (p : Nat) : Bool := decide (1 ≤ p ∧ p ≤ 63)

/-- DB_H2A_SET. -/
def execDbH2aSet (func : Nat) (bits : BitVec 32) (s : State) : Out := .next (s.barDo func (fun s => s.setH2A func bits))

/-- DB_A2H_CLEAR: bits written 1 are cleared. -/
def execDbA2hClear (func : Nat) (bits : BitVec 32) (s : State) : Out :=
  .next (s.barDo func (fun s => s.updFunc func (fun f => { f with dbA2H := f.dbA2H &&& ~~~bits })))

/-- DB_A2H_MASK_WRITE. -/
def execDbA2hMaskWrite (func : Nat) (mask : BitVec 32) (s : State) : Out := .next (s.barDo func (fun s => s.maskA2H func mask))

/-- MGR_H2A_CLEAR: the manager clears bits of a tenant's DB_H2A. -/
def execMgrH2aClear (tenant : Nat) (bits : BitVec 32) (s : State) : Out :=
  .next (s.onIf (isTenant tenant) (fun s => s.barDo 0 (fun s =>
    s.updFunc tenant (fun f => { f with dbH2A := f.dbH2A &&& ~~~bits }))))

/-- MGR_H2A_MASK_WRITE. -/
def execMgrH2aMaskWrite (tenant : Nat) (mask : BitVec 32) (s : State) : Out :=
  .next (s.onIf (isTenant tenant) (fun s => s.barDo 0 (fun s => s.maskH2A tenant mask)))

/-- MGR_A2H_SET: bits 0-30 of a tenant's DB_A2H are set; bit 31 is ignored. -/
def execMgrA2hSet (tenant : Nat) (bits : BitVec 32) (s : State) : Out :=
  .next (s.onIf (isTenant tenant) (fun s => s.barDo 0 (fun s => s.setA2H tenant (bits &&& 0x7FFFFFFF#32))))

end Sys2Proof.Machine
end

