-- ==== Sys2Proof/Machine/Boot.lean ====
section
/-!
DEFINITION. The boot chain (chapters 20 and 25): bundles and their checks, measurement registers, the boot sources, and the I3C targets
(R450-R457, R542, R543).
-/

namespace Sys2Proof

/-! ### Bundles (R453) -/

/-- A manifest entry as stored. -/
def MEntry.bytes (e : MEntry) : Bytes :=
  bytesLE 2 e.comp ++ zeros 2 ++ bytesLE 4 e.offset ++ bytesLE 4 e.length ++ zeros 4 ++ bytesBE 48 e.digest.toNat

/-- The signed message of a bundle: its bytes up to the end of MANIFEST (R454). -/
def Bundle.message (b : Bundle) : Bytes :=
  bytesLE 4 b.magic ++ bytesLE 2 b.version ++ bytesLE 2 b.flags ++ bytesLE 1 b.rootSlot ++ zeros 3 ++ bytesLE 4 b.svn ++ bytesLE 2 b.count ++
    zeros 2 ++ bytesLE 4 b.totalLen ++ bytesLE 8 b.buildId.toNat ++ bytesBE 384 b.rsaN.toNat ++ bytesBE 48 b.slhPk.toNat ++ zeros 48 ++
    b.manifest.flatMap MEntry.bytes

/-- The offset past the signatures of a bundle. -/
def Bundle.sigEnd (b : Bundle) : Nat := 0x200 + 64 * b.count + 384 + 16224

/-- A bundle read from its bytes. -/
def Bundle.parse (bs : Bytes) : Bundle :=
  let at_ (o n : Nat) : Bytes := (bs.drop o).take n
  let le (o n : Nat) : Nat := natLE (at_ o n)
  let count := le 0x10 2
  let entries := (List.range (min count 64)).map (fun i =>
    let o := 0x200 + 64 * i
    ({ comp := le o 2, rsvZero := le (o + 2) 2 == 0 && le (o + 12) 4 == 0, offset := le (o + 4) 4, length := le (o + 8) 4
       digest := BitVec.ofNat 384 (natBE (at_ (o + 16) 48)) } : MEntry))
  let sig := 0x200 + 64 * count
  { magic := le 0 4, version := le 4 2, flags := le 6 2, rootSlot := le 8 1
    rsvZero := le 9 3 == 0 && le 0x12 2 == 0 && le 0x1D0 48 == 0
    svn := le 0xC 4, count, totalLen := le 0x14 4, buildId := BitVec.ofNat 64 (le 0x18 8), rsaN := BitVec.ofNat 3072 (natBE (at_ 0x20 384))
    slhPk := BitVec.ofNat 384 (natBE (at_ 0x1A0 48)), manifest := entries, rsaSig := BitVec.ofNat 3072 (natBE (at_ sig 384))
    slhSig := at_ (sig + 384) 16224, comps := entries.map (fun e => at_ e.offset e.length) }

/-- Two byte ranges have no byte in common. -/
def apart (a n b m : Nat) : Bool := decide (a + n ≤ b) || decide (b + m ≤ a)

/-- The manifest names each component once, at places of its own inside the bundle, past the signatures. -/
def Bundle.manifestOk (b : Bundle) : Bool :=
  b.manifest.length == b.count && sortUp (b.manifest.map (fun e => e.comp)) == [1, 2, 3, 4] && b.manifest.length == 4 &&
  b.manifest.all (fun e => e.rsvZero && decide (b.sigEnd ≤ e.offset) && decide (e.offset + e.length ≤ b.totalLen)) &&
  (List.zip (List.range 4) b.manifest).all (fun x => (List.zip (List.range 4) b.manifest).all (fun y =>
    x.1 == y.1 || apart x.2.offset x.2.length y.2.offset y.2.length))

/-- Every field of a bundle lies in its range (R453). -/
def Bundle.formatOk (b : Bundle) : Bool :=
  b.version == 1 && decide (b.flags < 4) && !(b.flags.testBit 1 && b.rootSlot == 0) && decide (b.rootSlot < 2) && b.rsvZero &&
  decide (4 ≤ b.count ∧ b.count ≤ 64) && decide (b.totalLen ≤ 2 ^ 25) && b.manifestOk

/-- Outcomes of the two verifications of a bundle (R454). -/
def Bundle.sigs (b : Bundle) : Bool × Bool :=
  (Config.rsaVerify b.rsaN b.message b.rsaSig, Config.slhVerify b.slhPk b.message b.slhSig)

/-- Every component hashes to what the manifest states. -/
def Bundle.digestsOk (b : Bundle) : Bool :=
  (List.zip b.manifest b.comps).all (fun e => Config.sha384 e.2 == e.1.digest) && b.comps.length == b.manifest.length

end Sys2Proof

namespace Sys2Proof.Machine

/-- BOOT_REASON of steps 2 to 6 of the boot chain on a bundle; 0 where it passes (R450). -/
def State.bundleReason (s : State) (b : Bundle) (rd : ReadEnd) : Nat :=
  if !b.present || rd != .ok then 10
  else if b.magic != 0x425A3649 then 1
  else if !b.formatOk then 2
  else if Config.sha384 (bytesBE 384 b.rsaN.toNat) != Config.rootHash 0 b.rootSlot ||
      Config.sha384 (bytesBE 48 b.slhPk.toNat) != Config.rootHash 1 b.rootSlot then 3
  else if b.rootSlot == 0 && s.thimble.slot0Revoked then 4
  else if 64 < b.svn || b.svn < s.thimble.svnFuse.toNat then 5
  else match b.sigs with
    | (false, false) => 8
    | (false, true) => 6
    | (true, false) => 7
    | (true, true) => if b.digestsOk then 0 else 9

/-- The verifications of a bundle are recorded where the check came as far as them (R454). -/
def State.noteSigs (s : State) (b : Bundle) (reason : Nat) : State :=
  if reason = 0 || 6 ≤ reason && reason ≤ 9 then s.updThimble (fun t => { t with rsaOk := b.sigs.1, slhOk := b.sigs.2 })
  else s.updThimble (fun t => { t with rsaOk := false, slhOk := false })

/-! ### Measurement registers (R456) -/

/-- MRi extended with a digest. -/
def State.extend (s : State) (i : Nat) (d : Bytes) : State :=
  s.updThimble (fun t => { t with mr := AMap.set t.mr i (Config.sha384 (bytesBE 48 (AMap.get t.mr i 0).toNat ++ d)) })

/-- The straps as STRAPS shows them (R502). -/
def Straps.word (x : Straps) : Nat :=
  x.bootSrc.toNat * 64 + x.clkMode.toNat * 16 + b2n x.rowMasterN * 8 + b2n x.spineModeN * 4 + x.tapeSrc.toNat

/-- MR6 is extended with the device ID (R456). -/
def State.extendId (s : State) : State := s.extend 6 (Config.measureWord 6 [s.devid.toNat])

/-- MR0 to MR6 as the boot of a bundle leaves them; MR7 is empty. -/
def State.measure (s : State) (b : Bundle) : State :=
  let t := s.thimble
  let s := s.updThimble (fun t => { t with mr := [] })
  let s := s.extend 0 (bytesBE 48 Config.romDigest.toNat)
  let s := s.extend 0 (Config.measureWord 0 [b.rootSlot, b2n t.slot0Revoked, t.svnFuse.toNat, t.kekEpoch.toNat])
  let s := s.extend 1 (bytesBE 48 (Config.sha384 b.message).toNat)
  let s := s.eachOf (b.manifest.filter (fun e => decide (1 ≤ e.comp ∧ e.comp ≤ 4))) (fun e u => u.extend (e.comp + 1) (bytesBE 48 e.digest.toNat))
  let s := s.extend 6 (Config.measureWord 6 [s.straps.word, 0x01060021, s.straps.bootSrc.toNat])
  s.onIf s.devidValid State.extendId

/-! ### Outcomes of an attempt (R450, R451) -/

/-- No source has an attempt left: the thimble is BOOT_FAILED, and only a bundle over I3C can end that. -/
def State.bootFailed (s : State) : State :=
  (s.updThimble (fun t => { t with state := 4, booting := false, netFile := false })).secRec 1 s.thimble.bootReason.toNat

/-- An attempt fails with a reason. -/
def State.bootFails (s : State) (reason : Nat) : State :=
  s.updThimble (fun t => { t with bootReason := BitVec.ofNat 8 reason, attempt := t.attempt + 1 })

/-- A bundle read by the thimble is checked; one that passes waits for step 7. -/
def State.tryBundle (s : State) (b : Bundle) (rd : ReadEnd) : State × Nat :=
  let r := s.bundleReason b rd
  let s := s.noteSigs b r
  if r = 0 then ((s.updThimble (fun t => { t with bundle := some b, bootReason := 0, state := 2 })).updRst (fun x => { x with bundleReady := true }), 0)
  else (s.bootFails r, r)

/-- Step 7: MR0 to MR6 are extended, and the thimble runs. -/
def State.bootDone (s : State) (b : Bundle) (copy : Bool) : State :=
  let s := s.measure b
  s.updThimble (fun t => { t with
    state := 3, svnRun := BitVec.ofNat 8 b.svn, rootSlot := b.rootSlot == 1, copy, bundle := some b, bootOk := false, booting := false
    netFile := false, wantSvn := none, wantRevoke := false, releasedAt := s.clockNs })

/-- The thimble waits for a bundle from outside: source 1, 2 or 3, or any after a failed boot (R451). -/
def State.fetchingBundle (s : State) : Bool := s.rst.stage == 1 && (s.thimble.state == 1 || s.thimble.state == 4) && !s.rst.bundleReady

/-- The copy of SPI NOR of an attempt: the preferred one first. -/
def ThimbleS.copyOf (t : ThimbleS) (attempt : Nat) : Nat := if t.preferB == (attempt == 0) then 1 else 0

/-- The boot chain of one bundle copy of SPI NOR: what the adapter itself wrote there, else what the read returned. -/
def State.bootCopy (s : State) (read : Bundle) : State :=
  let k := s.thimble.copyOf s.thimble.attempt
  let b := (AMap.get? s.thimble.copyGood k).getD read
  let r := s.bundleReason b .ok
  let s := s.noteSigs b r
  if r = 0 then s.bootDone b (k == 1)
  else
    let s := s.bootFails r
    if 2 ≤ s.thimble.attempt then s.bootFailed else s

/-- The thimble's stage goes on: the known-answer tests, then a bundle from the source of R451; true once it is complete (R450, R457). A
warm reset rechecks the retained images instead. -/
def State.thimbleStage (s : State) (read : Bundle) (ok : Bool) : State × Bool :=
  let t := s.thimble
  match (if s.rst.warm && !s.rst.imagesVoid then t.bundle else none) with
  | some b =>
    if ok && b.digestsOk then (s.bootDone b t.copy, true)
    else (s.updRst (fun r => { r with imagesVoid := true }), false)
  | none =>
    if s.rst.bundleReady then match t.bundle with
      | some b => (s.bootDone b false, true)
      | none => (s, false)
    else if t.state == 4 || t.state == 1 then (s, false)
    else if !ok then ((s.updThimble (fun t => { t with bootReason := 11 })).bootFailed, false)
    else if s.straps.bootSrc == 0 then
      let s := s.bootCopy read
      (s, s.thimble.state == 3)
    else (s.updThimble (fun t => { t with state := 1, booting := s.straps.bootSrc == 2 }), false)

/-! ### BOOT_IMAGE (R452) -/

/-- The PF mailbox is answered in place: DATA1 written, GO cleared, DB_A2H bit 31 set. -/
def State.bootReply (s : State) (status reason : Nat) : State :=
  (s.updFunc 0 (fun f => { f with mbox := { f.mbox with
    go := false, data := AMap.put f.mbox.data 1 (BitVec.ofNat 32 (status + reason * 256)) } })).setA2H 0 0x80000000#32

/-- A message in the PF mailbox while the thimble serves it. -/
def State.bootMessage (s : State) (b : Bundle) (rd : ReadEnd) : State :=
  let m := (s.func 0).mbox
  let d (i : Nat) : Nat := (AMap.get m.data i 0).toNat
  let s := s.updFunc 0 (fun f => { f with mbox := { f.mbox with go := true, sender := 0 } })
  if d 0 / 2 ^ 16 != 0xB001 then s.bootReply 19 0
  else if d 1 != 0 || (List.range' 5 11).any (fun i => d i != 0) || d 4 = 0 || 2 ^ 25 < d 4 then s.bootReply 18 2
  else
    let s := s.onIf (rd != .ok) (fun t => t.cntHost 12 1)
    let r := s.tryBundle b rd
    r.1.bootReply (if r.2 = 0 then 0 else 18) r.2

/-- BOOT_IMAGE: GO is set on the message in the PF mailbox while the thimble serves it. -/
def execBootImage (bundle : Bundle) (rd : ReadEnd) (s : State) : Out :=
  .next (if s.thimble.booting && s.fetchingBundle && !(s.func 0).mbox.go then s.bootMessage bundle rd else s)

/-! ### Network boot (R451) -/

/-- A frame of network boot goes out: 0 DHCPDISCOVER, 1 DHCPREQUEST, 2 the TFTP read request, 3 a TFTP acknowledgment of a block. -/
def State.sendBoot (s : State) (kind block : Nat) : State :=
  s.updMgmt (fun m => { m with txq := m.txq ++ [{ kind := 3, src := m.eui, body := [BitVec.ofNat 8 kind] ++ bytesBE 2 block }] })

/-- Network boot is under way. -/
def State.netBoot (s : State) : Bool := s.straps.bootSrc == 1 && s.fetchingBundle && s.thimble.state == 1

/-- NETWORK_BOOT_RETRY: the attempt starts again from the address (R451: every 60 s, without end). -/
def execNetworkBootRetry (s : State) : Out :=
  .next (if s.netBoot then
      (s.updThimble (fun t => { t with netIp := none, netFile := false, netBlock := 0, netBytes := 0 })).sendBoot 0 0
    else s)

/-- NETWORK_BOOT_FRAME: a DHCPv4 or TFTP frame; a short block ends the transfer, and the bundle is checked. -/
def execNetworkBootFrame (f : BootFrame) (bundle : Bundle) (s : State) : Out :=
  let t := s.thimble
  .next (if !s.netBoot then s
    else match f.kind with
      | 0 => if t.netIp.isNone then s.sendBoot 1 0 else s
      | 1 => if t.netIp.isSome then s
        else ((s.updThimble (fun t => { t with netIp := some f.ip, netFile := true, netBlock := 0, netBytes := 0 })).updMgmt
          (fun m => { m with ip := f.ip })).sendBoot 2 0
      | 2 => if t.netFile && t.netBlock = 0 then s.sendBoot 3 0 else s
      | 3 =>
        if !t.netFile then s
        else if f.block = t.netBlock % 65536 then s.sendBoot 3 f.block
        else if f.block != (t.netBlock + 1) % 65536 then s
        else
          let s := (s.updThimble (fun t => { t with netBlock := t.netBlock + 1, netBytes := t.netBytes + f.len })).sendBoot 3 f.block
          if 2 ^ 25 < s.thimble.netBytes then (s.updThimble (fun t => { t with netFile := false })).bootFails 2
          else if f.len < f.blksize then ((s.updThimble (fun t => { t with netFile := false })).tryBundle bundle .ok).1
          else s
      | 4 => if t.netFile then (s.updThimble (fun t => { t with netFile := false })).bootFails 10 else s
      | 5 => s.updThimble (fun t => { t with netIp := none, netFile := false })
      | _ => s)

/-! ### The I3C targets (R542, R543) -/

/-- The recovery area accepts writes. -/
def State.recoveryOpen (s : State) : Bool := s.rst.stage == 1 && !s.rst.bundleReady && (s.straps.bootSrc == 3 || s.thimble.state == 4)

/-- I3C_RECOVERY_WRITE: LENGTH restarts reception; each 256-byte write of the window appends, and the bundle is checked once it is all
there. -/
def execI3cRecoveryWrite (offset : Nat) (data : Bytes) (bundle : Bundle) (s : State) : Out :=
  let i (s : State) (f : I3cS → I3cS) : State := { s with i3c := f s.i3c }
  .next (if !s.pins.powered then s
    else if !s.recoveryOpen then s
    else if offset = 0x8000 && data.length = 4 then
      let n := natLE data
      if 2 ^ 25 < n then i s (fun x => { x with len := BitVec.ofNat 32 n, got := 0, status := 4, reason := 2 })
      else i s (fun x => { x with len := BitVec.ofNat 32 n, got := 0, status := 1, reason := 0 })
    else if offset = 0x8100 && data.length = 256 && s.i3c.status == 1 then
      let s := i s (fun x => { x with got := x.got + 256 })
      if s.i3c.got < s.i3c.len.toNat then s
      else
        let r := s.tryBundle bundle .ok
        i r.1 (fun x => { x with status := if r.2 = 0 then 3 else 4, reason := BitVec.ofNat 8 r.2 })
    else s)

/-- The recovery status as a read shows it. -/
def State.recoveryStatus (s : State) : Nat :=
  if s.recoveryOpen || s.i3c.status == 3 then s.i3c.status.toNat + s.i3c.reason.toNat * 256 else 4

/-- I3C_REG_WRITE: the offset of later reads. -/
def execI3cRegWrite (offset : Nat) (s : State) : Out :=
  .next (if s.pins.powered then { s with i3c := { s.i3c with off := BitVec.ofNat 16 offset } } else s)

/-- SETDASA: target 0 or 1 takes the dynamic address given. -/
def execSetdasa (target addr : Nat) (s : State) : Out :=
  .next (if s.pins.powered && decide (target < 2) then
      { s with i3c := { s.i3c with dyn := AMap.set s.i3c.dyn target (BitVec.ofNat 7 addr) } }
    else s)

/-- ENTDAA: each target without a dynamic address takes one. -/
def execEntdaa (regAddr mctpAddr : Nat) (s : State) : Out :=
  let give (m : AMap (BitVec 7)) (k a : Nat) : AMap (BitVec 7) := if (AMap.get? m k).isSome then m else AMap.set m k (BitVec.ofNat 7 a)
  .next (if s.pins.powered then { s with i3c := { s.i3c with dyn := give (give s.i3c.dyn 0 regAddr) 1 mctpAddr } } else s)

/-! ### Commits (R455) -/

/-- The next fuse pulse of a commit begins, where one is asked for and no reset is held. -/
def State.fuseNext (s : State) : State :=
  if s.rst.held.isSome || s.rst.nvBusy.isSome || !(s.thimble.wantSvn.isSome || s.thimble.wantRevoke) then s
  else s.updRst (fun r => { r with nvBusy := some 0 })

/-- BOOT_OK: firmware signals that it runs, within 10 s of its release; the commits its bundle asks for begin. -/
def execBootOk (s : State) : Out :=
  .next (match s.thimble.bundle with
    | none => s
    | some b =>
      if s.rst.stage != 6 || s.thimble.state != 3 || s.thimble.bootOk || s.thimble.releasedAt + 10 * 10 ^ 9 < s.clockNs then s
      else
        let s := s.updThimble (fun t => { t with
          bootOk := true
          wantSvn := if b.flags.testBit 0 && decide (t.svnFuse.toNat < b.svn) then some (BitVec.ofNat 8 b.svn) else none
          wantRevoke := b.flags.testBit 1 && b.rootSlot == 1 && !t.slot0Revoked })
        s.fuseNext)

/-- A fuse pulse has ended: the counter is one up towards SVN, or slot 0 is revoked (R455). -/
def State.pulseEnd (s : State) : State :=
  match s.thimble.wantSvn with
  | some n =>
    let s := s.updThimble (fun t => if t.svnFuse.toNat < n.toNat then { t with svnFuse := t.svnFuse + 1 } else t)
    if n.toNat ≤ s.thimble.svnFuse.toNat then (s.updThimble (fun t => { t with wantSvn := none })).secRec 2 0 else s
  | none =>
    if s.thimble.wantRevoke then (s.updThimble (fun t => { t with slot0Revoked := true, wantRevoke := false })).secRec 3 0 else s

end Sys2Proof.Machine
end

