-- ==== Sys2Proof/Machine/Rx.lean ====
section
/-!
DEFINITION. The receiving side of a connection (chapters 05 and 06): what the target records of an arrival, the window checks,
placement, service of READ requests and atomics, delivery in message order, and the answers it sends.
-/

namespace Sys2Proof

/-- A packet that takes PSNs of its sender's sequence (R128, R130): requests, data and SKIP. -/
def Pkt.bearsPsn (p : Pkt) : Bool := decide (1 ≤ p.op ∧ p.op ≤ 8) || p.op == 0x44

/-- Bytes a READ_REQ asks for (R127). -/
def Pkt.asked (p : Pkt) : Nat := fld p.hdr 30 0

/-- Bytes of the range a packet names in its window (R109). -/
def Pkt.span (p : Pkt) : Nat := if p.op = 3 then p.asked else if p.op = 5 || p.op = 6 then 8 else if p.op = 7 then 0 else p.payload.length

/-- The PSNs a packet stands for: a READ_REQ takes those of its responses (R130). -/
def Pkt.psns (p : Pkt) : List (BitVec 32) :=
  (List.range (if p.op = 3 then Machine.packetsOf p.asked else 1)).map (fun i => p.psn + BitVec.ofNat 32 i)

/-- A window entry's owner (R108). -/
def winPart (e : BitVec 256) : Nat := fld e 5 0
/-- BASE. -/
def winBase (e : BitVec 256) : Nat := fld e 108 64
/-- LENGTH. -/
def winLen (e : BitVec 256) : Nat := fld e 175 128
/-- TARGET. -/
def winTarget (e : BitVec 256) : Nat := fld e 191 189
/-- SIG_BASE. -/
def winSigBase (e : BitVec 256) : Nat := fld e 205 192
/-- SIG_COUNT. -/
def winSigCount (e : BitVec 256) : Nat := fld e 223 208
/-- COHERENT. -/
def winCoh (e : BitVec 256) : Bool := bitAt e 228
/-- PEER_ID. -/
def winPeer (e : BitVec 256) : Nat := fld e 255 240

end Sys2Proof

namespace Sys2Proof.Machine

/-! ### The message's record -/

/-- A message record put in its place by MSN. -/
def rxPut (m : RxMsg) : List RxMsg → List RxMsg
  | [] => [m]
  | x :: xs => if x.msn == m.msn then m :: xs else if serLt m.msn x.msn then m :: x :: xs else x :: rxPut m xs

/-- The record of a packet's message, as opened by it. -/
def ConnS.rxMsg (c : ConnS) (msn : BitVec 32) (op : Nat) : RxMsg :=
  (c.rx.find? (fun m => m.msn == msn)).getD { msn, op := BitVec.ofNat 8 op }

/-- A message record stored. -/
def State.putRx (s : State) (cid : Nat) (m : RxMsg) : State := s.updConn cid (fun c => { c with rx := rxPut m c.rx })

/-- An open message record changed. -/
def State.updRxMsg (s : State) (cid : Nat) (msn : BitVec 32) (f : RxMsg → RxMsg) : State :=
  s.updConn cid (fun c => { c with rx := c.rx.map (fun m => if m.msn == msn then f m else m) })

/-- Every packet of the message has been placed (R136). -/
def RxMsg.whole (m : RxMsg) : Bool := m.expect == some m.count

/-- Every message before an MSN has its bytes placed or is settled (R120, R136). -/
def ConnS.earlierDone (c : ConnS) (msn : BitVec 32) : Bool :=
  (c.rx.filter (fun x => serLt x.msn msn && (x.settled.isSome || x.whole))).length == (msn - c.rxMsn).toNat

/-! ### The receive sequence (R131) -/

/-- C moves over what has been received. The first argument bounds the steps. -/
def advanceC : Nat → ConnS → ConnS
  | 0, c => c
  | n + 1, c => if c.seen.contains c.c then advanceC n { c with c := c.c + 1, seen := c.seen.erase c.c } else c

/-- The PSNs of a packet are recorded received; a tracker is given back once C has caught up. -/
def State.rxRecord (s : State) (cid : Nat) (p : Pkt) : State :=
  s.updConn cid (fun c =>
    let new := p.psns.filter (fun q => serLe c.c q && !c.seen.contains q)
    let c := advanceC (c.seen.length + new.length) { c with seen := c.seen ++ new }
    { c with tracker := c.tracker && !c.seen.isEmpty })

/-- An arrival is noted for the next ACK (R127, R133). -/
def State.rxNote (s : State) (cid : Nat) (p : Pkt) (tape : BitVec 32) : State :=
  s.updConn cid (fun c => { c with
    since := c.since + 1, marks := if p.mark then satAdd c.marks 1 else c.marks, uncovered := true
    echo := BitVec.ofNat 32 p.txTape, rxTape := tape })

/-! ### Answers -/

/-- An ACK is sent (R133). -/
def State.ackNow (s : State) (cid : Nat) : State :=
  let c := s.conn cid
  if c.spent 2 then s
  else
    let sack : BitVec 256 := BitVec.ofNat 256 (((List.range 256).filter (fun i => c.seen.contains (c.c + BitVec.ofNat 32 i))).foldl
      (fun a i => a + 2 ^ i) 0)
    let body : BitVec 320 := pack 320 [(319, 64, sack.toNat), (63, 32, c.echo.toNat), (31, 0, c.rxTape.toNat)]
    let p := s.connPkt cid { op := 0x42, vc := 2, psn := c.c, msn := c.rxMsn, wkey := c.ackSeq.toNat, aux := c.marks.toNat * 2 ^ 28,
                             payload := bytesBE 40 body.toNat }
    let s := s.usedSeq cid 2 c.ackSeq
    (s.updConn cid (fun c => { c with ackSeq := c.ackSeq + 1, since := 0, marks := 0, uncovered := false })).inject cid p none true

/-- An ACK where R133 asks for one: a LAST packet, 16 packets, or the delivered point has moved past `was`. -/
def State.ackIf (s : State) (cid : Nat) (last : Bool) (was : BitVec 32) : State :=
  let c := s.conn cid
  if last || decide (16 ≤ c.since) || c.rxMsn != was then s.ackNow cid else s

/-- A NAK of the connection (R140). -/
def State.sendNak (s : State) (cid : Nat) (psn msn : BitVec 32) (code hint placed : Nat) : State :=
  let c := s.conn cid
  if c.spent 2 then s
  else
    let p := s.connPkt cid { op := 0x43, vc := 2, psn, msn, wkey := c.ackSeq.toNat, aux := code * 2 ^ 36,
                             payload := bytesBE 8 (hint * 2 ^ 32 + placed % 2 ^ 32) }
    let s := (s.usedSeq cid 2 c.ackSeq).onIf (code == 1) (fun t => t.cntTp 5 1)
    (s.updConn cid (fun c => { c with ackSeq := c.ackSeq + 1 })).inject cid p none true

/-- The answer to a packet that finds no usable context: a NAK to its source naming what the packet named, under a CRC-64 (R144);
none to a NAK, notice or acknowledged notice. -/
def State.looseNak (s : State) (p : Pkt) (code : Nat) : State :=
  if p.op = 0x43 || p.op = 0x45 || p.op = 0x46 || p.op = 9 then s
  else
    let f : PF0 := { op := 0x43, vc := 2, psn := p.psn, msn := p.msn, aux := code * 2 ^ 36, payload := bytesBE 8 0 }
    s.sendLoose 0 ((s.rawPkt p.src p.conn p.gen false f).withCrc) true

/-- STATUS that a NAK's CODE stands for (R140, R113). -/
def nakStatus (code : Nat) : Nat :=
  match code with
  | 2 => 10 | 3 => 8 | 4 => 9 | 5 => 7 | 6 => 5 | 7 => 6 | 8 => 11 | 9 => 12 | 10 => 13 | 11 => 15 | _ => 0

/-! ### Miss staging (R142) -/

/-- Bytes of a connection that staging holds: packets that wait for its context, for earlier messages, or for a handler's slot. -/
def ConnS.stagedBytes (c : ConnS) : Nat :=
  ((c.staged.map (fun p => p.1.size)) ++ c.rx.flatMap (fun m => (m.waitP ++ m.hq).map Pkt.size)).sum

/-- Bytes in staging. -/
def State.stagedAll (s : State) : Nat := (s.conns.map (fun e => e.2.stagedBytes)).sum

/-- The RETRY_HINT with which staging refuses a packet, none where it has room. -/
def State.stageHint (s : State) (cid : Nat) (p : Pkt) : Option Nat :=
  if 8 * 2 ^ 20 < s.stagedAll + p.size then some 16000
  else if 256 * 2 ^ 10 < (s.conn cid).stagedBytes + p.size then some 2000 else none

/-! ### Checks (R109) -/

/-- What a check says. -/
inductive Verdict where
  /-- The packet is validated. -/
  | ok
  /-- The message is settled with this CODE. -/
  | refuse (code : Nat)
  /-- The packet is refused CBUSY with this hint. -/
  | busy (hint : Nat)
deriving DecidableEq, Repr

/-- Host space of a function at this moment: usable, held in a ride-through (R397), refused while every host request is stopped or
the function's Bus Master Enable is 0 (R395, R422), or gone (R398). -/
def State.hostVerdict (s : State) (func : Nat) : Verdict :=
  if s.host.gone then .refuse 10
  else if s.host.riding then .busy 1000000
  else if s.host.stopped || !(s.func func).busMaster then .refuse 5
  else if !s.host.up then .refuse 10 else .ok

/-- A verdict of CBUSY caused by a ride-through is counted (R402). -/
def State.countBusy (s : State) (hint : Nat) : State := s.onIf (hint == 1000000) (fun t => t.cntHost 11 1)

/-- A key without a window: TARGET 2, read on VC3 by a partition-0 connection in whole words (R128, R38, R39). -/
def State.looseKeyOk (s : State) (cid : Nat) (p : Pkt) : Bool :=
  p.op == 3 && p.wkey / 2 ^ 29 == 2 && p.wkey / 2 ^ 12 % 2 ^ 17 == 0 && p.vc == 3 && (s.conn cid).part == 0 &&
  p.offset % 8 == 0 && p.asked % 8 == 0 && decide (p.offset + p.asked ≤ targetRange 2)

/-- The checks of R109, in order, with those that a zero-length message is spared (R103). -/
def State.winCheck (s : State) (cid : Nat) (p : Pkt) : Verdict :=
  let w := s.win (p.wkey / 2 ^ 12)
  let e := w.entry
  let n := p.span
  let sig := p.op == 2 || p.op == 7
  let access := (!(p.op == 1 || p.op == 2) || bitAt e 224) && (p.op != 3 || bitAt e 225) &&
    (!(p.op == 5 || p.op == 6) || bitAt e 226)
  let atomic := p.op == 5 || p.op == 6
  let obj := fld p.hdr 43 30
  if p.wkey % 2 ^ 12 = 0 then (if s.looseKeyOk cid p then .ok else .refuse 5)
  else if !w.st || w.gen.toNat != p.wkey % 2 ^ 12 then .refuse 3
  else if winPart e != (s.conn cid).part then .refuse 4
  else if winPeer e != 0xFFFF && winPeer e != p.src then .refuse 4
  else if (n != 0 && !access) || (sig && !bitAt e 227) || (atomic && winTarget e == 1 && !winCoh e) then .refuse 4
  else if (n != 0 && decide (winLen e < p.offset + n)) || (sig && p.isLast && decide (winSigCount e ≤ obj)) then .refuse 4
  else if n = 0 then .ok
  else if winTarget e = 1 then s.hostVerdict (winPart e)
  else match s.granStatus (winBase e + p.offset) n with
    | 7 => .refuse 5
    | 6 => if p.op == 3 || atomic then .ok else .refuse 7
    | _ => .ok

/-! ### Settling (R141) -/

/-- A message is settled at the target: its waiting packets go, one NAK is sent. -/
def State.settleRx (s : State) (cid : Nat) (p : Pkt) (code bufSt : Nat) : State :=
  let m := (s.conn cid).rxMsg p.msn p.op
  let s := s.putRx cid { m with
    settled := some (BitVec.ofNat 8 (nakStatus code)), nakCode := BitVec.ofNat 8 code, bufSt
    waitP := [], hq := [], reqs := [] }
  (s.rxRecord cid p).sendNak cid p.psn p.msn code 0 m.bytes

/-! ### Receive handlers (R307, R313) -/

/-- The receive handler bound to a connection in this mode: 0 INVOKE, 1 DATA. -/
def State.handlerOf (s : State) (cid mode : Nat) : Option Bind :=
  match AMap.get? s.binds (2 ^ 32 + cid) with
  | some b => if fld b.blk 19 18 = mode && !b.faulted && b.unbinding.isNone then some b else none
  | none => none

/-- The connection's handler is FAULTED: data and INVOKE are settled NO_HANDLER (R316). -/
def State.handlerBad (s : State) (cid : Nat) : Bool :=
  match AMap.get? s.binds (2 ^ 32 + cid) with
  | some b => b.faulted
  | none => false

/-! ### Placement (R136) -/

/-- What a packet's arrival leaves in its message's record: the count, and on LAST the expected count, IMM and signal. -/
def RxMsg.counted (m : RxMsg) (p : Pkt) (bytes : Nat) (sig : Option (Nat × BitVec 64)) : RxMsg :=
  { m with
    count := m.count + 1, bytes := m.bytes + bytes, psn := p.psn
    expect := if p.isLast then some p.pktCount else m.expect
    imm := if p.isLast && p.op == 4 then BitVec.ofNat 32 (fld p.hdr 31 0) else m.imm
    sig := if p.isLast && sig.isSome then sig else m.sig }

/-- The signal a packet carries: adapter-wide sync object and value (R127). -/
def State.sigOf (s : State) (p : Pkt) : Option (Nat × BitVec 64) :=
  if p.isLast && (p.op == 2 || p.op == 7) then
    let e := (s.win (p.wkey / 2 ^ 12)).entry
    (Ranges.item (s.part (winPart e)).syncs (winSigBase e + fld p.hdr 43 30)).map (fun o =>
      (o, if p.hasExt then BitVec.ofNat 64 (fld p.ext 127 64) else BitVec.ofNat 64 (fld p.hdr 29 0)))
  else none

/-- Bytes of a WRITE land in the window's memory (R109, R117): state and status of device memory. -/
def State.placeWin (s : State) (cid : Nat) (p : Pkt) : State × Nat :=
  let e := (s.win (p.wkey / 2 ^ 12)).entry
  let a := winBase e + p.offset
  if p.payload.isEmpty then (s, 0)
  else if winTarget e = 0 then s.memWrite a p.payload
  else if winCoh e then
    let ls := s.cohLines a p.payload.length
    ((s.cohWrite (winPart e) a p.payload).updConn cid (fun c => { c with dirtyLines := (c.dirtyLines ++ ls).dedup }), 0)
  else ((s.hostWrite (winPart e) a p.payload).updConn cid (fun c => { c with dirtyAt := some (a + p.payload.length - 1) }), 0)

/-- A handler bound in DATA mode gets a copy of a packet that has been placed (R313). -/
def State.handlerCopy (s : State) (cid : Nat) (p : Pkt) : State :=
  if (s.handlerOf cid 1).isSome then s.updRxMsg cid p.msn (fun m => { m with hq := m.hq ++ [p] }) else s

/-- A WRITE or WRITE_SIG packet that passed its checks is placed. -/
def State.rxWrite (s : State) (cid : Nat) (p : Pkt) : State :=
  let r := s.placeWin cid p
  let sig := s.sigOf p
  let m := (r.1.conn cid).rxMsg p.msn p.op
  if r.2 = 0 then ((r.1.putRx cid (m.counted p p.payload.length sig)).rxRecord cid p).handlerCopy cid p
  else r.1.settleRx cid p (if r.2 = 6 then 7 else if r.2 = 7 then 5 else 6) 0

/-- Free receive buffers are given to the messages of a connection that lack one, up to this message, in message order (R105). -/
def State.assignBufs (s : State) (cid : Nat) (msn : BitVec 32) : State :=
  let k := (s.conn cid).rqKey
  s.eachOf ((s.conn cid).rx.filter (fun m => m.needBuf && m.buf.isNone && m.settled.isNone && serLe m.msn msn)) (fun m t =>
    match AMap.get t.rbufs k [] with
    | [] => t
    | b :: rest => { t with rbufs := AMap.set t.rbufs k rest }.updRxMsg cid m.msn (fun m => { m with buf := some b }))

/-- Bytes of a datagram or message packet land in a receive buffer: state, status (1 or 2 of translation, 5 or 6 of memory, 254 for
CBUSY in a ride-through, 255 for a host that refuses, 253 gone), bytes placed, host path. -/
def State.placeBuf (s : State) (part cq : Nat) (b : RBuf) (off : Nat) (bs : Bytes) : State × Nat × Nat × DataPath :=
  let fit := bs.take (b.len - off)
  let ctx := (s.queue b.q).ctx
  match s.translate ctx (b.va.toNat + (if fit.isEmpty then 0 else off)) fit.length with
  | .inr st => (s, st, 0, .none)
  | .inl (seg, fpa) =>
    if fpaDev fpa != s.myId then (s, 1, 0, .none)
    else if fit.isEmpty then (s, 0, 0, .none)
    else if fpaTarget fpa = 1 && s.hostVerdict part != .ok then
      (s, match s.hostVerdict part with | .busy _ => 254 | .refuse 10 => 253 | _ => 255, 0, .none)
    else
      let r := s.putLocal part ctx seg cq fpa fit
      (r.1, r.2.1, if r.2.1 = 0 then fit.length else 0, r.2.2)

/-- A SEND packet: a buffer is found, the bytes that fit are placed (R104, R105). -/
def State.rxSend (s : State) (cid : Nat) (p : Pkt) : State :=
  let m := (s.conn cid).rxMsg p.msn p.op
  let s := (s.putRx cid { m with needBuf := true }).assignBufs cid p.msn
  let m := (s.conn cid).rxMsg p.msn p.op
  let c := s.conn cid
  if 64 ≤ (s.queue c.cqKey).held.length then s.sendNak cid p.psn p.msn 1 16000 m.bytes
  else match m.buf with
    | none =>
      let hint := min 640000 (10000 * 2 ^ m.noRecv)
      (s.putRx cid { m with noRecv := m.noRecv + 1 }).sendNak cid p.psn p.msn 2 hint m.bytes
    | some b =>
      let r := s.placeBuf c.part c.cqKey b p.offset p.payload
      let s := r.1
      if r.2.1 = 254 then (s.countBusy 1000000).sendNak cid p.psn p.msn 1 1000000 m.bytes
      else if r.2.1 = 253 then s.settleRx cid p 10 13
      else if r.2.1 = 255 then s.settleRx cid p 5 7
      else if r.2.1 = 1 || r.2.1 = 2 then s.settleRx cid p 5 r.2.1
      else if r.2.1 = 6 then s.settleRx cid p 7 6
      else if r.2.1 != 0 then s.settleRx cid p 6 5
      else
        let m := m.counted p r.2.2.1 none
        let m := match r.2.2.2 with
          | .flush a => { m with hostAt := some a }
          | .lines ls => { m with hostLines := (m.hostLines ++ ls).dedup }
          | .none => m
        let m := { m with small := m.small || decide (b.len < p.offset + p.payload.length) }
        let s := ((s.putRx cid m).rxRecord cid p).handlerCopy cid p
        if m.small && m.bytes == b.len then s.settleRx cid p 8 11 else s

/-! ### Service of READ requests and atomics (R132, R136) -/

/-- Errors of an access, for a later part of it that begins `d` bytes on. -/
def shiftErrs (o d : Nat) (errs : WordErrs) : WordErrs :=
  let k := ((o + d) / 64 - o / 64) * 8
  (errs.filter (fun e => decide (k ≤ e.1))).map (fun e => (e.1 - k, e.2))

/-- Response `i` of a READ_REQ goes out (R127, R133). -/
def State.sendResp (s : State) (cid : Nat) (p : Pkt) (i : Nat) (bs : Bytes) : State :=
  let c := s.conn cid
  let n := packetsOf p.asked
  let last := p.isLast && i + 1 == n
  if c.spent 1 then s
  else
    let q := s.connPkt cid { op := 0x40, vc := if p.vc = 3 then 3 else 2, first := p.isFirst && i == 0, last, psn := p.psn + BitVec.ofNat 32 i,
                             msn := p.msn, offset := p.offset + 4096 * i, wkey := c.respSeq.toNat
                             count := if last then (p.pktCount - 1) * 1024 + n else 0, payload := bs }
    let s := s.usedSeq cid 1 c.respSeq
    (s.updConn cid (fun c => { c with respSeq := c.respSeq + 1 })).inject cid q none false

/-- The result of an atomic goes out, and is kept among the last 4 (R132). -/
def State.sendAtom (s : State) (cid : Nat) (p : Pkt) (old : BitVec 64) : State :=
  let c := s.conn cid
  let atoms := (c.atoms.filter (fun a => a.1 != p.psn)) ++ [(p.psn, old)]
  let s := s.updConn cid (fun c => { c with atoms := atoms.drop (atoms.length - 4) })
  if c.spent 1 then s
  else
    let q := s.connPkt cid { op := 0x41, vc := 2, first := true, last := true, psn := p.psn, msn := p.msn, wkey := c.respSeq.toNat
                             count := 1, payload := bytesBE 8 old.toNat }
    let s := s.usedSeq cid 1 c.respSeq
    (s.updConn cid (fun c => { c with respSeq := c.respSeq + 1 })).inject cid q none false

/-- The new value of an atomic's word (R101). -/
def atomicNew (p : Pkt) (old : BitVec 64) : BitVec 64 :=
  let a := BitVec.ofNat 64 (natBE (p.payload.take 8))
  let b := BitVec.ofNat 64 (natBE (p.payload.drop 8))
  if p.op = 5 then old + a else if old = a then b else old

/-- A range read of host space is asked for: by CXL.cache for a COHERENT owner, each missing line by RdShared (RdOwn for an atomic),
otherwise by a memory read (R387). -/
def State.hostRead (s : State) (use : HUse) (func addr len : Nat) (coh own : Bool) : State :=
  let r : HRead := { use, func, addr := BitVec.ofNat 64 addr, len, coh }
  let s := s.updHost (fun h => { h with reads := h.reads ++ [r] })
  if !coh then s.hostReq { kind := 1, func, addr := BitVec.ofNat 64 addr }
  else s.eachOf (lineParts (len / 64 + 2) addr (zeros len)) (fun q t =>
    let want := match AMap.get? t.host.cache q.1 with
      | some c => own && c.st == 1
      | none => true
    if !want then t
    else
      let t := if (AMap.get? t.host.cache q.1).isNone then
          (t.cacheRoom q.1).updHost (fun h => { h with cache := AMap.set h.cache q.1 { st := 0, func, used := t.nextId } })
        else t
      t.hostReq { kind := if own then 5 else 6, func, addr := BitVec.ofNat 64 q.1 })

/-- Bytes of host space that the coherency cache holds whole, Exclusive or Modified where `own`. -/
def State.cohBytes (s : State) (addr len : Nat) (own : Bool) : Option Bytes :=
  (lineParts (len / 64 + 2) addr (zeros len)).foldl (fun acc q => match acc, AMap.get? s.host.cache q.1 with
    | some bs, some c => if c.st = 0 || (own && c.st < 2) then none else some (bs ++ (c.data.drop q.2.1).take q.2.2.length)
    | _, _ => none) (some [])

/-- One READ_REQ is served (R101, R116, R132): response by response, a NAK in place of one whose bytes are lost. -/
def State.serveRead (s : State) (cid : Nat) (p : Pkt) (errs : WordErrs) : State :=
  let n := packetsOf p.asked
  let w := s.win (p.wkey / 2 ^ 12)
  let a := winBase w.entry + p.offset
  let part (i : Nat) : Nat := min 4096 (p.asked - 4096 * i)
  if p.wkey % 2 ^ 12 = 0 then s.each (List.range n) (fun i t => t.sendResp cid p i (t.target2Bytes (p.offset + 4096 * i) (part i)))
  else if p.asked = 0 then s.sendResp cid p 0 []
  else if winTarget w.entry = 0 then
    s.each (List.range n) (fun i t =>
      let r := t.memRead (a + 4096 * i) (part i) (shiftErrs a (4096 * i) errs)
      if r.2.2 = 0 then r.1.sendResp cid p i (partsBytes r.2.1)
      else r.1.sendNak cid (p.psn + BitVec.ofNat 32 i) p.msn (if r.2.2 = 6 then 7 else 6) 0 0)
  else
    s.each (List.range n) (fun i t =>
      match (if winCoh w.entry then t.cohBytes (a + 4096 * i) (part i) false else none) with
      | some bs => t.sendResp cid p i bs
      | none =>
        (t.hostRead (.serve cid p) (winPart w.entry) (a + 4096 * i) (part i) (winCoh w.entry) false).updRxMsg cid p.msn
          (fun m => { m with serving := m.serving + 1 }))

/-- A line of the coherency cache gets new bytes and is held Modified. -/
def State.cachePut (s : State) (addr : Nat) (bs : Bytes) : State :=
  let line := addr / 64 * 64
  s.updHost (fun h => { h with cache := AMap.upd h.cache line {} (fun c => { c with
    st := 3, data := c.data.take (addr - line) ++ bs ++ c.data.drop (addr - line + bs.length), used := s.nextId }) })

/-- One atomic is executed (R101). -/
def State.serveAtomic (s : State) (cid : Nat) (p : Pkt) (errs : WordErrs) : State :=
  let w := s.win (p.wkey / 2 ^ 12)
  let a := winBase w.entry + p.offset
  if winTarget w.entry = 0 then
    let r := s.memRead a 8 errs
    if r.2.2 != 0 then r.1.sendNak cid p.psn p.msn (if r.2.2 = 6 then 7 else 6) 0 0
    else
      let old := BitVec.ofNat 64 (natLE (partsBytes r.2.1))
      (r.1.memWrite a (bytesLE 8 (atomicNew p old).toNat)).1.sendAtom cid p old
  else match s.cohBytes a 8 true with
    | some bs =>
      let old := BitVec.ofNat 64 (natLE bs)
      (s.cachePut a (bytesLE 8 (atomicNew p old).toNat)).sendAtom cid p old
    | none =>
      (s.hostRead (.atomic cid p) (winPart w.entry) a 8 true true).updRxMsg cid p.msn (fun m => { m with serving := m.serving + 1 })

/-- A request that arrived twice is answered again (R132). -/
def State.rxAgain (s : State) (cid : Nat) (p : Pkt) (errs : WordErrs) : State :=
  let s := s.cntTp 7 1
  let s := if p.op = 3 && s.winCheck cid p == .ok then s.serveRead cid p errs
    else match (s.conn cid).atoms.find? (fun a => a.1 == p.psn) with
      | some a => if p.op = 5 || p.op = 6 then s.sendAtom cid p a.2 else s
      | none => s
  s.ackNow cid

/-! ### Taking a packet of an unsettled message -/

/-- The packet waits for earlier messages under ORDERED (R120), or is refused where staging has no room. -/
def State.rxHold (s : State) (cid : Nat) (p : Pkt) (f : RxMsg → RxMsg) : State :=
  let m := (s.conn cid).rxMsg p.msn p.op
  match s.stageHint cid p with
  | some hint => s.sendNak cid p.psn p.msn 1 hint m.bytes
  | none => (s.putRx cid (f m)).cntTp 6 1

/-- A packet whose PSN is new and whose message is not settled: checked, then placed, served in its turn or held (R109, R120, R136,
R313). -/
def State.rxTake (s : State) (cid : Nat) (p : Pkt) (errs : WordErrs) : State :=
  let c := s.conn cid
  let m := c.rxMsg p.msn p.op
  if m.waitP.contains p || m.hq.any (fun q => q.psn == p.psn) then s
  else if s.handlerBad cid && (p.op == 1 || p.op == 2 || p.op == 4 || p.op == 8) then s.settleRx cid p 9 0
  else if p.ordered && (p.op == 1 || p.op == 2 || p.op == 4) && !c.earlierDone p.msn then
    s.rxHold cid p (fun m => { m with waitP := m.waitP ++ [p] })
  else if (s.handlerOf cid 1).isSome && (p.op == 1 || p.op == 2 || p.op == 4) && (s.stageHint cid p).isSome then
    s.sendNak cid p.psn p.msn 1 ((s.stageHint cid p).getD 0) m.bytes
  else if p.op = 4 then s.rxSend cid p
  else if p.op = 8 then
    if (s.handlerOf cid 0).isNone then s.settleRx cid p 9 0
    else s.rxHold cid p (fun m => { m with hq := m.hq ++ [p] })
  else match s.winCheck cid p with
    | .refuse code => s.settleRx cid p code 0
    | .busy hint => (s.countBusy hint).sendNak cid p.psn p.msn 1 hint m.bytes
    | .ok =>
      if p.op = 1 || p.op = 2 then s.rxWrite cid p
      else if p.op = 7 then (s.putRx cid (m.counted p 0 (s.sigOf p))).rxRecord cid p
      else
        let m := { m.counted p 0 none with reqs := m.reqs ++ [(p, errs)], served := false }
        (s.putRx cid m).rxRecord cid p

/-! ### Delivery (R115, R117, R136) -/

/-- A message leaves the record: its buffer completes, its signal is raised, and the next one is the oldest. -/
def State.rxFinish (s : State) (cid : Nat) (m : RxMsg) : State :=
  let s := s.updConn cid (fun c => { c with rx := c.rx.filter (fun x => x.msn != m.msn), rxMsn := m.msn + 1 })
  let path : DataPath := match m.hostAt with
    | some a => .flush a
    | none => if m.hostLines.isEmpty then .none else .lines m.hostLines
  let s := match m.buf with
    | none => s
    | some b => match m.settled with
      | some st => s.recvCqe cid b m.bytes 0 m.msn.toNat 0 (if m.bufSt != 0 then m.bufSt else st.toNat) path
      | none => s.recvCqe cid b m.bytes m.imm.toNat m.msn.toNat 0 0 path
  match m.sig, m.settled with
  | some (o, v), none => s.syncAdd o v
  | _, _ => s

/-- The bytes a connection placed through host windows are made globally observed before a delivery (R117). -/
def State.rxFlush (s : State) (cid : Nat) (m : RxMsg) : State :=
  let c := s.conn cid
  let w : HWait := { func := c.part, q := noQueue, msg := some (cid, m.msn) }
  let s := (s.updRxMsg cid m.msn (fun m => { m with flushing := true })).updConn cid (fun c => { c with dirtyAt := none, dirtyLines := [] })
  match c.dirtyAt with
  | some a => (s.hostFlush c.part a).updHost (fun h => { h with waits := h.waits ++ [{ w with stage := 0, lines := c.dirtyLines, addr := a / 64 * 64 }] })
  | none => s.updHost (fun h => { h with waits := h.waits ++ [{ w with stage := 2, lines := c.dirtyLines }] })

/-- What the record of a connection allows now: ORDERED packets that waited are taken, requests served, and messages delivered in
order. The first argument bounds the steps. -/
def rxPump (cid : Nat) : Nat → State → State
  | 0, s => s
  | n + 1, s =>
    let c := s.conn cid
    match c.rx.find? (fun m => !m.waitP.isEmpty && c.earlierDone m.msn) with
    | some m =>
      let s := s.updRxMsg cid m.msn (fun m => { m with waitP := [] })
      rxPump cid n (s.eachOf m.waitP (fun p t =>
        if ((t.conn cid).rxMsg p.msn p.op).settled.isSome then (t.cntTp 8 1).rxRecord cid p else t.rxTake cid p []))
    | none =>
      match c.rx.find? (fun m => !m.reqs.isEmpty && c.earlierDone m.msn) with
      | some m =>
        let s := s.updRxMsg cid m.msn (fun m => { m with reqs := [] })
        let s := s.eachOf m.reqs (fun q t => if m.op == 3 then t.serveRead cid q.1 q.2 else t.serveAtomic cid q.1 q.2)
        rxPump cid n (s.updRxMsg cid m.msn (fun m => { m with served := m.whole }))
      | none =>
        match c.rx.find? (fun m => m.msn == c.rxMsn) with
        | none => s
        | some m =>
          let request := m.op == 3 || m.op == 5 || m.op == 6
          let ready := m.whole && m.runs == 0 && m.hq.isEmpty && (!request || (m.served && m.serving == 0))
          if m.settled.isSome then rxPump cid n (s.rxFinish cid m)
          else if !ready || m.flushing then s
          else if (m.sig.isSome || m.op == 4) && (c.dirtyAt.isSome || !c.dirtyLines.isEmpty) then s.rxFlush cid m
          else rxPump cid n (s.rxFinish cid m)

/-- Requests validated under a window's key have not all been read (R111). -/
def State.winBusy (s : State) (w : Nat) : Bool :=
  s.host.reads.any (fun r => match r.use with
    | .serve _ p => p.wkey / 2 ^ 12 == w
    | .atomic _ p => p.wkey / 2 ^ 12 == w
    | _ => false) ||
  s.conns.any (fun e => e.2.rx.any (fun m => m.reqs.any (fun q => q.1.wkey / 2 ^ 12 == w)))

/-- WIN_REVOKE commands whose windows' reads have all ended reply. -/
def State.winSettle (s : State) : State :=
  s.eachOf (s.wins.filter (fun e => e.2.revoke.isSome && !s.winBusy e.1)) (fun e t => match e.2.revoke with
    | some h => (t.updWin e.1 (fun x => { x with revoke := none })).answerLater h 0x0311 0
    | none => t)

/-- All that the record of a connection allows now, and the ACK it leads to. -/
def State.rxSettle (s : State) (cid : Nat) (last : Bool) : State :=
  let c := s.conn cid
  ((rxPump cid (4 * c.rx.length + 8) s).ackIf cid last c.rxMsn).winSettle

/-- A delivery goes on after its flush (R117). -/
def State.rxFlushed (s : State) (cid : Nat) (msn : BitVec 32) : State :=
  match (s.conn cid).rx.find? (fun m => m.msn == msn && m.flushing) with
  | none => s
  | some m =>
    if (s.conn cid).rxMsn == msn then
      let was := (s.conn cid).rxMsn
      let s := s.rxFinish cid m
      (rxPump cid (4 * (s.conn cid).rx.length + 8) s).ackIf cid false was
    else s

/-- A request that was being read from host space has been answered. -/
def State.servedOne (s : State) (cid : Nat) (msn : BitVec 32) : State :=
  (s.updRxMsg cid msn (fun m => { m with serving := m.serving - 1 })).rxSettle cid false

/-! ### Request packets of a READY connection (R131, R132, R141) -/

/-- A request, data packet or SKIP reaches a READY connection. -/
def State.rxRequest (s : State) (cid : Nat) (p : Pkt) (errs : WordErrs) (tape : BitVec 32) : State :=
  let c := s.conn cid
  let d := (p.psn - c.c).toNat
  let trackers := (s.conns.filter (fun e => e.2.tracker)).length
  if 2 ^ 32 - 4096 ≤ d || c.seen.contains p.psn then (s.rxNote cid p tape).rxAgain cid p errs
  else if 4096 ≤ d then s.cntTp 2 1
  else if 256 ≤ d && !c.tracker && decide (4096 ≤ trackers) then s.cntTp 4 1
  else
    let s := (s.updConn cid (fun c => { c with tracker := c.tracker || decide (256 ≤ d) })).rxNote cid p tape
    let m := c.rxMsg p.msn p.op
    if serLt p.msn c.rxMsn || m.settled.isSome then ((s.cntTp 8 1).rxRecord cid p).rxSettle cid p.isLast
    else if p.op = 0x44 then
      let s := (s.putRx cid { m with settled := some (BitVec.ofNat 8 (fld p.hdr 43 36)), waitP := [], hq := [], reqs := [] }).rxRecord cid p
      s.rxSettle cid false
    else (s.rxTake cid p errs).rxSettle cid p.isLast

/-! ### Datagrams (R106, R143) -/

/-- A UD_SEND at its endpoint: placed in the next receive buffer, or dropped and counted. -/
def State.rxUd (s : State) (cid : Nat) (p : Pkt) : State :=
  let c := s.conn cid
  if !c.ud || c.st != 2 || decide (64 ≤ (s.queue c.cqKey).held.length) then s.cntTp 11 1
  else match AMap.get s.rbufs c.rqKey [] with
    | [] => s.cntTp 11 1
    | b :: rest =>
      let r := s.placeBuf c.part c.cqKey b 0 p.payload
      if 253 ≤ r.2.1 then s.cntTp 11 1
      else
        let s := { r.1 with rbufs := AMap.set r.1.rbufs c.rqKey rest }
        let st := if r.2.1 != 0 then r.2.1 else if b.len < p.payload.length then 11 else 0
        let s := s.onIf (r.2.1 != 0) (fun t => t.cntTp 11 1)
        s.recvCqe cid b r.2.2.1 (fld p.hdr 31 0) (p.offset % 2 ^ 24) p.src st r.2.2.2

end Sys2Proof.Machine
end

