-- ==== Sys2Proof/Machine/Peer.lean ====
section
/-!
DEFINITION. What the sending side of a connection does with the packets its peer answers with (chapter 06), the arrival of every
transport packet (R123-R147), and the timers of a connection.
-/

namespace Sys2Proof.Machine

/-! ### ACK (R133, R134, R138) -/

/-- The ACK's payload reports a PSN received. -/
def ackCovers (cum : BitVec 32) (body : BitVec 320) (psn : BitVec 32) : Bool :=
  serLt psn cum || (let i := (psn - cum).toNat; decide (i < 256) && body.getLsbD (64 + i))

/-- A PSN stays outstanding although received: its response or result has not arrived (R134). -/
def TxPsn.awaits (o : TxPsn) : Bool := o.skip.isNone && (o.resp || o.pkt.op == 5 || o.pkt.op == 6)

/-- An ACK of a READY connection: what it newly reports is recorded, messages that have ended complete, the window moves, and what
was overtaken is sent again. -/
def State.rxAck (s : State) (cid : Nat) (p : Pkt) : State :=
  let c := s.conn cid
  let seq := BitVec.ofNat 32 p.wkey
  if c.ackSeen.contains seq then s
  else
    let body : BitVec 320 := BitVec.ofNat 320 (natBE p.payload)
    let echo := fld body 63 32
    let owd := let d := (fld body 31 0 + 2 ^ 32 - echo) % 2 ^ 32; if 2 ^ 31 ≤ d then 0 else d
    let new := c.outs.filter (fun o => o.sent && !o.acked && ackCovers p.psn body o.psn)
    let bytes := (new.map (fun o => o.size)).sum
    let newest := new.foldl (fun a o => max a o.lastNs) 0
    let s := s.updConn cid (fun c => { (c.rttSample ((s.now.toNat % 2 ^ 32 + 2 ^ 32 - echo) % 2 ^ 32)) with
      ackSeen := (seq :: c.ackSeen).take 64
      ackMsn := if serLt c.ackMsn p.msn then p.msn else c.ackMsn
      outB := c.outB - bytes
      outs := (c.outs.map (fun o => if new.any (fun n => n.psn == o.psn) then { o with acked := true, size := 0 } else o)).filter
        (fun o => !o.acked || o.awaits) })
    let s := s.unqueue cid (new.map (fun o => o.psn))
    let s := if new.isEmpty then s else s.windowAck cid owd (fld p.hdr 43 28) new.length bytes
    let gap := max 4000 ((s.conn cid).srttNs / 4)
    let late := (s.conn cid).outs.filter (fun o => o.sent && !o.acked && !o.queued && o.refused == 0 &&
      decide (o.lastNs + gap ≤ newest) && decide (o.tries < 7))
    let s := if late.isEmpty then s else s.lossCut cid 7 8
    let s := s.eachOf late (fun o t => (t.cntTp 10 1).resend cid o true)
    ((s.finishMsgs cid).pump cid).admitReady cid

/-! ### Responses (R119, R134) -/

/-- A response's bytes land at the requester: in the local buffer, or at the end of the transfer whose piece it carries. -/
def State.landResp (s : State) (cid : Nat) (m : TxMsg) (off : Nat) (bs : Bytes) : State :=
  match m.piece with
  | some (x, o) =>
    let r := s.putEnd x (o + off) bs
    r.1.updMsg cid m.msn (fun m => { m with placed := m.placed + bs.length, status := if m.status == 0 then BitVec.ofNat 8 r.2 else m.status })
  | none =>
    let c := s.conn cid
    let ctx := (s.queue m.q).ctx
    let r := s.putLocal c.part ctx m.seg c.cqKey (m.lfpa + off) bs
    let s := r.1.hotCount ctx m.seg (fld m.d 239 192 + off) bs.length
    s.updMsg cid m.msn (fun m => { m with
      placed := m.placed + (if r.2.1 = 0 then bs.length else 0)
      last := if fpaTarget m.lfpa = 1 && !bs.isEmpty then fpaOff m.lfpa + off + bs.length - 1 else m.last
      status := if m.status == 0 then BitVec.ofNat 8 r.2.1 else m.status })

/-- A READ_RESP or ATOMIC_RESP for a PSN still awaited; a segment revoked meanwhile takes no more bytes (R57). -/
def State.rxResp (s : State) (cid : Nat) (p : Pkt) : State :=
  let c := s.conn cid
  match c.outs.find? (fun o => o.psn == p.psn && o.skip.isNone && (if p.op = 0x40 then o.resp else o.pkt.op == 5 || o.pkt.op == 6)) with
  | none => s
  | some o =>
    match c.tx.find? (fun m => m.msn == o.msn && !m.fin) with
    | none => s
    | some m =>
      if m.piece.isNone && s.segEpoch (s.queue m.q).ctx m.seg != m.epoch then s.revokedMsg cid m 3
      else
        let bs := if p.op = 0x41 then bytesLE 8 (natBE p.payload) else p.payload
        let s := s.landResp cid m (4096 * o.idx) bs
        let s := s.updConn cid (fun c => { c with outs := c.outs.filter (fun x => x.psn != p.psn), outB := c.outB - o.size })
        let s := s.unqueue cid [p.psn]
        ((s.finishMsgs cid).pump cid).admitReady cid

/-! ### NAK (R140-R142) -/

/-- The next moment at which a CBUSY hold may end: the hint and a random 0-25 % of it (R142; assumption log 15). -/
def State.busyHold (s : State) (hint : Nat) : Nat × State :=
  let r := s.freshVal
  (s.clockNs + hint + r.1.toNat % (hint / 4 + 1), r.2)

/-- A NAK to a READY connection (R140). -/
def State.rxNak (s : State) (cid : Nat) (p : Pkt) : State :=
  let code := fld p.hdr 43 36
  let hint := natBE (p.payload.take 4)
  let placed := natBE (p.payload.drop 4)
  let c := s.conn cid
  if code = 0 || 11 < code then s.cntTp 2 1
  else if code = 11 then s.connError cid 15 none true
  else match c.outs.find? (fun o => o.psn == p.psn && o.sent) with
    | none => s
    | some o =>
      let m? := c.tx.find? (fun m => m.msn == o.msn && !m.fin)
      let fetch := o.resp || o.pkt.op == 5 || o.pkt.op == 6
      if o.skip.isSome then s
      else if code = 1 then
        let since := o.busySince.getD s.clockNs
        if since + 10000000 ≤ s.clockNs && o.busySince.isSome then s.connError cid 14 (some o.msn) true
        else
          let h := s.busyHold hint
          let s := h.2.unqueue cid [p.psn]
          s.updConn cid (fun c => { c with
            holdTo := some (max h.1 (c.holdTo.getD 0))
            outs := c.outs.map (fun x => if x.psn == p.psn then { x with refused := 1, busySince := some since, queued := false } else x) })
      else if code = 2 then
        if c.recvRetry != 7 && decide (c.recvRetry ≤ (m?.map (fun m => m.tries)).getD 0) then s.settleTx cid o.msn 10 placed
        else
          let s := s.unqueue cid [p.psn]
          s.updConn cid (fun c => { c with
            recvHold := some p.psn
            outs := c.outs.map (fun x => if x.psn == p.psn then { x with refused := 2, busySince := none, queued := false } else x) })
      else if code = 10 then (s.updMsg cid o.msn (fun m => { m with placed })).connError cid 13 (some o.msn) true
      else if (code = 6 || code = 7) && fetch then
        let s := s.updMsg cid o.msn (fun m => { m with status := BitVec.ofNat 8 (nakStatus code) })
        let s := s.updConn cid (fun c => { c with outs := c.outs.filter (fun x => x.psn != p.psn), outB := c.outB - o.size })
        ((s.unqueue cid [p.psn]).finishMsgs cid).pump cid
      else s.settleTx cid o.msn (nakStatus code) placed

/-- A NAK that names what its own sender's packet had named: REMOTE_ERROR, or HOST_GONE from a device whose contexts are gone (R144,
R147, R398). -/
def State.rxLooseNak (s : State) (p : Pkt) : State :=
  match s.conns.find? (fun e => (e.2.st == 2 || e.2.st == 1) && !e.2.ud && e.2.peerId.toNat == p.src && e.2.peerConn.toNat == p.conn &&
      e.2.peerGen.toNat == p.gen) with
  | none => s.cntTp 13 1
  | some (cid, c) =>
    if c.encrypt then s.cntTp 12 1
    else s.connError cid (nakStatus (fld p.hdr 43 36)) none true

/-- A NAK for this adapter's connection, and not one of R144's form: it names a live connection of this source with the PSN
outstanding, or its code is one that only such a NAK carries. -/
def State.nakIsOwn (s : State) (p : Pkt) : Bool :=
  let c := s.conn p.conn
  let code := fld p.hdr 43 36
  p.enc || (code != 11 && (code != 10 || (c.st == 2 && c.peerId.toNat == p.src && (s.gen p.conn).toNat == p.gen &&
    c.outs.any (fun o => o.psn == p.psn))))

/-! ### Trailers and states (R145-R147, R94) -/

/-- A failed tag or a mismatched ENC is counted; 16 within 1 ms on a connection post AUTH_FAIL (R147). -/
def State.authFail (s : State) (cid : Nat) : State :=
  let s := s.cntTp 1 1
  let l := s.clockNs :: ((s.conn cid).authFails.filter (fun t => decide (s.clockNs < t + 1000000)))
  let s := s.updConn cid (fun c => { c with authFails := if l.length = 16 then [] else l })
  s.onIf (l.length == 16) (fun t => t.postRec {
    cls := 4, reason := 2, part := some (t.conn cid).part
    d0 := cid + (t.gen cid).toNat * 2 ^ 24 + (t.conn cid).peerId.toNat * 2 ^ 48 })

/-- The WRAP that puts SEQ nearest the highest counter accepted (R146). -/
def nearWrap (high seq : Nat) : Nat :=
  let w := high / 2 ^ 32
  let dist (x : Nat) : Nat := let v := x * 2 ^ 32 + seq; if v < high then high - v else v - high
  ([w - 1, w + 1] : Nats).foldl (fun b x => if dist x < dist b then x else b) w

/-- An encrypted packet opened: the packet with its plaintext and the counter it used, none where the tag fails (R146). -/
def ConnS.opened (c : ConnS) (p : Pkt) : Option (Pkt × Nat) :=
  match c.key with
  | none => none
  | some (k, salt) =>
    let kind := p.nonceKind
    let w := nearWrap (AMap.get c.rxHigh (if kind = 3 then 0 else kind) 0) p.nonceSeq
    let nonce := p.nonce c.peerConn.toNat w salt
    if Config.gcmTag k nonce p.aad p.payload = p.trailer then
      some ({ p with payload := Config.gcmCrypt k nonce p.payload }, w * 2 ^ 32 + p.nonceSeq)
    else none

/-- REMOTE_ERROR in answer to a packet for a connection in ERROR: on the connection where it is encrypted, else as R144 states. -/
def State.errorAnswer (s : State) (cid : Nat) (p : Pkt) : State :=
  if p.enc then s.sendNak cid p.psn p.msn 11 0 0 else s.looseNak p 11

/-- A packet whose trailer is good reaches its connection, by the connection's state (R94, R121, R398). -/
def State.rxState (s : State) (cid : Nat) (p : Pkt) (errs : WordErrs) (tape : BitVec 32) : State :=
  let c := s.conn cid
  let s := (s.touch cid).updConn cid (fun c => { c with idle := false })
  if c.st = 1 then s.cntTp 3 1
  else if c.st = 3 then
    if p.op = 0x45 then s.sendNotice cid 0x46 (BitVec.ofNat 8 (fld p.hdr 43 36))
    else if p.op = 0x46 then s.updConn cid (fun c => { c with noticeAcked := true })
    else if p.bearsPsn then s.errorAnswer cid p else s
  else if c.ud then s.cntTp 2 1
  else if p.bearsPsn then
    if s.host.gone && ((c.rxMsg p.msn p.op).settled.isNone && !serLt p.msn c.rxMsn) then
      (s.settleRx cid p 10 13).rxSettle cid true
    else s.rxRequest cid p errs tape
  else if p.op = 0x42 then s.rxAck cid p
  else if p.op = 0x43 then s.rxNak cid p
  else if p.op = 0x40 || p.op = 0x41 then s.rxResp cid p
  else if p.op = 0x45 then
    let seq := BitVec.ofNat 32 p.wkey
    if c.ackSeen.contains seq then s
    else
      let s := s.updConn cid (fun c => { c with ackSeen := (seq :: c.ackSeen).take 64 })
      (s.connError cid 15 none true).sendNotice cid 0x46 (BitVec.ofNat 8 (fld p.hdr 43 36))
  else s

/-- A packet for a resident connection: trailer, generation, state (R142 step 4, R147). -/
def State.rxHere (s : State) (cid : Nat) (p : Pkt) (errs : WordErrs) (tape : BitVec 32) : State :=
  let c := s.conn cid
  if p.op = 9 then (if p.enc then (s.cntTp 1 1).cntTp 11 1 else s.rxUd cid p)
  else if c.st = 0 then s.looseNak p (if s.host.gone then 10 else 11)
  else if p.enc != c.encrypt then s.authFail cid
  else if p.enc then
    match c.opened p with
    | none => s.authFail cid
    | some (q, n) =>
      let kind := if p.nonceKind = 3 then 0 else p.nonceKind
      if p.gen != (s.gen cid).toNat then s.looseNak p 11
      else (s.updConn cid (fun c => { c with rxHigh := AMap.upd c.rxHigh kind 0 (max n) })).rxState cid q errs tape
  else if p.gen != (s.gen cid).toNat then s.looseNak p 11
  else s.rxState cid p errs tape

/-- A packet for a connection whose context is not resident goes to staging, and a refill starts (R98, R142). -/
def State.rxStage (s : State) (cid : Nat) (p : Pkt) (errs : WordErrs) (tape : BitVec 32) : State :=
  match s.stageHint cid p with
  | some hint =>
    if p.op = 9 then s.cntTp 11 1
    else if p.bearsPsn then s.sendNak cid p.psn p.msn 1 hint 0 else s
  | none =>
    (s.updConn cid (fun c => { c with
      staged := c.staged ++ [(p, errs, tape)], refill := true, misses := if c.refill then c.misses else c.misses + 1 })).cntTp 6 1

/-! ### Arrival (R123-R128, R158) -/

/-- An E2E_RETURN to a source: the running total of what was accepted from it (R158). -/
def State.sendReturn (s : State) (src : Nat) : State :=
  let r := AMap.get s.tp.e2eR src {}
  let s := s.updTp (fun t => { t with e2eR := AMap.upd t.e2eR src {} (fun r => { r with unret := 0 }) })
  let hdr : BitVec 512 := pack 512 [(127, 120, 1), (95, 48, r.total.toNat), (47, 32, s.tp.inc.toNat)]
  (s.cntCc 6 1).sendLoose 0 (({ fab := fabHead src s.myId 3 2 16 0, hdr } : Pkt).withCrc) true

/-- A counted packet is accepted from its source; at 64 KiB the total is returned (R158). -/
def State.e2eAccept (s : State) (port : Nat) (p : Pkt) : State :=
  if !p.counted || port = 32 then s
  else
    let s := s.updTp (fun t => { t with e2eR := AMap.upd t.e2eR p.src {} (fun r => {
      total := r.total + BitVec.ofNat 48 p.size, unret := r.unret + p.size }) })
    if 65536 ≤ (AMap.get s.tp.e2eR p.src {}).unret then s.sendReturn p.src else s

/-- A transport packet is malformed: its opcode is refused, reserved bits are set, or LENGTH disagrees with opcode and flags (R124,
R128). -/
def pktMalformed (p : Pkt) : Bool :=
  let n := p.payload.length
  let data := decide (n ≤ 4096) && (p.isLast || n == 4096)
  let fits := match p.op with
    | 1 => data | 2 => data | 4 => data | 3 => n == 0 | 5 => n == 8 | 6 => n == 16 | 7 => n == 0
    | 8 => decide (n ≤ 4096) | 9 => decide (n ≤ 4096) | 0x40 => decide (n ≤ 4096) | 0x41 => n == 8 | 0x42 => n == 40 | 0x43 => n == 8
    | 0x44 => n == 0 | 0x45 => n == 0 | 0x46 => n == 0
    | _ => false
  !(zeroFld p.fab 89 88 && zeroFld p.fab 50 48 && zeroFld p.hdr 242 240) || !fits ||
  p.flen != 32 + (if p.hasExt then 16 else 0) + n

/-- A packet for this adapter is taken off its port: accepted for its source's window, and its slots freed; false where it is
discarded there or is not this adapter's. -/
def State.takeHere (s : State) (port : Nat) (p : Pkt) : State × Bool :=
  if p.mcast || !s.devidValid || p.dest != s.myId then (s, false)
  else
    let r := s.arrive port p
    if r.2 then ((r.1.leaveIdle.e2eAccept port p).dropIn port p, true) else r

/-- A transport packet of one opcode arrives on a port; one held for an isolated transport engine is dropped and counted ABORTED (R492). -/
def State.rxTransport (s : State) (port : Nat) (p : Pkt) (op : Nat) (errs : WordErrs) : State :=
  if p.proto != 0 || p.op != op then s
  else
    let r := s.takeHere port p
    let s := r.1
    if !r.2 then s
    else if s.isolated 2 (Config.engineOf p.conn) then s.cntPort port 10 1
    else if pktMalformed p then (s.cntTp 2 1).onIf (op == 9) (fun t => t.cntTp 11 1)
    else if !p.enc && !p.crcOk then (s.cntTp 0 1).onIf (op == 9) (fun t => t.cntTp 11 1)
    else if op = 0x43 && !s.nakIsOwn p then s.rxLooseNak p
    else
      let c := s.conn p.conn
      let tape := BitVec.ofNat 32 s.now.toNat
      if c.st != 0 && (!c.resident || !c.staged.isEmpty) then s.rxStage p.conn p errs tape
      else s.rxHere p.conn p errs tape

/-- An encrypted packet on which a receive pipeline's guard dissents is discarded and counted; the sender sees a loss (R466). -/
def State.cipherLoss (s : State) (port : Nat) (p : Pkt) (i : Nat) : State :=
  let r := s.takeHere port p
  if r.2 then (r.1.cntTp 1 1).bulkMismatch (48 + i) else r.1

/-- WRITE packet (R109, R136). -/
def execWritePacket (port : Nat) (pkt : Pkt) (guard : Mismatch) (s : State) : Out :=
  .next (match guard with
    | some i => if pkt.enc && decide (i < 48) && pkt.proto == 0 && pkt.op == 1 then s.cipherLoss port pkt i else s.rxTransport port pkt 1 []
    | none => s.rxTransport port pkt 1 [])
/-- WRITE_SIG packet (R109, R136). -/
def execWriteSigPacket (port : Nat) (pkt : Pkt) (s : State) : Out := .next (s.rxTransport port pkt 0x02 [])
/-- READ_REQ (R128, R136). -/
def execReadReq (port : Nat) (pkt : Pkt) (errs : WordErrs) (s : State) : Out := .next (s.rxTransport port pkt 0x03 errs)
/-- SEND packet (R105). -/
def execSendPacket (port : Nat) (pkt : Pkt) (s : State) : Out := .next (s.rxTransport port pkt 0x04 [])
/-- FETCH_ADD packet (R101, R132). -/
def execFetchAddPacket (port : Nat) (pkt : Pkt) (errs : WordErrs) (s : State) : Out := .next (s.rxTransport port pkt 0x05 errs)
/-- CMP_SWAP packet (R101, R132). -/
def execCmpSwapPacket (port : Nat) (pkt : Pkt) (errs : WordErrs) (s : State) : Out := .next (s.rxTransport port pkt 0x06 errs)
/-- SYNC_ADD packet (R101). -/
def execSyncAddPacket (port : Nat) (pkt : Pkt) (s : State) : Out := .next (s.rxTransport port pkt 0x07 [])
/-- INVOKE packet (R313). -/
def execInvokePacket (port : Nat) (pkt : Pkt) (s : State) : Out := .next (s.rxTransport port pkt 0x08 [])
/-- UD_SEND (R143). -/
def execUdSend (port : Nat) (pkt : Pkt) (s : State) : Out := .next (s.rxTransport port pkt 0x09 [])
/-- READ_RESP (R134). -/
def execReadResp (port : Nat) (pkt : Pkt) (s : State) : Out := .next (s.rxTransport port pkt 0x40 [])
/-- ATOMIC_RESP (R134). -/
def execAtomicResp (port : Nat) (pkt : Pkt) (s : State) : Out := .next (s.rxTransport port pkt 0x41 [])
/-- ACK (R133). -/
def execAck (port : Nat) (pkt : Pkt) (s : State) : Out := .next (s.rxTransport port pkt 0x42 [])
/-- NAK (R140). -/
def execNak (port : Nat) (pkt : Pkt) (s : State) : Out := .next (s.rxTransport port pkt 0x43 [])
/-- SKIP (R141). -/
def execSkip (port : Nat) (pkt : Pkt) (s : State) : Out := .next (s.rxTransport port pkt 0x44 [])
/-- ERROR_NOTICE (R121). -/
def execErrorNotice (port : Nat) (pkt : Pkt) (s : State) : Out := .next (s.rxTransport port pkt 0x45 [])
/-- NOTICE_ACK (R121). -/
def execNoticeAck (port : Nat) (pkt : Pkt) (s : State) : Out := .next (s.rxTransport port pkt 0x46 [])

/-- A packet for this adapter that no protocol takes: a refused PROTO, OPCODE or CTRL_TYPE is dropped and counted MALFORMED (R125, R128,
R158, R331). -/
def refusedHere (p : Pkt) : Bool :=
  decide (3 ≤ p.proto) ||
  (p.proto == 0 && !(decide (1 ≤ p.op ∧ p.op ≤ 9) || decide (0x40 ≤ p.op ∧ p.op ≤ 0x46))) ||
  (p.proto == 1 && !decide (1 ≤ p.op ∧ p.op ≤ 9)) ||
  (p.proto == 2 && !(fld p.hdr 127 120 == 1 || fld p.hdr 511 504 == 2))

/-- PACKET_FORWARD: a packet for another device is checked for destination, hops and age, looked up, and joins an output
queue, or is dropped and counted (R37, R196-R203, R210); one for this device that no protocol takes is dropped. -/
def execPacketForward (port : Nat) (pkt : Pkt) (s : State) : Out :=
  .next (if 32 ≤ port || pkt.mcast then s
    else if s.devidValid && pkt.dest = s.myId then
      if refusedHere pkt then
        let r := s.takeHere port pkt
        r.1.onIf r.2 (fun t => t.cntTp 2 1)
      else s
    else
      let r := s.arrive port pkt
      let s := r.1
      let aged := s.tapeAges
      if !r.2 then s
      else if !validId pkt.dest then (s.cntPort port 11 1).dropIn port pkt
      else if 6 ≤ pkt.hops then (s.cntRt 3 1).dropIn port pkt
      else if aged && decide (196000 < (s.now.toNat + 2 ^ 32 - pkt.txTape) % 2 ^ 32) then (s.cntRt 4 1).dropIn port pkt
      else
        let s := s.onIf (!aged) (fun t => t.cntRt 5 1)
        match s.routeBy aged port pkt with
        | .here => s
        | .drop c => (s.cntRt c 1).dropIn port pkt
        | .out n detour => s.enqueue n { pkt, src := port, detour })

/-! ### Timers and the refill -/

/-- ACK_DELAY_TIMER: 2 µs after the first arrival no ACK has covered (R133). -/
def execAckDelayTimer (conn : Nat) (s : State) : Out :=
  .next (if (s.conn conn).st = 2 && (s.conn conn).uncovered then s.ackNow conn else s)

/-- CBUSY_HOLD_EXPIRY: the hold ends; the refused PSNs are sent again first (R142). -/
def execCbusyHoldExpiry (conn : Nat) (s : State) : Out :=
  let c := s.conn conn
  .next (if c.st = 2 && c.holdTo.isSome then
      let s := s.updConn conn (fun c => { c with holdTo := none })
      let s := s.eachOf (c.outs.filter (fun o => o.refused == 1)) (fun o t => t.resend conn o false)
      (s.pump conn).admitReady conn
    else s)

/-- CBUSY_LIMIT: one PSN has been refused CBUSY for 10 ms; the connection fails (R142). -/
def execCbusyLimit (conn psn : Nat) (s : State) : Out :=
  let c := s.conn conn
  .next (match c.outs.find? (fun o => o.psn.toNat == psn && o.busySince.isSome) with
    | some o => if c.st = 2 then s.connError conn 14 (some o.msn) true else s
    | none => s)

/-- NO_RECV_RETRY: the hint has passed; the packet refused for want of a buffer goes again (R140). -/
def execNoRecvRetry (conn : Nat) (s : State) : Out :=
  let c := s.conn conn
  .next (if c.st = 2 && c.recvHold.isSome then
      let s := s.updConn conn (fun c => { c with recvHold := none })
      s.eachOf (c.outs.filter (fun o => o.refused == 2)) (fun o t =>
        (t.updMsg conn o.msn (fun m => { m with tries := m.tries + 1 })).resend conn o false)
    else s)

/-- BOBBIN_REFILL: the context is back and what waited for it is processed in order, or it cannot be read back and the connection
fails (R97-R99, R142). -/
def execBobbinRefill (conn : Nat) (uncorrectable : Bool) (s : State) : Out :=
  let c := s.conn conn
  .next (if c.st = 0 || !c.refill then s
    else
      let s := if c.resident then s else s.bobbinRoom
      let s := s.updConn conn (fun c => { c with resident := true, refill := false, staged := [] })
      if uncorrectable then
        let s := (s.memRec 2 none 0).connError conn 5 none true
        let s := (s.updConn conn (fun c => { c with st := if c.ud then c.st else 3 })).flushWaitD conn
        s.eachOf c.staged (fun q t => if q.1.op = 9 then t.cntTp 11 1 else t.errorAnswer conn q.1)
      else
        let s := s.eachOf c.staged (fun q t => t.rxHere conn q.1 q.2.1 q.2.2)
        let s := s.updConn conn (fun c => { c with waitD := [] })
        s.eachOf c.waitD (fun w t => if (t.conn conn).st = 2 then t.sendNow conn w.1 w.2.1 w.2.2.1 w.2.2.2
          else t.endAtOnce conn { op := w.2.2.2, d := w.2.2.1, q := w.1, work := w.2.1 } 16))

/-! ### Receive descriptors and windows (R104, R108-R111) -/

/-- RECV_BUFFER_POST: a receive descriptor puts a buffer at the end of its queue (R104, R105). -/
def execRecvBufferPost (part q : Nat) (d : Desc) (s : State) : Out :=
  let k := qkey part q
  .next (if !s.queueKind part q 2 then s
    else if fld d 15 12 != 2 || fld d 7 0 != 1 || !(zeroFld d 511 240 && zeroFld d 95 16 && zeroFld d 11 8) || decide (2 ^ 30 < fld d 127 96)
      then s.malformed part q (s.slotOf part q) (fld d 63 0)
    else
      let r := s.takeId
      let b : RBuf := { va := BitVec.ofNat 64 (fld d 239 192), len := fld d 127 96, wrId := BitVec.ofNat 64 (fld d 191 128), work := r.1, q := k }
      { r.2.updQueue k (fun u => { u with work := u.work ++ [r.1] }) with rbufs := AMap.upd s.rbufs k [] (· ++ [b]) })

/-- The lowest bit of the first field of a window entry that fails, from the highest bits down (R108). -/
def State.winBad (s : State) (issuer : Nat) (e : BitVec 256) : Option Nat :=
  let p := winPart e
  let peer := winPeer e
  let t := winTarget e
  let sig := bitAt e 227
  if peer != 0xFFFF && !validId peer then some 240
  else if !zeroFld e 239 229 then some 229
  else if winCoh e && t == 0 then some 228
  else if fld e 227 224 = 0 then some 224
  else if 16384 < winSigCount e || (sig && winSigCount e == 0) then some 208
  else if !zeroFld e 207 206 then some 206
  else if Ranges.count (s.part p).syncs < winSigBase e + winSigCount e then some 192
  else if 2 ≤ t then some 189
  else if !zeroFld e 188 176 then some 176
  else if winLen e = 0 then some 128
  else if !zeroFld e 127 109 then some 109
  else if (t == 0 && !s.inUnits p (winBase e) (winLen e)) || (t == 1 && decide (2 ^ 45 < winBase e + winLen e)) then some 64
  else if !zeroFld e 63 6 then some 6
  else if issuer != 0 && p != issuer then some 0
  else none

/-- The lowest closed window index of a partition. -/
def State.freeWin (s : State) (p : Nat) : Option Nat :=
  (Ranges.items (s.part p).wins).find? (fun w => !(s.win w).st && (s.win w).revoke.isNone)

/-- WIN_OPEN: the entry's fields are checked from the highest bits down, then a free index is taken (R108). -/
def execWinOpen (h : Issue) (entry : BitVec 256) (s : State) : Out :=
  .next (vuino h 0x0310 [entry.toNat] (fun s =>
    if s.spine then Ans.bad s
    else match s.winBad h.part entry with
      | some i => Ans.bad s i
      | none =>
        match s.freeWin (winPart entry) with
        | none => Ans.noRes s
        | some w =>
          let s := s.updWin w (fun x => { x with st := true, entry })
          Ans.ok s [(8, bytesLE 8 (w * 2 ^ 12 + (s.win w).gen.toNat))]) s)

/-- The generation after one (R110): 0x000 is never issued. -/
def nextGen (g : BitVec 12) : BitVec 12 := if g == 0xFFF then 1 else g + 1

/-- A window closes: its generation moves on (R110, R111). -/
def State.winClose (s : State) (w : Nat) : State := s.updWin w (fun x => { x with st := false, gen := nextGen x.gen })

/-- WIN_REVOKE: the window closes at once, and the command replies once every packet validated under the key is placed (R111). -/
def execWinRevoke (h : Issue) (wkey : Nat) (s : State) : Out :=
  .next (vuino h 0x0311 [wkey] (fun s =>
    let w := wkey / 2 ^ 12
    let x := s.win w
    if !x.st || x.gen.toNat != wkey % 2 ^ 12 || !Ranges.has (s.part (winPart x.entry)).wins w || (h.part != 0 && winPart x.entry != h.part)
      then Ans.bad s
    else
      let s := s.winClose w
      if s.winBusy w then Ans.wait (s.updWin w (fun x => { x with revoke := some h })) else Ans.ok s) s)

end Sys2Proof.Machine
end

