-- ==== Sys2Proof/Machine/RouteCmds.lean ====
section
/-!
DEFINITION. Routing tables, congestion maps and the tape epoch boundary (R200-R218).
-/

namespace Sys2Proof.Machine

/-! ### Routing tables -/

/-- Entries of a table kind (R200). -/
def rtSize (kind : Nat) : Nat := if kind = 0 then 32 else 16
/-- Index of a kind's first entry among a bank's 64. -/
def rtBase (kind : Nat) : Nat := if kind = 0 then 0 else if kind = 1 then 32 else 48

/-- A bank changed. -/
def State.updBank (s : State) (bank : Nat) (f : BankS → BankS) : State :=
  s.updRoute (fun r => if bank = 0 then { r with a := f r.a } else { r with b := f r.b })

/-- SINCE_FLIP in µs, saturating (R207). -/
def State.sinceFlip (s : State) : Nat :=
  match s.route.flipAt with
  | none => 65535
  | some t => min 65535 ((s.clockNs - t) / 1000)

/-- RT_REASON of a bank that RT_WRITE or RT_CLEAR may not touch, 0 where it may (R209, R217). -/
def State.bankGuard (s : State) (bank : Nat) : Nat :=
  if decide (bank = 1) == s.route.inj then 1 else if s.sinceFlip < 200 then 2 else 0

/-- Ranges of RT_WRITE and RT_QUERY (R216). -/
def rtRange (bank kind first count : Nat) : Bool :=
  decide (bank ≤ 1 ∧ kind ≤ 2 ∧ 1 ≤ count ∧ count ≤ 32) && decide (first + count ≤ rtSize kind)

/-- RT_REASON of one entry at a stitch, 0 where it is accepted (R202, R217). -/
def State.entryReason (s : State) (kind i : Nat) (e : BitVec 64) : Nat :=
  let me := s.myId
  let mask := fld e 31 0
  let ports := (List.range 32).filter (fun n => mask.testBit n)
  let within (ok : Nat → Bool) : Bool := ports.all ok
  if !(zeroFld e 63 48 && zeroFld e 39 32) then 4
  else if s.spine then
    (if kind = 0 then (if within (fun n => n == i) then 0 else 6) else if e = 0 then 0 else 6)
  else if kind = 0 then
    (if i = idPlane me then (if mask = 0 && zeroFld e 47 40 then 0 else 5) else if within (fun n => decide (30 ≤ n)) then 0 else 6)
  else
    let c := if kind = 1 then idCol me else idRow me
    let b := if kind = 1 then 0 else 15
    if i = c then (if mask = 0 && zeroFld e 47 40 then 0 else 5)
    else if !within (fun n => decide (b ≤ n ∧ n < b + 15)) then 6
    else if within (fun n => leadsTo (n - b) c == i || decide (max c i < leadsTo (n - b) c)) then 0 else 7

/-- The first entry of a bank that fails, by kind and index: with its kind, index and RT_REASON (R202). -/
def State.bankFault (s : State) (b : BankS) : Option (Nat × Nat × Nat) :=
  ([0, 1, 2] : Nats).findSome? (fun kind => (List.range (rtSize kind)).findSome? (fun i =>
    let r := s.entryReason kind i (AMap.get b.ents (rtBase kind + i) 0)
    if r = 0 then none else some (kind, i, r)))

/-- RT_WRITE: entries are written and the bank is WRITING (R209, R216). -/
def execRtWrite (h : Issue) (bank kind first count : Nat) (entries : Nats) (s : State) : Out :=
  .next (vuino h 0x0510 [bank, kind, first, count] (fun s =>
    if !rtRange bank kind first count then Ans.bad s 0 3
    else if entries.length != count then Ans.bad s (8 + 8 * min count entries.length) 3
    else match s.bankGuard bank with
      | 0 => Ans.ok (s.updBank bank (fun b =>
          let old := if b.st == 0 then [] else b.ents
          { st := 1, ents := ((List.zip (List.range' (rtBase kind + first) count) entries).foldl
              (fun m e => AMap.set m e.1 (BitVec.ofNat 64 e.2)) old) }))
      | r => Ans.bad s 0 r) s)

/-- RT_STITCH: every entry is checked and the bank becomes READY (R202, R216). -/
def execRtStitch (h : Issue) (bank : Nat) (s : State) : Out :=
  .next (vuino h 0x0511 [bank] (fun s =>
    let b := s.route.bank (bank == 1)
    if 1 < bank then Ans.bad s 0 3
    else if !s.devidValid then Ans.bad s 0 9
    else if b.st != 1 then Ans.bad s 0 8
    else match s.bankFault b with
      | some (kind, i, r) => Ans.bad s (kind * 65536 + i) r
      | none => Ans.ok (s.updBank bank (fun b => { b with st := 2 }))) s)

/-- RT_CLEAR: the bank becomes EMPTY (R209, R216). -/
def execRtClear (h : Issue) (bank : Nat) (s : State) : Out :=
  .next (vuino h 0x0512 [bank] (fun s =>
    if 1 < bank then Ans.bad s 0 3
    else match s.bankGuard bank with
      | 0 => Ans.ok (s.updBank bank (fun _ => {}))
      | r => Ans.bad s 0 r) s)

/-- RT_FLIP: the injection epoch becomes the bank (R207, R209, R216). -/
def execRtFlip (h : Issue) (bank : Nat) (s : State) : Out :=
  .next (vuino h 0x0513 [bank] (fun s =>
    if 1 < bank then Ans.bad s 0 3
    else if (s.route.bank (bank == 1)).st == 1 then Ans.bad s 0 8
    else if decide (bank = 1) == s.route.inj then Ans.ok s
    else Ans.ok (s.updRoute (fun r => { r with inj := decide (bank = 1), flipAt := some s.clockNs }))) s)

/-- RT_QUERY: a bank's state and entries (R216). -/
def execRtQuery (h : Issue) (bank kind first count : Nat) (s : State) : Out :=
  .next (vuino h 0x0514 [bank, kind, first, count] (fun s =>
    if !rtRange bank kind first count then Ans.bad s 0 3
    else
      let b := s.route.bank (bank == 1)
      Ans.ok s [sc 1 b.st.toNat, listItem ((List.range' (rtBase kind + first) count).map
        (fun i => [blkItem 8 (AMap.get b.ents i 0).toNat]))]) s)

/-! ### Multicast groups (R211) -/

/-- MCAST_SET: a group entry is replaced. -/
def execMcastSet (h : Issue) (group : Nat) (entry : BitVec 64) (s : State) : Out :=
  .next (vuino h 0x0520 [group, entry.toNat] (fun s =>
    if s.spine then Ans.bad s
    else if 4095 < group then Ans.bad s 0
    else if !zeroFld entry 15 0 then Ans.bad s 8
    else Ans.ok (s.updRoute (fun r => { r with
      mcast := if entry = 0 then AMap.erase r.mcast group else AMap.set r.mcast group entry }))) s)

/-- MCAST_QUERY: a group entry. -/
def execMcastQuery (h : Issue) (group : Nat) (s : State) : Out :=
  .next (vuino h 0x0521 [group] (fun s =>
    if s.spine || 4095 < group then Ans.bad s
    else Ans.ok s [blkItem 8 (AMap.get s.route.mcast group 0).toNat]) s)

/-- One copy of a multicast packet for a port: not sent, and counted, where the port does not carry packets (R212). -/
def State.mcastCopy (s : State) (n src part : Nat) (relay : Bool) (p : Pkt) : State :=
  if s.portOpen n then
    s.enqueue n { pkt := { p with fab := setFld p.fab 90 90 (b2n relay) }, src, part, ctl := src == 32, slot := false }
  else s.cntRt 7 1

/-- A multicast packet made here goes out on TX_X and TX_Y of its group (R211, R212). -/
def State.mcastSend (s : State) (part : Nat) (p : Pkt) : State :=
  let e := AMap.get s.route.mcast (p.mgroup % 4096) 0
  if s.spine || p.proto != 1 || 4096 ≤ p.mgroup || !bitAt e 63 then s.cntRt 8 1
  else
    let s := s.each ((List.range 15).filter (fun k => bitAt e (46 + k))) (fun k t => t.mcastCopy k 32 part (bitAt e 61) p)
    s.each ((List.range 15).filter (fun k => bitAt e (31 + k))) (fun k t => t.mcastCopy (15 + k) 32 part false p)

/-- A multicast packet that has arrived: relayed as its group says (R210-R212); whether it is delivered here. -/
def State.mcastArrive (s : State) (port : Nat) (p : Pkt) : State × Bool :=
  let r := s.arrive port p
  let s := r.1
  let e := AMap.get s.route.mcast (p.mgroup % 4096) 0
  if !r.2 then (s, false)
  else if s.spine || p.proto != 1 || 4096 ≤ p.mgroup || !bitAt e 63 || 30 ≤ port then ((s.cntRt 8 1).dropIn port p, false)
  else
    let old := s.tapeAges && decide (196000 < (s.now.toNat + 2 ^ 32 - p.txTape) % 2 ^ 32)
    let relay := port < 15 && p.relay && !zeroFld e 30 16
    let s :=
      if !relay then s
      else if 6 ≤ p.hops then s.cntRt 3 1
      else if old then s.cntRt 4 1
      else
        let s := s.onIf (!s.tapeAges) (fun t => t.cntRt 5 1)
        s.each ((List.range 15).filter (fun k => bitAt e (16 + k))) (fun k t => t.mcastCopy (15 + k) port 0 false p)
    (s.dropIn port p, bitAt e 62)

/-! ### Congestion maps (R213-R215) -/

/-- Depth of a queue in KiB, saturating at 16 bits. -/
def kib16 (b : Nat) : Nat := min 65535 (b / 1024)

/-- The map push of R213. -/
def State.pushBody (s : State) : BitVec 512 :=
  let level (n vc : Nat) : Nat := min 15 (s.depth n vc / 16384)
  pack 512 ([(511, 504, 2), (487, 472, s.route.mapSeq.toNat),
    (471, 440, ((List.range 32).filter (fun n => (s.port n).open)).foldl (fun a n => a + 2 ^ n) 0)] ++
    (List.range 32).map (fun n => (255 - 8 * n, 248 - 8 * n, level n 1 * 16 + level n 2)))

/-- The push leaves on VC3 of a port. -/
def State.sendPush (s : State) (n : Nat) : State :=
  let dest := (expected s.myId n).1
  let p : Pkt := { fab := fabHead dest s.myId 3 2 64 0, hdr := s.pushBody }
  (s.enqueue n { pkt := p.withCrc, src := 32, ctl := true }).cntRt 9 1

/-- Words of the compiled map for one port (R214). -/
def State.mapPort (s : State) (n : Nat) : AMap (BitVec 64) :=
  let p := s.port n
  let b := 0x40 + 64 * n
  let four (f : Nat → Nat) : BitVec 64 := pack 64 [(63, 48, f 3), (47, 32, f 2), (31, 16, f 1), (15, 0, f 0)]
  [(b, BitVec.ofNat 64 (s.linkStat n)), (b + 8, four (fun v => kib16 (s.depth n v))),
   (b + 0x10, four (fun v => kib16 (max (AMap.get p.snapB v 0) (s.depth n v)))), (b + 0x18, BitVec.ofNat 64 p.epochTx),
   (b + 0x20, BitVec.ofNat 64 p.epochRx), (b + 0x28, BitVec.ofNat 64 p.epochMark), (b + 0x30, BitVec.ofNat 64 p.epochWait)]

/-- The INFLIGHT words of the compiled map: 16 bits for each adapter (R214). -/
def State.mapInflight (s : State) : AMap (BitVec 64) :=
  s.tp.e2e.foldl (fun m e =>
    if idSpine e.1 then m
    else
      let o := 0x1000 + 2 * (e.1 / 4)
      AMap.upd m (o / 8 * 8) 0 (fun w => setFld w (o % 8 * 8 + 15) (o % 8 * 8) (kib16 (s.inflight e.1)))) []

/-- The compiled map (R214): words that are zero are not listed. -/
def State.compileMap (s : State) : AMap (BitVec 64) :=
  let seq := s.route.mapSeq
  AMap.keep ([(0, seq), (8, s.now), (0x10, BitVec.ofNat 64 s.devidWord), (0x18, BitVec.ofNat 64 s.rtStatus)] ++
    (List.range 32).flatMap s.mapPort ++ s.mapInflight ++ [(0xFFF8, seq)]) (fun _ w => w != 0)

/-- TAPE_EPOCH_BOUNDARY: the snapshot of R203 is taken, map pushes leave, the map is compiled, and bookings change (R213, R214, R377,
R378). -/
def execTapeEpochBoundary (s : State) : Out :=
  .next (if !s.tape.running then s
    else
      let s := s.bookBoundary
      let s := s.updRoute (fun r => { r with
        mapSeq := r.mapSeq + 1
        depth := ((List.range 32).flatMap (fun n => (List.range 4).map (fun v => (oqKey n v, s.depth n v / 1024)))).filter
          (fun e => e.2 != 0) })
      let s := s.each (List.range 32) (fun n t => t.updPort n (fun p => { p with
        pushAge := p.pushAge + 1
        ahead := if p.pushAge < 3 then p.pushLvl.getD 0 else 0 }))
      let map := s.compileMap
      let s := s.each ((List.range 32).filter s.portOpen) (fun n t => t.sendPush n)
      let s := s.updRoute (fun r => { r with map })
      s.each (List.range 32) (fun n t => t.updPort n (fun p => { p with
        snapB := [], epochTx := 0, epochRx := 0, epochMark := 0, epochWait := 0 })))

/-- MAP_PUSH: the latest push of a port is kept (R213). -/
def execMapPush (port : Nat) (pkt : Pkt) (s : State) : Out :=
  .next (if pkt.proto != 2 || fld pkt.hdr 511 504 != 2 || 32 ≤ port then s
    else
      let r := s.takeHere port pkt
      if !r.2 then r.1
      else if !pkt.crcOk then r.1.cntTp 0 1
      else (r.1.cntRt 10 1).updPort port (fun p => { p with
        pushLvl := some (BitVec.ofNat 256 (fld pkt.hdr 255 0)), pushUp := BitVec.ofNat 32 (fld pkt.hdr 471 440), pushAge := 0 }))

end Sys2Proof.Machine
end

