-- ==== Sys2Proof/Machine/Congestion.lean ====
section
/-!
DEFINITION. Congestion control, shaping and scheduling (chapter 07): the egress scheduler's event, the injection window's returns,
and the commands.
-/

namespace Sys2Proof.Machine

/-! ### The egress scheduler (R150, R165-R167) -/

/-- A datagram that has left ends its SEND (R101). -/
def State.udLeft (s : State) (q : QPkt) : State :=
  match q.conn, q.psn with
  | some cid, some msn =>
    if q.pkt.op = 9 && (s.conn cid).ud then ((s.updMsg cid msn (fun m => { m with fin := true })).retire cid).pump cid else s
  | _, _ => s

/-- EGRESS_PACKET_SELECT: control words and a replay leave first (R179); then a port and VC sends its next eligible packet, where no VC
before it has one (R165-R167). A packet that only hop
flow control holds counts a flit time of waiting (R193). A packet that meets a mismatch is enciphered again on another pipeline (R466). -/
def execEgressPacketSelect (port vc : Nat) (guard : Mismatch) (s : State) : Out :=
  .next (if 32 < port || 3 < vc then s
    else
      let replay := (s.port port).replayFrom.isSome && !(s.port port).waitFack
      let s := (s.admitAll).sendFirst port
      if replay || !s.vcTurn port vc then s
      else match s.pick port vc with
        | some (src, q) => ((s.depart port vc src q).udLeft q).onIf (src == 32 && q.pkt.enc) (fun s => match guard with
            | some i => s.onIf (decide (i < 48)) (fun s => s.bulkMismatch i)
            | none => s)
        | none =>
          if (s.outq port vc).any (fun q => !s.hopOpen port vc q.pkt.flits q.pkt.size) && s.portOpen port then
            (s.cntPort port 13 1).updPort port (fun p => { p with epochWait := p.epochWait + 1 })
          else s)

/-! ### The injection window (R157, R158) -/

/-- E2E_RETURN: the sender's count towards a destination starts anew, or advances (R158). -/
def execE2eReturn (port : Nat) (pkt : Pkt) (s : State) : Out :=
  let d := pkt.src
  let acc : BitVec 48 := BitVec.ofNat 48 (fld pkt.hdr 95 48)
  let inc : BitVec 16 := BitVec.ofNat 16 (fld pkt.hdr 47 32)
  .next (if pkt.proto != 2 || fld pkt.hdr 127 120 != 1 then s
    else
      let r := s.takeHere port pkt
      let s := r.1
      if !r.2 then s
      else if !(zeroFld pkt.fab 89 88 && zeroFld pkt.fab 50 48) || pkt.flen != 16 || !pkt.payload.isEmpty then s.cntTp 2 1
      else if !pkt.crcOk then s.cntTp 0 1
      else
        let e := s.e2eOf d
        let adv := (acc - e.raw).toNat
        let e := if e.inc != some inc then { sent := 0, acc := 0, lost := 0, raw := acc, inc := some inc }
          else if 0 < adv && adv < 2 ^ 47 then { e with acc := e.acc + adv, raw := acc } else e
        (s.updTp (fun t => { t with e2e := AMap.set t.e2e d e })).admitAll)

/-- E2E_RETURN_TIMER: 2 µs after the first byte not yet returned (R158). -/
def execE2eReturnTimer (src : Nat) (s : State) : Out :=
  .next (if (AMap.get s.tp.e2eR src {}).unret = 0 then s else s.sendReturn src)

/-- E2E_STALE: bytes in flight for 1 ms without a return leave the count (R158). -/
def execE2eStale (dest : Nat) (s : State) : Out :=
  .next (if s.inflight dest = 0 then s
    else ((s.updTp (fun t => { t with e2e := AMap.upd t.e2e dest {} (fun e => { e with sent := e.acc + e.lost }) })).cntCc 5 1).admitAll)

/-! ### Commands (R155, R156, R163, R164, R167, R168) -/

/-- A congestion parameter block has a refused field (R155). -/
def ccBad (b : BitVec 128) : Bool :=
  let inR (v lo hi : Nat) : Bool := decide (lo ≤ v ∧ v ≤ hi)
  let lo := fld b 47 32; let hi := fld b 31 16; let ini := fld b 63 48
  !(zeroFld b 127 112 && zeroFld b 15 2 && inR (fld b 111 96) 100 20000 && inR (fld b 95 80) 1 4096 && fld b 79 72 != 0 && fld b 71 64 != 0 &&
    inR ini 4 8192 && inR lo 4 8192 && inR hi 4 8192 && decide (lo ≤ ini ∧ ini ≤ hi))

/-- A partition has been created. -/
def State.created (s : State) (p : Nat) : Bool := decide (p < 64) && (p == 0 || (s.part p).st != 0)

/-- CC_PARAM_SET: the basting congestion block of a partition (R155). -/
def execCcParamSet (h : Issue) (part : Nat) (blk : BitVec 128) (s : State) : Out :=
  .next (vuino h 0x0400 [part, blk.toNat] (fun s =>
    if !s.created part || ccBad blk then Ans.bad s else Ans.ok (s.updPart part (fun p => { p with ccBast := blk }))) s)

/-- CC_STITCH: the basting block becomes active (R155). -/
def execCcStitch (h : Issue) (part : Nat) (s : State) : Out :=
  .next (vuino h 0x0401 [part] (fun s =>
    if !s.created part then Ans.bad s else Ans.ok (s.updPart part (fun p => { p with ccAct := p.ccBast }))) s)

/-- CC_CONN_SET: the override of one connection's window, at once (R156). -/
def execCcConnSet (h : Issue) (conn mode lo : Nat) (hi : BitVec 64) (fixed : Nat) (s : State) : Out :=
  .next (vuino h 0x0402 [conn, mode, lo, hi.toNat, fixed] (fun s =>
    let hi := hi.toNat
    let inR (v : Nat) : Bool := decide (4 ≤ v ∧ v ≤ 8192)
    if (s.conn conn).st = 0 || 2 < mode then Ans.bad s
    else if mode = 1 && !(inR lo && inR hi && decide (lo ≤ hi)) then Ans.bad s
    else if mode = 2 && !inR fixed then Ans.bad s
    else
      let s := s.updConn conn (fun c => { c with ovMode := mode, ovLo := lo, ovHi := hi, ovFix := fixed })
      Ans.ok (s.updConn conn (fun c => { c with cwnd := if mode = 0 then c.cwnd else s.clampWin c c.cwnd }))) s)

/-- A shaper entry is refused (R163). -/
def shpBad (e : BitVec 256) : Bool :=
  let burst (v : Nat) : Bool := decide (4176 ≤ v ∧ v ≤ 2 ^ 27)
  !(zeroFld e 255 194 && zeroFld e 63 0) || decide (shpPir e < shpCir e) || decide (102400000 < shpCir e) || decide (102400000 < shpPir e) ||
  (shpCir e != 0 && !burst (shpCbs e)) || (shpPir e != 0 && !burst (shpPbs e))

/-- SHP_WRITE: a shaper's basting entry (R163). -/
def execShpWrite (h : Issue) (shaper : Nat) (entry : BitVec 256) (s : State) : Out :=
  .next (vuino h 0x0410 [shaper, entry.toNat] (fun s => match Ranges.item (s.part h.part).shps shaper with
    | none => Ans.bad s
    | some n => if shpBad entry then Ans.bad s else Ans.ok (s.updShp n (fun x => { x with bast := entry }))) s)

/-- A shaper takes its basting entry: its buckets start empty, or full with SHP_RST_FULL (R164). -/
def ShpS.stitched (x : ShpS) (now : Nat) : ShpS :=
  let full := bitAt x.bast 193
  { x with
    act := x.bast
    tc := if full && shpCir x.bast != 0 then shpCbs x.bast * 8000 else 0
    tp := if full && shpPir x.bast != 0 then shpPbs x.bast * 8000 else 0
    atNs := now }

/-- SHP_STITCH: the named shapers take their basting entries together (R164). -/
def execShpStitch (h : Issue) (first count : Nat) (s : State) : Out :=
  .next (vuino h 0x0411 [first, count] (fun s =>
    let ns := (List.range' first (min count 4097)).map (fun i => Ranges.item (s.part h.part).shps i)
    if count = 0 || 4096 < count || ns.any (fun n => n.isNone) then Ans.bad s
    else Ans.ok (s.each (ns.filterMap id) (fun n t => t.updShp n (fun x => x.stitched s.clockNs)))) s)

/-- Packets a shaper holds now: head packets that it judges red. -/
def State.heldBy (s : State) (n : Nat) : Nat :=
  (s.conns.filter (fun e => s.shaperOf e.1 == some n && (match e.2.ready with
    | q :: _ => s.colour (some e.1) q.pkt == .red
    | [] => false))).length +
  ((s.tp.outq.flatMap (fun e => e.2)).filter (fun q => q.conn.bind s.shaperOf == some n && s.colour q.conn q.pkt == .red)).length

/-- SHP_QUERY: an entry, its buckets in bytes, its green and yellow bytes, and the packets it holds (R168). -/
def execShpQuery (h : Issue) (shaper copy : Nat) (s : State) : Out :=
  .next (vuino h 0x0412 [shaper, copy] (fun s => match Ranges.item (s.part h.part).shps shaper with
    | none => Ans.bad s
    | some n =>
      if 1 < copy then Ans.bad s
      else
        let x := s.shp n
        let y := x.filled s.clockNs
        let live := shpValid x.act
        Ans.ok s [blkItem 32 (if copy = 0 then x.act else x.bast).toNat, sc 8 (if live then y.tc / 8000 else 0),
          sc 8 (if live then y.tp / 8000 else 0), sc 8 x.green.toNat, sc 8 x.yellow.toNat, sc 8 (s.heldBy n)]) s)

/-- SCHED_WEIGHT_SET: a partition's basting weight (R167). -/
def execSchedWeightSet (h : Issue) (part w : Nat) (s : State) : Out :=
  .next (vuino h 0x0420 [part, w] (fun s =>
    if w = 0 || 64 ≤ part then Ans.bad s else Ans.ok (s.updPart part (fun p => { p with wBast := w }))) s)

/-- SCHED_STITCH: every weight takes its basting copy; finish tags and virtual times stay (R167). -/
def execSchedStitch (h : Issue) (s : State) : Out :=
  .next (vuino h 0x0421 [] (fun s => Ans.ok (s.each (List.range 64) (fun p t =>
    if (t.part p).wAct = (t.part p).wBast then t else t.updPart p (fun x => { x with wAct := x.wBast })))) s)

/-! ### Queue sampling (R169, R170) -/

/-- Bin of a depth. -/
def depthBin (d : Nat) : Nat := if d = 0 then 0 else if d < 512 then 1 else min 15 (Nat.log2 d - 7)
/-- Bin of a delay of a queue that is not empty. -/
def delayBin (t : Nat) : Nat := if t < 64 then 1 else min 15 (Nat.log2 t - 4)

/-- Packets of a sampled queue, oldest first. -/
def State.sampled (s : State) (n : Nat) : List QPkt :=
  if n < 128 then AMap.get s.tp.outq n []
  else (s.tp.outq.flatMap (fun e => e.2)).filter (fun q => q.src == 32 && q.part == n - 128)

/-- One sample of a histogram. -/
def Hist.add (x : Hist) (qs : List QPkt) (now : Nat) : Hist :=
  let d := (qs.map (fun q => q.pkt.size)).sum
  let t := (qs.map (fun q => now - q.atNs)).foldl max 0
  let b := if qs.isEmpty then 0 else delayBin t
  { depth := AMap.upd x.depth (depthBin d) 0 (satAdd · 1), delay := AMap.upd x.delay b 0 (satAdd · 1)
    samples := satAdd x.samples 1, maxDepth := max x.maxDepth d, maxDelay := max x.maxDelay (if qs.isEmpty then 0 else t) }

/-- QUEUE_SAMPLE: the 192 queues are sampled (R169). -/
def execQueueSample (s : State) : Out :=
  .next (s.each (List.range 192) (fun n t => t.updTp (fun x => { x with
    hist := AMap.upd x.hist n {} (fun y => y.add (s.sampled n) s.now.toNat) })))

/-- HIST_READ: a queue's histograms, cleared in the same step where asked (R170). -/
def execHistRead (h : Issue) (queue clear : Nat) (s : State) : Out :=
  .next (vuino h 0x0430 [queue, clear] (fun s =>
    if 191 < queue || 1 < clear then Ans.bad s
    else
      let x := AMap.get s.tp.hist queue {}
      let bins (m : AMap (BitVec 32)) : Items := (List.range 16).map (fun i => sc 4 (AMap.get m i 0).toNat)
      Ans.ok (if clear = 1 then s.updTp (fun t => { t with hist := AMap.erase t.hist queue }) else s)
        (bins x.depth ++ bins x.delay ++ [sc 8 x.samples.toNat, sc 8 x.maxDepth, sc 8 x.maxDelay])) s)

end Sys2Proof.Machine
end

