-- ==== Sys2Proof/Machine/Transfers.lean ====
section
/-!
DEFINITION. Transfers piece by piece (R57, R61, R77, R107, R247): copy descriptors, the reading and writing of pieces, and the
segment connections that carry a copy's remote pieces.
-/

namespace Sys2Proof.Machine

/-! ### Segment connections (R107) -/

/-- The partition's segment connection to a device. -/
def State.segConn? (s : State) (part dev : Nat) : Option Nat :=
  (s.conns.find? (fun e => e.2.seg && e.2.part == part && e.2.st == 2 && e.2.peerId.toNat == dev)).map Prod.fst

/-- The segment connection to a device, created from the partition's pool where there is none; the peer's connection, generation and
PSNs are not stated, and are free values (R107; assumption log 1). -/
def State.segConn (s : State) (part dev : Nat) : State × Option Nat :=
  match s.segConn? part dev with
  | some c => (s, some c)
  | none => match s.freeConn part with
    | none => (s, none)
    | some cid =>
      let a := s.freshVal
      let b := a.2.freshVal
      let s := b.2.bobbinRoom
      let c : ConnS := {
        part, st := 2, seg := true, blk := pack 256 [(191, 176, 0xFFFF), (159, 144, 0xFFFF)], peerId := BitVec.ofNat 16 dev
        peerConn := BitVec.ofNat 24 (fld a.1 23 0), peerGen := BitVec.ofNat 8 (fld a.1 31 24)
        psn := BitVec.ofNat 32 (fld b.1 31 0), c := BitVec.ofNat 32 (fld b.1 63 32) }
      let s := { s with conns := AMap.set s.conns cid { c with cwnd := s.clampWin c (1024 * fld (s.part part).ccAct 63 48) } }
      (s.touch cid, some cid)

/-- WKEY of messages under a segment: its key, or the window-less key of TARGET 2 (R49, R128). -/
def segKeyOf (e : BitVec 256) (fpa : Nat) : Nat := if fpaTarget fpa = 2 then 2 * 2 ^ 29 else segWkey e

/-- A message of a segment connection: OP, remote end, length, bytes where it writes, and the piece it carries. -/
def State.segSend (s : State) (cid op wkey roff len : Nat) (bs : Bytes) (x off : Nat) (extra : List Fld) : State :=
  let c := s.conn cid
  let d : Desc := pack 512 ([(383, 336, roff), (319, 288, wkey), (287, 256, len), (87, 64, cid), (23, 16, op)] ++ extra)
  let m : TxMsg := {
    msn := c.msn, op := BitVec.ofNat 8 op, d, q := noQueue, len, n := packetsOf len, buf := if bs.isEmpty then [] else [(0, bs)]
    piece := some (x, off) }
  (s.updConn cid (fun c => { c with msn := c.msn + 1, tx := c.tx ++ [m], idle := false })).pump cid

/-! ### Pieces -/

/-- A source that fails ends the message it feeds (R57, R77, R312), or is noted in the copy's status. -/
def State.sourceFailed (s : State) (id off st : Nat) : State :=
  match AMap.get? s.xfers id with
  | none => s
  | some x =>
    let msg (c m : Nat) : State :=
      let s := { s with xfers := AMap.keep s.xfers (fun _ y => match y.who with
        | .msg c' m' => !(c' == c && m' == m)
        | .chunk c' m' _ _ => !(c' == c && m' == m)
        | _ => true) }
      match (s.conn c).tx.find? (fun t => t.msn.toNat == m && !t.fin) with
      | some t => s.revokedMsg c t st
      | none => s
    match x.who with
    | .msg c m => msg c m
    | .chunk c m _ _ => msg c m
    | _ => s.updXfer id (fun y => y.noteStatus off st)

/-- Source bytes of a transfer reach its destination: memory of this adapter, the packets of a message, or a remote window. -/
def State.dataTo (s : State) (id off : Nat) (bs : Bytes) : State × Bool :=
  match AMap.get? s.xfers id with
  | none => (s, true)
  | some x =>
    match x.dst with
    | .pkt =>
      match x.who with
      | .msg c m => ((s.updMsg c (BitVec.ofNat 32 m) (fun t => { t with buf := AMap.set t.buf off bs })).pump c, true)
      | _ => (s, true)
    | .va seg _ fpa _ =>
      if fpaDev fpa != s.myId then
        let r := s.segConn x.part (fpaDev fpa)
        match r.2 with
        | none => (r.1.updXfer id (fun y => { y.noteStatus off 17 with stopped := true }), true)
        | some cid => (r.1.segSend cid 1 (segKeyOf (s.seg x.ctx seg) fpa) (fpaOff fpa + off) bs.length bs id off [], false)
      else
        let r := s.putEnd id off bs
        (r.1.updXfer id (fun y => y.noteStatus off r.2), true)
    | _ => ((s.putEnd id off bs).1, true)

/-- Bytes of a piece that was read elsewhere have arrived; the piece is accepted, and done unless a message now carries it on. -/
def State.pieceBytes (s : State) (id off : Nat) (bs : Bytes) : State :=
  let r := s.dataTo id off bs
  let s := r.1.pieceAccepted id
  if r.2 then s.pieceDone id off 0 else s

/-- A piece whose source could not be read is done, with this status. -/
def State.pieceLost (s : State) (id off st : Nat) : State := ((s.sourceFailed id off st).pieceAccepted id).pieceDone id off 0

/-- A piece read from a cluster memory: the lines with a double-bit error are not written, and such a read is recorded (R242). -/
def State.clusterPiece (s : State) (id off : Nat) (errs : WordErrs) (m : Memory) (cluster slot addr key n : Nat) : State :=
  let ps := clusterLines m key errs (n / 64 + 2) key n
  if ps.all (fun p => p.2.isSome) then s.pieceBytes id off (partsBytes ps)
  else
    let s := s.needleRec 4 cluster slot addr
    let whole : Bool := match AMap.get? s.xfers id with
      | some x => x.dst.remote s || x.dst == .pkt
      | none => true
    if whole then s.pieceLost id off 5
    else
      let s := s.eachOf ps (fun p t => match p.2 with
        | some bs => (t.dataTo id (off + (p.1 - key)) bs).1
        | none => t.sourceFailed id (off + (p.1 - key)) 5)
      (s.pieceAccepted id).pieceDone id off 0

/-- The raw VA and segment of an end, if it has one. -/
def XEnd.vaSeg : XEnd → Option (Nat × Nat × BitVec 16)
  | .va seg v _ e => some (seg, v, e)
  | _ => none

/-- The ends of a transfer that have VAs. -/
def Xfer.vas (x : Xfer) : List (Nat × Nat × BitVec 16) := [x.src.vaSeg, x.dst.vaSeg].filterMap id

/-- Length of the next piece: at most 4 KiB, cut at the 4 KiB boundaries of every VA (R57). -/
def Xfer.nextLen (x : Xfer) : Nat :=
  x.vas.foldl (fun k v => min k (4096 - (v.2.1 + x.done) % 4096)) (min 4096 (x.len - x.done))

/-- Host memory that the next piece needs is out of reach for the moment (R395, R397). -/
def State.hostHeld (s : State) (x : Xfer) : Bool :=
  let off := s.host.stopped || !(s.func x.part).busMaster
  (x.src.isHost s && (off || !s.host.up)) || (x.dst.isHost s && (off || (!s.host.up && s.host.holdFull)))

/-- The next piece of a transfer is issued: read here at once, asked of the host, or of a remote window. -/
def State.issuePiece (s : State) (id : Nat) (x : Xfer) (errs : WordErrs) : State :=
  let off := x.done
  let n := x.nextLen
  let s := s.updXfer id (fun y => { y with done := y.done + n, flying := y.flying + 1, unacc := y.unacc + 1 })
  let s := s.eachOf x.vas (fun v t => t.hotCount x.ctx v.1 (v.2.1 + off) n)
  match x.src with
  | .va seg _ fpa _ =>
    let e := s.seg x.ctx seg
    if fpaDev fpa != s.myId then
      let r := s.segConn x.part (fpaDev fpa)
      match r.2 with
      | none => (r.1.updXfer id (fun y => { y.noteStatus off 17 with stopped := true, unacc := y.unacc - 1 })).pieceDone id off 0
      | some cid => (r.1.segSend cid 3 (segKeyOf e fpa) (fpaOff fpa + off) n [] id off []).pieceAccepted id
    else if fpaTarget fpa = 1 then
      match (if segCoh e then s.cohBytes (fpaOff fpa + off) n false else none) with
      | some bs => s.pieceBytes id off bs
      | none => s.hostRead (.xfer id off n) x.part (fpaOff fpa + off) n (segCoh e) false
    else
      let a := fpaOff fpa + off
      let r := s.memRead a n errs
      let lost := r.2.2 != 0
      let whole := x.dst.remote s || x.dst == .pkt
      if lost && (whole || r.2.1.isEmpty) then r.1.pieceLost id off r.2.2
      else if !lost then r.1.pieceBytes id off (partsBytes r.2.1)
      else
        let s := r.1.eachOf r.2.1 (fun p t => match p.2 with
          | some bs => (t.dataTo id (off + (p.1 - a)) bs).1
          | none => t.sourceFailed id (off + (p.1 - a)) 5)
        (s.pieceAccepted id).pieceDone id off 0
  | .clus a => s.clusterPiece id off errs s.shared (x.eng / 2) 0 (a + off) (sharedKey (x.eng / 2) (a + off)) n
  | .loc m a =>
    let s := s.onIf (errs.any (fun e => cmemFlips e.2 == 1)) (fun t => t.countCe m)
    s.clusterPiece id off errs s.localM (m / 8) (m % 8) (a + off) (localKey m (a + off)) n
  | .pkt => s.pieceDone id off 0

/-- A transfer that waited under FENCE translates as it starts (R57, R414). -/
def State.xlateNow (s : State) (id : Nat) (x : Xfer) : State :=
  let tr (e : XEnd) : XEnd ⊕ Nat := match e with
    | .va _ v _ _ => match s.translate x.ctx v x.len with
      | .inl (k, f) => .inl (.va k v f (s.segEpoch x.ctx k))
      | .inr st => .inr st
    | y => .inl y
  match tr x.src, tr x.dst with
  | .inl a, .inl b =>
    let bad := a.remote s && b.remote s
    s.updXfer id (fun y => { y with
      src := a, dst := b, xlate := false, stopped := bad, status := if bad then 4 else y.status })
  | .inr st, _ => s.updXfer id (fun y => { y with xlate := false, stopped := true, status := BitVec.ofNat 8 st })
  | _, .inr st => s.updXfer id (fun y => { y with xlate := false, stopped := true, status := BitVec.ofNat 8 st })

/-- A transfer is among the 32 that its engine holds, and no FENCE keeps it back (R247, R414). -/
def State.xferTurn (s : State) (id : Nat) (x : Xfer) : Bool :=
  let ahead := s.xfers.filter (fun e => decide (e.1 < id) && e.2.eng == x.eng && !e.2.ended)
  let earlier := s.xfers.any (fun e => decide (e.1 < id) && e.2.who == x.who && !e.2.ended)
  (decide (128 ≤ x.eng) || decide (ahead.length < 32)) && !(x.fence && earlier)

/-- The next row of a CPY, once a row is issued whole (R294). -/
def State.nextRow (s : State) (id : Nat) : State :=
  s.updXfer id (fun x => match x.more with
    | (a, b) :: rest => if x.len ≤ x.done then { x with src := a, dst := b, more := rest, before := x.before + x.len, done := 0 } else x
    | [] => x)

/-- The engine of a transfer, the host DMA engine its host end needs, or the cluster whose memory it names, is isolated (R491, R492). -/
def State.xferCut (s : State) (x : Xfer) : Bool :=
  let clus (e : XEnd) : Bool := match e with
    | .clus _ => s.isolated 3 (x.eng / 2)
    | .loc m _ => s.isolated 3 (m / 8)
    | _ => false
  let eng : Bool := match x.who with
    | .msg c _ => s.isolated 2 (Config.engineOf c)
    | .chunk c _ _ _ => s.isolated 2 (Config.engineOf c)
    | _ => decide (x.eng < 128) && s.isolated 1 x.eng
  eng || clus x.src || clus x.dst || ((x.src.isHost s || x.dst.isHost s) && s.isolated 8 (Config.dmaOf x.part))

/-- A transfer whose engine fails it: MEM_UNCORRECTABLE (R492). -/
def State.xferFail (s : State) (id : Nat) : State :=
  match AMap.get? s.xfers id with
  | none => s
  | some x => match x.who with
    | .msg _ _ => s.sourceFailed id x.done 5
    | .chunk _ _ _ _ => s.sourceFailed id x.done 5
    | _ => (s.updXfer id (fun y => { y.noteStatus y.done 5 with stopped := true })).xferSettle id

/-- TRANSFER_PIECE: an engine compares the epochs of a transfer and issues its next piece, or ends it SEG_REVOKED (R57); a pair not in the
segment cache is fetched first (R61). -/
def execTransferPiece (xfer : Nat) (errs : WordErrs) (s : State) : Out :=
  .next (match AMap.get? s.xfers xfer with
    | none => s
    | some x =>
      if x.stopped || x.ended || x.missing || !s.xferTurn xfer x then s
      else
        let s := if x.xlate then s.xlateNow xfer x else s
        let s := s.nextRow xfer
        match AMap.get? s.xfers xfer with
        | none => s
        | some x =>
          let gone := x.vas.filter (fun v => !s.segCache.contains (x.ctx, v.1))
          if x.stopped || x.len ≤ x.done then s.xferSettle xfer
          else if s.xferCut x then s.xferFail xfer
          else if !gone.isEmpty then
            ({ s with segMiss := s.segMiss ++ ((gone.map (fun v => (x.ctx, v.1, xfer))).dedup) } : State).updXfer xfer
              (fun y => { y with missing := true })
          else if x.vas.any (fun v => s.segEpoch x.ctx v.1 != v.2.2) then
            match x.who with
            | .msg _ _ => s.sourceFailed xfer x.done 3
            | .chunk _ _ _ _ => s.sourceFailed xfer x.done 3
            | _ => (s.updXfer xfer (fun y => { y.noteStatus y.done 3 with stopped := true })).xferSettle xfer
          else if s.hostHeld x || (s.injHeld && decide (x.eng < 128)) then s
          else (s.eachOf x.vas (fun v t => t.segCached x.ctx v.1)).issuePiece xfer x errs)

/-! ### Copy descriptors (R414) -/

/-- A copy descriptor as fetched: malformed, or a transfer of its queue, at once ended where it fails. -/
def State.copyDesc (s : State) (p q slot : Nat) (d : Desc) : State :=
  let k := qkey p q
  if !s.queueKind p q 5 then s
  else if fld d 15 12 != 5 || fld d 11 8 != 0 || fld d 7 0 != 1 || fld d 23 16 != 1 ||
      !(zeroFld d 511 448 && zeroFld d 351 320 && zeroFld d 279 270 && zeroFld d 255 192 && zeroFld d 127 27 && zeroFld d 24 24)
    then s.malformed p q slot (fld d 63 0)
  else
    let r := s.takeId
    let s := r.2.updQueue k (fun u => { u with work := u.work ++ [r.1] })
    let id := s.takeId
    let s := id.2
    let u := s.queue k
    let sig := fld d 269 256
    let obj := if sig = 0x3FFF then none else Ranges.item (s.part p).syncs sig
    let len := fld d 319 280
    let x : Xfer := {
      who := .copyQ p q, eng := s.copyEngine ((s.part p).clusters.getD u.cluster 0), part := p, ctx := u.ctx
      src := .va 0 (fld d 447 400) 0 0, dst := .va 0 (fld d 399 352) 0 0, len, sync := obj, wrId := BitVec.ofNat 64 (fld d 191 128)
      noCqe := bitAt d 26, fence := bitAt d 25, work := r.1, xlate := true
      stopped := sig != 0x3FFF && obj.isNone, status := if sig != 0x3FFF && obj.isNone then 4 else 0 }
    let s := { s with xfers := AMap.set s.xfers id.1 x }
    let s := if x.stopped || !s.xferTurn id.1 x then s else s.xlateNow id.1 x
    match AMap.get? s.xfers id.1 with
    | some y => if y.xlate && !y.stopped then s else s.xferSettle id.1
    | none => s

/-- COPY (R414). -/
def execCopy (part q : Nat) (d : Desc) (s : State) : Out := .next (s.copyDesc part q (s.slotOf part q) d)

end Sys2Proof.Machine
end

