-- ==== Sys2Proof/Machine/Runs.lean ====
section
/-!
DEFINITION. Needle clusters and the runs on them (chapters 11 and 13): needles in service, loaded programs, the start and the end of
a run, repair by spares, and completions of compute queues in descriptor order.
-/

namespace Sys2Proof.Machine

/-! ### Clusters and needles (R237, R302) -/

/-- Cluster of a needle. -/
def clusterOf (n : Nat) : Nat := n / 8
/-- Slot of a needle in its cluster. -/
def needleSlot (n : Nat) : Nat := n % 8

/-- Needles in service of a cluster, in ascending slot order (R302). -/
def State.inService (s : State) (c : Nat) : Nats := ((List.range 8).filter (fun j => bitAt (s.clu c).present j)).map (8 * c + ·)

/-- The number j by which programs know a needle in service (R302). -/
def State.jOf (s : State) (n : Nat) : Nat := ((s.inService (clusterOf n)).takeWhile (fun m => m != n)).length

/-- The needle in service that programs of a cluster know as j. -/
def State.needleJ (s : State) (c j : Nat) : Option Nat := (s.inService c)[j]?

/-- Needles in service of a cluster that run nothing. -/
def State.freeNeedles (s : State) (c : Nat) : Nats := (s.inService c).filter (fun n => (s.needle n).run.isNone)

/-- The cluster is a path cluster: some binding of its partition names it (R302). -/
def State.isPath (s : State) (c : Nat) : Bool := s.binds.any (fun b => (s.bindClusters b.2).contains c)

/-- Some run uses the cluster. -/
def State.clusterBusy (s : State) (c : Nat) : Bool := s.runs.any (fun r => r.2.clusters.contains c)

/-- Failed slots of an idle cluster: repaired while spares last, otherwise lost (R266). The first argument bounds them. -/
def repairNext (c : Nat) : Nat → State → State
  | 0, s => s
  | n + 1, s =>
    let u := s.clu c
    match u.repair with
    | [] => if u.st = 4 then s.updClu c (fun u => { u with st := if u.owner.isSome then 2 else 0 }) else s
    | j :: rest =>
      if (s.die (c / 16)).spares != 0 then s.updClu c (fun u => { u with st := 4 })
      else repairNext c n ((s.updClu c (fun u => { u with repair := rest, lostSlots := u.lostSlots ++ [j] })).needleRec 3 c j 0)

/-- The state a cluster shows follows its runs, and an idle one goes to its repairs (R266, R267). -/
def State.clusterSettle (s : State) (c : Nat) : State :=
  let u := s.clu c
  if u.st = 1 || u.bist then s
  else if s.clusterBusy c then s.updClu c (fun u => { u with st := 3 })
  else repairNext c 9 (s.onIf (u.st == 3) (fun t => t.updClu c (fun u => { u with st := 2 })))

/-! ### Programs (R304, R306) -/

/-- The loaded program a handle names: index in bits [7:0], current generation in [15:8]. -/
def State.prog? (s : State) (part handle : Nat) : Option Prog :=
  let p := s.part part
  if AMap.get p.progGen (handle % 256) 1 = handle / 256 % 256 then AMap.get? p.progs (handle % 256) else none

/-- A program's record changed. -/
def State.updProg (s : State) (part handle : Nat) (f : Prog → Prog) : State :=
  s.updPart part (fun p => match AMap.get? p.progs (handle % 256) with
    | some g => { p with progs := AMap.set p.progs (handle % 256) (f g) }
    | none => p)

/-- The program of a run. -/
def State.runProg (s : State) (r : RunS) : Prog :=
  AMap.get (s.part r.part).progs (r.prog.toNat % 256) {}

/-! ### Starting and ending runs (R245, R301, R309) -/

/-- A needle begins a run: every register reads zero but the arguments; the PC is the program's entry. -/
def State.startNeedle (s : State) (n run pc : Nat) (args : List (Nat × Nat)) : State :=
  let regs := (args.filter (fun a => a.2 % 2 ^ 64 != 0)).map (fun a => (a.1, BitVec.ofNat 64 a.2))
  s.updNeedle n (fun x => { s := regs, pc := BitVec.ofNat 32 pc, st := 1, run := some run, ce := x.ce })

/-- A run begins on needles, its start counted in its program. -/
def State.addRun (s : State) (id : Nat) (r : RunS) : State :=
  let s := { s with runs := AMap.set s.runs id { r with startNs := s.now.toNat } }
  let s := s.updProg r.part r.prog.toNat (fun g => { g with runs := g.runs + 1 })
  s.each r.clusters (fun c t => t.clusterSettle c)

/-- A run's needles stop and it leaves; the slots it held by itself are free. -/
def State.dropRun (s : State) (id : Nat) : State :=
  match AMap.get? s.runs id with
  | none => s
  | some r =>
    let s := { s with
      runs := AMap.erase s.runs id
      needles := AMap.mapAll s.needles (fun _ n => if n.run == some id then { n with run := none, st := 0 } else n)
      binds := AMap.mapAll s.binds (fun _ b => { b with slots := AMap.keep b.slots (fun _ v => v != runMark id) }) }
    let s := { s with clus := AMap.mapAll s.clus (fun _ u => { u with
      sqs := AMap.mapAll u.sqs (fun _ q => { q with stalled := q.stalled.filter (fun n => !r.needles.contains n) }) }) }
    (s.each r.clusters (fun c t => t.clusterSettle c)).programsSettle

/-! ### Compute completions (R310, R347, R417, R418) -/

/-- Finished descriptors at the head of a compute queue are reported in descriptor order. The first argument bounds them. -/
def computeRetire (k : Nat) : Nat → State → State
  | 0, s => s
  | n + 1, s =>
    match (s.queue k).work with
    | [] => s
    | w :: rest =>
      match AMap.get? (s.queue k).done w with
      | none => s
      | some (e, host, lines, sig) =>
        let s := s.updQueue k (fun u => { u with work := rest, done := AMap.erase u.done w })
        let d : DataPath := if host != 0 then .flush (host - 1) else if lines.isEmpty then .none else .lines lines
        computeRetire k n (s.complete (qkey (qpart k) (s.queue k).cq) e d sig)

/-- A compute descriptor is done, with its completion entry, how that follows its data, and the object it raises. -/
def State.computeDone (s : State) (k work : Nat) (e : BitVec 256) (host : Nat) (lines : List (BitVec 64)) (sig : Option Nat) : State :=
  let s := s.updQueue k (fun u => { u with done := AMap.set u.done work (e, host, lines, sig) })
  computeRetire k ((s.queue k).work.length + 1) s

/-- A launch completion (R417). -/
def launchCqe (wrId pc code rank needle us q status : Nat) : BitVec 256 :=
  pack 256 [(255, 192, wrId), (191, 160, pc), (159, 152, code), (151, 146, rank), (145, 143, needle), (127, 96, min us (2 ^ 32 - 1)),
    (63, 48, q), (31, 24, status), fmt 4]

end Sys2Proof.Machine
end

