-- ==== Sys2Proof/Machine/Float.lean ====
section
/-!
DEFINITION. The exact arithmetic of the needle's number formats (R254, R257-R262): values as exact binary fractions, one rounding
for each result, conversions with their saturation, and MX blocks. Collectives use the same functions (R330).
-/

namespace Sys2Proof.Machine

/-! ### Formats (R257) -/

/-- A floating-point format. -/
structure FpFmt where
  /-- Exponent bits. -/
  eb : Nat
  /-- Mantissa bits. -/
  mb : Nat
  /-- Bias. -/
  bias : Nat
  /-- 0 with infinity and NaN, 1 with the NaN S.1111.111 only (E4M3), 2 with neither. -/
  kind : Nat
  /-- FP32, BF16 or FP16: overflow gives infinity, not the largest finite value (R261). -/
  wide : Bool
deriving DecidableEq, Repr

/-- FP32. -/
def fp32 : FpFmt := { eb := 8, mb := 23, bias := 127, kind := 0, wide := true }
/-- BF16. -/
def bf16 : FpFmt := { eb := 8, mb := 7, bias := 127, kind := 0, wide := true }
/-- FP16. -/
def fp16 : FpFmt := { eb := 5, mb := 10, bias := 15, kind := 0, wide := true }
/-- FP8 E4M3. -/
def e4m3 : FpFmt := { eb := 4, mb := 3, bias := 7, kind := 1, wide := false }
/-- FP8 E5M2. -/
def e5m2 : FpFmt := { eb := 5, mb := 2, bias := 15, kind := 0, wide := false }
/-- FP6 E3M2. -/
def e3m2 : FpFmt := { eb := 3, mb := 2, bias := 3, kind := 2, wide := false }
/-- FP6 E2M3. -/
def e2m3 : FpFmt := { eb := 2, mb := 3, bias := 1, kind := 2, wide := false }
/-- FP4 E2M1. -/
def e2m1 : FpFmt := { eb := 2, mb := 1, bias := 1, kind := 2, wide := false }

/-- Bits of an element. -/
def FpFmt.width (f : FpFmt) : Nat := 1 + f.eb + f.mb

/-- Mantissa, as an integer, and exponent of its unit, of the largest finite value. -/
def FpFmt.largest (f : FpFmt) : Nat × Int :=
  match f.kind with
  | 0 => (2 ^ (f.mb + 1) - 1, (2 ^ f.eb : Nat) - 2 - f.bias - f.mb)
  | 1 => (2 ^ (f.mb + 1) - 2, (2 ^ f.eb : Nat) - 1 - f.bias - f.mb)
  | _ => (2 ^ (f.mb + 1) - 1, (2 ^ f.eb : Nat) - 1 - f.bias - f.mb)

/-- The exponent of the largest binade (R262). -/
def FpFmt.topExp (f : FpFmt) : Int := f.largest.2 + f.mb

/-! ### Values -/

/-- A value: NaN, an infinity, or plus or minus m × 2^e. -/
inductive FVal where
  /-- NaN. -/
  | nan
  /-- Infinity. -/
  | inf (neg : Bool)
  /-- A finite value; zero keeps its sign. -/
  | fin (neg : Bool) (m : Nat) (e : Int)
deriving DecidableEq, Repr

/-- The value of an element's bits. -/
def FpFmt.decode (f : FpFmt) (bits : Nat) : FVal :=
  let neg := bits / 2 ^ (f.eb + f.mb) % 2 == 1
  let e := bits / 2 ^ f.mb % 2 ^ f.eb
  let m := bits % 2 ^ f.mb
  let top := 2 ^ f.eb - 1
  if f.kind = 0 && e = top then (if m = 0 then .inf neg else .nan)
  else if f.kind = 1 && e = top && m = 2 ^ f.mb - 1 then .nan
  else if e = 0 then .fin neg m (1 - f.bias - f.mb)
  else .fin neg (2 ^ f.mb + m) ((e : Int) - f.bias - f.mb)

/-- Two's complement of `w` bits. -/
def toSigned (w bits : Nat) : Int := if bits % 2 ^ w < 2 ^ (w - 1) then (bits % 2 ^ w : Nat) else (bits % 2 ^ w : Nat) - (2 ^ w : Nat)

/-- An integer wrapped to `w` bits. -/
def wrapTo (w : Nat) (v : Int) : Nat := (v % (2 ^ w : Nat)).toNat

/-- An integer does not fit in `w` bits. -/
def outOf (w : Nat) (v : Int) : Bool := decide (v < -(2 ^ (w - 1) : Nat)) || decide ((2 ^ (w - 1) : Nat) ≤ v)

/-- The value of an integer. -/
def FVal.ofInt (v : Int) : FVal := .fin (decide (v < 0)) v.natAbs 0

/-- Whether a value is NaN. -/
def FVal.isNan (v : FVal) : Bool := v == .nan

/-- Whether a value is infinite. -/
def FVal.isInf : FVal → Bool
  | .inf _ => true
  | _ => false

/-- Sign. -/
def FVal.neg : FVal → Bool
  | .nan => false
  | .inf n => n
  | .fin n _ _ => n

/-- The value with its sign turned. -/
def FVal.negate : FVal → FVal
  | .nan => .nan
  | .inf n => .inf (!n)
  | .fin n m e => .fin (!n) m e

/-- The value times 2^k. -/
def FVal.scale (v : FVal) (k : Int) : FVal :=
  match v with
  | .fin n m e => .fin n m (e + k)
  | w => w

/-- A finite value as an integer multiple of 2^e0, for an e0 not above its exponent. -/
def FVal.units (e0 : Int) : FVal → Int
  | .fin n m e => let u : Int := m * 2 ^ (e - e0).toNat; if n then -u else u
  | _ => 0

/-- The least exponent of the finite values of a list. -/
def minExp (vs : List FVal) : Int :=
  (vs.foldl (fun (a : Option Int) v => match v, a with
    | .fin _ _ e, some b => some (min e b)
    | .fin _ _ e, none => some e
    | _, a => a) none).getD 0

/-- An integer multiple of 2^e as a value; an exact zero has the sign given. -/
def FVal.ofUnits (u e : Int) (zero : Bool) : FVal := if u = 0 then .fin zero 0 e else .fin (decide (u < 0)) u.natAbs e

/-- The sign of an exact zero sum by IEEE 754 to nearest: negative where every term is. -/
def ieeeZero (signs : List Bool) : Bool := !signs.isEmpty && signs.all id

/-- The sign of an exact zero of the array's sums: the terms' own where they agree, a free value otherwise (assumption log 17). -/
def arrayZero (signs : List Bool) : Bool :=
  if signs.all id then true else if signs.all (fun b => !b) then false else Config.zeroSign signs

/-- The exact sum of values: NaN for a NaN or for infinities of both signs (R254). -/
def FVal.sum (zero : List Bool → Bool) (vs : List FVal) : FVal :=
  if vs.any FVal.isNan then .nan
  else if vs.contains (.inf true) && vs.contains (.inf false) then .nan
  else if vs.contains (.inf true) then .inf true
  else if vs.contains (.inf false) then .inf false
  else
    let e := minExp vs
    FVal.ofUnits ((vs.map (FVal.units e)).sum) e (zero (vs.map FVal.neg))

/-- The exact product: NaN for a NaN or infinity × 0. -/
def FVal.mul : FVal → FVal → FVal
  | .nan, _ => .nan
  | _, .nan => .nan
  | .inf a, .inf b => .inf (a != b)
  | .inf a, .fin b m _ => if m = 0 then .nan else .inf (a != b)
  | .fin a m _, .inf b => if m = 0 then .nan else .inf (a != b)
  | .fin a m e, .fin b n f => .fin (a != b) (m * n) (e + f)

/-- Order of two values that are not NaN; −0 equals +0. -/
def FVal.lt (a b : FVal) : Bool :=
  match a, b with
  | .nan, _ => false
  | _, .nan => false
  | .inf x, .inf y => x && !y
  | .inf x, _ => x
  | _, .inf y => !y
  | x, y => let e := minExp [x, y]; decide (x.units e < y.units e)

/-- Equality of two values that are not NaN. -/
def FVal.same (a b : FVal) : Bool := !a.isNan && !b.isNan && !a.lt b && !b.lt a

/-! ### Rounding (R260, R261) -/

/-- Rounding of one value. -/
inductive Rnd where
  /-- To nearest, ties to even. -/
  | rne
  /-- Towards zero. -/
  | rtz
  /-- Stochastic, with this 16-bit value. -/
  | rsr (r : Nat)
deriving DecidableEq, Repr

/-- NSTAT flags an operation sets (R246). -/
structure Flags where
  /-- INV. -/
  inv : Bool := false
  /-- OVF. -/
  ovf : Bool := false
  /-- SAT. -/
  sat : Bool := false
  /-- IOVF. -/
  iovf : Bool := false
deriving DecidableEq, Repr

/-- The flags of two operations. -/
def Flags.or (a b : Flags) : Flags := ⟨a.inv || b.inv, a.ovf || b.ovf, a.sat || b.sat, a.iovf || b.iovf⟩

/-- NSTAT with flags added. -/
def Flags.into (f : Flags) (n : BitVec 4) : BitVec 4 :=
  n ||| BitVec.ofNat 4 (b2n f.inv + 2 * b2n f.ovf + 4 * b2n f.sat + 8 * b2n f.iovf)

/-- A magnitude of `m` × 2^-s units, rounded to whole units. -/
def roundUnits (mode : Rnd) (m s : Nat) : Nat :=
  let q := m / 2 ^ s
  let r := m % 2 ^ s
  match mode with
  | .rtz => q
  | .rne => if 2 * r > 2 ^ s || (2 * r = 2 ^ s && q % 2 = 1) then q + 1 else q
  | .rsr k => (m * 2 ^ 16 + k * 2 ^ s) / 2 ^ (s + 16)

/-- A magnitude rounded to a format's precision, with no upper bound on the exponent: mantissa and exponent of its unit. -/
def FpFmt.roundMag (f : FpFmt) (mode : Rnd) (m : Nat) (e : Int) : Nat × Int :=
  if m = 0 then (0, 1 - f.bias - f.mb)
  else
    let u : Int := max (e + Nat.log2 m) (1 - f.bias) - f.mb
    if u ≤ e then (m * 2 ^ (e - u).toNat, u) else (roundUnits mode m (u - e).toNat, u)

/-- The bits of a rounded magnitude within the format. -/
def FpFmt.encode (f : FpFmt) (neg : Bool) (m : Nat) (u : Int) : Nat :=
  let s := b2n neg * 2 ^ (f.eb + f.mb)
  let (m, u) := if m = 2 ^ (f.mb + 1) then (2 ^ f.mb, u + 1) else (m, u)
  if m < 2 ^ f.mb then s + m else s + (u + f.mb + f.bias).toNat * 2 ^ f.mb + (m - 2 ^ f.mb)

/-- The canonical NaN of a format (R259, R261): 0x7F for FP8. -/
def FpFmt.nanBits (f : FpFmt) : Nat :=
  if f.wide then (2 ^ f.eb - 1) * 2 ^ f.mb + 2 ^ (f.mb - 1) else if f.kind = 2 then 0 else 0x7F

/-- The bits of an infinity. -/
def FpFmt.infBits (f : FpFmt) (neg : Bool) : Nat := b2n neg * 2 ^ (f.eb + f.mb) + (2 ^ f.eb - 1) * 2 ^ f.mb

/-- The bits of the largest finite value. -/
def FpFmt.maxBits (f : FpFmt) (neg : Bool) : Nat := f.encode neg f.largest.1 f.largest.2

/-- A magnitude is beyond the largest finite value. -/
def FpFmt.beyond (f : FpFmt) (m : Nat) (e : Int) : Bool :=
  let top := f.largest
  let e0 := min e top.2
  decide (top.1 * 2 ^ (top.2 - e0).toNat < m * 2 ^ (e - e0).toNat)

/-- A value converted to a format under a rounding mode, with the saturation of R261: a magnitude beyond the largest finite value
saturates, before any rounding, as the worked example of R262 shows. -/
def FpFmt.convert (f : FpFmt) (mode : Rnd) (v : FVal) : Nat × Flags :=
  match v with
  | .nan => (f.nanBits, { sat := f.kind == 2 })
  | .inf n => if f.wide && mode != .rtz then (f.infBits n, {}) else (f.maxBits n, { sat := true })
  | .fin n m e =>
    if f.beyond m e then
      if f.wide && mode != .rtz then (f.infBits n, { ovf := true }) else (f.maxBits n, { sat := true })
    else let r := f.roundMag mode m e; (f.encode n r.1 r.2, {})

/-- The result of an arithmetic operation in a format: rounded once to nearest even, infinity with OVF where that is beyond the
format's range, INV where a NaN came of operands that held none (R246, R254, R259). -/
def FpFmt.arith (f : FpFmt) (ops : List FVal) (v : FVal) : Nat × Flags :=
  match v with
  | .nan => (f.nanBits, { inv := !(ops.any FVal.isNan) })
  | .inf n => (f.infBits n, {})
  | .fin n m e =>
    let r := f.roundMag .rne m e
    if f.beyond r.1 r.2 then (f.infBits n, { ovf := true }) else (f.encode n r.1 r.2, {})

/-- A value rounded to an integer of `w` bits with saturation: a NaN gives 0 (R261, R293). -/
def toIntSat (w : Nat) (mode : Rnd) (v : FVal) : Nat × Flags :=
  let top (n : Bool) : Nat := if n then 2 ^ (w - 1) else 2 ^ (w - 1) - 1
  match v with
  | .nan => (0, {})
  | .inf n => (top n, { sat := true })
  | .fin n m e =>
    let q := if 0 ≤ e then m * 2 ^ e.toNat else roundUnits mode m (-e).toNat
    let z : Int := if n then -q else q
    if outOf w z then (top n, { sat := true }) else (wrapTo w z, {})

/-! ### The generator (R260) -/

/-- One advance of the xorshift generator: shifts 13, 17, 5. -/
def xorshift (x : BitVec 32) : BitVec 32 :=
  let x := x ^^^ (x <<< 13)
  let x := x ^^^ (x >>> 17)
  x ^^^ (x <<< 5)

/-- Roundings of `n` elements in MODE 0 RNE, 1 RTZ, 2 RSR, and the generator after them. -/
def roundings : Nat → Nat → BitVec 32 → List Rnd × BitVec 32
  | 0, _, x => ([], x)
  | n + 1, mode, x =>
    if mode = 2 then
      let x := xorshift x
      let r := roundings n mode x
      (.rsr (x.toNat % 2 ^ 16) :: r.1, r.2)
    else
      let r := roundings n mode x
      ((if mode = 1 then .rtz else .rne) :: r.1, r.2)

/-! ### Elements of registers -/

/-- `n` elements of `w` bits, from the lowest bits of a number up. -/
def elemsOf (w n bits : Nat) : Nats := (List.range n).map (fun i => bits / 2 ^ (w * i) % 2 ^ w)

/-- The number whose `w`-bit elements, lowest first, are these. -/
def ofElems (w : Nat) (xs : Nats) : Nat := xs.foldr (fun x a => x % 2 ^ w + 2 ^ w * a) 0

/-! ### MX blocks (R258, R262) -/

/-- The magnitudes' largest exponent ⌊log₂ amax⌋, none where every value is zero. -/
def amaxExp (vs : List FVal) : Option Int :=
  vs.foldl (fun (a : Option Int) v => match v with
    | .fin _ m e => if m = 0 then a else some (match a with | some b => max b (e + Nat.log2 m) | none => e + Nat.log2 m)
    | _ => a) none

/-- A block: scale byte, elements and flags (R262). -/
def toMx (f : FpFmt) (rs : List Rnd) (vs : List FVal) : Nat × Nats × Flags :=
  if vs.any (fun v => v.isNan || v.isInf) then (0xFF, vs.map (fun _ => 0), {})
  else match amaxExp vs with
    | none => (0, vs.map (fun _ => 0), {})
    | some a =>
      let raw : Int := a - f.topExp + 127
      let x : Int := max 0 (min 254 raw)
      let es := (List.zip vs rs).map (fun p => f.convert p.2 (p.1.scale (127 - x)))
      (x.toNat, es.map Prod.fst, (es.map Prod.snd).foldl Flags.or { sat := x != raw })

/-- An element of a block with its scale, exactly. -/
def mxVal (f : FpFmt) (x bits : Nat) : FVal := if x = 0xFF then .nan else (f.decode bits).scale ((x : Int) - 127)

/-- What remains of a value beside its dequantised result, in FP32 (R262). -/
def residual (v deq : FVal) : Nat × Flags := fp32.arith [v, deq] (FVal.sum ieeeZero [v, deq.negate])

/-- Residuals of a block. -/
def mxResiduals (f : FpFmt) (x : Nat) (vs : List FVal) (es : Nats) : List (Nat × Flags) :=
  (List.zip vs es).map (fun p => residual p.1 (fp32.decode (fp32.arith [] (mxVal f x p.2)).1))

/-- Format by its code in R292, for the floating-point codes. -/
def fmtOf (code : Nat) : FpFmt :=
  match code with
  | 0 => fp32 | 1 => bf16 | 2 => fp16 | 3 => e4m3 | 4 => e5m2 | 5 => e3m2 | 6 => e2m3 | _ => e2m1

/-- Bits of an element by its code in R292. -/
def codeWidth (code : Nat) : Nat := if code = 8 then 8 else if code = 9 then 32 else (fmtOf code).width

end Sys2Proof.Machine
end

