-- ==== Sys2Proof/Machine/Trees.lean ====
section
/-!
DEFINITION. What a collective computes without moving anything (chapter 14): the fields of its slot block and descriptor, its trees
and chunks, who sends what to whom, the wire formats, and its packets' layout and digests.
-/

namespace Sys2Proof.Machine

/-! ### The slot block (R321) -/

/-- A slot block. -/
abbrev CBlk := BitVec 512

/-- GROUP_TAG. -/
def cbTag (b : CBlk) : Nat := fld b 511 480
/-- DEADLINE_MS. -/
def cbDeadline (b : CBlk) : Nat := fld b 479 464
/-- MGROUP. -/
def cbMgroup (b : CBlk) : Nat := fld b 463 448
/-- MEMBERS_VA. -/
def cbMembers (b : CBlk) : Nat := fld b 447 400
/-- WORK_VA. -/
def cbWork (b : CBlk) : Nat := fld b 399 352
/-- RESID_VA. -/
def cbResid (b : CBlk) : Nat := fld b 351 304
/-- WORK_LEN. -/
def cbWorkLen (b : CBlk) : Nat := fld b 303 256
/-- SIG_OBJ. -/
def cbSig (b : CBlk) : Nat := fld b 255 242
/-- The object that a collective of a block raises: 0x3FFF names none, whatever the allotment (R321, R351). -/
def State.sigObj (s : State) (p : Nat) (b : CBlk) : Option Nat :=
  if cbSig b = 0x3FFF then none else Ranges.item (s.part p).syncs (cbSig b)
/-- N. -/
def cbN (b : CBlk) : Nat := fld b 239 227 + 1
/-- RANK. -/
def cbRank (b : CBlk) : Nat := fld b 226 214
/-- ROOT. -/
def cbRoot (b : CBlk) : Nat := fld b 213 201
/-- IN_BASE. -/
def cbInBase (b : CBlk) : Nat := fld b 159 128
/-- OP. -/
def cbOp (b : CBlk) : Nat := fld b 127 124
/-- ELEM. -/
def cbElem (b : CBlk) : Nat := fld b 123 120
/-- WIRE. -/
def cbWire (b : CBlk) : Nat := fld b 119 116
/-- EF. -/
def cbEf (b : CBlk) : Bool := bitAt b 115
/-- BOOKED. -/
def cbBooked (b : CBlk) : Bool := bitAt b 114
/-- MCAST. -/
def cbMcast (b : CBlk) : Bool := bitAt b 113
/-- HOOKS RESULT. -/
def cbHookResult (b : CBlk) : Bool := bitAt b 112
/-- HOOKS CONTRIB. -/
def cbHookContrib (b : CBlk) : Bool := bitAt b 111
/-- DEPTH. -/
def cbDepth (b : CBlk) : Nat := fld b 110 102
/-- CHUNK_LOG2. -/
def cbLog (b : CBlk) : Nat := fld b 101 97
/-- E, elements of a full chunk. -/
def cbE (b : CBlk) : Nat := 2 ^ cbLog b
/-- A reserved bit is set. -/
def cbReserved (b : CBlk) : Bool := !(zeroFld b 241 240 && zeroFld b 200 160 && zeroFld b 96 0)
/-- The operation sums (R320). -/
def cbSums (b : CBlk) : Bool := decide (1 ≤ cbOp b ∧ cbOp b ≤ 3)

/-- COUNT of a COLL_START (R340). -/
def cdCount (d : Desc) : Nat := fld d 447 408

/-! ### The two trees (R325) -/

/-- The lowest set bit of a position. -/
def lowBit (p : Nat) : Nat := p - (p &&& (p - 1))

/-- The parent's position; the first argument bounds the search. -/
def parentPos (n : Nat) : Nat → Nat → Nat
  | 0, p => p
  | f + 1, p =>
    let q := if p / (2 * lowBit p) % 2 = 0 then p + lowBit p else p - lowBit p
    if n < q then parentPos n f q else q

/-- A child's position brought within the members; the first argument bounds the search. -/
def childPos (n : Nat) : Nat → Nat → Nat
  | 0, c => c
  | f + 1, c => if n < c ∧ 1 < lowBit c then childPos n f (c - lowBit c / 2) else c

/-- Children's positions. -/
def childrenPos (n p : Nat) : Nats :=
  if lowBit p ≤ 1 then [] else ([p - lowBit p / 2, p + lowBit p / 2].map (childPos n 16)).filter (fun c => decide (c ≤ n))

/-- Position of a rank in a tree. -/
def posOf (n t r : Nat) : Nat := if t = 0 then r + 1 else (r + 1) % n + 1
/-- Rank at a position of a tree. -/
def rankAt (n t p : Nat) : Nat := if t = 0 then p - 1 else (p + n - 2) % n
/-- The tree root's position. -/
def rootPos (n : Nat) : Nat := 2 ^ Nat.log2 n

/-- The tree root of tree `t`. -/
def treeRoot (b : CBlk) (t : Nat) : Nat := rankAt (cbN b) t (rootPos (cbN b))

/-- The parent of a rank in a tree, none at the root. -/
def parentOf (b : CBlk) (t r : Nat) : Option Nat :=
  let n := cbN b
  if posOf n t r = rootPos n then none else some (rankAt n t (parentPos n 16 (posOf n t r)))

/-- The children of a rank in a tree. -/
def kidsOf (b : CBlk) (t r : Nat) : Nats := let n := cbN b; (childrenPos n (posOf n t r)).map (rankAt n t)

/-- Rank `r` is `q` or lies above it in tree `t`. The first argument bounds the climb. -/
def above (b : CBlk) (t r : Nat) : Nat → Nat → Bool
  | 0, q => r == q
  | f + 1, q => r == q || (match parentOf b t q with | some u => above b t r f u | none => false)

/-- Rank `q` is in the subtree of rank `r`. -/
def inSubtree (b : CBlk) (t r q : Nat) : Bool := above b t r 16 q

/-! ### Chunks (R326, R328) -/

/-- Elements of one block of chunks. -/
def blockElems (b : CBlk) (d : Desc) : Nat := if cbOp b = 3 then cdCount d / cbN b else cdCount d
/-- Chunks of one block, c. -/
def blockChunks (b : CBlk) (d : Desc) : Nat := (blockElems b d + cbE b - 1) / cbE b
/-- Chunks C. -/
def chunkCount (b : CBlk) (d : Desc) : Nat :=
  if cbOp b = 6 then 0 else if cbOp b = 3 || cbOp b = 4 then cbN b * blockChunks b d else blockChunks b d
/-- The share or the member a chunk belongs to. -/
def chunkBlock (b : CBlk) (d : Desc) (k : Nat) : Nat := k / blockChunks b d
/-- The part of its block that a chunk is. -/
def chunkPart (b : CBlk) (d : Desc) (k : Nat) : Nat := if cbOp b = 3 || cbOp b = 4 then k % blockChunks b d else k
/-- Elements of a chunk. -/
def chunkElems (b : CBlk) (d : Desc) (k : Nat) : Nat := min (cbE b) (blockElems b d - chunkPart b d k * cbE b)
/-- Chunks of a tree, ascending. -/
def treeChunks (b : CBlk) (d : Desc) (t : Nat) : Nats := (List.range (chunkCount b d)).filter (fun k => k % 2 == t)
/-- Element of SRC at which a member's contribution to a chunk begins. -/
def srcElem (b : CBlk) (d : Desc) (k : Nat) : Nat :=
  chunkPart b d k * cbE b + (if cbOp b = 3 then chunkBlock b d k * blockElems b d else 0)
/-- Element of DST at which a result chunk begins. -/
def dstElem (b : CBlk) (d : Desc) (k : Nat) : Nat :=
  chunkPart b d k * cbE b + (if cbOp b = 4 then chunkBlock b d k * cdCount d else 0)

/-- The origin of a tree. -/
def originOf (b : CBlk) (t : Nat) : Nat := if cbOp b = 5 then cbRoot b else treeRoot b t

/-- A member contributes to a chunk. -/
def contributes (b : CBlk) (d : Desc) (r k : Nat) : Bool :=
  if cbSums b then true else if cbOp b = 4 then chunkBlock b d k == r else cbOp b == 5 && r == cbRoot b

/-- The one member to whom a tree root forwards a result chunk with acknowledgments (REDUCE, REDUCE_SCATTER; R334). -/
def directTo (b : CBlk) (d : Desc) (k : Nat) : Option Nat :=
  if cbOp b = 1 then some (cbRoot b) else if cbOp b = 3 then some (chunkBlock b d k) else none

/-- The member that sends rank `r` result chunk `k`. -/
def sourceOf (b : CBlk) (d : Desc) (r k : Nat) : Option Nat :=
  let t := k % 2
  let root := treeRoot b t
  match directTo b d k with
  | some q => if r = q && r != root then some root else none
  | none => if r = root then (if cbOp b = 5 && cbRoot b != root then some (cbRoot b) else none) else parentOf b t r

/-- The members to which rank `r` sends result chunk `k`. -/
def recipientsOf (b : CBlk) (d : Desc) (r k : Nat) : Nats :=
  let t := k % 2
  let root := treeRoot b t
  match directTo b d k with
  | some q => if r = root && q != root then [q] else []
  | none => (if cbOp b = 5 && r == cbRoot b && r != root then [root] else []) ++ kidsOf b t r

/-- A member is owed a result chunk (R320). -/
def owed (b : CBlk) (d : Desc) (r k : Nat) : Bool :=
  match directTo b d k with
  | some q => r == q
  | none => cbOp b != 5 || r != cbRoot b

/-- The members that send rank `r` result chunks. -/
def sourcesOf (b : CBlk) (d : Desc) (r : Nat) : Nats := ((List.range (chunkCount b d)).filterMap (sourceOf b d r)).dedup
/-- The members to which rank `r` sends result chunks. -/
def sinksOf (b : CBlk) (d : Desc) (r : Nat) : Nats := ((List.range (chunkCount b d)).flatMap (recipientsOf b d r)).dedup

/-- Parents and children of a rank in both trees, and its sources and recipients (R346). -/
def neighboursOf (b : CBlk) (d : Desc) (r : Nat) : Nats :=
  (((([0, 1].filterMap (fun t => parentOf b t r)) ++ [0, 1].flatMap (fun t => kidsOf b t r)) ++
    sourcesOf b d r ++ sinksOf b d r).dedup).filter (fun q => q != r)

/-- Chunks that pass up from rank `r` in a tree. -/
def upChunks (b : CBlk) (d : Desc) (t r : Nat) : Nats :=
  (treeChunks b d t).filter (fun k => cbSums b || (cbOp b == 4 && inSubtree b t r (chunkBlock b d k)))

/-- Chunks that go under the acknowledgments of R334 from one member to another: up, or direct from a tree root. -/
def edgeChunks (b : CBlk) (d : Desc) (t sender dst : Nat) : Nats :=
  if parentOf b t sender = some dst then upChunks b d t sender else (treeChunks b d t).filter (fun k => directTo b d k == some dst)

/-- The chunk up to which a sender may send, `freed` of the edge's chunks being free again (R334). -/
def limitAfter (b : CBlk) (ks : Nats) (freed : Nat) : Nat := ks.getD (min (freed + cbDepth b - 1) (ks.length - 1)) 0

/-! ### Wire formats (R329, R330) -/

/-- Bytes of an element in memory. -/
def elemSize (e : Nat) : Nat := if e = 1 then 2 else if e = 2 then 1 else 4
/-- The result element. -/
def resultElem (b : CBlk) : Nat := if cbWire b = 3 then 3 else cbElem b
/-- MX wire formats. -/
def wireMx (w : Nat) : Bool := decide (4 ≤ w)
/-- Element format of an MX wire format. -/
def wireFmt (w : Nat) : FpFmt := match w with | 4 => e4m3 | 5 => e5m2 | 6 => e3m2 | 7 => e2m3 | _ => e2m1
/-- Bytes of an MX block: its scale byte and 32 packed elements. -/
def mxBytes (w : Nat) : Nat := 1 + 4 * (wireFmt w).width
/-- Wire bytes of `n` elements. -/
def wireBytes (w n : Nat) : Nat := match w with | 0 => 4 * n | 1 => 2 * n | 2 => n | 3 => 4 * n | _ => n / 32 * mxBytes w
/-- Bytes a packet carries. -/
def wirePer (w : Nat) : Nat := if wireMx w then 4096 / mxBytes w * mxBytes w else 4096
/-- The largest CHUNK_LOG2. -/
def wireMaxLog (w : Nat) : Nat := match w with | 0 => 16 | 1 => 17 | 2 => 18 | 3 => 16 | 4 => 17 | 5 => 17 | _ => 18
/-- WIRE and ELEM go together (R329). -/
def wirePair (sums : Bool) (w e : Nat) : Bool :=
  if sums then (match w with | 2 => false | 3 => e == 2 || e == 3 | _ => decide (w ≤ 8) && (e == 0 || e == 1))
  else decide (w ≤ 3) && w == e
/-- Packets of a chunk. -/
def chunkPkts (b : CBlk) (d : Desc) (k : Nat) : Nat :=
  max 1 ((wireBytes (cbWire b) (chunkElems b d k) + wirePer (cbWire b) - 1) / wirePer (cbWire b))
/-- Payload bytes of a packet of a chunk. -/
def pktBytes (b : CBlk) (d : Desc) (k i : Nat) : Nat :=
  min (wirePer (cbWire b)) (wireBytes (cbWire b) (chunkElems b d k) - i * wirePer (cbWire b))
/-- W, wire bytes of a full chunk. -/
def fullWire (b : CBlk) : Nat := wireBytes (cbWire b) (cbE b)

/-- Values of `size` bytes each, least significant byte first. -/
def readElems (size : Nat) : Nat → Bytes → Nats
  | 0, _ => []
  | n + 1, bs => natLE (bs.take size) :: readElems size n (bs.drop size)

/-- A contribution in the accumulator's form: FP32, or INT32 for integer formats, exactly. -/
def toAcc (e n : Nat) (bs : Bytes) : List (BitVec 32) :=
  (readElems (elemSize e) n bs).map (fun x => BitVec.ofNat 32 (match e with
    | 1 => x * 65536
    | 2 => wrapTo 32 (toSigned 8 x)
    | _ => x))

/-- One add into the accumulator: FP32 to nearest even, INT32 modulo 2^32. -/
def accAdd (wire : Nat) (a x : BitVec 32) : BitVec 32 :=
  if wire = 2 || wire = 3 then a + x
  else let u := fp32.decode a.toNat; let v := fp32.decode x.toNat; BitVec.ofNat 32 (fp32.arith [u, v] (FVal.sum arrayZero [u, v])).1

/-- The accumulator converted to WIRE: its bytes, and the residual of each element (R330). The first argument bounds the blocks. -/
def toWireMx (f : FpFmt) : Nat → List (BitVec 32) → Bytes × Nats
  | 0, _ => ([], [])
  | n + 1, xs =>
    if xs.isEmpty then ([], [])
    else
      let vs := (xs.take 32).map (fun x => fp32.decode x.toNat)
      let m := toMx f (List.replicate 32 .rne) vs
      let rest := toWireMx f n (xs.drop 32)
      (bytesLE 1 m.1 ++ bytesLE (4 * f.width) (ofElems f.width m.2.1) ++ rest.1, (mxResiduals f m.1 vs m.2.1).map Prod.fst ++ rest.2)

/-- The accumulator converted to WIRE, with residuals. -/
def toWire (w : Nat) (xs : List (BitVec 32)) : Bytes × Nats :=
  match w with
  | 0 => (xs.flatMap (fun x => bytesLE 4 x.toNat), xs.map (fun _ => 0))
  | 1 =>
    let es := xs.map (fun x => (bf16.convert .rne (fp32.decode x.toNat)).1)
    (es.flatMap (bytesLE 2), (List.zip xs es).map (fun p => (residual (fp32.decode p.1.toNat) (bf16.decode p.2)).1))
  | 2 => (xs.flatMap (fun x => bytesLE 1 x.toNat), xs.map (fun _ => 0))
  | 3 => (xs.flatMap (fun x => bytesLE 4 x.toNat), xs.map (fun _ => 0))
  | _ => toWireMx (wireFmt w) xs.length xs

/-- MX blocks expanded to FP32. The first argument counts the blocks. -/
def fromMx (w : Nat) : Nat → Bytes → List (BitVec 32)
  | 0, _ => []
  | n + 1, bs =>
    let f := wireFmt w
    let x := natLE (bs.take 1)
    let es := elemsOf f.width 32 (natLE ((bs.drop 1).take (4 * f.width)))
    es.map (fun e => BitVec.ofNat 32 (fp32.arith [.nan] (mxVal f x e)).1) ++ fromMx w n (bs.drop (mxBytes w))

/-- A wire chunk of `n` elements expanded to FP32 or INT32. -/
def fromWire (w n : Nat) (bs : Bytes) : List (BitVec 32) :=
  match w with
  | 0 => toAcc 0 n bs
  | 1 => toAcc 1 n bs
  | 2 => toAcc 2 n bs
  | 3 => toAcc 3 n bs
  | _ => fromMx w (n / 32) bs

/-- Values in the accumulator's form converted to the result element. -/
def toElems (e : Nat) (xs : List (BitVec 32)) : Bytes :=
  xs.flatMap (fun x => match e with
    | 1 => bytesLE 2 (bf16.convert .rne (fp32.decode x.toNat)).1
    | _ => bytesLE (elemSize e) x.toNat)

/-! ### Packets (R331-R333) -/

/-- Fields of a collective packet. -/
structure CHead where
  /-- CTYPE. -/
  ctype : Nat
  /-- TREE. -/
  tree : Nat := 0
  /-- CHUNK. -/
  chunk : Nat := 0
  /-- PKT. -/
  pkt : Nat := 0
  /-- PKT_COUNT. -/
  count : Nat := 0
  /-- STATUS. -/
  status : Nat := 0
  /-- LIMIT. -/
  limit : Nat := 0
  /-- DIGEST. -/
  digest : BitVec 64 := 0
  /-- Payload. -/
  payload : Bytes := []

/-- The collective header. -/
def CHead.bits (h : CHead) (dslot : Nat) (b : CBlk) (seq : BitVec 32) : BitVec 512 :=
  pack 512 [(255, 248, h.ctype), (247, 247, h.tree), (246, 241, dslot), (239, 208, cbTag b), (207, 176, seq.toNat),
    (175, 163, cbRank b), (159, 136, h.chunk), (135, 128, h.pkt), (127, 120, h.count), (119, 112, h.status), (111, 88, h.limit),
    (63, 0, h.digest.toNat)]

/-- TREE of a packet. -/
def ctTree (p : Pkt) : Nat := fld p.hdr 247 247
/-- DSLOT. -/
def ctSlot (p : Pkt) : Nat := fld p.hdr 246 241
/-- SEQ. -/
def ctSeq (p : Pkt) : BitVec 32 := BitVec.ofNat 32 (fld p.hdr 207 176)
/-- SRC_RANK. -/
def ctRank (p : Pkt) : Nat := fld p.hdr 175 163
/-- CHUNK. -/
def ctChunk (p : Pkt) : Nat := fld p.hdr 159 136
/-- PKT. -/
def ctPkt (p : Pkt) : Nat := fld p.hdr 135 128
/-- PKT_COUNT. -/
def ctCount (p : Pkt) : Nat := fld p.hdr 127 120
/-- DIGEST. -/
def ctDigest (p : Pkt) : BitVec 64 := BitVec.ofNat 64 (fld p.hdr 63 0)

/-- The 8-byte payload word of a control packet. -/
def ctWord (p : Pkt) : Nat := natBE (p.payload.take 8)

/-- PARAM_DIGEST (R333). -/
def paramDigest (b : CBlk) (d : Desc) (seq : BitVec 32) (table : List (BitVec 32)) : BitVec 64 :=
  let w0 : BitVec 64 := pack 64 [(63, 32, cbTag b), (31, 28, cbOp b), (27, 24, cbElem b), (23, 20, cbWire b), (19, 15, cbLog b),
    (14, 14, b2n (cbMcast b)), (13, 13, b2n (cbBooked b)), (12, 0, cbN b - 1)]
  let w1 : BitVec 64 := pack 64 [(63, 24, cdCount d), (23, 11, cbRoot b)]
  let w2 : BitVec 64 := pack 64 [(63, 32, seq.toNat)]
  crc64 (bytesBE 8 w0.toNat ++ bytesBE 8 w1.toNat ++ bytesBE 8 w2.toNat ++ table.flatMap (fun e => bytesLE 4 e.toNat))

/-- The digest of digests of a SEAL (R337). -/
def digestOfDigests (ds : List (BitVec 64)) : BitVec 64 := if ds.isEmpty then 0 else crc64 (ds.flatMap (fun x => bytesBE 8 x.toNat))

end Sys2Proof.Machine
end

