-- ==== Sys2Proof/Machine/Colls.lean ====
section
/-!
DEFINITION. Collectives in motion (chapter 14): the memory a slot reaches, its packets, contributions and sums, result chunks and
seals, completion, aborts, and the start of a COLL_START at the head of its queue.
-/

namespace Sys2Proof.Machine

/-! ### One slot -/

/-- Key of a slot's binding. -/
def collKey (k : Nat) : Nat := 2 * 2 ^ 32 + k
/-- The partition that holds a slot. -/
def State.collOwner (s : State) (k : Nat) : Nat := ((s.parts.find? (fun e => Ranges.has e.2.colls k)).map Prod.fst).getD 0
/-- The context of a slot's binding (R319). -/
def State.collCtx (s : State) (k : Nat) : Nat := match AMap.get? s.binds (collKey k) with
  | some b => fld b.blk 31 20
  | none => 0
/-- The descriptor of the collective in progress. -/
def CollS.desc (c : CollS) : Desc := match c.run with
  | some r => r.d
  | none => 0
/-- The collective in progress changed. -/
def State.updCrun (s : State) (k : Nat) (f : CollRun → CollRun) : State := s.updColl k (fun c => { c with run := c.run.map f })
/-- A chunk of the collective in progress. -/
def CollS.chunk (c : CollS) (n : Nat) : CChunk := match c.run with
  | some r => AMap.get r.chunks n {}
  | none => {}
/-- A chunk changed. -/
def State.updChunk (s : State) (k n : Nat) (f : CChunk → CChunk) : State :=
  s.updCrun k (fun r => { r with chunks := AMap.upd r.chunks n {} f })

/-! ### Memory of a slot -/

/-- `n` bytes at a VA of the slot's context (R319). -/
def State.collRead (s : State) (k va n : Nat) (errs : WordErrs) (data : Bytes) (rd : ReadEnd) : State × (Bytes ⊕ Nat) :=
  s.ctxRead (s.collOwner k) (s.collCtx k) va n errs data rd

/-- Bytes written at a VA of the slot's context: status, and how a report must follow them. -/
def State.collWrite (s : State) (k va : Nat) (bs : Bytes) : State × Nat × DataPath :=
  match s.translate (s.collCtx k) va bs.length with
  | .inr st => (s, st, .none)
  | .inl (seg, fpa) =>
    if fpaDev fpa != s.myId then (s, 4, .none)
    else
      let q := match (s.coll k).run with | some r => r.q | none => noQueue
      s.putLocal (s.collOwner k) (s.collCtx k) seg (qkey (qpart q) (s.queue q).cq) fpa bs

/-! ### Sending (R331, R343) -/

/-- A collective packet to a member. -/
def State.collSend (s : State) (k rank : Nat) (h : CHead) : State :=
  let c := s.coll k
  let b := c.act
  let e := c.table.getD rank 0
  let vc := if h.ctype = 1 || h.ctype = 2 then (if cbBooked b then 0 else h.ctype) else 3
  let fab := fabHead (fld e 31 16) s.myId vc 1 (32 + h.payload.length) 0
  let p : Pkt := { fab, hdr := h.bits (fld e 5 0) b c.seq, payload := h.payload }
  s.sendLoose (s.collOwner k) p.withCrc (vc == 3)

/-- A DOWN_DATA packet to the whole multicast group (R336); DSLOT is this slot's own number. -/
def State.collMcast (s : State) (k : Nat) (h : CHead) : State :=
  let c := s.coll k
  let fab := fabHead 0 s.myId (if cbBooked c.act then 0 else 2) 1 (32 + h.payload.length) 0
  let fab := setFld (setFld fab 79 64 (cbMgroup c.act)) 91 91 1
  let p : Pkt := { fab, hdr := h.bits k c.act c.seq, payload := h.payload }
  s.mcastSend (s.collOwner k) p.withCrc

/-- Packet `i` of a chunk's wire bytes. -/
def CollS.dataHead (c : CollS) (ctype n i : Nat) (wire : Bytes) (digest : BitVec 64) : CHead :=
  { ctype, tree := n % 2, chunk := n, pkt := i, count := chunkPkts c.act c.desc n, digest
    payload := (wire.drop (i * wirePer (cbWire c.act))).take (pktBytes c.act c.desc n i) }

/-- Packets of a chunk, by index, to a member: UP_DATA under PARAM_DIGEST, DOWN_DATA under the chunk's digest. -/
def State.sendChunk (s : State) (k n rank ctype : Nat) (wire : Bytes) (is : Nats) : State :=
  let c := s.coll k
  let dg := if ctype = 1 then paramDigest c.act c.desc c.seq c.table else (c.chunk n).digest
  s.each is (fun i t => t.collSend k rank (c.dataHead ctype n i wire dg))

/-- The member to whom this one sends a chunk under acknowledgments: its parent, or the one owner of a direct result (R334). -/
def CollS.ackDest (c : CollS) (n : Nat) : Option Nat :=
  let b := c.act
  let me := cbRank b
  match parentOf b (n % 2) me with
  | some p => if cbSums b || cbOp b == 4 then some p else none
  | none => match directTo b c.desc n with
    | some q => if q = me then none else some q
    | none => none

/-- CTYPE of that chunk's packets. -/
def CollS.ackType (c : CollS) (n : Nat) : Nat := if (parentOf c.act (n % 2) (cbRank c.act)).isSome then 1 else 2

/-- The highest chunk of a tree this member may send to another (R334). -/
def CollS.limitTo (c : CollS) (t rank : Nat) : Nat :=
  match c.run with
  | none => 0
  | some r => AMap.get r.limit (t * 8192 + rank) (limitAfter c.act (edgeChunks c.act r.d t (cbRank c.act) rank) 0)

/-- Staging of a chunk is free again here: a direct result placed, a sum formed at the origin, or a chunk sent up and acknowledged
(R335). -/
def CollS.chunkFreed (c : CollS) (direct : Bool) (n : Nat) : Bool :=
  let x := c.chunk n
  if direct then x.placed else if originOf c.act (n % 2) = cbRank c.act then x.verified else x.upAcked

/-- Freed chunks at the head of a list. -/
def CollS.freedLead (c : CollS) (direct : Bool) (ks : Nats) : Nat := (ks.takeWhile (c.chunkFreed direct)).length

/-- LIMIT that this member grants a sender of a tree. -/
def CollS.limitFor (c : CollS) (t sender : Nat) : Nat :=
  let me := cbRank c.act
  let ks := edgeChunks c.act c.desc t sender me
  limitAfter c.act ks (c.freedLead (parentOf c.act t sender != some me) ks)

/-- The highest chunk of a tree whose staging this member may fill itself: a contribution (R335). -/
def CollS.ownLimit (c : CollS) (t : Nat) : Nat :=
  let me := cbRank c.act
  let ks := if cbOp c.act = 5 then treeChunks c.act c.desc t else upChunks c.act c.desc t me
  limitAfter c.act ks (c.freedLead false ks)

/-- A CHUNK_ACK: the bitmap of packets received, and the LIMIT. -/
def State.sendChunkAck (s : State) (k n rank : Nat) (bits : BitVec 64) : State :=
  s.collSend k rank { ctype := 3, tree := n % 2, chunk := n, limit := (s.coll k).limitFor (n % 2) rank, payload := bytesBE 8 bits.toNat }

/-! ### Aborts (R345, R346) -/

/-- One ABORT to a member. -/
def State.sendAbort (s : State) (k rank : Nat) : State :=
  let c := s.coll k
  s.collSend k rank { ctype := 7, status := c.abortSt.toNat, payload := bytesBE 8 (c.abortOrg * 2 ^ 24 + c.abortChunk) }

/-- The collective completion (R347). -/
def CollS.cqe (c : CollS) (r : CollRun) (status chunk origin : Nat) : BitVec 256 :=
  pack 256 [(255, 192, fld r.d 191 128), (191, 168, chunk), (167, 155, origin), (127, 96, c.seq.toNat), (63, 48, qnum r.q),
    (31, 24, status), fmt 5]

/-- Hook runs of a slot end without effect. -/
def State.dropHooks (s : State) (k : Nat) : State :=
  s.each ((s.runs.filter (fun r => r.2.kind == 4 && r.2.coll == k)).map Prod.fst) (fun id t => t.dropRun id)

/-- The slot's collective is given up: its descriptor completes with the abort unless it has completed before, and the slot is IDLE. -/
def State.collLeave (s : State) (k : Nat) : State :=
  let c := s.coll k
  let s := s.dropHooks k
  let s := match c.run with
    | some r => if r.complete then s
        else s.computeDone r.q r.work (c.cqe r c.abortSt.toNat c.abortChunk c.abortOrg) 0 []
          (s.sigObj (s.collOwner k) c.act)
    | none => s
  s.updColl k (fun c => { c with st := 1, run := none })

/-- This member detects an abort: a record, the notices, repeated where `again`, and the end of its collective (R345, R346). -/
def State.collAbort (s : State) (k status chunk : Nat) (again : Bool) : State :=
  let c := s.coll k
  if !(c.st == 2 || c.st == 3) then s
  else
    let me := cbRank c.act
    let ns := neighboursOf c.act c.desc me
    let s := s.updColl k (fun c => { c with
      abortSt := BitVec.ofNat 8 status, abortOrg := me, abortChunk := chunk
      aborts := if again then ns.foldl (fun m r => AMap.set m r 1) [] else [] })
    let s := s.postRec {
      cls := 7, reason := status - 25, part := some (s.collOwner k), d0 := chunk + c.seq.toNat * 2 ^ 32
      d1 := me + k * 2 ^ 16, d2 := cbTag c.act }
    (s.each ns (fun r t => t.sendAbort k r)).collLeave k

/-- An ABORT arrives: the first one of a collective is forwarded once to the neighbours and ends it; a repeated one is answered
(R346). -/
def State.collAborted (s : State) (k : Nat) (p : Pkt) : State :=
  let c := s.coll k
  let from_ := ctRank p
  if c.abortSt != 0 then
    if (AMap.get? c.aborts from_).isSome then s.updColl k (fun c => { c with aborts := AMap.erase c.aborts from_ })
    else s.sendAbort k from_
  else
    let s := s.updColl k (fun c => { c with
      abortSt := BitVec.ofNat 8 (fld p.hdr 119 112), abortOrg := ctWord p / 2 ^ 24 % 2 ^ 13, abortChunk := ctWord p % 2 ^ 24, aborts := [] })
    let ns := neighboursOf c.act c.desc (cbRank c.act)
    let s := s.each (if ns.contains from_ then ns else from_ :: ns) (fun r t => t.sendAbort k r)
    s.collLeave k

/-! ### Result chunks (R336-R339) -/

/-- Bytes of a result chunk land in DST, or fail locally with a status (R339). -/
def State.placeResult (s : State) (k n : Nat) (bs : Bytes) : State :=
  let c := s.coll k
  let r := s.collWrite k (fld c.desc 399 352 + dstElem c.act c.desc n * elemSize (resultElem c.act)) bs
  let s := r.1.updCrun k (fun x =>
    let x := { x with status := if x.status == 0 then BitVec.ofNat 8 r.2.1 else x.status }
    match r.2.2 with
    | .flush a => { x with lastHost := some a }
    | .lines ls => { x with lines := (x.lines ++ ls).dedup }
    | .none => x)
  s.updChunk k n (fun x => { x with placed := true, hook := none, pend := [] })

/-- A verified result chunk that this member is owed: converted, passed to a RESULT run where there is one, and placed (R330). -/
def State.deliverResult (s : State) (k n : Nat) (wire : Bytes) : State :=
  let c := s.coll k
  let b := c.act
  if !owed b c.desc (cbRank b) n then s.updChunk k n (fun x => { x with placed := true })
  else
    let bs := toElems (resultElem b) (fromWire (cbWire b) (chunkElems b c.desc n) wire)
    if cbHookResult b then s.updChunk k n (fun x => { x with hook := some true, pend := bs }) else s.placeResult k n bs

/-- A result chunk is retained in WORK, as members that send it on do; false where the write fails (R336). -/
def State.retain (s : State) (k n : Nat) (wire : Bytes) : State × Bool :=
  let c := s.coll k
  let r := s.collWrite k (cbWork c.act + n / 2 * fullWire c.act) wire
  (r.1, r.2.1 == 0)

/-- The origin has a result chunk: digest, WORK, and DOWN_DATA to its recipients; a direct one waits for its LIMIT (R334, R336). -/
def State.originResult (s : State) (k n : Nat) (wire : Bytes) : State :=
  let c := s.coll k
  let b := c.act
  let s := s.updChunk k n (fun x => { x with digest := crc64 wire, wire := wire, acc := [], verified := true })
  let r := s.retain k n wire
  if !r.2 then r.1.collAbort k 26 n true
  else
    let s := r.1
    let is := List.range (chunkPkts b c.desc n)
    let s := if (directTo b c.desc n).isSome then s
      else if cbMcast b then s.each is (fun i t => t.collMcast k (c.dataHead 2 n i wire (crc64 wire)))
      else s.each (recipientsOf b c.desc (cbRank b) n) (fun q t => t.sendChunk k n q 2 wire is)
    let s := if (c.ackDest n).isSome then s else s.updChunk k n (fun x => { x with wire := [] })
    s.deliverResult k n wire

/-- A result chunk is whole at a receiver: its digest is checked, and it is retained, sent on and delivered, or fetched again
(R338). -/
def State.resultWhole (s : State) (k n : Nat) : State :=
  let c := s.coll k
  let b := c.act
  let x := c.chunk n
  let wire := (List.range x.rN).flatMap (fun i => AMap.get x.rWire i [])
  let src := sourceOf b c.desc (cbRank b) n
  if crc64 wire != x.digest then
    let s := s.updColl k (fun c => { c with cFail := satAdd c.cFail 1 })
    if 7 ≤ x.fails + 1 then s.collAbort k 26 n true
    else
      let s := s.updChunk k n (fun x => { x with fails := x.fails + 1, fetches := 1, rGot := 0, rWire := [] })
      let s := s.updColl k (fun c => { c with cFetch := satAdd c.cFetch 1 })
      match src with
      | some q => s.collSend k q { ctype := 4, tree := n % 2, chunk := n, payload := bytesBE 8 (2 ^ 64 - 1) }
      | none => s
  else
    let outs := recipientsOf b c.desc (cbRank b) n
    let s := s.updChunk k n (fun x => { x with verified := true, rWire := [] })
    let r := if outs.isEmpty then (s, true) else s.retain k n wire
    if !r.2 then r.1.collAbort k 26 n true
    else
      let s := r.1
      let s := if cbMcast b then s
        else s.each outs (fun q t => t.sendChunk k n q 2 wire (List.range (chunkPkts b c.desc n)))
      s.deliverResult k n wire

/-! ### Contributions and sums (R330, R334, R335) -/

/-- FP32 residuals written from an element of RESID on; a failure aborts as a failed source. -/
def State.writeResid (s : State) (k n : Nat) (rs : Nats) : State :=
  let c := s.coll k
  if !cbEf c.act then s
  else
    let r := s.collWrite k (cbResid c.act + srcElem c.act c.desc n * 4) (rs.flatMap (bytesLE 4))
    if r.2.1 = 0 then r.1 else r.1.collAbort k 29 n true

/-- A chunk whose sum has every part is formed: converted to WIRE and sent up, or made the result chunk by the origin. -/
def State.formChunk (s : State) (k n : Nat) : State :=
  let c := s.coll k
  let b := c.act
  let x := c.chunk n
  let t := n % 2
  let kids := kidsOf b t (cbRank b)
  if !x.own || x.added.length != kids.length || x.upSent || x.upAcked || x.verified || !x.wire.isEmpty then s
  else
    let w := toWire (cbWire b) x.acc
    let leaf := kids.isEmpty && (parentOf b t (cbRank b)).isSome
    let s := s.writeResid k n (if leaf then w.2 else w.2.map (fun _ => 0))
    if (s.coll k).run.isNone then s
    else if originOf b t = cbRank b then s.originResult k n w.1
    else s.updChunk k n (fun x => { x with wire := w.1, acc := [] })

/-- A child's whole chunk is added to the accumulator. -/
def CollS.addKid (c : CollS) (n : Nat) (x : CChunk) (kid : Nat) : CChunk :=
  let b := c.act
  let wire := (List.range (AMap.get x.kidN kid 0)).flatMap (fun i => AMap.get x.kidWire (kid * 64 + i) [])
  let vs := fromWire (cbWire b) (chunkElems b c.desc n) wire
  { x with
    acc := List.zipWith (accAdd (cbWire b)) x.acc vs
    kidWire := AMap.keep x.kidWire (fun key _ => key / 64 != kid) }

/-- A member's own contribution to a chunk, as memory or a CONTRIB run gives it. -/
def State.contribute (s : State) (k n : Nat) (bs : Bytes) : State :=
  let c := s.coll k
  let b := c.act
  let ne := chunkElems b c.desc n
  let s := s.updChunk k n (fun x => { x with hook := none, pend := [] })
  if !cbSums b then
    let s := s.updChunk k n (fun x => { x with own := true })
    if originOf b (n % 2) = cbRank b then s.originResult k n bs else s.updChunk k n (fun x => { x with wire := bs })
  else
    let own := toAcc (cbElem b) ne bs
    let r := if cbEf b then s.collRead k (cbResid b + srcElem b c.desc n * 4) (4 * ne) [] [] .ok else (s, .inl [])
    match r.2 with
    | .inr _ => r.1.collAbort k 29 n true
    | .inl rs =>
      let own := if cbEf b then List.zipWith (accAdd 0) own (toAcc 0 ne rs) else own
      let s := r.1.updChunk k n (fun x => x.added.foldl (c.addKid n) { x with own := true, acc := own })
      s.formChunk k n

/-! ### What a slot may do now -/

/-- Chunks ready to go under acknowledgments, within their LIMIT, are sent. -/
def State.sendReady (s : State) (k : Nat) : State :=
  let c := s.coll k
  match c.run with
  | none => s
  | some r => s.eachOf r.chunks (fun e t =>
    match c.ackDest e.1 with
    | some q =>
      if e.2.wire.isEmpty || e.2.upSent || e.2.upAcked || c.limitTo (e.1 % 2) q < e.1 then t
      else (t.sendChunk k e.1 q (c.ackType e.1) e.2.wire (List.range (chunkPkts c.act r.d e.1))).updChunk k e.1
        (fun x => { x with upSent := true })
    | none => t)

/-- A SEAL goes to these members. -/
def State.sendSeal (s : State) (k t : Nat) (sl : Nat × BitVec 64) (ranks : Nats) : State :=
  s.each ranks (fun q u => u.collSend k q { ctype := 5, tree := t, digest := sl.2, payload := bytesBE 8 sl.1 })

/-- The members to whom this one passes the SEAL of a tree. -/
def CollS.sealTo (c : CollS) (t : Nat) : Nats :=
  let b := c.act
  let me := cbRank b
  if chunkCount b c.desc != 0 && originOf b t == me && treeRoot b t != me then [treeRoot b t] else kidsOf b t me

/-- The origin seals a tree whose result chunks have all been sent; without chunks, the tree root does so once ARRIVE has reached it
from every member (R337, R349). -/
def State.sealTree (s : State) (k t : Nat) : State :=
  let c := s.coll k
  let b := c.act
  let me := cbRank b
  match c.run with
  | none => s
  | some r =>
    let ks := treeChunks b r.d t
    let none_ := chunkCount b r.d == 0
    let sealer := if none_ then treeRoot b t else originOf b t
    let sent := ks.all (fun n => let x := c.chunk n; x.verified && (x.upSent || (c.ackDest n).isNone))
    let arrived := (kidsOf b t me).all (fun q => r.arrive.contains (t, q))
    if sealer != me || (AMap.get? r.seals t).isSome || !sent || (none_ && !arrived) then s
    else
      let sl := (ks.length, digestOfDigests (ks.map (fun n => (c.chunk n).digest)))
      let s := s.updCrun k (fun r => { r with seals := AMap.set r.seals t sl })
      s.sendSeal k t sl (c.sealTo t)

/-- ARRIVE goes to the parent once every child of the tree has sent its own (R349). -/
def State.arriveTree (s : State) (k t : Nat) : State :=
  let c := s.coll k
  let b := c.act
  match c.run with
  | none => s
  | some r =>
    if chunkCount b r.d != 0 || r.arrived.contains t || !((kidsOf b t (cbRank b)).all (fun q => r.arrive.contains (t, q))) then s
    else
      let s := s.updCrun k (fun r => { r with arrived := t :: r.arrived })
      match parentOf b t (cbRank b) with
      | some q => s.collSend k q { ctype := 8, tree := t, digest := paramDigest b r.d c.seq c.table }
      | none => s

/-- The slot becomes IDLE once it has completed and every member it sent result chunks to has returned SEAL_ACK (R339). -/
def State.drainCheck (s : State) (k : Nat) : State :=
  let c := s.coll k
  match c.run with
  | none => s
  | some r =>
    if c.st = 4 && (sinksOf c.act r.d (cbRank c.act)).all (fun q => r.served.contains q) then
      s.updColl k (fun c => { c with st := 1, run := none })
    else s

/-- The member completes: every chunk it is owed verified and placed, both seals held (R339). -/
def State.collComplete (s : State) (k : Nat) : State :=
  let c := s.coll k
  let b := c.act
  let me := cbRank b
  match c.run with
  | none => s
  | some r =>
    let ks := (List.range (chunkCount b r.d)).filter (owed b r.d me)
    let have_ := ks.all (fun n => let x := c.chunk n; x.verified && x.placed)
    if c.st != 3 || !have_ || (AMap.get? r.seals 0).isNone || (AMap.get? r.seals 1).isNone then s
    else
      let s := s.computeDone r.q r.work (c.cqe r r.status.toNat 0 me) (match r.lastHost with | some a => a + 1 | none => 0) r.lines
        (s.sigObj (s.collOwner k) b)
      let s := (s.updColl k (fun c => { c with st := 4 })).updCrun k (fun r => { r with complete := true })
      (s.each (sourcesOf b r.d me) (fun q t => t.collSend k q { ctype := 6 })).drainCheck k

/-- All that a running slot may do now. -/
def State.collPump (s : State) (k : Nat) : State :=
  if (s.coll k).st = 3 then
    (((((((s.sendReady k).arriveTree k 0).arriveTree k 1).sealTree k 0).sealTree k 1)).collComplete k)
  else s

/-! ### Starting (R340-R342) -/

/-- The failures of R341: BAD_FIELD, or the status of a translation. -/
def State.startStatus (s : State) (k : Nat) (d : Desc) : Nat :=
  let c := s.coll k
  let b := c.act
  let n := cdCount d
  let me := cbRank b
  let op := cbOp b
  let work := (chunkCount b d + 1) / 2 * fullWire b
  let size := elemSize (cbElem b)
  let out := elemSize (resultElem b)
  let srcLen := if op = 5 && me != cbRoot b then 0 else n * size
  let dstLen := if op = 1 then (if me = cbRoot b then n * out else 0) else if op = 3 then n / cbN b * out
    else if op = 4 then cbN b * n * out else if op = 5 && me == cbRoot b then 0 else n * out
  let check (va len : Nat) (host : Bool) : Nat :=
    if len = 0 then 0
    else match s.translate (s.collCtx k) va len with
      | .inr st => st
      | .inl (_, fpa) => if fpaDev fpa = s.myId && (fpaTarget fpa == 0 || (host && fpaTarget fpa == 1)) then 0 else 4
  let bad := (op == 6 && n != 0) || (op == 3 && n % cbN b != 0) || (wireMx (cbWire b) && blockElems b d % 32 != 0) ||
    decide (2 ^ 24 < chunkCount b d) || decide (cbWorkLen b < work)
  if op = 6 && n = 0 then 0
  else if bad then 4
  else if n = 0 then 0
  else
    let sts := [check (fld d 351 304) srcLen true, check (fld d 399 352) dstLen true, check (cbWork b) (cbWorkLen b) false,
      if cbEf b then check (cbResid b) (n * 4) false else 0]
    (sts.find? (fun x => x != 0)).getD 0

/-- A deferred stitch takes effect as the next collective opens (R323). -/
def CollS.opened (c : CollS) : CollS :=
  match c.defer with
  | some (blk, table, stage) => { c with act := blk, table, stage, seq := 0, defer := none }
  | none => c

/-- A slot begins its collective (R342). -/
def State.collBegin (s : State) (k : Nat) : State := (s.updColl k (fun c => { c with st := 3 })).collPump k

/-- A COLL_START is taken by an IDLE slot: SEQ + 1, the checks of R341, then ARMED or begun at once. -/
def State.collStart (s : State) (k : Nat) (l : LaunchW) (d : Desc) : State :=
  let s := s.updColl k (fun c => let c := c.opened
    { c with seq := c.seq + 1, abortSt := 0, abortOrg := 0, abortChunk := 0, aborts := []
             run := some { d, q := l.q, work := l.work }, st := 2 })
  let st := s.startStatus k d
  if st != 0 then
    let c := s.coll k
    let r : CollRun := { d, q := l.q, work := l.work }
    let s := s.computeDone l.q l.work (c.cqe r st 0 (cbRank c.act)) 0 [] (s.sigObj l.part c.act)
    (s.updCrun k (fun r => { r with complete := true })).collAbort k 29 0 true
  else
    let at_ := fld d 511 448
    if at_ = 0 || decide (at_ ≤ s.now.toNat) then s.collBegin k else s

/-- COLL_STARTs that stand at the heads of their queues with an IDLE slot are taken, and those whose slot has no program complete
PROG_GONE. The first argument bounds them. -/
def startHeads : Nat → State → State
  | 0, s => s
  | n + 1, s =>
    let heads := s.launches.filter (fun l => (s.launches.find? (fun m => m.q == l.q)) == some l)
    let can (l : LaunchW) : Bool := match l.coll with
      | some d => match Ranges.item (s.part l.part).colls (fld d 69 64) with
        | some k => (s.coll k).st == 1 || (AMap.get? s.binds (collKey k)).isNone
        | none => false
      | none => false
    match heads.find? can with
    | none => s
    | some l =>
      let s := { s with launches := s.launches.erase l }
      match l.coll with
      | none => startHeads n s
      | some d =>
        let k := (Ranges.item (s.part l.part).colls (fld d 69 64)).getD 0
        let gone := match AMap.get? s.binds (collKey k) with
          | some b => b.unbinding.isSome
          | none => true
        if gone then
          let r : CollRun := { d, q := l.q, work := l.work }
          let c := s.coll k
          startHeads n (s.computeDone l.q l.work (c.cqe r 23 0 (cbRank c.act)) 0 [] (if c.st = 0 then none else s.sigObj l.part c.act))
        else startHeads n (s.collStart k l d)

/-- After any event: what the slot may do, then what the compute queues may start. -/
def State.collSettle (s : State) (k : Nat) : State := let s := s.collPump k; startHeads (s.launches.length + 1) s

end Sys2Proof.Machine
end

