-- ==== Sys2Proof/Machine/CollRows.lean ====
section
/-!
DEFINITION. The commands of chapter 14: contributions, the arrival of collective packets, the timers of a collective, and the
commands that set, stitch, abort and query a slot. The start of a hook run is with the other runs, in Programs.
-/

namespace Sys2Proof.Machine

/-! ### After an event -/

/-- Senders to this member under acknowledgments: children of a tree, and the tree root of a direct result. -/
def CollS.senders (c : CollS) (t : Nat) : Nats :=
  let b := c.act
  let me := cbRank b
  (if cbSums b || cbOp b == 4 then kidsOf b t me else []) ++
    (if (treeChunks b c.desc t).any (fun n => directTo b c.desc n == some me) && treeRoot b t != me then [treeRoot b t] else [])

/-- A sender whose LIMIT an event has raised is told by one more CHUNK_ACK, of the last chunk it sent that is free again; the manual
names no other way for a waiting sender to learn of it (assumption log 40). -/
def State.limitNews (s : State) (k : Nat) (before : CollS) : State :=
  s.each [0, 1] (fun t u => u.each (before.senders t) (fun q v =>
    let c := v.coll k
    let ks := edgeChunks c.act c.desc t q (cbRank c.act)
    let free := c.freedLead (parentOf c.act t q != some (cbRank c.act)) ks
    if c.run.isNone || before.run.isNone || c.seq != before.seq || c.limitFor t q ≤ before.limitFor t q then v
    else match ks[free - 1]? with
      | some n => v.sendChunkAck k n q (BitVec.ofNat 64 (2 ^ chunkPkts c.act c.desc n - 1))
      | none => v))

/-- An event of a slot: its effect, what the slot may do next, and what the compute queues may start. -/
def State.collDo (s : State) (k : Nat) (f : State → State) : State :=
  let before := s.coll k
  let s := ((f s).collPump k).limitNews k before
  startHeads (s.launches.length + 1) s

/-! ### Contributions (R330, R344) -/

/-- COLL_CONTRIB_READY: this member's part of a chunk has been read from SRC; a CONTRIB run comes first where there is one (R330, R344,
R345). -/
def execCollContribReady (slot chunk : Nat) (data : Bytes) (rd : ReadEnd) (errs : WordErrs) (s : State) : Out :=
  let c := s.coll slot
  let b := c.act
  let x := c.chunk chunk
  .next (if slot < 64 && c.st = 3 && decide (chunk < chunkCount b c.desc) && contributes b c.desc (cbRank b) chunk && !x.own &&
      x.hook.isNone && decide (chunk ≤ c.ownLimit (chunk % 2)) then
    s.collDo slot (fun s =>
      let n := chunkElems b c.desc chunk * elemSize (cbElem b)
      let r := s.collRead slot (fld c.desc 351 304 + srcElem b c.desc chunk * elemSize (cbElem b)) n errs data rd
      match r.2 with
      | .inr _ => r.1.collAbort slot 29 chunk true
      | .inl bs =>
        if cbHookContrib b then r.1.updChunk slot chunk (fun x => { x with hook := some false, pend := bs })
        else r.1.contribute slot chunk bs)
  else s)

/-! ### Packets (R333) -/

/-- A packet that fails R333 is discarded and counted. -/
def State.collDiscard (s : State) (k : Nat) : State := s.updColl k (fun c => { c with cDisc := satAdd c.cDisc 1 })

/-- A chunk of wire bytes is whole with the bitmap it now has. -/
def wholeBits (n : Nat) : BitVec 64 := BitVec.ofNat 64 (2 ^ n - 1)

/-- A packet of a chunk fits the chunk's own shape. -/
def CollS.shapeOk (c : CollS) (p : Pkt) : Bool :=
  let n := ctChunk p
  decide (n < chunkCount c.act c.desc) && n % 2 == ctTree p && ctCount p == chunkPkts c.act c.desc n && decide (ctPkt p < ctCount p) &&
  p.payload.length == pktBytes c.act c.desc n (ctPkt p)

/-- UP_DATA from a child (R334). -/
def State.collUp (s : State) (k : Nat) (p : Pkt) : State :=
  let c := s.coll k
  let b := c.act
  let n := ctChunk p
  let q := ctRank p
  if c.run.isNone then s.collDiscard k
  else if ctDigest p != paramDigest b c.desc c.seq c.table then s.collAbort k 28 0 true
  else if !(kidsOf b (ctTree p) (cbRank b)).contains q || !c.shapeOk p || !(upChunks b c.desc (ctTree p) q).contains n then s.collDiscard k
  else
    let x := c.chunk n
    let had := AMap.get x.kidGot q 0
    if bitAt had (ctPkt p) || c.st == 4 then s.sendChunkAck k n q had
    else
      let got : BitVec 64 := had ||| BitVec.ofNat 64 (2 ^ ctPkt p)
      let s := s.updChunk k n (fun x => { x with
        kidGot := AMap.set x.kidGot q got, kidN := AMap.set x.kidN q (ctCount p)
        kidWire := AMap.set x.kidWire (q * 64 + ctPkt p) p.payload })
      if got != wholeBits (ctCount p) then s
      else
        let s := s.sendChunkAck k n q got
        if cbSums b then
          let s := s.updChunk k n (fun x =>
            let x := { x with added := x.added ++ [q] }
            if x.own then c.addKid n x q else x)
          s.formChunk k n
        else
          let x := (s.coll k).chunk n
          let wire := (List.range (ctCount p)).flatMap (fun i => AMap.get x.kidWire (q * 64 + i) [])
          let s := s.updChunk k n (fun x => { x with kidWire := [] })
          if originOf b (ctTree p) = cbRank b then s.originResult k n wire else s.updChunk k n (fun x => { x with wire })

/-- A seal's digest of digests is checked once every chunk of its tree is held (R338). -/
def State.dodCheck (s : State) (k t : Nat) : State :=
  let c := s.coll k
  match c.run.bind (fun r => AMap.get? r.seals t) with
  | none => s
  | some sl =>
    let ks := treeChunks c.act c.desc t
    if ks.all (fun n => (c.chunk n).verified) && digestOfDigests (ks.map (fun n => (c.chunk n).digest)) != sl.2 then s.collAbort k 26 0 true
    else s

/-- DOWN_DATA of a result chunk (R336, R338). -/
def State.collDown (s : State) (k : Nat) (p : Pkt) : State :=
  let c := s.coll k
  let b := c.act
  let n := ctChunk p
  let q := ctRank p
  let me := cbRank b
  if c.run.isNone || !c.shapeOk p then s.collDiscard k
  else
    let src := sourceOf b c.desc me n
    if src.isNone || !(src == some q || (cbMcast b && q == originOf b (ctTree p))) then s.collDiscard k
    else
      let x := c.chunk n
      let direct := (directTo b c.desc n).isSome
      if x.verified then (if direct then s.sendChunkAck k n q (wholeBits (ctCount p)) else s)
      else if bitAt x.rGot (ctPkt p) then (if direct then s.sendChunkAck k n q x.rGot else s)
      else
        let got : BitVec 64 := x.rGot ||| BitVec.ofNat 64 (2 ^ ctPkt p)
        let s := s.updChunk k n (fun x => { x with
          rGot := got, rN := ctCount p, rWire := AMap.set x.rWire (ctPkt p) p.payload, fetches := 0
          digest := if x.rGot == 0 then ctDigest p else x.digest })
        if got != wholeBits (ctCount p) then s
        else ((s.onIf direct (fun t => t.sendChunkAck k n q got)).resultWhole k n).dodCheck k (ctTree p)

/-- CHUNK_ACK from a parent or from a direct receiver (R334). -/
def State.collAck (s : State) (k : Nat) (p : Pkt) : State :=
  let c := s.coll k
  let n := ctChunk p
  let q := ctRank p
  let t := ctTree p
  if c.run.isNone || n % 2 != t || c.ackDest n != some q || !(c.chunk n).upSent then s.collDiscard k
  else
    let s := s.updCrun k (fun r => { r with limit := AMap.set r.limit (t * 8192 + q) (max (c.limitTo t q) (fld p.hdr 111 88)) })
    let cnt := chunkPkts c.act c.desc n
    let miss := (List.range cnt).filter (fun i => !(ctWord p).testBit i)
    if (c.chunk n).upAcked then s
    else if miss.isEmpty then s.updChunk k n (fun x => { x with upAcked := true, wire := [], acc := [], resends := 0 })
    else
      let s := s.updColl k (fun c => { c with cResent := satAdd c.cResent 1 })
      (s.updChunk k n (fun x => { x with resends := 0 })).sendChunk k n q (c.ackType n) (c.chunk n).wire miss

/-- Packets of a retained chunk to a member, read from WORK; an uncorrectable read aborts (R338). -/
def State.serveWork (s : State) (k n q : Nat) (is : Nats) (errs : WordErrs) : State :=
  let c := s.coll k
  let len := wireBytes (cbWire c.act) (chunkElems c.act c.desc n)
  let r := s.collRead k (cbWork c.act + n / 2 * fullWire c.act) len errs [] .ok
  match r.2 with
  | .inr _ => r.1.collAbort k 26 n true
  | .inl bs => r.1.sendChunk k n q 2 bs is

/-- FETCH of a result chunk this member sends (R338, R346). -/
def State.collFetch (s : State) (k : Nat) (p : Pkt) (errs : WordErrs) : State :=
  let c := s.coll k
  let n := ctChunk p
  let q := ctRank p
  if c.abortSt != 0 then s.sendAbort k q
  else if c.run.isNone || !(recipientsOf c.act c.desc (cbRank c.act) n).contains q || !(c.chunk n).verified then s.collDiscard k
  else s.serveWork k n q ((List.range (chunkPkts c.act c.desc n)).filter (fun i => (ctWord p).testBit i)) errs

/-- A FETCH of the packets a chunk lacks is sent to its source (R338). -/
def State.sendFetch (s : State) (k n : Nat) : State :=
  let c := s.coll k
  match sourceOf c.act c.desc (cbRank c.act) n with
  | none => s
  | some q =>
    let want : BitVec 64 := wholeBits (chunkPkts c.act c.desc n) &&& ~~~(c.chunk n).rGot
    let s := s.updChunk k n (fun x => { x with fetches := x.fetches + 1 })
    let s := s.updColl k (fun c => { c with cFetch := satAdd c.cFetch 1 })
    s.collSend k q { ctype := 4, tree := n % 2, chunk := n, payload := bytesBE 8 want.toNat }

/-- SEAL of a tree (R337, R338). -/
def State.collSeal (s : State) (k : Nat) (p : Pkt) : State :=
  let c := s.coll k
  let b := c.act
  let t := ctTree p
  let me := cbRank b
  let q := ctRank p
  let from_ := parentOf b t me == some q || (cbOp b == 5 && treeRoot b t == me && q == cbRoot b && q != me)
  match c.run with
  | none => s.collDiscard k
  | some r =>
    if !from_ then s.collDiscard k
    else if r.sealSent.contains t then s
    else if ctWord p % 2 ^ 24 != (treeChunks b r.d t).length then s.collAbort k 28 0 true
    else
      let sl := (ctWord p % 2 ^ 24, ctDigest p)
      let s := s.updCrun k (fun r => { r with seals := AMap.set r.seals t sl, sealSent := t :: r.sealSent })
      let s := s.sendSeal k t sl (kidsOf b t me)
      let lacks := (treeChunks b r.d t).filter (fun n => (sourceOf b r.d me n).isSome && !(c.chunk n).verified && (c.chunk n).rGot == 0)
      (s.each lacks (fun n u => u.sendFetch k n)).dodCheck k t

/-- SEAL_ACK from a member that this one sent result chunks to (R339). -/
def State.collSealAck (s : State) (k : Nat) (p : Pkt) : State :=
  (s.updCrun k (fun r => { r with served := insertUp (ctRank p) r.served })).drainCheck k

/-- ARRIVE from a child (R349). -/
def State.collArrive (s : State) (k : Nat) (p : Pkt) : State :=
  let c := s.coll k
  if c.run.isNone || !(kidsOf c.act (ctTree p) (cbRank c.act)).contains (ctRank p) then s.collDiscard k
  else if ctDigest p != paramDigest c.act c.desc c.seq c.table then s.collAbort k 28 0 true
  else s.updCrun k (fun r => { r with arrive := ((ctTree p, ctRank p) :: r.arrive).dedup })

/-- NOT_STARTED: what that member refused goes again once the hint has passed, and is not counted (R334). -/
def State.collRefused (s : State) (k : Nat) (p : Pkt) : State :=
  let c := s.coll k
  let b := c.act
  let n := ctChunk p
  let t := ctTree p
  let q := ctRank p
  match c.run with
  | none => s.collDiscard k
  | some r =>
    let s := match AMap.get? r.seals t with
      | some sl => if (r.sealSent.contains t || originOf b t == cbRank b || treeRoot b t == cbRank b) && (c.sealTo t).contains q
          then s.sendSeal k t sl [q] else s
      | none => s
    if chunkCount b r.d = 0 then
      if r.arrived.contains t && parentOf b t (cbRank b) == some q then
        s.collSend k q { ctype := 8, tree := t, digest := paramDigest b r.d c.seq c.table }
      else s
    else if c.ackDest n == some q then
      let x := c.chunk n
      if x.upSent && !x.upAcked then
        (s.updChunk k n (fun x => { x with resends := 0 })).sendChunk k n q (c.ackType n) x.wire (List.range (chunkPkts b r.d n))
      else s
    else if (recipientsOf b r.d (cbRank b) n).contains q && (c.chunk n).verified then
      s.serveWork k n q (List.range (chunkPkts b r.d n)) []
    else s

/-- What an accepted collective packet does, by CTYPE. -/
def State.collHandle (s : State) (k : Nat) (p : Pkt) (errs : WordErrs) : State :=
  match p.op with
  | 1 => s.collUp k p
  | 2 => s.collDown k p
  | 3 => s.collAck k p
  | 4 => s.collFetch k p errs
  | 5 => s.collSeal k p
  | 6 => s.collSealAck k p
  | 7 => s.collAborted k p
  | 8 => s.collArrive k p
  | 9 => s.collRefused k p
  | _ => s.collDiscard k

/-- A collective packet delivered here: its CRC-64, then the conditions of R333. -/
def State.collTake (s : State) (p : Pkt) (errs : WordErrs) : State :=
  let k := ctSlot p
  let c := s.coll k
  let b := c.act
  if !p.crcOk then s.cntTp 0 1
  else if c.st = 0 || fld p.hdr 239 208 != cbTag b || cbN b ≤ ctRank p || fld (c.table.getD (ctRank p) 0) 31 16 != p.src ||
      p.op = 0 || 9 < p.op then s.collDiscard k
  else if ctSeq p = c.seq + 1 && p.op != 9 then
    let s := s.updColl k (fun c => { c with cNot := satAdd c.cNot 1 })
    let h : CHead := { ctype := 9, tree := ctTree p, chunk := ctChunk p, pkt := ctPkt p, payload := bytesBE 8 10000 }
    let e := c.table.getD (ctRank p) 0
    let q : Pkt := {
      fab := fabHead (fld e 31 16) s.myId 3 1 40 0, hdr := h.bits (fld e 5 0) b (ctSeq p), payload := h.payload }
    s.sendLoose (s.collOwner k) q.withCrc true
  else if ctSeq p != c.seq then s.collDiscard k
  else s.collDo k (fun t => t.collHandle k p errs)

/-- A collective packet of one CTYPE arrives on a port. -/
def State.rxColl (s : State) (port : Nat) (p : Pkt) (ctype : Nat) (errs : WordErrs) : State :=
  if p.proto != 1 || p.op != ctype then s
  else let r := s.takeHere port p
       if r.2 then r.1.collTake p errs else r.1

/-- UP_DATA (R334). -/
def execUpData (port : Nat) (pkt : Pkt) (s : State) : Out := .next (s.rxColl port pkt 1 [])
/-- DOWN_DATA (R336, R338). -/
def execDownData (port : Nat) (pkt : Pkt) (s : State) : Out := .next (s.rxColl port pkt 2 [])
/-- CHUNK_ACK (R334). -/
def execChunkAck (port : Nat) (pkt : Pkt) (s : State) : Out := .next (s.rxColl port pkt 3 [])
/-- FETCH (R338). -/
def execCollFetch (port : Nat) (pkt : Pkt) (errs : WordErrs) (s : State) : Out := .next (s.rxColl port pkt 4 errs)
/-- SEAL (R337). -/
def execSeal (port : Nat) (pkt : Pkt) (s : State) : Out := .next (s.rxColl port pkt 5 [])
/-- SEAL_ACK (R339). -/
def execSealAck (port : Nat) (pkt : Pkt) (s : State) : Out := .next (s.rxColl port pkt 6 [])
/-- ABORT (R346). -/
def execCollAbortPacket (port : Nat) (pkt : Pkt) (s : State) : Out := .next (s.rxColl port pkt 7 [])
/-- ARRIVE (R349). -/
def execArrive (port : Nat) (pkt : Pkt) (s : State) : Out := .next (s.rxColl port pkt 8 [])
/-- NOT_STARTED (R333, R334). -/
def execNotStarted (port : Nat) (pkt : Pkt) (s : State) : Out := .next (s.rxColl port pkt 9 [])

/-- MCAST_PACKET: relayed by its group entry, and a result chunk of a collective where it is delivered here (R212, R336). -/
def execMcastPacket (port : Nat) (pkt : Pkt) (s : State) : Out :=
  .next (if pkt.mcast then
      let r := s.mcastArrive port pkt
      if r.2 then r.1.collTake pkt [] else r.1
    else s)

/-! ### Timers -/

/-- CHUNK_ACK_TIMER: 4 µs after the first packet of a chunk still incomplete (R334). -/
def execChunkAckTimer (slot chunk rank : Nat) (s : State) : Out :=
  let c := s.coll slot
  let x := c.chunk chunk
  let had := AMap.get x.kidGot rank 0
  let direct := sourceOf c.act c.desc (cbRank c.act) chunk == some rank && (directTo c.act c.desc chunk).isSome
  .next (if c.run.isNone || decide (64 ≤ slot) then s
    else if had != 0 && had != wholeBits (AMap.get x.kidN rank 0) then s.sendChunkAck slot chunk rank had
    else if direct && x.rGot != 0 && !x.verified then s.sendChunkAck slot chunk rank x.rGot
    else s)

/-- UP_RESEND_TIMER: no CHUNK_ACK came; the whole chunk goes again, or after 7 resends the collective aborts (R334). -/
def execUpResendTimer (slot chunk : Nat) (s : State) : Out :=
  let c := s.coll slot
  let x := c.chunk chunk
  .next (match c.ackDest chunk with
    | none => s
    | some q =>
      if c.st != 3 || !x.upSent || x.upAcked then s
      else if 7 ≤ x.resends then s.collDo slot (fun t => t.collAbort slot 27 chunk true)
      else
        let s := s.updColl slot (fun c => { c with cResent := satAdd c.cResent 1 })
        (s.updChunk slot chunk (fun x => { x with resends := x.resends + 1 })).sendChunk slot chunk q (c.ackType chunk) x.wire
          (List.range (chunkPkts c.act c.desc chunk)))

/-- FETCH_TIMER: a result chunk stays incomplete, or a FETCH went unanswered; after 7 the collective aborts (R338). -/
def execFetchTimer (slot chunk : Nat) (s : State) : Out :=
  let c := s.coll slot
  let x := c.chunk chunk
  .next (if c.st != 3 || (sourceOf c.act c.desc (cbRank c.act) chunk).isNone || chunkCount c.act c.desc ≤ chunk || x.verified ||
      (x.rGot == 0 && x.fetches == 0) then s
    else if 7 ≤ x.fetches then s.collDo slot (fun t => t.collAbort slot 27 chunk true)
    else s.sendFetch slot chunk)

/-- COLL_DEADLINE: DEADLINE_MS have passed since the collective began (R342). -/
def execCollDeadline (slot : Nat) (s : State) : Out :=
  .next (if (s.coll slot).st = 3 then s.collDo slot (fun t => t.collAbort slot 31 0 true) else s)

/-- ABORT_REPEAT: neighbours that have not answered get ABORT again, up to 7 times (R346). -/
def execAbortRepeat (slot : Nat) (s : State) : Out :=
  let c := s.coll slot
  .next (s.each (AMap.keys c.aborts) (fun r t =>
    if AMap.get c.aborts r 0 ≤ 7 then
      (t.updColl slot (fun c => { c with aborts := AMap.upd c.aborts r 0 (· + 1) })).sendAbort slot r
    else t.updColl slot (fun c => { c with aborts := AMap.erase c.aborts r })))

/-- COLL_BEGIN: an ARMED slot begins at the first whole tape microsecond at or after START_TAPE (R342). -/
def execCollBegin (slot : Nat) (s : State) : Out :=
  let c := s.coll slot
  .next (if c.st = 2 && s.tape.running && decide (roundUp (fld c.desc 511 448) 1000 ≤ s.now.toNat) then
      s.collDo slot (fun t => t.collBegin slot)
    else s)

/-! ### Commands (R321-R324, R350) -/

/-- COLL_SET: the basting copy of a slot. -/
def execCollSet (h : Issue) (slot : Nat) (blk : BitVec 512) (s : State) : Out :=
  .next (vuino h 0x0700 [slot, blk.toNat] (fun s => match Ranges.item (s.part h.part).colls slot with
    | none => Ans.bad s
    | some k =>
      if s.spine then Ans.bad s
      else if cbReserved blk then Ans.bad s 0 2
      else Ans.ok (s.updColl k (fun c => { c with bast := blk }))) s)

/-- Ranges of shared memory that a binding's slots take: start and length. -/
def State.slotRanges (s : State) (key : Nat) (b : Bind) : List (Nat × Nat) :=
  if key / 2 ^ 32 = 2 then
    let blk := (s.coll (key % 2 ^ 32)).act
    if cbHookContrib blk || cbHookResult blk then
      [(cbInBase blk, cbDepth blk * cbE blk * max (elemSize (cbElem blk)) (elemSize (resultElem blk)))] else []
  else
    (b.inBase, b.slotCount * b.chunk) :: (if key / 2 ^ 32 = 0 then [(b.outBase, b.slotCount * b.chunk)] else [])

/-- A range of shared memory overlaps no slot of another binding on clusters they share. -/
def State.slotsClear (s : State) (key : Nat) (clusters : Nats) (a n : Nat) : Bool :=
  s.binds.all (fun e => e.1 == key || !((s.bindClusters e.2).any (fun c => clusters.contains c)) ||
    (s.slotRanges e.1 e.2).all (fun r => decide (r.1 + r.2 ≤ a) || decide (a + n ≤ r.1)))

/-- A range lies in cluster shared memory (R238). -/
def inShared (a n : Nat) : Bool := decide (0x01000000 ≤ a) && decide (a + n ≤ 0x01400000)

/-- The member table is refused (R322). -/
def State.tableBad (s : State) (k : Nat) (b : CBlk) (table : List (BitVec 32)) : Bool :=
  table.any (fun e => !zeroFld e 15 6 || !validId (fld e 31 16) || idSpine (fld e 31 16)) || !decide table.Nodup ||
  table.getD (cbRank b) 0 != BitVec.ofNat 32 (s.myId * 65536 + k) || !s.devidValid ||
  (cbMcast b && table.any (fun e => idPlane (fld e 31 16) != idPlane s.myId))

/-- COLL_REASON of a stitch, 0 for none (R324). -/
def State.collReason (s : State) (k : Nat) (b : CBlk) (table : Option (List (BitVec 32))) : Nat :=
  let op := cbOp b
  let hooks := cbHookContrib b || cbHookResult b
  let hook := cbDepth b * cbE b * max (elemSize (cbElem b)) (elemSize (resultElem b))
  let bind := AMap.get? s.binds (collKey k)
  let clusters := match bind with | some x => s.bindClusters x | none => []
  if bind.isNone then 1
  else if cbReserved b || (!cbEf b && cbResid b != 0) then 2
  else if op = 0 || 6 < op then 3
  else if 3 < cbElem b || 8 < cbWire b || (op != 6 && !wirePair (cbSums b) (cbWire b) (cbElem b)) ||
      (cbEf b && !(wireMx (cbWire b) || (cbWire b == 1 && cbElem b == 0))) then 4
  else if cbN b ≤ cbRank b || cbN b ≤ cbRoot b || (!(op == 1 || op == 5) && cbRoot b != 0) || cbTag b = 0 then 5
  else if (match table with | none => true | some t => s.tableBad k b t) then 6
  else if cbLog b < 10 || wireMaxLog (cbWire b) < cbLog b || cbDepth b = 0 || 64 < cbDepth b then 7
  else if (hooks && (!inShared (cbInBase b) hook || !s.slotsClear (collKey k) clusters (cbInBase b) hook)) || (!hooks && cbInBase b != 0) then 8
  else if (cbMcast b && (4096 ≤ cbMgroup b || op == 1 || op == 3 || op == 6)) || (!cbMcast b && cbMgroup b != 0) then 9
  else if cbDeadline b = 0 || 60000 < cbDeadline b then 10
  else 0

/-- STAGE of a block (R323). -/
def cbStage (b : CBlk) : Nat :=
  let a := if cbSums b then 4 * cbE b else if cbOp b = 6 then 0 else fullWire b
  roundUp (cbDepth b * (a + fullWire b)) 65536

/-- COLL_STITCH: the member table is read and checked, staging reserved, and the copy made active, at once or with the next start
(R322-R324). -/
def execCollStitch (h : Issue) (slot : Nat) (o : Outside) (s : State) : Out :=
  .next (vuino h 0x0701 [slot] (fun s => match Ranges.item (s.part h.part).colls slot with
    | none => Ans.bad s
    | some k =>
      let b := (s.coll k).bast
      let p := s.part h.part
      let r := s.collRead k (cbMembers b) (4 * cbN b) [] o.bytes o.rd
      let s := r.1
      let table := match r.2 with
        | .inl bs => some ((readElems 4 (cbN b) bs).map (BitVec.ofNat 32))
        | .inr _ => none
      let why := s.collReason k b table
      let others := ((Ranges.items p.colls).filter (fun j => j != k)).map (fun j => (s.coll j).stage)
      if s.spine then Ans.bad s
      else if why != 0 then Ans.bad s 0 why
      else if Ranges.count p.colls * 2 ^ 20 < others.sum + cbStage b then Ans.noRes s
      else if (s.coll k).st ≤ 1 then
        let s := s.updColl k (fun c => { c with
          act := b, table := table.getD [], stage := cbStage b, seq := 0, st := 1, defer := none })
        Ans.ok (startHeads (s.launches.length + 1) s)
      else Ans.ok (s.updColl k (fun c => { c with defer := some (b, table.getD [], cbStage b) }))) s)

/-- A slot is aborted from here: its collective, or the serving of one that has completed here (R346, R350). -/
def State.collUser (s : State) (k : Nat) (again : Bool) : State :=
  let c := s.coll k
  if c.st = 4 then
    let s := s.updColl k (fun c => { c with abortSt := 32, abortOrg := cbRank c.act, abortChunk := 0 })
    (s.each (neighboursOf c.act c.desc (cbRank c.act)) (fun r t => t.sendAbort k r)).collLeave k
  else s.collAbort k 32 0 again

/-- COLL_ABORT (R350). -/
def execCollAbort (h : Issue) (slot : Nat) (s : State) : Out :=
  .next (vuino h 0x0702 [slot] (fun s => match Ranges.item (s.part h.part).colls slot with
    | none => Ans.bad s
    | some k => Ans.ok (s.collDo k (fun t => t.collUser k true))) s)

/-- COLL_QUERY (R350). -/
def execCollQuery (h : Issue) (slot copy : Nat) (s : State) : Out :=
  .next (vuino h 0x0703 [slot, copy] (fun s => match Ranges.item (s.part h.part).colls slot with
    | none => Ans.bad s
    | some k =>
      let c := s.coll k
      if 1 < copy then Ans.bad s
      else Ans.ok s [blkItem 64 (if copy = 0 then c.act else c.bast).toNat, sc 1 c.st, sc 4 c.seq.toNat, sc 8 c.stage,
        sc 8 c.cResent.toNat, sc 8 c.cFetch.toNat, sc 8 c.cFail.toNat, sc 8 c.cNot.toNat, sc 8 c.cDisc.toNat, sc 8 c.cCorr.toNat]) s)

/-! ### COLL_START (R340) -/

/-- COLL_START as fetched: malformed, or in its queue's order. -/
def State.collStartDesc (s : State) (p q slot : Nat) (d : Desc) : State :=
  let k := qkey p q
  if !s.queueKind p q 4 then s
  else if fld d 15 12 != 4 || fld d 11 8 != 0 || fld d 7 0 != 1 || fld d 23 16 != 2 ||
      !(zeroFld d 407 400 && zeroFld d 303 192 && zeroFld d 127 70 && zeroFld d 63 24) ||
      (Ranges.item (s.part p).colls (fld d 69 64)).isNone then s.malformed p q slot (fld d 63 0)
  else
    let r := s.takeId
    let s := r.2.updQueue k (fun u => { u with work := u.work ++ [r.1] })
    let s := { s with launches := s.launches ++ [{ q := k, work := r.1, part := p, coll := some d }] }
    startHeads (s.launches.length + 1) s

/-- COLL_START (R340). -/
def execCollStart (part q : Nat) (d : Desc) (s : State) : Out := .next (s.collStartDesc part q (s.slotOf part q) (withOp d 2))

end Sys2Proof.Machine
end

