-- ==== Sys2Proof/Machine/Needles.lean ====
section
/-!
DEFINITION. Needles at work (chapters 11 to 13): the fetch of an instruction and its traps (R269, R271, R300), the end of a run
by EXIT or by a fault and what follows (R310, R311, R313, R315, R316, R344), failing needles and spares (R266), the clearing of
clusters (R243), stale tails (R252), needle die clocks (R265), the end of copies (R294) and time budgets (R314).
-/

namespace Sys2Proof.Machine

/-! ### Faults of runs (R315, R316) -/

/-- The target of a run's binding as its record names it: send queue, connection or partition-local collective slot. -/
def State.runTarget (s : State) (r : RunS) : Nat :=
  match r.bind with
  | none => 0
  | some k => if k < 2 ^ 32 then qnum k else if r.kind = 4 then (Ranges.localOf (s.part r.part).colls r.coll).getD 0 else k % 2 ^ 32

/-- A record of class PROG (R315, R505). -/
def State.progRec (s : State) (r : RunS) (reason n code pc info : Nat) : State :=
  s.postRec {
    cls := 6, reason, part := some r.part
    d0 := r.prog.toNat + r.kind * 2 ^ 16 + clusterOf n * 2 ^ 24 + s.jOf n * 2 ^ 32 + code * 2 ^ 40
    d1 := pc + r.msn.toNat * 2 ^ 32, d2 := info, d3 := s.runTarget r }

/-- A send transform has faulted: no further packet of its message, or of a later one, leaves (R316). -/
def State.transformFault (s : State) (cid : Nat) (msn : BitVec 32) : State :=
  let mine := (s.conn cid).outs.filter (fun o => o.msn == msn)
  let s := s.updMsg cid msn (fun m => { m with held := true })
  let s := s.unqueue cid (mine.map (fun o => o.psn))
  s.updConn cid (fun c => { c with
    outs := c.outs.filter (fun o => o.msn != msn), outB := c.outB - (mine.map (fun o => o.size)).sum })

/-- A message being received is settled NO_HANDLER. -/
def State.settleNoHandler (s : State) (cid : Nat) (m : RxMsg) : State :=
  match (if m.op == 8 then m.hq.head? else none) with
  | some p => s.settleRx cid p 9 0
  | none =>
    let s := s.updRxMsg cid m.msn (fun m => { m with
      settled := some (BitVec.ofNat 8 (nakStatus 9)), nakCode := 9, waitP := [], hq := [], reqs := [] })
    s.sendNak cid m.psn m.msn 9 0 m.bytes

/-- Packets that wait for a handler that takes no new run: an INVOKE is settled NO_HANDLER, copies of placed packets are dropped (R317). -/
def State.dropHandlerWaits (s : State) (cid : Nat) : State :=
  s.eachOf ((s.conn cid).rx.filter (fun m => !m.hq.isEmpty && m.settled.isNone)) (fun m t =>
    if m.op == 8 then t.settleNoHandler cid m else t.updRxMsg cid m.msn (fun m => { m with hq := [] }))

/-- A receive handler has faulted: its binding is FAULTED, the message of its run and every later INVOKE or data message are settled
NO_HANDLER (R316). -/
def State.handlerFault (s : State) (k cid : Nat) (msn : BitVec 32) : State :=
  let s := s.updBind k (fun b => { b with faulted := true })
  let ms := (s.conn cid).rx.filter (fun m =>
    m.settled.isNone && serLe msn m.msn && (m.op == 1 || m.op == 2 || m.op == 4 || m.op == 8))
  let s := s.eachOf ms (fun m t => t.settleNoHandler cid m)
  (s.dropHandlerWaits cid).rxSettle cid false

/-- A run faults on a needle: counted, recorded, its needles stop, and its kind decides what follows (R315, R316, R344). -/
def State.runFault (s : State) (id n reason code pc info : Nat) : State :=
  match AMap.get? s.runs id with
  | none => s
  | some r =>
    let s := s.updProg r.part r.prog.toNat (fun g => { g with faults := g.faults + 1 })
    let s := s.progRec r reason n code pc info
    let j := s.jOf n
    let us := (s.now.toNat - r.startNs) / 1000
    let s := s.dropRun id
    match r.kind with
    | 1 =>
      let rank := (r.clusters.takeWhile (fun c => c != clusterOf n)).length
      s.computeDone r.q r.work (launchCqe r.wrId.toNat pc code rank j us (qnum r.q) 24) 0 [] none
    | 2 => s.transformFault r.conn r.msn
    | 3 => match r.bind with
      | some k => s.handlerFault k r.conn (r.msn)
      | none => s
    | _ => s.collDo r.coll (fun t => t.collAbort r.coll 30 r.chunk true)

/-- A needle traps: the code, PC and information are recorded, and its run faults (R300, R315). -/
def State.trap (s : State) (n code info : Nat) : State :=
  let d := s.needle n
  let s := s.updNeedle n (fun d => { d with trapCode := BitVec.ofNat 8 code, trapPc := d.pc, trapInfo := BitVec.ofNat 64 info })
  match d.run with
  | some r => s.runFault r n 1 code d.pc.toNat (info % 2 ^ 64)
  | none => s

/-- The run of a needle faults as if it had trapped MEM_UE, the needle or its cluster being lost to it (R266, R492). The manual gives no
TRAP_INFO for it: a free value (assumption log 18). -/
def State.runLost (s : State) (n : Nat) : State :=
  match (s.needle n).run with
  | none => s
  | some r =>
    let v := s.freshVal
    v.2.runFault r n 1 3 (s.needle n).pc.toNat v.1.toNat

/-! ### Failing needles and spares (R266) -/

/-- A needle leaves service: a program running on it faults, and its slot waits for a spare. The manual names no trap code for it;
the model's is MEM_UE (assumption log 18). -/
def State.failNeedle (s : State) (n : Nat) : State :=
  let c := clusterOf n
  let j := needleSlot n
  if !bitAt (s.clu c).present j then s
  else
    let s := s.runLost n
    let s := s.updClu c (fun u => { u with present := u.present &&& ~~~(1#8 <<< j), repair := u.repair ++ [j] })
    (s.needleRec 1 c j 0).clusterSettle c

/-- A corrected error in a needle's local memory; the sixteenth within 24 hours fails the needle (R266, R268). -/
def State.localCe (s : State) (n : Nat) : State :=
  let s := s.countCe n
  if (s.needle n).ce.length < 16 then s
  else ((s.updNeedle n (fun d => { d with ce := [] })).needleRec 5 (clusterOf n) (needleSlot n) 0).failNeedle n

/-- NEEDLE_FAILED (R266). -/
def execNeedleFailed (n : Nat) (s : State) : Out := .next (if n < 512 then s.failNeedle n else s)

/-- NEEDLE_SPARED: the self-tested spare, its local memory zeroed, is mapped in as the failed slot (R266). -/
def execNeedleSpared (cluster : Nat) (s : State) : Out :=
  let u := s.clu cluster
  .next (match u.repair with
    | j :: rest =>
      if cluster < 64 && u.st = 4 && (s.die (cluster / 16)).spares != 0 then
        let n := 8 * cluster + j
        let s := { s with localM := Memory.zero s.localM (n * 2 ^ 20) (2 ^ 20), needles := AMap.erase s.needles n }
        let s := s.updDie (cluster / 16) (fun d => { d with spares := d.spares - 1 })
        let s := s.updClu cluster (fun u => { u with present := u.present ||| (1#8 <<< j), repair := rest })
        repairNext cluster 9 (s.needleRec 2 cluster j 0)
      else s
    | [] => s)

/-- CLUSTER_CLEAR_DONE: every memory of the cluster holds zeros and it is READY (R243). -/
def execClusterClearDone (cluster : Nat) (s : State) : Out :=
  .next (if cluster < 64 && (s.clu cluster).st = 1 then
      let s := { s with
        shared := Memory.zero s.shared (cluster * 2 ^ 22) (2 ^ 22)
        imem := Memory.zero s.imem (cluster * 2 ^ 18) (2 ^ 18)
        localM := Memory.zero s.localM (cluster * 2 ^ 23) (2 ^ 23) }
      (s.updClu cluster (fun u => { u with st := 2 })).clusterSettle cluster
    else s)

/-! ### The end of a run (R277, R310, R311, R313, R344) -/

/-- A report of the partition still waits for its data before it raises a sync object. -/
def State.raiseWaits (s : State) (p : Nat) : Bool := s.host.waits.any (fun w => w.q == noRing p && w.sig.isSome)

/-- A kernel whose needles have all reached EXIT completes once its CPYs and FSIGs have raised their objects (R310). -/
def State.kernelEnd (s : State) (id : Nat) : State :=
  match AMap.get? s.runs id with
  | none => s
  | some r =>
    if r.kind != 1 || !r.left.isEmpty || s.xfers.any (fun x => x.2.run == some id) then s
    else
      let us := (s.now.toNat - r.startNs) / 1000
      let w := s.raiseWaits r.part
      let host := match r.lastHost with | some a => if w then a + 1 else 0 | none => 0
      let e := launchCqe r.wrId.toNat 0 0 0 0 us (qnum r.q) 0
      (s.dropRun id).computeDone r.q r.work e host (if w then r.lines else []) none

/-- Output bytes of a finished chunk of a message, in its slot. -/
def State.chunkBytes (s : State) (k cid msn idx len : Nat) : Bytes :=
  match AMap.get? s.binds k with
  | none => []
  | some b => match b.slots.find? (fun e => e.2 == chunkMark cid msn idx) with
    | some (at_, _) => Memory.rds s.shared (sharedKey (at_ / 64) (b.outBase + at_ % 64 * b.chunk)) len
    | none => []

/-- Outputs are joined to a message's wire bytes in chunk order; with the last one the wire length is known (R311). The first
argument bounds the chunks. -/
def joinChunks (k cid : Nat) (msn : BitVec 32) : Nat → State → State
  | 0, s => s
  | f + 1, s =>
    match (s.conn cid).tx.find? (fun m => m.msn == msn && !m.fin) with
    | none => s
    | some m =>
      let idx := m.chunks - m.wait
      match (if m.wait = 0 then none else AMap.get? m.outLen idx) with
      | none => s
      | some len =>
        let bs := s.chunkBytes k cid msn.toNat idx len
        let a := (m.chunkRange idx).1
        let s := s.updMsg cid msn (fun m =>
          let m := { m with wait := m.wait - 1, buf := if bs.isEmpty then m.buf else AMap.set m.buf a bs }
          if m.wait = 0 then { m with len := a + len, n := packetsOf (a + len) } else m)
        joinChunks k cid msn f s

/-- A transform run has reached EXIT: s1 is its output length, within its slot and within the limit of the message's OP (R311, R315). -/
def State.transformEnd (s : State) (id n : Nat) (r : RunS) : State :=
  let len := (AMap.get (s.needle n).s 1 0).toNat
  let k := r.bind.getD 0
  let cap := match AMap.get? s.binds k with | some b => b.chunk | none => 0
  match (s.conn r.conn).tx.find? (fun m => m.msn == r.msn && !m.fin) with
  | none => s.dropRun id
  | some m =>
    let limit := if m.op == 8 || (s.conn r.conn).ud then 4096 else 2 ^ 30
    if cap < len || limit < (m.outLen.map (fun e => e.2)).sum + len then s.runFault id n 3 0 (s.needle n).pc.toNat len
    else
      let s := s.updMsg r.conn r.msn (fun m => { m with outLen := AMap.set m.outLen r.chunk len })
      let s := joinChunks k r.conn r.msn (m.chunks + 1) (s.dropRun id)
      (s.pump r.conn).finishMsgs r.conn

/-- A hook run has reached EXIT: what its slot holds is the chunk (R344). -/
def State.hookEnd (s : State) (id : Nat) (r : RunS) : State :=
  let b := (s.coll r.coll).act
  let size := cbE b * max (elemSize (cbElem b)) (elemSize (resultElem b))
  let bs := Memory.rds s.shared (sharedKey (r.clusters.headD 0) (cbInBase b + r.slot * size)) r.inB
  (s.dropRun id).collDo r.coll (fun t => if r.phase then t.placeResult r.coll r.chunk bs else t.contribute r.coll r.chunk bs)

/-- Every needle of a run has reached EXIT: a failed copy that no program handled faults the run (R315); otherwise it ends as its kind
says. -/
def State.runExit (s : State) (id n : Nat) : State :=
  match AMap.get? s.runs id with
  | none => s
  | some r =>
    match r.needles.find? (fun m => fld (s.needle m).cpyst 63 48 != 0) with
    | some m => s.runFault id m 2 0 (s.needle m).pc.toNat 0
    | none => match r.kind with
      | 1 => s.kernelEnd id
      | 2 => s.transformEnd id n r
      | 3 =>
        let s := (s.dropRun id).updRxMsg r.conn r.msn (fun m => { m with runs := m.runs - 1 })
        s.rxSettle r.conn false
      | _ => s.hookEnd id r

/-- A needle reaches EXIT. -/
def State.exitNeedle (s : State) (n : Nat) : State :=
  match (s.needle n).run with
  | none => s
  | some id =>
    let s := (s.updNeedle n (fun d => { d with st := 4 })).updRun id (fun r => { r with left := r.left.erase n })
    match AMap.get? s.runs id with
    | some r => if r.left.isEmpty then s.runExit id n else s
    | none => s

/-- RUN_BUDGET_EXPIRY: the run traps BUDGET on every needle it holds; TRAP_INFO, the cycles run, is a free value (R300, R314; assumption
log 1). -/
def execRunBudgetExpiry (run : Nat) (s : State) : Out :=
  .next (match AMap.get? s.runs run with
    | none => s
    | some r => match r.left with
      | [] => s
      | n :: _ =>
        let f := s.freshVal
        f.2.runFault run n 1 8 (s.needle n).pc.toNat f.1.toNat)

/-! ### The end of a CPY or FSIG (R294, R295) -/

/-- CPYST with one more failed transfer: the first one's status and SY index are kept, the count saturates (R294). -/
def cpystNote (c : BitVec 64) (status sy : Nat) : BitVec 64 :=
  let n := fld c 63 48
  if n = 0 then pack 64 [(63, 48, 1), (47, 40, status), (13, 0, sy)] else setFld c 63 48 (min 65535 (n + 1))

/-- CPY_DONE: a transfer of a needle has finished: a status other than OK is noted in CPYST, and its sync object rises by 1, after its
data where those went to host memory (R248, R294, R295). -/
def execCpyDone (xfer : Nat) (s : State) : Out :=
  .next (match AMap.get? s.xfers xfer with
    | none => s
    | some x => match x.who with
      | .cpy n =>
        if !x.ended then s
        else
          let s := { s with xfers := AMap.erase s.xfers xfer }
          let s := s.onIf (x.status != 0 && x.run.isSome && (s.needle n).run == x.run) (fun t =>
            t.updNeedle n (fun d => { d with cpyst := cpystNote d.cpyst x.status.toNat x.syIdx }))
          let s := match x.path, x.sync with
            | .none, some o => s.syncAdd o 1
            | .none, none => s
            | d, sig => s.complete (noRing x.part) 0 d sig
          match x.run with
          | some id => (s.updRun id (fun r => { r with
              lastHost := if x.lastHost.isSome then x.lastHost else r.lastHost, lines := (r.lines ++ x.lines).dedup })).kernelEnd id
          | none => s
      | _ => s)

/-! ### Stream queue timers and die clocks (R252, R263-R265) -/

/-- A cluster's stream queue. -/
def State.sq (s : State) (c q : Nat) : SQ := AMap.get (s.clu c).sqs q {}
/-- A cluster's stream queue changed. -/
def State.updSq (s : State) (c q : Nat) (f : SQ → SQ) : State := s.updClu c (fun u => { u with sqs := AMap.upd u.sqs q {} f })

/-- STALE_TAIL_FIRE: STALE is set, STALE_SYNC rises by 1, every item stays (R252). -/
def execStaleTailFire (cluster queue : Nat) (s : State) : Out :=
  let q := s.sq cluster queue
  .next (if cluster < 64 && decide (queue < 32) && q.timer && !q.items.isEmpty && !q.draining then
      let s := s.updSq cluster queue (fun q => { q with stale := true, timer := false })
      let obj := (s.clu cluster).owner.bind (fun p => if q.sync = 0x3FFF then none else Ranges.item (s.part p).syncs q.sync)
      match obj with
      | some o => s.syncAdd o 1
      | none => s
    else s)

/-- NDIE_CLK_SET: both bounds of one needle die, or of all; the clock stands at MAX_MHZ while nothing holds it below (R264, R265). -/
def execNdieClkSet (h : Issue) (die minMhz maxMhz : Nat) (s : State) : Out :=
  let bad (m : Nat) : Bool := m % 100 != 0 || decide (m < 1200) || decide (4000 < m)
  .next (vuino h 0x0600 [die, minMhz, maxMhz] (fun s =>
    if bad minMhz || bad maxMhz || decide (maxMhz < minMhz) || !(decide (die < 4) || die == 0xF) then Ans.bad s
    else
      let ds := if die = 0xF then [0, 1, 2, 3] else [die]
      Ans.ok (s.each ds (fun d t => t.updDie d (fun x => { x with
        minM := minMhz, maxM := maxMhz
        cur := if x.cur = 0 then 0 else if x.limit = 0 then maxMhz else min x.cur maxMhz })))) s)

/-! ### Issue of an instruction (R269-R273, R300) -/

/-- What an instruction meets as it is issued: its needle, the bits of its words, and its PC. -/
structure Ins where
  /-- Needle, adapter-wide. -/
  n : Nat
  /-- First word in bits [31:0], second in [63:32]. -/
  w : Nat
  /-- PC. -/
  pc : Nat
  /-- Run. -/
  run : RunS
  /-- The run's number. -/
  id : Nat
  /-- Its program. -/
  prog : Prog

/-- Bits [hi:lo] of an instruction. -/
def Ins.f (i : Ins) (hi lo : Nat) : Nat := i.w / 2 ^ lo % 2 ^ (hi + 1 - lo)
/-- D. -/
def Ins.d (i : Ins) : Nat := i.f 12 8
/-- S1, or Q of format Q. -/
def Ins.s1 (i : Ins) : Nat := i.f 17 13
/-- S2 of formats A3 and Q. -/
def Ins.s2 (i : Ins) : Nat := i.f 22 18
/-- PR. -/
def Ins.pr (i : Ins) : Nat := i.f 25 23
/-- FN. -/
def Ins.fn (i : Ins) : Nat := i.f 31 26
/-- IMM14, sign-extended. -/
def Ins.imm14 (i : Ins) : Int := toSigned 14 (i.f 31 18)
/-- IMM19, sign-extended. -/
def Ins.imm19 (i : Ins) : Int := toSigned 19 (i.f 31 13)

/-- What becomes of an issued instruction. -/
inductive Did where
  /-- It has its effect, and the next instruction follows. -/
  | ok (s : State)
  /-- It has its effect and goes on at this PC. -/
  | jump (s : State) (pc : Nat)
  /-- It traps before it has any effect: code and TRAP_INFO. -/
  | trap (code info : Nat)
  /-- It has its effect, and the needle does not go on by itself (a stall, or EXIT). -/
  | stay (s : State)
  /-- A double-bit error on what it reads at this address: MEM_UE, and the needle fails where that is its local memory (R242, R266). -/
  | lost (addr : Nat)

/-- A PC lies in the program's text and is a multiple of 4 (R277, R306). -/
def Prog.inText (g : Prog) (pc : Nat) : Bool := decide (g.addr ≤ pc ∧ pc < g.addr + g.textLen) && pc % 4 == 0

/-- The OPs of the opcode map (R273). -/
def opNamed (o : Nat) : Bool :=
  decide (0x01 ≤ o ∧ o ≤ 0x0A) || o == 0x0C || o == 0x0D || decide (0x10 ≤ o ∧ o ≤ 0x16) || decide (0x18 ≤ o ∧ o ≤ 0x1C) ||
  decide (0x20 ≤ o ∧ o ≤ 0x27) || decide (0x30 ≤ o ∧ o ≤ 0x34) || decide (0x40 ≤ o ∧ o ≤ 0x45) || o == 0x50 ||
  decide (0x60 ≤ o ∧ o ≤ 0x63) || decide (0x68 ≤ o ∧ o ≤ 0x6A) || o == 0x6C || o == 0x70 || o == 0x78 || o == 0x79 || o == 0x80 ||
  decide (0x88 ≤ o ∧ o ≤ 0x8B) || o == 0x90 || o == 0x98

/-- A word of a cluster's instruction memory. -/
def State.imemWord (s : State) (c pc : Nat) : Nat := natLE (Memory.rds s.imem (c * 2 ^ 18 + pc) 4)

/-- A needle issues the instruction at its PC, if its OP is this one. A PC outside the text traps FETCH, a double-bit error on the
fetch MEM_UE, a refused OP ILLEGAL, whichever instruction was announced; a needle that is not running, or stands at another
instruction, does nothing (assumption log 4). -/
def State.issue (s : State) (n op : Nat) (x : Upset) (f : Ins → State → Did) : State :=
  let d := s.needle n
  match d.run.bind (fun id => (AMap.get? s.runs id).map (fun r => (id, r))) with
  | none => s
  | some (id, r) =>
    let g := s.runProg r
    let pc := d.pc.toNat
    let c := clusterOf n
    let w := s.imemWord c pc
    let o := w % 256
    let two := decide (128 ≤ o)
    if d.st != 1 then s
    else if s.isolated 3 c then s.runLost n
    else if !g.inText pc then s.trap n 2 pc
    else if x == .fetch then (s.needleRec 4 c (needleSlot n) pc).trap n 3 pc
    else if !opNamed o then s.trap n 1 w
    else if o != op then s
    else if two && !g.inText (pc + 4) then s.trap n 2 (pc + 4)
    else
      let i : Ins := { n, w := w + (if two then s.imemWord c (pc + 4) * 2 ^ 32 else 0), pc, run := r, id, prog := g }
      match f i s with
      | .ok t => t.updNeedle n (fun d => { d with pc := d.pc + (if two then 8 else 4) })
      | .jump t p => t.updNeedle n (fun d => { d with pc := BitVec.ofNat 32 p })
      | .trap code info => s.trap n code info
      | .stay t => t
      | .lost a =>
        let s := (s.needleRec 4 c (needleSlot n) a).trap n 3 a
        if isLocal a then s.failNeedle n else s

/-- ILLEGAL: TRAP_INFO is the instruction's first word (R300). -/
def Ins.illegal (i : Ins) : Did := .trap 1 (i.w % 2 ^ 32)

/-- ILLEGAL where `bad`, otherwise what follows. -/
def Ins.guard (i : Ins) (bad : Bool) (k : Did) : Did := if bad then i.illegal else k

/-! ### Registers (R244) -/

/-- s register `k`; s0 reads 0. -/
def NeedleS.rs (d : NeedleS) (k : Nat) : BitVec 64 := if k = 0 then 0 else AMap.get d.s k 0
/-- s register `k` written; a write to s0 is ignored. -/
def NeedleS.ws (d : NeedleS) (k : Nat) (v : BitVec 64) : NeedleS := if k = 0 then d else { d with s := AMap.set d.s k v }
/-- v register `k`. -/
def NeedleS.rv (d : NeedleS) (k : Nat) : BitVec 1024 := AMap.get d.v k 0
/-- v register `k` written. -/
def NeedleS.wv (d : NeedleS) (k : Nat) (v : BitVec 1024) : NeedleS := { d with v := AMap.set d.v k v }
/-- p register `k`; p0 reads all ones. -/
def NeedleS.rp (d : NeedleS) (k : Nat) : BitVec 128 := if k = 0 then BitVec.allOnes 128 else AMap.get d.p k 0
/-- p register `k` written; a write to p0 is ignored. -/
def NeedleS.wp (d : NeedleS) (k : Nat) (v : BitVec 128) : NeedleS := if k = 0 then d else { d with p := AMap.set d.p k v }
/-- Accumulator `k`. -/
def NeedleS.ra (d : NeedleS) (k : Nat) : BitVec 512 := AMap.get d.a k 0
/-- Accumulator `k` written. -/
def NeedleS.wa (d : NeedleS) (k : Nat) (v : BitVec 512) : NeedleS := { d with a := AMap.set d.a k v }
/-- Numeric flags added to NSTAT. -/
def NeedleS.flag (d : NeedleS) (f : Flags) : NeedleS := { d with nstat := f.into d.nstat }

/-- The issuing needle. -/
def Ins.needle (i : Ins) (s : State) : NeedleS := s.needle i.n
/-- An instruction that only changes its needle's registers. -/
def Ins.set (i : Ins) (s : State) (f : NeedleS → NeedleS) : Did := .ok (s.updNeedle i.n f)
/-- s register `k` of the issuing needle. -/
def Ins.rs (i : Ins) (s : State) (k : Nat) : BitVec 64 := (s.needle i.n).rs k

end Sys2Proof.Machine
end

