-- ==== Sys2Proof/Machine/NeedleScalar.lean ====
section
/-!
DEFINITION. The needle's scalar instructions, its branches and its accesses to memory (R274-R281, R285), FENCE, TRAP and EXIT
(R277, R299).
-/

namespace Sys2Proof.Machine

/-! ### Scalar (R274-R276) -/

/-- The low 64 bits of an integer. -/
def low64 (v : Int) : BitVec 64 := BitVec.ofInt 64 v

/-- The SARITH operation of an FN below 23 (R274). -/
def sarithOp (fn : Nat) (a b : BitVec 64) : BitVec 64 :=
  let k := b.toNat % 64
  match fn with
  | 0 => a + b
  | 1 => a - b
  | 2 => a &&& b
  | 3 => a ||| b
  | 4 => a ^^^ b
  | 5 => a <<< k
  | 6 => a >>> k
  | 7 => a.sshiftRight k
  | 8 => if a.slt b then 1 else 0
  | 9 => if a.ult b then 1 else 0
  | 10 => a * b
  | 11 => low64 (a.toInt * b.toInt / 2 ^ 64)
  | 12 => BitVec.ofNat 64 (a.toNat * b.toNat / 2 ^ 64)
  | 13 => if b = 0 then BitVec.allOnes 64 else a / b
  | 14 => if b = 0 then a else a % b
  | 15 => if b = 0 then BitVec.allOnes 64 else low64 (Int.tdiv a.toInt b.toInt)
  | 16 => if b = 0 then a else low64 (Int.tmod a.toInt b.toInt)
  | 17 => if a.slt b then a else b
  | 18 => if a.slt b then b else a
  | 19 => if a.ult b then a else b
  | 20 => if a.ult b then b else a
  | 21 => BitVec.ofNat 64 (if a = 0 then 64 else 63 - Nat.log2 a.toNat)
  | _ => BitVec.ofNat 64 ((List.range 64).filter (fun i => a.getLsbD i)).length

/-- SARITH (R274). -/
def execSarith (n : Nat) (x : Upset) (s : State) : Out :=
  .next (s.issue n 0x01 x (fun i s =>
    i.guard (i.pr != 0 || decide (22 < i.fn) || ((i.fn == 21 || i.fn == 22) && i.s2 != 0))
      (i.set s (fun d => d.ws i.d (sarithOp i.fn (d.rs i.s1) (d.rs i.s2))))))

/-- An immediate instruction: s[D] ← s[S1] op IMM14, sign-extended (R275). -/
def State.immOp (s : State) (n op : Nat) (x : Upset) (f : BitVec 64 → BitVec 64 → BitVec 64) : State :=
  s.issue n op x (fun i s => i.set s (fun d => d.ws i.d (f (d.rs i.s1) (low64 i.imm14))))

/-- An immediate shift: IMM14[13:6] must be zero (R275). -/
def State.immShift (s : State) (n op : Nat) (x : Upset) (f : BitVec 64 → Nat → BitVec 64) : State :=
  s.issue n op x (fun i s => i.guard (i.f 31 24 != 0) (i.set s (fun d => d.ws i.d (f (d.rs i.s1) (i.f 23 18)))))

/-- ADDI (R275). -/
def execAddi (n : Nat) (x : Upset) (s : State) : Out := .next (s.immOp n 0x02 x (fun a b => a + b))
/-- ANDI (R275). -/
def execAndi (n : Nat) (x : Upset) (s : State) : Out := .next (s.immOp n 0x03 x (fun a b => a &&& b))
/-- ORI (R275). -/
def execOri (n : Nat) (x : Upset) (s : State) : Out := .next (s.immOp n 0x04 x (fun a b => a ||| b))
/-- XORI (R275). -/
def execXori (n : Nat) (x : Upset) (s : State) : Out := .next (s.immOp n 0x05 x (fun a b => a ^^^ b))
/-- SLLI (R275). -/
def execSlli (n : Nat) (x : Upset) (s : State) : Out := .next (s.immShift n 0x06 x (fun a k => a <<< k))
/-- SRLI (R275). -/
def execSrli (n : Nat) (x : Upset) (s : State) : Out := .next (s.immShift n 0x07 x (fun a k => a >>> k))
/-- SRAI (R275). -/
def execSrai (n : Nat) (x : Upset) (s : State) : Out := .next (s.immShift n 0x08 x (fun a k => a.sshiftRight k))
/-- SLTI (R275). -/
def execSlti (n : Nat) (x : Upset) (s : State) : Out := .next (s.immOp n 0x09 x (fun a b => if a.slt b then 1 else 0))

/-- LUI: s[D] ← IMM19 × 2^13, sign-extended (R275). -/
def execLui (n : Nat) (x : Upset) (s : State) : Out :=
  .next (s.issue n 0x0A x (fun i s => i.set s (fun d => d.ws i.d (low64 (i.imm19 * 2 ^ 13)))))

/-- MFSR: a special register; the cycles since launch advance by a free value (R276; assumption log 1). -/
def execMfsr (n : Nat) (x : Upset) (s : State) : Out :=
  .next (s.issue n 0x0C x (fun i s =>
    let k := i.f 31 18
    i.guard (i.s1 != 0 || decide (4 < k)) (match k with
      | 0 => i.set s (fun d => d.ws i.d (d.nstat.setWidth 64))
      | 1 => i.set s (fun d => d.ws i.d (d.srseed.setWidth 64))
      | 2 => i.set s (fun d => d.ws i.d (BitVec.ofNat 64 ((s.inService (clusterOf i.n)).length * 2 ^ 8 + s.jOf i.n)))
      | 3 =>
        let f := s.freshVal
        i.set f.2 (fun d => let c := d.cycles + f.1.toNat; { d with cycles := c }.ws i.d (BitVec.ofNat 64 c))
      | _ => i.set s (fun d => d.ws i.d d.cpyst))))

/-- MTSR: NSTAT takes bits [3:0], SRSEED stores 1 for 0, CPYST is cleared; a read-only register traps ILLEGAL (R276). -/
def execMtsr (n : Nat) (x : Upset) (s : State) : Out :=
  .next (s.issue n 0x0D x (fun i s =>
    let k := i.f 31 18
    i.guard (i.s1 != 0 || !(k == 0 || k == 1 || k == 4)) (i.set s (fun d => match k with
      | 0 => { d with nstat := (d.rs i.d).setWidth 4 }
      | 1 => { d with srseed := if (d.rs i.d).setWidth 32 = (0 : BitVec 32) then 1 else (d.rs i.d).setWidth 32 }
      | _ => { d with cpyst := 0 }))))

/-! ### Branches (R277) -/

/-- A taken branch: a target outside the text or not a multiple of 4 traps FETCH (R277). -/
def Ins.go (i : Ins) (s : State) (target : BitVec 64) : Did :=
  if i.prog.inText target.toNat then .jump s target.toNat else .trap 2 target.toNat

/-- A conditional branch (R277). -/
def State.branch (s : State) (n op : Nat) (x : Upset) (f : BitVec 64 → BitVec 64 → Bool) : State :=
  s.issue n op x (fun i s =>
    if f (i.rs s i.s1) (i.rs s i.d) then i.go s (BitVec.ofNat 64 i.pc + low64 (4 * i.imm14)) else .ok s)

/-- BEQ (R277). -/
def execBeq (n : Nat) (x : Upset) (s : State) : Out := .next (s.branch n 0x20 x (fun a b => a == b))
/-- BNE (R277). -/
def execBne (n : Nat) (x : Upset) (s : State) : Out := .next (s.branch n 0x21 x (fun a b => a != b))
/-- BLT (R277). -/
def execBlt (n : Nat) (x : Upset) (s : State) : Out := .next (s.branch n 0x22 x (fun a b => a.slt b))
/-- BGE (R277). -/
def execBge (n : Nat) (x : Upset) (s : State) : Out := .next (s.branch n 0x23 x (fun a b => !a.slt b))
/-- BLTU (R277). -/
def execBltu (n : Nat) (x : Upset) (s : State) : Out := .next (s.branch n 0x24 x (fun a b => a.ult b))
/-- BGEU (R277). -/
def execBgeu (n : Nat) (x : Upset) (s : State) : Out := .next (s.branch n 0x25 x (fun a b => !a.ult b))

/-- JAL (R277). -/
def execJal (n : Nat) (x : Upset) (s : State) : Out :=
  .next (s.issue n 0x26 x (fun i s =>
    i.go (s.updNeedle i.n (fun d => d.ws i.d (BitVec.ofNat 64 (i.pc + 4)))) (BitVec.ofNat 64 i.pc + low64 (4 * i.imm19))))

/-- JALR: the target uses s[S1] as read before the write (R277). -/
def execJalr (n : Nat) (x : Upset) (s : State) : Out :=
  .next (s.issue n 0x27 x (fun i s =>
    i.go (s.updNeedle i.n (fun d => d.ws i.d (BitVec.ofNat 64 (i.pc + 4)))) (i.rs s i.s1 + low64 i.imm14)))

/-! ### Accesses (R278, R279) -/

/-- The trap an access meets: ADDR outside the spaces it may reach, ALIGN below its alignment (R278). -/
def addrTrap (a size : Nat) (loc shd : Bool) : Option Nat :=
  if !((loc && isLocal a) || (shd && isShared a)) then some 4 else if a % size != 0 then some 5 else none

/-- Bytes of a needle's data space (R238). -/
def State.dataRead (s : State) (n a len : Nat) : Bytes :=
  if isLocal a then Memory.rds s.localM (localKey n a) len else Memory.rds s.shared (sharedKey (clusterOf n) a) len

/-- Bytes written to a needle's data space. -/
def State.dataWrite (s : State) (n a : Nat) (bs : Bytes) : State :=
  if isLocal a then { s with localM := Memory.wrs s.localM (localKey n a) bs }
  else { s with shared := Memory.wrs s.shared (sharedKey (clusterOf n) a) bs }

/-- The address s[S1] + IMM14, with IMM14 scaled (R278). -/
def Ins.addr (i : Ins) (s : State) (scale : Int) : Nat := (i.rs s i.s1 + low64 (scale * i.imm14)).toNat

/-- An effect on the state after an instruction's own. -/
def Did.also (d : Did) (f : State → State) : Did :=
  match d with
  | .ok s => .ok (f s)
  | .jump s p => .jump (f s) p
  | .stay s => .stay (f s)
  | d => d

/-- What the code of local memory corrects on an access is counted (R242, R266). -/
def Did.ce (d : Did) (n a : Nat) (x : Upset) : Did := if x == .ce && isLocal a then d.also (fun s => s.localCe n) else d

/-- A load of `size` bytes at an address, checked (R278, R242). -/
def Ins.load (i : Ins) (s : State) (x : Upset) (a size : Nat) (loc : Bool) (k : Nat → Did) : Did :=
  match addrTrap a size loc true with
  | some c => .trap c a
  | none => if x == .data then .lost a else (k (natLE (s.dataRead i.n a size))).ce i.n a x

/-- A store at an address, checked (R278). -/
def Ins.store (i : Ins) (s : State) (x : Upset) (a size : Nat) (bs : Bytes) : Did :=
  match addrTrap a size true true with
  | some c => .trap c a
  | none => (Did.ok (s.dataWrite i.n a bs)).ce i.n a x

/-- A scalar load (R279). -/
def State.scalarLoad (s : State) (n op : Nat) (x : Upset) (size : Nat) (signed : Bool) : State :=
  s.issue n op x (fun i s => i.load s x (i.addr s 1) size true (fun v =>
    i.set s (fun d => d.ws i.d (if signed then low64 (toSigned (8 * size) v) else BitVec.ofNat 64 v))))

/-- A scalar store: the low bytes of s[D] (R279). -/
def State.scalarStore (s : State) (n op : Nat) (x : Upset) (size : Nat) : State :=
  s.issue n op x (fun i s => i.store s x (i.addr s 1) size (bytesLE size (i.rs s i.d).toNat))

/-- LB (R279). -/
def execLb (n : Nat) (x : Upset) (s : State) : Out := .next (s.scalarLoad n 0x10 x 1 true)
/-- LBU (R279). -/
def execLbu (n : Nat) (x : Upset) (s : State) : Out := .next (s.scalarLoad n 0x11 x 1 false)
/-- LH (R279). -/
def execLh (n : Nat) (x : Upset) (s : State) : Out := .next (s.scalarLoad n 0x12 x 2 true)
/-- LHU (R279). -/
def execLhu (n : Nat) (x : Upset) (s : State) : Out := .next (s.scalarLoad n 0x13 x 2 false)
/-- LW (R279). -/
def execLw (n : Nat) (x : Upset) (s : State) : Out := .next (s.scalarLoad n 0x14 x 4 true)
/-- LWU (R279). -/
def execLwu (n : Nat) (x : Upset) (s : State) : Out := .next (s.scalarLoad n 0x15 x 4 false)
/-- LD (R279). -/
def execLd (n : Nat) (x : Upset) (s : State) : Out := .next (s.scalarLoad n 0x16 x 8 false)
/-- SB (R279). -/
def execSb (n : Nat) (x : Upset) (s : State) : Out := .next (s.scalarStore n 0x18 x 1)
/-- SH (R279). -/
def execSh (n : Nat) (x : Upset) (s : State) : Out := .next (s.scalarStore n 0x19 x 2)
/-- SW (R279). -/
def execSw (n : Nat) (x : Upset) (s : State) : Out := .next (s.scalarStore n 0x1A x 4)
/-- SD (R279). -/
def execSd (n : Nat) (x : Upset) (s : State) : Out := .next (s.scalarStore n 0x1B x 8)

/-- The word after an AMO of an FN below 7: old value, s[S2], s[D] as read before (R280). -/
def amoOp (fn : Nat) (old v cmp : BitVec 64) : BitVec 64 :=
  match fn with
  | 0 => old + v
  | 1 => v
  | 2 => if old = cmp then v else old
  | 3 => if old.slt v then v else old
  | 4 => if old.slt v then old else v
  | 5 => old ||| v
  | _ => old &&& v

/-- AMO: an atomic operation on an 8-byte word of shared memory (R280). -/
def execAmo (n : Nat) (x : Upset) (s : State) : Out :=
  .next (s.issue n 0x1C x (fun i s =>
    let a := (i.rs s i.s1).toNat
    i.guard (i.pr != 0 || decide (6 < i.fn)) (i.load s x a 8 false (fun v =>
      let old := BitVec.ofNat 64 v
      let s := s.dataWrite i.n a (bytesLE 8 (amoOp i.fn old (i.rs s i.s2) (i.rs s i.d)).toNat)
      i.set s (fun d => d.ws i.d old)))))

/-! ### Vector accesses (R278, R279, R285) -/

/-- VLD (R279). -/
def execVld (n : Nat) (x : Upset) (s : State) : Out :=
  .next (s.issue n 0x30 x (fun i s => i.load s x (i.addr s 128) 128 true (fun v => i.set s (fun d => d.wv i.d (BitVec.ofNat 1024 v)))))

/-- VST (R279). -/
def execVst (n : Nat) (x : Upset) (s : State) : Out :=
  .next (s.issue n 0x31 x (fun i s => i.store s x (i.addr s 128) 128 (bytesLE 128 ((s.needle i.n).rv i.d).toNat)))

/-- VSTM: the bytes of v[D] whose bits in p[PR] are 1 (R279). -/
def execVstm (n : Nat) (x : Upset) (s : State) : Out :=
  .next (s.issue n 0x32 x (fun i s =>
    let a := (i.rs s i.s1).toNat
    let d := s.needle i.n
    let old := s.dataRead i.n a 128
    let new := bytesLE 128 (d.rv i.d).toNat
    let mixed := (List.range 128).map (fun b => if bitAt (d.rp i.pr) b then new.getD b 0 else old.getD b 0)
    i.guard (i.s2 != 0 || i.fn != 0) (i.store s x a 128 mixed)))

/-- Active 32-bit lanes under p[PR], ascending (R244). -/
def NeedleS.lanes32 (d : NeedleS) (pr : Nat) : Nats := (List.range 32).filter (fun l => bitAt (d.rp pr) (4 * l))

/-- The address of a lane of a gather or scatter: s[S2] + index × 2^SC (R285). -/
def Ins.laneAddr (i : Ins) (s : State) (l : Nat) : Nat :=
  let d := s.needle i.n
  (d.rs i.s2 + BitVec.ofNat 64 (fld (d.rv i.s1) (32 * l + 31) (32 * l) * 2 ^ (i.fn % 4))).toNat

/-- The first active lane that fails R278, with its code and address (R285). -/
def Ins.laneTrap (i : Ins) (s : State) : Option (Nat × Nat) :=
  ((s.needle i.n).lanes32 i.pr).findSome? (fun l => (addrTrap (i.laneAddr s l) 4 true false).map (fun c => (c, i.laneAddr s l)))

/-- VGATHER: each active lane loads a word of local memory (R285). -/
def execVgather (n : Nat) (x : Upset) (s : State) : Out :=
  .next (s.issue n 0x33 x (fun i s =>
    let ls := (s.needle i.n).lanes32 i.pr
    let first := i.laneAddr s (ls.headD 0)
    i.guard (i.f 31 28 != 0) (match i.laneTrap s with
      | some (c, a) => .trap c a
      | none =>
        if x == .data && !ls.isEmpty then .lost first
        else (i.set s (fun d => d.wv i.d (ls.foldl (fun v l =>
          setFld v (32 * l + 31) (32 * l) (natLE (s.dataRead i.n (i.laneAddr s l) 4))) (d.rv i.d)))).ce i.n first
            (if ls.isEmpty then .none else x))))

/-- VSCATTER: each active lane stores a word; of lanes that name one word the highest stays (R285). -/
def execVscatter (n : Nat) (x : Upset) (s : State) : Out :=
  .next (s.issue n 0x34 x (fun i s =>
    let d := s.needle i.n
    let ls := d.lanes32 i.pr
    i.guard (i.f 31 28 != 0) (match i.laneTrap s with
      | some (c, a) => .trap c a
      | none =>
        (Did.ok (s.each ls (fun l t => t.dataWrite i.n (i.laneAddr s l) (bytesLE 4 (fld (d.rv i.d) (32 * l + 31) (32 * l)))))).ce i.n
          (i.laneAddr s (ls.headD 0)) (if ls.isEmpty then .none else x))))

/-! ### FENCE, TRAP and EXIT (R277, R299) -/

/-- FENCE: every earlier store of the model's needles is visible already (R299; assumption log 19). -/
def execFence (n : Nat) (x : Upset) (s : State) : Out :=
  .next (s.issue n 0x70 x (fun i s => i.guard (i.f 31 8 != 0) (.ok s)))

/-- TRAP: USER with the code IMM19[15:0] (R299). -/
def execTrap (n : Nat) (x : Upset) (s : State) : Out :=
  .next (s.issue n 0x78 x (fun i _ => i.guard (i.d != 0 || i.f 31 29 != 0) (.trap 7 (i.f 28 13))))

/-- EXIT (R277). -/
def execExit (n : Nat) (x : Upset) (s : State) : Out :=
  .next (s.issue n 0x79 x (fun i s => i.guard (i.f 31 8 != 0) (.stay (s.exitNeedle i.n))))

end Sys2Proof.Machine
end

