-- ==== Sys2Proof/Machine/NeedleMove.lean ====
section
/-!
DEFINITION. The needle's instructions that reach beyond it: CPY and FSIG (R294, R295), stream queues (R249-R251, R296), sync objects
and the tape (R297, R298).
-/

namespace Sys2Proof.Machine

/-! ### Sync objects named by registers (R294, R295, R297) -/

/-- A partition-local index in a register: none where its high bits are set or no object of the partition has it. -/
def Ins.object (i : Ins) (s : State) (v : BitVec 64) : Option Nat :=
  if v.toNat < 2 ^ 14 then Ranges.item (s.part i.run.part).syncs v.toNat else none

/-- A completion object: 0x3FFF names none (R294). -/
def Ins.syBad (i : Ins) (s : State) (v : BitVec 64) : Bool := v != 0x3FFF && (i.object s v).isNone

/-! ### CPY (R294) -/

/-- One end of a CPY as the instruction names it. -/
structure CpyEnd where
  /-- It is a VA. -/
  va : Bool
  /-- Address in the register. -/
  addr : Nat
  /-- Row stride. -/
  stride : Nat
  /-- Needle j of a local address. -/
  j : Nat

/-- Address of row `r`. -/
def CpyEnd.row (e : CpyEnd) (r : Nat) : Nat := e.addr + r * e.stride

/-- The address at which an end traps ADDR: a VA with bits [63:48] set, or a row that leaves its space or names the local memory of a
needle that is not in service (R294). -/
def CpyEnd.trap (e : CpyEnd) (s : State) (c rows bytes : Nat) : Option Nat :=
  if e.va then (if e.addr < 2 ^ 48 then none else some e.addr)
  else if bytes = 0 then none
  else
    let whole (a : Nat) : Bool := (isShared a && isShared (a + bytes - 1)) || (isLocal a && isLocal (a + bytes - 1) && (s.needleJ c e.j).isSome)
    ((List.range rows).find? (fun r => !whole (e.row r))).map e.row

/-- An end of one row as the engine takes it: a VA translated, or the status of its failure (R47, R57). -/
def CpyEnd.take (e : CpyEnd) (s : State) (ctx c r bytes : Nat) : XEnd ⊕ Nat :=
  if e.va then
    match s.translate ctx (e.row r) bytes with
    | .inl (k, f) => .inl (.va k (e.row r) f (s.segEpoch ctx k))
    | .inr st => .inr st
  else if isLocal (e.row r) then .inl (.loc ((s.needleJ c e.j).getD 0) (e.row r)) else .inl (.clus (e.row r))

/-- The rows of a CPY, or the status of the first that fails; a transfer between two other devices is a BAD_FIELD (R57). -/
def cpyRows (s : State) (src dst : CpyEnd) (ctx c bytes : Nat) : Nats → List (XEnd × XEnd) ⊕ Nat
  | [] => .inl []
  | r :: rs =>
    match src.take s ctx c r bytes, dst.take s ctx c r bytes with
    | .inl a, .inl b =>
      if a.remote s && b.remote s then .inr 4
      else match cpyRows s src dst ctx c bytes rs with
        | .inl es => .inl ((a, b) :: es)
        | .inr st => .inr st
    | .inr st, _ => .inr st
    | _, .inr st => .inr st

/-- A transfer of a needle's CPY or FSIG; 0x3FFF names no object to raise, whatever the allotment (R351). -/
def Ins.xfer (i : Ins) (s : State) (eng : Nat) (sy : BitVec 64) : Xfer := {
  who := .cpy i.n, eng, part := i.run.part, ctx := i.run.ctx, sync := if sy = 0x3FFF then none else i.object s sy, syIdx := sy.toNat, run := some i.id }

/-- Transfers of an engine. -/
def State.engineLoad (s : State) (e : Nat) : Nat := (s.xfers.filter (fun x => x.2.eng == e && !x.2.ended)).length

/-- CPY: the transfer goes to the cluster's engine that holds fewer; the needle stalls while both hold 32 (R294). -/
def execCpy (n : Nat) (x : Upset) (s : State) : Out :=
  .next (s.issue n 0x90 x (fun i s =>
    let kind := i.f 10 8
    let c := clusterOf i.n
    let sl := i.rs s (i.f 25 21)
    let sy := i.rs s (i.f 35 31)
    let sst := i.rs s (i.f 30 26)
    let rows := fld sl 47 32 + 1
    let bytes := fld sl 31 0
    let many := decide (1 < rows)
    let src : CpyEnd := { va := kind == 0 || kind == 3, addr := (i.rs s (i.f 20 16)).toNat, stride := if many then fld sst 31 0 else 0, j := i.f 41 39 }
    let dst : CpyEnd := { va := kind == 1 || kind == 3, addr := (i.rs s (i.f 15 11)).toNat, stride := if many then fld sst 63 32 else 0, j := i.f 38 36 }
    i.guard (i.f 63 42 != 0 || decide (3 < kind) || (src.va && src.j != 0) || (dst.va && dst.j != 0)) (
      let argBad := fld sl 63 48 != 0 || decide (2 ^ 30 < bytes)
      match (src.trap s c rows bytes).orElse (fun _ => dst.trap s c rows bytes) with
      | some a => .trap 4 a
      | none =>
        if argBad then .trap 6 sl.toNat
        else if i.syBad s sy then .trap 6 sy.toNat
        else
          let eng := s.copyEngine c
          if 32 ≤ s.engineLoad eng then .stay s
          else
            let id := s.takeId
            let x0 := i.xfer s eng sy
            let x1 := match cpyRows s src dst i.run.ctx c bytes (List.range rows) with
              | .inl ((a, b) :: more) => { x0 with src := a, dst := b, more, len := bytes }
              | .inl [] => x0
              | .inr st => { x0 with status := BitVec.ofNat 8 st, stopped := true }
            let x1 := if bytes = 0 then { x1 with more := [] } else x1
            .ok ({ id.2 with xfers := AMap.set id.2.xfers id.1 x1 }.xferSettle id.1))))

/-! ### FSIG (R295) -/

/-- FSIG: an add to a sync object of the device that the VA's segment names; its completion is reported as a CPY's (R295). -/
def execFsig (n : Nat) (x : Upset) (s : State) : Out :=
  .next (s.issue n 0x98 x (fun i s =>
    let sy := i.rs s (i.f 27 23)
    let val := i.rs s (i.f 22 18)
    let so := i.rs s (i.f 17 13)
    let va := i.rs s (i.f 12 8)
    i.guard (i.f 63 28 != 0) (
      if 2 ^ 14 ≤ so.toNat then .trap 6 so.toNat
      else if i.syBad s sy then .trap 6 sy.toNat
      else
        let id := s.takeId
        let put (t : State) (x : Xfer) : State := { t with xfers := AMap.set t.xfers id.1 x }
        let x0 := i.xfer s 128 sy
        match s.translate i.run.ctx va.toNat 0 with
        | .inr st => .ok ((put id.2 { x0 with status := BitVec.ofNat 8 st, stopped := true }).xferSettle id.1)
        | .inl (k, fpa) =>
          if fpaDev fpa = s.myId then
            match i.object s so with
            | none => .trap 6 so.toNat
            | some o => .ok ((put (id.2.syncAdd o val) x0).xferSettle id.1)
          else
            let r := id.2.segConn i.run.part (fpaDev fpa)
            match r.2 with
            | none => .ok ((put r.1 { x0 with status := 17, stopped := true }).xferSettle id.1)
            | some cid =>
              let t := put r.1 { x0 with dst := .va k va.toNat fpa (s.segEpoch i.run.ctx k), flying := 1, unacc := 1 }
              let t := t.segSend cid 7 (segKeyOf (s.seg i.run.ctx k) fpa) 0 0 [] id.1 0 [(511, 448, val.toNat), (333, 320, so.toNat)]
              .ok (t.pieceAccepted id.1))))

/-! ### Stream queues (R249-R251, R296) -/

/-- A push takes effect: discarded while the queue is DRAINING, which the first discarded item with END ends; otherwise stored, and
the timer starts where the queue was empty (R251, R252). -/
def SQ.push (q : SQ) (item : BitVec 72) : SQ :=
  if q.draining then { q with draining := !item.msb }
  else { q with items := q.items ++ [item], timer := if q.items.isEmpty then q.us != 0 else q.timer }

/-- A queue takes no push (R250). -/
def SQ.full (q : SQ) : Bool := !q.draining && decide (64 ≤ q.items.length)

/-- A stalled push takes effect and its needle goes on. -/
def State.resumePush (s : State) (c q n : Nat) : State :=
  let d := s.needle n
  let s := s.updSq c q (fun u => { u.push d.pushI with stalled := u.stalled.erase n })
  s.updNeedle n (fun d => { d with st := 1, pc := d.pc + 4 })

/-- SQPUSH: TYPE 0 is refused; a full queue stalls the needle (R250, R296). -/
def execSqpush (n : Nat) (x : Upset) (s : State) : Out :=
  .next (s.issue n 0x60 x (fun i s =>
    let c := clusterOf i.n
    let q := i.s1
    let item : BitVec 72 := pack 72 [(71, 71, i.f 30 30), (70, 64, i.f 29 23), (63, 0, (i.rs s i.s2).toNat)]
    i.guard (i.f 31 31 != 0 || i.d != 0 || i.f 29 23 == 0) (
      if (s.sq c q).full then
        .stay ((s.updSq c q (fun u => { u with stalled := u.stalled ++ [i.n] })).updNeedle i.n (fun d => { d with
          st := 2, pushQ := q, pushI := item }))
      else .ok (s.updSq c q (fun u => u.push item)))))

/-- SQPUSH_RESUME: an item has left, or a flush has emptied the queue (R250). -/
def execSqpushResume (n : Nat) (s : State) : Out :=
  let d := s.needle n
  .next (if d.st = 2 && !(s.sq (clusterOf n) d.pushQ).full then s.resumePush (clusterOf n) d.pushQ n else s)

/-- SQPOP: the oldest item, or the idle item; a pop that returns an item restarts the timer (R250, R252, R296). -/
def execSqpop (n : Nat) (x : Upset) (s : State) : Out :=
  .next (s.issue n 0x61 x (fun i s =>
    let c := clusterOf i.n
    let q := s.sq c i.s1
    i.guard (i.f 31 23 != 0 || (i.d == i.s2 && i.d != 0)) (
      match (if q.draining then [] else q.items) with
      | [] => i.set s (fun d => (d.ws i.d 0).ws i.s2 0)
      | it :: rest =>
        let s := s.updSq c i.s1 (fun u => { u with items := rest, timer := u.us != 0 && !rest.isEmpty })
        i.set s (fun d => (d.ws i.d (it.setWidth 64)).ws i.s2 (BitVec.ofNat 64 (fld it 71 64))))))

/-- SQFLUSH: every item goes; the queue is DRAINING where its last packet was incomplete. Producers stalled on it are released, and
their pushes take effect in turn (R251). -/
def execSqflush (n : Nat) (x : Upset) (s : State) : Out :=
  .next (s.issue n 0x62 x (fun i s =>
    let c := clusterOf i.n
    let q := s.sq c i.s1
    i.guard (i.f 31 18 != 0 || i.d != 0) (
      match q.items.getLast? with
      | none => .ok s
      | some it =>
        if q.draining then .ok s
        else
          let t := s.updSq c i.s1 (fun u => { u with items := [], draining := !it.msb, timer := false })
          .ok (t.each q.stalled (fun m t => t.resumePush c i.s1 m)))))

/-- SQSTAT (R296). -/
def execSqstat (n : Nat) (x : Upset) (s : State) : Out :=
  .next (s.issue n 0x63 x (fun i s =>
    let q := s.sq (clusterOf i.n) i.s1
    i.guard (i.f 31 18 != 0) (i.set s (fun d => d.ws i.d (pack 64 [(9, 9, b2n q.draining), (8, 8, b2n q.stale), (6, 0, q.items.length)])))))

/-! ### Sync objects and the tape (R297, R298) -/

/-- A sync instruction: PR and FN zero, and the object that s[S1] names, or ARG (R297). -/
def Ins.sync (i : Ins) (s : State) (bad : Bool) (k : Nat → Did) : Did :=
  i.guard (i.pr != 0 || i.fn != 0 || bad) (match i.object s (i.rs s i.s1) with
    | none => .trap 6 (i.rs s i.s1).toNat
    | some o => k o)

/-- SYADD (R297). -/
def execSyadd (n : Nat) (x : Upset) (s : State) : Out :=
  .next (s.issue n 0x68 x (fun i s => i.sync s (i.d != 0) (fun o => .ok (s.syncAdd o (i.rs s i.s2)))))

/-- SYWAIT: goes on at once where the object holds the value already, otherwise waits (R297). -/
def execSywait (n : Nat) (x : Upset) (s : State) : Out :=
  .next (s.issue n 0x69 x (fun i s => i.sync s false (fun o =>
    let t := i.rs s i.s2
    let v := (s.obj o).val
    if t.toNat ≤ v.toNat then i.set s (fun d => d.ws i.d v)
    else .stay (s.updNeedle i.n (fun d => { d with st := 3, waitObj := o, waitT := t, waitD := BitVec.ofNat 5 i.d, waitOk := none })))))

/-- SYWAIT_RESUME: the wait has been satisfied, and stays so if the object falls later (R297). -/
def execSywaitResume (n : Nat) (s : State) : Out :=
  let d := s.needle n
  .next (match d.waitOk with
    | some v =>
      if d.st = 3 then s.updNeedle n (fun d => { d with st := 1, waitOk := none, pc := d.pc + 4 }.ws d.waitD.toNat v) else s
    | none => s)

/-- SYRD (R297). -/
def execSyrd (n : Nat) (x : Upset) (s : State) : Out :=
  .next (s.issue n 0x6A x (fun i s => i.sync s (i.s2 != 0) (fun o => i.set s (fun d => d.ws i.d (s.obj o).val))))

/-- TAPE (R298). -/
def execTape (n : Nat) (x : Upset) (s : State) : Out :=
  .next (s.issue n 0x6C x (fun i s =>
    let k := i.f 31 18
    let frac := if s.tape.running then s.tape.frac.toNat else 0
    i.guard (i.s1 != 0 || decide (2 < k)) (i.set s (fun d => d.ws i.d (match k with
      | 0 => s.now
      | 1 => pack 64 [(19, 16, s.tape.state.toNat), (15, 0, frac)]
      | _ => BitVec.ofNat 64 (s.now.toNat % 2 ^ 48 * 2 ^ 16 + frac))))))

end Sys2Proof.Machine
end

