-- ==== Sys2Proof/Machine/NeedleVector.lean ====
section
/-!
DEFINITION. The needle's vector and predicate instructions (R282-R284, R286): element types, lane operations with their flags, and the
sorted list of VTOPK.
-/

namespace Sys2Proof.Machine

/-! ### Element types (R282) -/

/-- Bits of an element of type ET. -/
def etWidth (et : Nat) : Nat := if et = 0 || et = 3 then 32 else if et = 5 then 8 else 16
/-- Elements per register. -/
def etCount (et : Nat) : Nat := 1024 / etWidth et
/-- FP32, BF16 or FP16. -/
def etFloat (et : Nat) : Bool := decide (et < 3)
/-- Format of a floating-point type. -/
def etFmt (et : Nat) : FpFmt := fmtOf et

/-- Element `i` of a register. -/
def elem (w : Nat) (v : BitVec 1024) (i : Nat) : Nat := fld v (w * i + w - 1) (w * i)

/-- Element `i` of width `w` is active under a predicate: the bit of its lowest byte is 1 (R244). -/
def active (p : BitVec 128) (w i : Nat) : Bool := bitAt p (w / 8 * i)

/-- The elements of a destination: active ones computed from the old element and their number, with the flags of all (R282). -/
def laneMap (w : Nat) (p : BitVec 128) (old : BitVec 1024) (f : Nat → Nat → Nat × Flags) : BitVec 1024 × Flags :=
  let rs := (List.range (1024 / w)).map (fun i => let o := elem w old i; if active p w i then f i o else (o, {}))
  (BitVec.ofNat 1024 (ofElems w (rs.map Prod.fst)), (rs.map Prod.snd).foldl Flags.or {})

/-! ### Lane operations (R259, R283) -/

/-- The smaller or greater of two floating-point elements; a NaN gives the canonical NaN, and of zeros of both signs a free choice is
taken (assumption log 17). -/
def fpMinMax (f : FpFmt) (greater : Bool) (a b : Nat) : Nat :=
  let x := f.decode a
  let y := f.decode b
  if x.isNan || y.isNan then f.nanBits
  else if x.same y && x.neg != y.neg then (if Config.zeroSign [x.neg, y.neg] == x.neg then a else b)
  else if (if greater then y.lt x else x.lt y) then a else b

/-- VARITH on a floating-point element (R259, R283). -/
def fpLane (f : FpFmt) (op d a b : Nat) : Nat × Flags :=
  let x := f.decode a
  let y := f.decode b
  match op with
  | 0 => f.arith [x, y] (FVal.sum ieeeZero [x, y])
  | 1 => f.arith [x, y] (FVal.sum ieeeZero [x, y.negate])
  | 2 => f.arith [x, y] (x.mul y)
  | 3 => let z := f.decode d; f.arith [z, x, y] (FVal.sum ieeeZero [z, x.mul y])
  | 4 => (fpMinMax f false a b, {})
  | 5 => (fpMinMax f true a b, {})
  | _ => (if x.isNan then f.nanBits else a % 2 ^ (f.eb + f.mb), {})

/-- An integer result of `w` bits: it wraps, and INT32 sets IOVF (R282). -/
def intResult (w : Nat) (v : Int) : Nat × Flags := (wrapTo w v, { iovf := w == 32 && outOf w v })

/-- VARITH on an integer element (R283). -/
def intLane (w op d a b : Nat) : Nat × Flags :=
  let x := toSigned w a
  let y := toSigned w b
  match op with
  | 0 => intResult w (x + y)
  | 1 => intResult w (x - y)
  | 2 => intResult w (x * y)
  | 3 => intResult w (toSigned w d + x * y)
  | 4 => (if x < y then a else b, {})
  | 5 => (if x < y then b else a, {})
  | _ => intResult w x.natAbs

/-- VLOGIC on an element (R283). -/
def logicLane (w op a b : Nat) : Nat :=
  match op with
  | 0 => a &&& b
  | 1 => a ||| b
  | 2 => a ^^^ b
  | 3 => a &&& (2 ^ w - 1 - b)
  | 4 => a * 2 ^ (b % w) % 2 ^ w
  | 5 => a / 2 ^ (b % w)
  | _ => wrapTo w (toSigned w a / 2 ^ (b % w))

/-- A comparison by VCMP's FN[2:0], from what the operands' order is. -/
def cmpOp (op : Nat) (lt eq : Bool) : Bool :=
  match op with
  | 0 => eq
  | 1 => !eq
  | 2 => lt
  | 3 => lt || eq
  | 4 => !lt && !eq
  | _ => !lt

/-- VCMP on an element: a NaN compares false except under NE (R283). -/
def cmpLane (et op a b : Nat) : Bool :=
  if etFloat et then
    let x := (etFmt et).decode a
    let y := (etFmt et).decode b
    if x.isNan || y.isNan then op == 1 else cmpOp op (x.lt y) (x.same y)
  else
    let x := toSigned (etWidth et) a
    let y := toSigned (etWidth et) b
    cmpOp op (decide (x < y)) (x == y)

/-! ### Vector instructions -/

/-- ET of a vector instruction. -/
def Ins.et (i : Ins) : Nat := i.f 31 29
/-- Operation of a vector instruction. -/
def Ins.vop (i : Ins) : Nat := i.f 28 26

/-- A vector destination written element by element under p[PR] (R282). -/
def Ins.lanes (i : Ins) (s : State) (f : NeedleS → Nat → Nat → Nat × Flags) : Did :=
  i.set s (fun d =>
    let r := laneMap (etWidth i.et) (d.rp i.pr) (d.rv i.d) (f d)
    (d.wv i.d r.1).flag r.2)

/-- VARITH (R283). -/
def execVarith (n : Nat) (x : Upset) (s : State) : Out :=
  .next (s.issue n 0x40 x (fun i s =>
    let w := etWidth i.et
    i.guard (decide (5 < i.et) || i.vop == 7 || (i.vop == 6 && i.s2 != 0)) (i.lanes s (fun d k o =>
      let a := elem w (d.rv i.s1) k
      let b := elem w (d.rv i.s2) k
      if etFloat i.et then fpLane (etFmt i.et) i.vop o a b else intLane w i.vop o a b))))

/-- VLOGIC (R283). -/
def execVlogic (n : Nat) (x : Upset) (s : State) : Out :=
  .next (s.issue n 0x41 x (fun i s =>
    let w := etWidth i.et
    i.guard (decide (5 < i.et) || etFloat i.et || i.vop == 7) (i.lanes s (fun d k _ =>
      (logicLane w i.vop (elem w (d.rv i.s1) k) (elem w (d.rv i.s2) k), {})))))

/-- VCMP: each byte bit of an active element takes the result, the others are 0 (R283). -/
def execVcmp (n : Nat) (x : Upset) (s : State) : Out :=
  .next (s.issue n 0x42 x (fun i s =>
    let w := etWidth i.et
    i.guard (decide (5 < i.et) || decide (5 < i.vop) || decide (7 < i.d)) (i.set s (fun d =>
      let bit (b : Nat) : Bool :=
        let k := b / (w / 8)
        active (d.rp i.pr) w k && cmpLane i.et i.vop (elem w (d.rv i.s1) k) (elem w (d.rv i.s2) k)
      d.wp i.d (BitVec.ofNat 128 (ofElems 1 ((List.range 128).map (fun b => b2n (bit b)))))))))

/-- The sum of VRSUM: FP32 steps in ascending order from the first active element; integers exactly (R283). -/
def vrsum (et : Nat) (p : BitVec 128) (v : BitVec 1024) : BitVec 64 × Flags :=
  let w := etWidth et
  let es := ((List.range (etCount et)).filter (active p w)).map (elem w v)
  if etFloat et then
    match es.map (etFmt et).decode with
    | [] => (0, {})
    | a :: rest =>
      let r := rest.foldl (fun (acc : Nat × Flags) y =>
        let t := fp32.decode acc.1
        let z := fp32.arith [t, y] (FVal.sum ieeeZero [t, y])
        (z.1, acc.2.or z.2)) (fp32.arith [a] a)
      (BitVec.ofNat 64 r.1, r.2)
  else (low64 ((es.map (toSigned w)).sum), {})

/-- VMISC: VMOV, VSEL, VBCAST, VRSUM, VEXT, VIDX (R283). -/
def execVmisc (n : Nat) (x : Upset) (s : State) : Out :=
  .next (s.issue n 0x43 x (fun i s =>
    let et := i.et
    let w := etWidth et
    i.guard (decide (5 < et)) (match i.vop with
      | 0 => i.guard (i.s2 != 0) (i.lanes s (fun d k _ => (elem w (d.rv i.s1) k, {})))
      | 1 => i.set s (fun d => d.wv i.d (BitVec.ofNat 1024 (ofElems w ((List.range (etCount et)).map (fun k =>
          if active (d.rp i.pr) w k then elem w (d.rv i.s1) k else elem w (d.rv i.s2) k)))))
      | 2 => i.guard (i.s2 != 0) (i.lanes s (fun d _ _ => ((d.rs i.s1).toNat % 2 ^ w, {})))
      | 3 => i.guard (i.s2 != 0) (i.set s (fun d =>
          let r := vrsum et (d.rp i.pr) (d.rv i.s1)
          (d.ws i.d r.1).flag r.2))
      | 4 => i.guard (i.pr != 0) (i.set s (fun d => d.ws i.d (BitVec.ofNat 64 (elem w (d.rv i.s1) ((d.rs i.s2).toNat % etCount et)))))
      | 5 => i.guard (etFloat et || i.s1 != 0 || i.s2 != 0) (i.lanes s (fun _ k _ => (k % 2 ^ w, {})))
      | _ => i.illegal)))

/-- PLOGIC (R284). -/
def execPlogic (n : Nat) (x : Upset) (s : State) : Out :=
  .next (s.issue n 0x44 x (fun i s =>
    let bad := i.pr != 0 || decide (5 < i.fn) || decide (7 < i.d) || (i.fn != 5 && decide (7 < i.s1)) ||
      (if i.fn = 4 || i.fn = 5 then i.s2 != 0 else decide (7 < i.s2))
    i.guard bad (i.set s (fun d =>
      let a := d.rp i.s1
      let b := d.rp i.s2
      d.wp i.d (match i.fn with
        | 0 => a &&& b
        | 1 => a ||| b
        | 2 => a ^^^ b
        | 3 => a &&& ~~~b
        | 4 => ~~~a
        | _ => BitVec.ofNat 128 (2 ^ min (d.rs i.s1).toNat 128 - 1))))))

/-! ### VTOPK (R286) -/

/-- Candidate `a` = (score, index) stands before `b`: the better score, or an equal one with the lower index. -/
def topBefore (int asc : Bool) (a b : Nat × Nat) : Bool :=
  let lt (x y : Nat) : Bool := if int then decide (toSigned 32 x < toSigned 32 y) else (fp32.decode x).lt (fp32.decode y)
  let better (x y : Nat) : Bool := if asc then lt x y else lt y x
  better a.1 b.1 || (!better b.1 a.1 && decide (a.2 < b.2))

/-- The sentinel score. -/
def topSentinel (int asc : Bool) : Nat := if int then (if asc then 2 ^ 31 - 1 else 2 ^ 31) else fp32.infBits (!asc)

/-- The new list of VTOPK: the best K of the list's entries and the active lanes, best first; places that no candidate takes hold the
sentinel and the index 0xFFFF_FFFF. -/
def topList (k : Nat) (asc int : Bool) (old scores : BitVec 1024) (p : BitVec 128) (b : Nat) : BitVec 1024 :=
  let mine := (List.range k).map (fun j => (elem 32 old j, elem 32 old (16 + j)))
  let new := ((List.range 32).filter (active p 32)).map (fun j => (elem 32 scores j, (b + j) % 2 ^ 32))
  let cs := (mine ++ new).filter (fun c => int || !(fp32.decode c.1).isNan)
  let best := (sortBy (topBefore int asc) cs).take k
  let lane (j : Nat) : Nat := if j < 16 then (match best[j]? with | some c => c.1 | none => topSentinel int asc)
    else (match best[j - 16]? with | some c => c.2 | none => 0xFFFFFFFF)
  BitVec.ofNat 1024 (ofElems 32 ((List.range 32).map lane))

/-- VTOPK (R286). -/
def execVtopk (n : Nat) (x : Upset) (s : State) : Out :=
  .next (s.issue n 0x45 x (fun i s => i.set s (fun d =>
    d.wv i.d (topList (i.fn % 16 + 1) (bitAt (BitVec.ofNat 6 i.fn) 4) (bitAt (BitVec.ofNat 6 i.fn) 5) (d.rv i.d) (d.rv i.s1)
      (d.rp i.pr) ((d.rs i.s2).toNat % 2 ^ 32)))))

end Sys2Proof.Machine
end

