-- ==== Sys2Proof/Machine/NeedleTile.lean ====
section
/-!
DEFINITION. The needle's multiply-accumulate array (R253-R255, R287-R290) and its conversions (R260-R262, R291-R293).
-/

namespace Sys2Proof.Machine

/-! ### Operands of the array (R253, R288, R289) -/

/-- A TMMA format is one of the MX formats. -/
def tIsMx (f : Nat) : Bool := decide (5 ≤ f ∧ f ≤ 9)
/-- The MX pair of a format: 0 none, 1 MXFP8, 2 MXFP6, 3 MXFP4. -/
def tPair (f : Nat) : Nat := if f = 5 || f = 6 then 1 else if f = 7 || f = 8 then 2 else if f = 9 then 3 else 0
/-- Element format of a TMMA format, for those that are not INT8. -/
def tFmt (f : Nat) : FpFmt :=
  match f with
  | 0 => bf16 | 1 => fp16 | 2 => e4m3 | 3 => e5m2 | 5 => e4m3 | 6 => e5m2 | 7 => e3m2 | 8 => e2m3 | _ => e2m1
/-- Bits of an element. -/
def tWidth (f : Nat) : Nat := if f = 4 then 8 else (tFmt f).width
/-- Elements of a row in its register (R253). -/
def tRow (f : Nat) : Nat := if f < 2 then 16 else if f = 9 then 64 else 32
/-- Bytes of a row in its register (R253). -/
def tRowBytes (f : Nat) : Nat := if f = 7 || f = 8 then 24 else 32
/-- Products of a cycle in the dense form (R253). -/
def tCycle (f : Nat) : Nat := if f < 2 then 4 else if f = 7 || f = 8 || f = 9 then 16 else 8

/-- Bits of element `m` of row `r` of a register. -/
def tElem (f : Nat) (v : BitVec 1024) (r m : Nat) : Nat :=
  let lo := 8 * tRowBytes f * r + tWidth f * m
  fld v (lo + tWidth f - 1) lo

/-- Operands of one element of C: for each K, in order, the values of A and B multiplied there; in the sparse form every value of A
at its position, and +0 elsewhere (R255). -/
abbrev Terms := List (List FVal × FVal)

/-- Terms of the dense form. -/
def denseTerms (fa fb : Nat) (va vb : BitVec 1024) (i j : Nat) : Terms :=
  (List.range (tRow fa)).map (fun k => ([(tFmt fa).decode (tElem fa va i k)], (tFmt fb).decode (tElem fb vb j k)))

/-- Terms of the sparse form: K runs over both B registers (R255, R289). -/
def sparseTerms (f : Nat) (va vb vb1 vi : BitVec 1024) (i j : Nat) : Terms :=
  let half := tRow f
  (List.range (2 * half)).map (fun k =>
    let g := k / 4
    let idx (m : Nat) : Nat := fld vi (64 * i + 4 * g + 2 * m + 1) (64 * i + 4 * g + 2 * m)
    let stored := ([0, 1].filter (fun m => idx m == k % 4)).map (fun m => (tFmt f).decode (tElem f va i (2 * g + m)))
    let b := if k < half then tElem f vb j k else tElem f vb1 j (k - half)
    (if stored.isEmpty then [.fin false 0 0] else stored, (tFmt f).decode b))

/-- A list cut into groups of `n`. The first argument bounds them. -/
def groupsOf {α : Type} (n : Nat) : Nat → List α → List (List α)
  | 0, _ => []
  | f + 1, xs => if xs.isEmpty then [] else xs.take n :: groupsOf n f (xs.drop n)

/-- One cycle of the array on one element: the exact sum of the accumulator's value and the scaled products, rounded once; a NaN sets
INV whatever it came from (R254). -/
def arrayStep (acc : Nat) (ps : Terms) (scale : Int) (nan : Bool) : Nat × Flags :=
  let prods := ps.flatMap (fun t => t.1.map (fun a => (a.mul t.2).scale scale))
  let v := if nan then .nan else FVal.sum arrayZero (fp32.decode acc :: prods)
  let r := fp32.arith [] v
  (r.1, if v.isNan then { inv := true } else r.2)

/-- The E8M0 scale byte of row `r`, at K position `k`: two blocks of 32 per row for MXFP4 (R289). -/
def tScale (f : Nat) (sc : BitVec 64) (r k : Nat) : Nat :=
  let b := if f = 9 then 2 * r + k / 32 else r
  fld sc (8 * b + 7) (8 * b)

/-- Element (i, j) of C after a floating-point TMMA. -/
def tElement (acc cyc : Nat) (terms : Terms) (scales : Nat → Nat × Nat) (mx : Bool) : Nat × Flags :=
  ((groupsOf cyc terms.length terms).zipIdx).foldl (fun (a : Nat × Flags) g =>
    let x := scales (g.2 * cyc)
    let r := if mx then arrayStep a.1 g.1 ((x.1 : Int) + x.2 - 254) (x.1 == 0xFF || x.2 == 0xFF) else arrayStep a.1 g.1 0 false
    (r.1, a.2.or r.2)) (acc, {})

/-- Element (i, j) of C after an INT8 TMMA: eight products a cycle, wrapping modulo 2^32 (R254). -/
def tInteger (acc : Nat) (va vb : BitVec 1024) (i j : Nat) : Nat × Flags :=
  (List.range 4).foldl (fun (a : Nat × Flags) c =>
    let z := toSigned 32 a.1 + ((List.range 8).map (fun k =>
      toSigned 8 (tElem 4 va i (8 * c + k)) * toSigned 8 (tElem 4 vb j (8 * c + k)))).sum
    (wrapTo 32 z, a.2.or { iovf := outOf 32 z })) (acc, {})

/-- TMMA: a[AD] += A·B (R253-R255, R287-R289). -/
def execTmma (n : Nat) (x : Upset) (s : State) : Out :=
  .next (s.issue n 0x80 x (fun i s =>
    let fa := i.f 39 36
    let fb := i.f 43 40
    let sparse := i.f 44 44 == 1
    let va := i.f 15 11
    let vb := i.f 20 16
    let bad := i.f 63 46 != 0 || decide (9 < fa) || decide (9 < fb) || (fa != fb && !(tPair fa == tPair fb && tPair fa != 0)) ||
      (!tIsMx fa && (i.f 30 26 != 0 || i.f 35 31 != 0)) || (!sparse && i.f 25 21 != 0) ||
      (sparse && (decide (3 < fa) || fa != fb || vb % 2 == 1))
    i.guard bad (i.set s (fun d =>
      let old := d.ra (i.f 10 8)
      let rs := (List.range 16).map (fun e =>
        let acc := if i.f 45 45 = 1 then 0 else fld old (32 * e + 31) (32 * e)
        let r := e / 4
        let c := e % 4
        if fa = 4 then tInteger acc (d.rv va) (d.rv vb) r c
        else if sparse then
          tElement acc (2 * tCycle fa) (sparseTerms fa (d.rv va) (d.rv vb) (d.rv (vb + 1)) (d.rv (i.f 25 21)) r c) (fun _ => (0, 0)) false
        else
          tElement acc (tCycle fa) (denseTerms fa fb (d.rv va) (d.rv vb) r c)
            (fun k => (tScale fa (d.rs (i.f 30 26)) r k, tScale fb (d.rs (i.f 35 31)) c k)) (tIsMx fa))
      (d.wa (i.f 10 8) (BitVec.ofNat 512 (ofElems 32 (rs.map Prod.fst)))).flag ((rs.map Prod.snd).foldl Flags.or {})))))

/-- TMISC: TZERO, TRD, TWR (R290). -/
def execTmisc (n : Nat) (x : Upset) (s : State) : Out :=
  .next (s.issue n 0x50 x (fun i s =>
    i.guard (i.pr != 0 || i.s2 != 0) (match i.fn with
      | 0 => i.guard (decide (7 < i.d) || i.s1 != 0) (i.set s (fun d => d.wa i.d 0))
      | 1 => i.guard (decide (7 < i.s1)) (i.set s (fun d => d.wv i.d ((d.ra i.s1).setWidth 1024)))
      | 2 => i.guard (decide (7 < i.d)) (i.set s (fun d => d.wa i.d ((d.rv i.s1).setWidth 512)))
      | _ => i.illegal)))

/-! ### Conversions (R291-R293) -/

/-- SRCF. -/
def Ins.srcF (i : Ins) : Nat := i.f 31 28
/-- DSTF. -/
def Ins.dstF (i : Ins) : Nat := i.f 35 32
/-- SPART. -/
def Ins.spart (i : Ins) : Nat := i.f 38 36
/-- DPART. -/
def Ins.dpart (i : Ins) : Nat := i.f 41 39
/-- MODE. -/
def Ins.mode (i : Ins) : Nat := i.f 43 42
/-- RES. -/
def Ins.res (i : Ins) : Nat := i.f 44 44
/-- SS. -/
def Ins.ss (i : Ins) : Nat := i.f 27 23
/-- VR. -/
def Ins.vr (i : Ins) : Nat := i.f 22 18

/-- A part of a format that lies within a register (R292). -/
def partOk (code part : Nat) : Bool := decide (code ≤ 9) && decide (4 * codeWidth code * (part + 1) ≤ 128)

/-- The 32 elements of a part (R292). -/
def partElems (code part : Nat) (v : BitVec 1024) : Nats :=
  let w := codeWidth code
  (List.range 32).map (fun m => fld v (32 * w * part + w * m + w - 1) (32 * w * part + w * m))

/-- A part written; the register's other bytes keep their values. -/
def putPart (code part : Nat) (v : BitVec 1024) (es : Nats) : BitVec 1024 :=
  let w := codeWidth code
  setFld v (32 * w * (part + 1) - 1) (32 * w * part) (ofElems w es)

/-- A value of a conversion's source. -/
def srcVal (code bits : Nat) : FVal := if code = 8 then .ofInt (toSigned 8 bits) else if code = 9 then .ofInt (toSigned 32 bits) else (fmtOf code).decode bits

/-- A value converted to a destination format (R261, R293). -/
def dstVal (code : Nat) (mode : Rnd) (v : FVal) : Nat × Flags :=
  if code = 8 then toIntSat 8 mode v else if code = 9 then toIntSat 32 mode v else (fmtOf code).convert mode v

/-- A conversion that every source value survives exactly: it ignores MODE (R293). -/
def widening (src dst : Nat) : Bool := (dst == 0 && src != 9) || (src == 8 && dst == 9)

/-- VCVT (R293). -/
def execVcvt (n : Nat) (x : Upset) (s : State) : Out :=
  .next (s.issue n 0x88 x (fun i s =>
    let a := i.srcF
    let b := i.dstF
    let pair := ((a == 0) != (b == 0)) || (a == 8 && b == 9) || (a == 9 && b == 8)
    let bad := i.f 63 45 != 0 || i.mode == 3 || !pair || !partOk a i.spart || !partOk b i.dpart || i.ss != 0 || i.vr != 0 || i.res != 0
    i.guard bad (i.set s (fun d =>
      let r := roundings 32 (if widening a b then 0 else i.mode) d.srseed
      let es := (List.zip (partElems a i.spart (d.rv i.s1)) r.1).map (fun e => dstVal b e.2 (srcVal a e.1))
      let d := { d with srseed := r.2 }
      (d.wv i.d (putPart b i.dpart (d.rv i.d) (es.map Prod.fst))).flag ((es.map Prod.snd).foldl Flags.or {})))))

/-- VCVTMX: one MX block, its scale and its residuals (R262, R293). -/
def execVcvtmx (n : Nat) (x : Upset) (s : State) : Out :=
  .next (s.issue n 0x89 x (fun i s =>
    let a := i.srcF
    let b := i.dstF
    let bad := i.f 63 45 != 0 || i.mode == 3 || !(a == 0 || a == 1) || !(decide (3 ≤ b ∧ b ≤ 7)) || !partOk a i.spart || !partOk b i.dpart ||
      (if i.res = 1 then i.vr == i.d || i.vr == i.s1 else i.vr != 0)
    i.guard bad (i.set s (fun d =>
      let r := roundings 32 i.mode d.srseed
      let vs := (partElems a i.spart (d.rv i.s1)).map (srcVal a)
      let m := toMx (fmtOf b) r.1 vs
      let res := mxResiduals (fmtOf b) m.1 vs m.2.1
      let d := { d with srseed := r.2 }
      let d := d.wv i.d (putPart b i.dpart (d.rv i.d) m.2.1)
      let d := (d.ws i.ss (setFld (d.rs i.ss) (8 * i.dpart + 7) (8 * i.dpart) m.1)).flag m.2.2
      if i.res = 1 then (d.wv i.vr (BitVec.ofNat 1024 (ofElems 32 (res.map Prod.fst)))).flag ((res.map Prod.snd).foldl Flags.or {}) else d))))

/-- VMXDQ: elements times their block's scale, in FP32 (R293). -/
def execVmxdq (n : Nat) (x : Upset) (s : State) : Out :=
  .next (s.issue n 0x8A x (fun i s =>
    let a := i.srcF
    let bad := i.f 63 45 != 0 || i.mode != 0 || i.dpart != 0 || i.dstF != 0 || !(decide (3 ≤ a ∧ a ≤ 7)) || !partOk a i.spart || i.vr != 0 ||
      i.res != 0
    i.guard bad (i.set s (fun d =>
      let sc := fld (d.rs i.ss) (8 * i.spart + 7) (8 * i.spart)
      let es := (partElems a i.spart (d.rv i.s1)).map (fun e => let v := mxVal (fmtOf a) sc e; fp32.arith [v] v)
      (d.wv i.d (BitVec.ofNat 1024 (ofElems 32 (es.map Prod.fst)))).flag ((es.map Prod.snd).foldl Flags.or {})))))

/-- VSCALE: each lane × 2^e, e clamped to −300 to +300 (R293). -/
def execVscale (n : Nat) (x : Upset) (s : State) : Out :=
  .next (s.issue n 0x8B x (fun i s =>
    let bad := i.f 63 45 != 0 || i.mode != 0 || i.dpart != 0 || i.spart != 0 || i.dstF != 0 || i.srcF != 0 || i.vr != 0 || i.res != 0
    i.guard bad (i.set s (fun d =>
      let e := max (-300) (min 300 (d.rs i.ss).toInt)
      let es := (partElems 0 0 (d.rv i.s1)).map (fun b => let v := fp32.decode b; fp32.arith [v] (v.scale e))
      (d.wv i.d (BitVec.ofNat 1024 (ofElems 32 (es.map Prod.fst)))).flag ((es.map Prod.snd).foldl Flags.or {})))))

end Sys2Proof.Machine
end

