-- ==== Sys2Proof/Machine/Programs.lean ====
section
/-!
DEFINITION. Programs in the data path (chapter 13): images and their checks, loading, binding, unbinding and unloading, launches,
and the starts of runs of every kind (R309, R344).
-/

namespace Sys2Proof.Machine

/-! ### Images (R304, R305) -/

/-- The greatest budget of a kind, in microseconds (R314). -/
def budgetCap (kind : Nat) : Nat := if kind = 1 || kind = 4 then 10000000 else 1000

/-- Little-endian number of `n` bytes at an offset of an image. -/
def imgNat (b : Bytes) (off n : Nat) : Nat := natLE ((b.drop off).take n)

/-- QCFG entries of an image. -/
def imgQcfg (b : Bytes) : List (BitVec 32) := (List.range 32).map (fun i => BitVec.ofNat 32 (imgNat b (0x20 + 4 * i) 4))

/-- A QCFG entry that R252 refuses: STALE_US above 1,000, or a running timer that names no object of the partition. -/
def State.qcfgBad (s : State) (p : Nat) (e : BitVec 32) : Bool :=
  decide (1000 < fld e 23 14) || (fld e 23 14 != 0 && fld e 13 0 != 0x3FFF && (Ranges.item (s.part p).syncs (fld e 13 0)).isNone)

/-- PROG_REASON of an image, 0 for none (R304, R305, R318). -/
def State.imageReason (s : State) (p : Nat) (b : Bytes) : Nat :=
  let kind := imgNat b 6 1
  let nmin := imgNat b 7 1
  let text := imgNat b 8 4
  let entry := imgNat b 0x0C 4
  let sig := imgNat b 0x14 1
  let ks := imgNat b 0x16 2
  let key := (Ranges.item (s.part p).keys ks).map s.key
  let digest := natBE ((b.drop 0xA0).take 48)
  let mac := natBE ((b.drop 0xD0).take 48)
  let q := imgQcfg b
  if b.length < 256 then 3
  else if imgNat b 0 4 != 0x4E444C36 || imgNat b 4 2 != 1 then 1
  else if kind = 0 || 4 < kind then 2
  else if b.length != 256 + text || text % 4 != 0 || text = 0 || 262144 < text || nmin = 0 || 8 < nmin || (kind != 1 && nmin != 1) then 3
  else if entry % 4 != 0 || text ≤ entry then 4
  else if imgNat b 0x10 4 = 0 || budgetCap kind < imgNat b 0x10 4 then 5
  else if imgNat b 0x15 1 != 0 || imgNat b 0x18 8 != 0 || q.any (fun e => !zeroFld e 31 24) then 10
  else if (if kind = 1 then q.any (s.qcfgBad p) else q.any (fun e => e != 0)) then 9
  else if (if sig = 1 then key.all (fun k => k.ty != 2) else ks != 0) then 8
  else if digest != (Config.sha384 (b.take 0xA0 ++ b.drop 0x100)).toNat then 6
  else if 1 < sig || (sig == 0 && (mac != 0 || (s.part p).requireSig)) ||
      (sig == 1 && (match key with
        | some k => decide ((Config.hmac384 k.key (b.take 0xD0)).toNat ≠ mac)
        | none => true)) then 7
  else 0

/-- The lowest address of a contiguous free region of instruction memory, the same in every cluster of the partition (R306; assumption
log 9). -/
def PartS.textRoom (p : PartS) (len : Nat) : Option Nat :=
  let used := p.progs.map (fun g => (g.2.addr, g.2.textLen))
  let starts := sortUp (0 :: used.map (fun e => e.1 + e.2))
  starts.find? (fun a => decide (a + len ≤ 2 ^ 18) && used.all (fun e => decide (e.1 + e.2 ≤ a) || decide (a + len ≤ e.1)))

/-- The program an image holds, its address still to be chosen. -/
def imageProg (b : Bytes) : Prog := {
  kind := imgNat b 6 1, nmin := imgNat b 7 1, textLen := imgNat b 8 4, entry := imgNat b 0x0C 4, budget := imgNat b 0x10 4
  qcfg := imgQcfg b }

/-- A checked image takes its handle and region, and its text is copied into every cluster of the partition (R306). -/
def State.progPlace (s : State) (p : Nat) (g : Prog) (text : Bytes) : Ans :=
  let ps := s.part p
  match (List.range 256).find? (fun i => (AMap.get? ps.progs i).isNone), ps.textRoom g.textLen with
  | some i, some a =>
    let s := s.updPart p (fun x => { x with progs := AMap.set x.progs i { g with addr := a } })
    let s := s.each ps.clusters (fun c t => { t with imem := Memory.wrs t.imem (c * 2 ^ 18 + a) text })
    Ans.ok s [sc 2 (AMap.get ps.progGen i 1 * 256 + i)]
  | _, _ => Ans.noRes s

/-- Some cluster of the partition is still being cleared (R243). -/
def State.clearing (s : State) (p : Nat) : Bool := (s.part p).clusters.any (fun c => (s.clu c).st == 1)

/-- PROG_LOAD: the image is read through its context and checked; its text is copied once no cluster of the partition is CLEARING (R304,
R306, R318). -/
def execProgLoad (h : Issue) (ctx va len : Nat) (o : Outside) (s : State) : Out :=
  .next (vuino h 0x0610 [ctx, va, len] (fun s =>
    if s.ctxOwner ctx != some h.part then Ans.bad s 0 13
    else if len < 256 || 256 + 262144 < len then Ans.bad s 0 3
    else
      let r := s.ctxRead h.part ctx va len [] o.bytes o.rd
      let s := r.1
      match r.2 with
      | .inr st => { st := s, status := st }
      | .inl b =>
        let why := s.imageReason h.part b
        if why != 0 then Ans.bad s 0 why
        else if s.clearing h.part then
          Ans.wait (s.updPart h.part (fun p => { p with loadWait := p.loadWait ++ [(h, imageProg b, b.drop 256)] }))
        else s.progPlace h.part (imageProg b) (b.drop 256)) s)

/-- A PROG_LOAD that waited for its clusters ends (R306, R430). -/
def State.progLoadEnd (s : State) (p tag : Nat) : State :=
  match (s.part p).loadWait.find? (fun e => e.1.tag == tag) with
  | none => s
  | some e =>
    if s.clearing p then s
    else
      let s := s.updPart p (fun x => { x with loadWait := x.loadWait.filter (fun f => f.1.tag != tag) })
      let a := s.progPlace p e.2.1 e.2.2
      a.st.longEnd e.1 0x0610 a

/-! ### Binding (R307, R308) -/

/-- A handle names a current program that is not being unloaded. -/
def State.progLive (s : State) (p handle : Nat) : Option Prog := (s.prog? p handle).bind (fun g => if g.unloading.isSome then none else some g)

/-- Key of a target in the bindings, if the partition has it. -/
def State.bindKey (s : State) (p tkind target : Nat) : Option Nat :=
  match tkind with
  | 0 => if s.queueKind p target 1 then some (qkey p target) else none
  | 1 => if (s.conn target).st != 0 && (s.conn target).part == p && !(s.conn target).seg then some (2 ^ 32 + target) else none
  | 2 => (Ranges.item (s.part p).colls target).map collKey
  | _ => none

/-- PROG_REASON of a binding block, 0 for none (R307, R308). -/
def State.bindReason (s : State) (p : Nat) (key : Nat) (blk : BitVec 256) : Nat :=
  let tk := fld blk 17 16
  let b : Bind := { blk, part := p }
  let n := (s.part p).clusters.length
  match s.progLive p (fld blk 15 0) with
  | none => 2
  | some g =>
    let cs := s.bindClusters b
    let size := b.slotCount * b.chunk
    if tk = 3 || g.kind != tk + 2 then 2
    else if fld blk 63 40 != 0 && decide (budgetCap g.kind < fld blk 63 40) then 5
    else if decide (1 < fld blk 19 18) || (tk != 1 && fld blk 19 18 != 0) || (tk == 1 && b.outBase != 0) ||
        (tk == 2 && !(zeroFld blk 191 128 && zeroFld blk 39 32)) then 10
    else if tk != 2 && (decide (6 < fld blk 35 32) || (tk == 1 && fld blk 35 32 != 0) || !inShared b.inBase size ||
        !s.slotsClear key cs b.inBase size || (tk == 0 && (!inShared b.outBase size || !s.slotsClear key cs b.outBase size))) then 11
    else if fld blk 127 64 = 0 || 2 ^ n ≤ fld blk 127 64 then 12
    else if s.ctxOwner (fld blk 31 20) != some p then 13
    else 0

/-- PROG_BIND (R307, R308). -/
def execProgBind (h : Issue) (target : Nat) (blk : BitVec 256) (s : State) : Out :=
  .next (vuino h 0x0611 [target, blk.toNat] (fun s =>
    match s.bindKey h.part (fld blk 17 16) target with
    | none => Ans.bad s 0 (if fld blk 17 16 = 3 then 2 else 0)
    | some k =>
      let why := s.bindReason h.part k blk
      let kernel := (s.bindClusters { blk, part := h.part }).any (fun c => s.runs.any (fun r => r.2.kind == 1 && r.2.clusters.contains c))
      if why != 0 then Ans.bad s 0 why
      else if (AMap.get? s.binds k).isSome || kernel then Ans.busy s
      else Ans.ok { s with binds := AMap.set s.binds k { blk, part := h.part } }) s)

/-! ### Unbinding and unloading (R317) -/

/-- Messages of a send queue of which no chunk has a slot are sent untransformed: their source is read as any other's. -/
def State.untransform (s : State) (k : Nat) : State :=
  s.eachOf (s.conns.flatMap (fun e => (e.2.tx.filter (fun m => m.q == k && !m.fin && !m.settled && m.wait != 0 && m.given == 0)).map (fun m => (e.1, m))))
    (fun e t =>
      let m := e.2
      let t := t.updMsg e.1 m.msn (fun m => { m with wait := 0, chunks := 0 })
      let x : Xfer := {
        who := .msg e.1 m.msn.toNat, eng := 128, part := (t.conn e.1).part, ctx := (t.queue k).ctx
        src := .va m.seg (fld m.d 239 192) m.lfpa m.epoch, dst := .pkt, len := m.len, work := m.work }
      let r := t.takeId
      { r.2 with xfers := AMap.set r.2.xfers r.1 x })

/-- A binding takes no new run from now on (R317). -/
def State.unbindBegin (s : State) (k : Nat) (h : Issue) : State :=
  let s := s.updBind k (fun b => { b with unbinding := some h })
  if k < 2 ^ 32 then s.untransform k
  else if k < 2 * 2 ^ 32 then (s.dropHandlerWaits (k % 2 ^ 32)).rxSettle (k % 2 ^ 32) false
  else s.collDo (k % 2 ^ 32) (fun t => if 2 ≤ (t.coll (k % 2 ^ 32)).st then t.collUser (k % 2 ^ 32) true else t)

/-- PROG_UNBIND (R317). -/
def execProgUnbind (h : Issue) (tkind target force : Nat) (s : State) : Out :=
  .next (vuino h 0x0612 [tkind, target, force] (fun s =>
    match (s.bindKey h.part tkind target).bind (fun k => (AMap.get? s.binds k).map (fun b => (k, b))) with
    | none => Ans.bad s
    | some (k, b) =>
      if 1 < force then Ans.bad s
      else if b.unbinding.isSome || (tkind == 2 && force == 0 && decide (2 ≤ (s.coll (k % 2 ^ 32)).st)) then Ans.busy s
      else
        let s := s.unbindBegin k h
        if s.bindInUse k then Ans.wait s else Ans.ok { s with binds := AMap.erase s.binds k }) s)

/-- Launches of a program end PROG_GONE: the running ones at once, the queued ones in their order (R317). -/
def State.dropLaunches (s : State) (p handle : Nat) : State :=
  let s := s.eachOf (s.runs.filter (fun r => r.2.kind == 1 && r.2.part == p && r.2.prog.toNat == handle)) (fun r t =>
    (t.dropRun r.1).computeDone r.2.q r.2.work
      (launchCqe r.2.wrId.toNat 0 0 0 0 ((t.now.toNat - r.2.startNs) / 1000) (qnum r.2.q) 23) 0 [] none)
  let mine (l : LaunchW) : Bool := l.part == p && (match l.launch with | some d => fld d 87 72 == handle | none => false)
  let ls := s.launches.filter mine
  let s := { s with launches := s.launches.filter (fun l => !mine l) }
  s.eachOf ls (fun l t => t.computeDone l.q l.work (launchCqe (fld (l.launch.getD 0) 191 128) 0 0 0 0 0 (qnum l.q) 23) 0 [] none)

/-- PROG_UNLOAD (R317). -/
def execProgUnload (h : Issue) (prog force : Nat) (s : State) : Out :=
  .next (vuino h 0x0613 [prog, force] (fun s =>
    match s.prog? h.part prog with
    | none => Ans.bad s
    | some g =>
      let bs := s.binds.filter (fun b => b.2.part == h.part && fld b.2.blk 15 0 == prog)
      let launched := s.runs.any (fun r => r.2.part == h.part && r.2.prog.toNat == prog) ||
        s.launches.any (fun l => l.part == h.part && (match l.launch with | some d => fld d 87 72 == prog | none => false))
      if 1 < force then Ans.bad s
      else if g.unloading.isSome || (force == 0 && (!bs.isEmpty || launched)) then Ans.busy s
      else
        let s := s.eachOf (bs.filter (fun b => b.2.unbinding.isNone)) (fun b t => t.unbindBegin b.1 h)
        let s := s.dropLaunches h.part prog
        let s := s.updProg h.part prog (fun g => { g with unloading := some h })
        let s := s.programsSettle
        if (s.prog? h.part prog).isSome then Ans.wait s else Ans.ok s) s)

/-- PROG_QUERY (R318). -/
def execProgQuery (h : Issue) (prog : Nat) (s : State) : Out :=
  .next (vuino h 0x0614 [prog] (fun s =>
    match s.prog? h.part prog with
    | none => Ans.bad s
    | some g =>
      let bs := s.binds.filter (fun b => b.2.part == h.part && fld b.2.blk 15 0 == prog)
      Ans.ok s [sc 1 g.kind, sc 4 g.textLen, sc 8 g.addr, sc 8 bs.length, sc 8 g.runs, sc 8 g.faults]) s)

/-- PROG_POLICY (R305, R318). -/
def execProgPolicy (h : Issue) (part requireSig : Nat) (s : State) : Out :=
  .next (vuino h 0x0615 [part, requireSig] (fun s =>
    if !s.created part || 1 < requireSig then Ans.bad s
    else Ans.ok (s.updPart part (fun p => { p with requireSig := requireSig == 1 }))) s)

/-! ### Kernels (R310, R416) -/

/-- A launch descriptor as fetched: malformed, or waiting its turn in its queue. -/
def State.launchDesc (s : State) (p q slot : Nat) (d : Desc) : State :=
  let k := qkey p q
  if !s.queueKind p q 4 then s
  else if fld d 15 12 != 4 || fld d 11 8 != 0 || fld d 7 0 != 1 || fld d 23 16 != 1 || !(zeroFld d 103 95 && zeroFld d 71 24) then
    s.malformed p q slot (fld d 63 0)
  else
    let r := s.takeId
    let s := r.2.updQueue k (fun u => { u with work := u.work ++ [r.1] })
    { s with launches := s.launches ++ [{ q := k, work := r.1, part := p, launch := some d }] }

/-- LAUNCH (R416). -/
def execLaunch (part q : Nat) (d : Desc) (s : State) : Out := .next (s.launchDesc part q (s.slotOf part q) (withOp d 1))

/-- What a launch at the head of its queue may do now. -/
inductive Go where
  /-- It waits. -/
  | wait
  /-- It completes with this status and runs nothing. -/
  | ends (status : Nat)
  /-- It starts on these clusters. -/
  | on (g : Prog) (clusters : Nats)

/-- Clusters of a partition on which a kernel may run: in no binding, with enough needles in service (R302, R310). -/
def State.usable (s : State) (p : Nat) (g : Prog) : Nats :=
  (s.part p).clusters.filter (fun c => !s.isPath c && decide (g.nmin ≤ (s.inService c).length))

/-- The outcome of a launch as it comes to start (R310, R416). -/
def State.launchGo (s : State) (l : LaunchW) (d : Desc) : Go :=
  let n := fld d 94 88
  if 10000000 < fld d 127 104 then .ends 4
  else if n = 0 then .ends 0
  else match s.progLive l.part (fld d 87 72) with
    | none => .ends 23
    | some g =>
      if g.kind != 1 then .ends 23
      else
        let cs := s.usable l.part g
        let ready := cs.filter (fun c => (s.clu c).st == 2 && !(s.clu c).bist)
        if cs.length < n then .ends 17 else if ready.length < n then .wait else .on g (ready.take n)

/-- A kernel starts on its clusters: their stream queues are emptied and set from the image, and every needle in service begins at the
entry with its arguments (R303, R309, R310). -/
def State.kernelStart (s : State) (l : LaunchW) (d : Desc) (g : Prog) (cs : Nats) : State :=
  let r := s.takeId
  let id := r.1
  let s := r.2
  let needles := cs.flatMap s.inService
  let run : RunS := {
    kind := 1, part := l.part, prog := BitVec.ofNat 16 (fld d 87 72), clusters := cs, needles, left := needles, q := l.q, work := l.work
    wrId := BitVec.ofNat 64 (fld d 191 128), budget := if fld d 127 104 = 0 then g.budget else fld d 127 104, ctx := (s.queue l.q).ctx }
  let sqs : AMap SQ := g.qcfg.zipIdx.map (fun e => (e.2, { us := fld e.1 23 14, sync := fld e.1 13 0 }))
  let s := s.each cs (fun c t => t.updClu c (fun u => { u with sqs }))
  let args (rank : Nat) : List (Nat × Nat) :=
    [(1, fld d 511 448), (2, fld d 447 384), (3, fld d 383 320), (4, fld d 319 256), (5, fld d 255 192), (7, rank), (8, cs.length)]
  let s := s.eachOf cs.zipIdx (fun e t => t.each (t.inService e.1) (fun n t => t.startNeedle n id (g.addr + g.entry) (args e.2)))
  s.addRun id run

/-- LAUNCH_START: the oldest launch that stands at the head of its queue and need not wait starts, or completes without a run (R310). -/
def execLaunchStart (s : State) : Out :=
  let heads := s.launches.filter (fun l => (s.launches.find? (fun m => m.q == l.q)) == some l && l.launch.isSome)
  let waits (l : LaunchW) : Bool := match s.launchGo l (l.launch.getD 0) with
    | .wait => true
    | _ => false
  .next (match heads.find? (fun l => !waits l) with
    | none => s
    | some l =>
      let d := l.launch.getD 0
      let t := { s with launches := s.launches.erase l }
      let t := match s.launchGo l d with
        | .wait => s
        | .ends st => t.computeDone l.q l.work (launchCqe (fld d 191 128) 0 0 0 0 0 (qnum l.q) st) 0 [] none
        | .on g cs => t.kernelStart l d g cs
      startHeads (t.launches.length + 1) t)

/-! ### Runs of bindings (R302, R309, R311, R313, R344) -/

/-- The needle that a run of a binding would take on a cluster now. -/
def State.runNeedle (s : State) (c : Nat) : Option Nat :=
  let u := s.clu c
  if (u.st == 2 || u.st == 3) && !u.bist then (s.freeNeedles c).head? else none

/-- The budget of a binding's run (R307). -/
def Bind.budgetOf (b : Bind) (g : Prog) : Nat := if fld b.blk 63 40 = 0 then g.budget else fld b.blk 63 40

/-- USER. -/
def Bind.user (b : Bind) : Nat := fld b.blk 255 192

/-- A run of a binding begins on one needle with its arguments. -/
def State.bindRun (s : State) (k : Nat) (b : Bind) (n id : Nat) (args : List (Nat × Nat)) (r : RunS) : State :=
  let handle := fld b.blk 15 0
  let g := AMap.get (s.part b.part).progs (handle % 256) {}
  let s := s.startNeedle n id (g.addr + g.entry) (args ++ [(10, b.user)])
  s.addRun id { r with
    part := b.part, prog := BitVec.ofNat 16 handle, bind := some k, clusters := [clusterOf n], needles := [n], left := [n]
    budget := b.budgetOf g, ctx := fld b.blk 31 20 }

/-- TRANSFORM_CHUNK_READY: a chunk has been read into its slot and a needle of its cluster is free: its run starts (R309, R311). -/
def execTransformChunkReady (conn msn chunk : Nat) (s : State) : Out :=
  let m32 := BitVec.ofNat 32 msn
  .next (match (s.conn conn).tx.find? (fun m => m.msn == m32 && !m.fin && !m.settled && !m.held && decide (chunk < m.given)) with
    | none => s
    | some m => match AMap.get? s.binds m.q with
      | none => s
      | some b => match b.slots.find? (fun e => e.2 == chunkMark conn m32.toNat chunk) with
        | none => s
        | some (at_, _) =>
          let c := at_ / 64
          let k := at_ % 64
          let reading := s.xfers.any (fun x => x.2.who == .chunk conn m32.toNat chunk at_)
          let begun : Bool := (AMap.get? m.outLen chunk).isSome || s.runs.any (fun r => r.2.kind == 2 && r.2.conn == conn && r.2.msn == m32 && r.2.chunk == chunk)
          match s.runNeedle c with
          | none => s
          | some n =>
            if reading || begun then s
            else
              let r := s.takeId
              let len := min b.chunk (m.len - chunk * b.chunk)
              let last := chunk + 1 == m.chunks
              r.2.bindRun m.q b n r.1
                [(1, b.inBase + k * b.chunk), (2, len), (3, b.outBase + k * b.chunk), (4, b.chunk), (5, chunk * 2 ^ 32 + m32.toNat),
                 (6, m.op.toNat + b2n (chunk == 0) * 2 ^ 8 + b2n last * 2 ^ 9), (7, conn), (8, chunk * b.chunk)]
                { kind := 2, conn, msn := m32, chunk, slot := k, inB := len, last })

/-- HANDLER_RUN_START: the oldest packet of a message that waits for its handler gets a slot and a needle, and its run starts; an INVOKE is
taken by it (R309, R313). -/
def execHandlerRunStart (conn msn : Nat) (s : State) : Out :=
  let m32 := BitVec.ofNat 32 msn
  let key := 2 ^ 32 + conn
  .next (match (s.conn conn).rx.find? (fun m => m.msn == m32 && m.settled.isNone && !m.hq.isEmpty), AMap.get? s.binds key with
    | some m, some b => match m.hq, s.pickSlot b b.slotCount with
      | p :: rest, some (c, k) => match s.runNeedle c with
        | none => s
        | some n =>
          if b.faulted || b.unbinding.isSome then s
          else
            let r := s.takeId
            let s := r.2
            let a := b.inBase + k * 4096
            let s := { s with shared := Memory.wrs s.shared (sharedKey c a) p.payload }
            let s := s.updBind key (fun b => { b with slots := AMap.set b.slots (c * 64 + k) (runMark r.1) })
            let m := { m with hq := rest, runs := m.runs + 1 }
            let s := if p.op = 8 then (s.putRx conn (m.counted p p.payload.length none)).rxRecord conn p else s.putRx conn m
            let imm := if p.op = 8 || (p.op = 4 && p.isLast) then fld p.hdr 31 0 else 0
            let s := s.bindRun key b n r.1
              [(1, a), (2, p.payload.length), (5, m32.toNat), (6, p.op + b2n p.isFirst * 2 ^ 8 + b2n p.isLast * 2 ^ 9), (7, imm),
               (8, p.offset), (9, p.src)]
              { kind := 3, conn, msn := m32, slot := k, inB := p.payload.length }
            s.rxSettle conn p.isLast
      | _, _ => s
    | _, _ => s)

/-- HOOK_RUN_START: a chunk handed to the program of its slot gets a hook slot and a needle, and its run starts (R344). -/
def execHookRunStart (slot chunk : Nat) (s : State) : Out :=
  let c := s.coll slot
  let x := c.chunk chunk
  let b := c.act
  .next (match x.hook, AMap.get? s.binds (collKey slot) with
    | some ph, some bd =>
      if c.run.isNone || s.runs.any (fun r => r.2.kind == 4 && r.2.coll == slot && r.2.chunk == chunk) then s
      else match s.pickSlot bd (cbDepth b) with
        | none => s
        | some (cl, k) => match s.runNeedle cl with
          | none => s
          | some n =>
            let r := s.takeId
            let s := r.2
            let size := cbE b * max (elemSize (cbElem b)) (elemSize (resultElem b))
            let a := cbInBase b + k * size
            let s := { s with shared := Memory.wrs s.shared (sharedKey cl a) x.pend }
            let s := s.updBind (collKey slot) (fun b => { b with slots := AMap.set b.slots (cl * 64 + k) (runMark r.1) })
            s.bindRun (collKey slot) bd n r.1
              [(2, a), (3, x.pend.length), (4, b2n ph + chunk % 2 * 2), (5, chunk),
               (6, if ph then dstElem b c.desc chunk else srcElem b c.desc chunk), (7, c.seq.toNat), (8, cbRank b), (9, cbN b)]
              { kind := 4, chunk, slot := k, inB := x.pend.length, phase := ph, coll := slot }
    | _, _ => s)

end Sys2Proof.Machine
end

