-- ==== Sys2Proof/Machine/HostLink.lean ====
section
/-!
DEFINITION. The host link (chapter 17): completions of host reads, flushing reads and GO, the coherency cache's snoops, Bus Master
Enable and MSI-X, and the ride-through of a data link that goes down and comes back (R387-R397).
-/

namespace Sys2Proof.Machine

/-! ### Reports that waited for their data (R390) -/

/-- Reports of a ring whose turn has come are written, in order. The first argument bounds them. -/
def waitsRun (k : Nat) : Nat → State → State
  | 0, s => s
  | n + 1, s =>
    match s.host.waits.find? (fun w => w.q == k && w.stage != 1) with
    | none => s
    | some w =>
      if w.stage != 3 then s
      else waitsRun k n ((s.updHost (fun h => { h with waits := h.waits.erase w })).entryNow k (w.entry.setWidth 256) w.sig)

/-- The reports of a ring go on. -/
def State.waitsGo (s : State) (k : Nat) : State := waitsRun k s.host.waits.length s

/-- The first waiting report that `p` accepts is changed by `f`. -/
def firstWait (p : HWait → Bool) (f : HWait → HWait) : List HWait → List HWait
  | [] => []
  | w :: ws => if p w then f w :: ws else w :: firstWait p f ws

/-- What a report whose data are visible does: a delivery goes on, an entry takes its turn. -/
def State.waitReady (s : State) (w : HWait) : State :=
  match w.msg with
  | some (c, m) => (s.updHost (fun h => { h with waits := h.waits.erase w })).rxFlushed c m
  | none => (s.updHost (fun h => { h with waits := firstWait (· == w) (fun w => { w with stage := 3 }) h.waits })).waitsGo w.q

/-- FLUSH_READ_DONE: the oldest flushing read of a function returns (R391); the PI of the entry it followed is written, or the report
of the data it followed goes on. One that fails is recorded and otherwise the same. -/
def execFlushReadDone (func : Nat) (rd : ReadEnd) (s : State) : Out :=
  .next (match s.host.waits.find? (fun w => w.func == func && (w.stage == 0 || w.stage == 1)) with
    | none => s
    | some w =>
      let s := s.onIf (rd != .ok) (fun t => t.postRec { cls := 8, reason := 4, part := some func, d0 := func })
      if w.stage == 1 then (s.updHost (fun h => { h with waits := h.waits.erase w })).ringPi w.q w.pi
      else if w.lines.isEmpty then s.waitReady w
      else s.updHost (fun h => { h with waits := firstWait (· == w) (fun w => { w with stage := 2 }) h.waits }))

/-! ### Host reads (R392) -/

/-- A read of host space that failed: counted and recorded for the partition that owns the function. -/
def State.hostReadError (s : State) (func addr : Nat) : State :=
  (s.cntHost 12 1).postRec { cls := 8, reason := 5, part := some func, d0 := func, d1 := addr }

/-- Which response of a READ_REQ begins at this address of the window's target. -/
def State.respIndex (s : State) (p : Pkt) (addr : Nat) : Nat :=
  (addr - (winBase (s.win (p.wkey / 2 ^ 12)).entry + p.offset)) / 4096

/-- Bytes read from host space reach what asked for them; none where the read failed (R77, R392). -/
def State.readDone (s : State) (r : HRead) (bs : Option Bytes) : State :=
  match r.use, bs with
  | .xfer id off _, some bs => s.pieceBytes id off bs
  | .xfer id off _, none => s.pieceLost id off 5
  | .serve c p, some bs => (s.sendResp c p (s.respIndex p r.addr.toNat) bs).servedOne c p.msn
  | .serve c p, none => (s.sendNak c (p.psn + BitVec.ofNat 32 (s.respIndex p r.addr.toNat)) p.msn 6 0 0).servedOne c p.msn
  | .atomic c p, some _ => (s.serveAtomic c p []).servedOne c p.msn
  | .atomic c p, none => (s.sendNak c p.psn p.msn 6 0 0).servedOne c p.msn

/-- HOST_READ_COMPLETION: an outstanding read ends with data, or without usable data, as with its host DMA engine isolated (R492). -/
def execHostReadCompletion (idx : Nat) (data : Bytes) (rd : ReadEnd) (s : State) : Out :=
  .next (match s.host.reads[idx]? with
    | none => s
    | some r =>
      if r.coh && rd == .ok then s
      else
        let s := s.updHost (fun h => { h with reads := h.reads.eraseIdx idx })
        if s.isolated 8 (Config.dmaOf r.func) then s.readDone r none
        else if rd == .ok then (s.cntHost 0 r.len).readDone r (some (padTo r.len data))
        else (s.hostReadError r.func r.addr.toNat).readDone r none)

/-! ### The device coherency cache (R387, R388, R390) -/

/-- A line asked for arrives: the bytes waiting to be merged are merged and the line held Modified; asked for as an owner it is held
Exclusive, otherwise Shared. -/
def State.lineFill (s : State) (line : Nat) (data : Bytes) : State :=
  match AMap.get? s.host.cache line with
  | none => s
  | some c =>
    let owner := s.host.reads.any (fun r => r.coh && decide (r.addr.toNat / 64 * 64 = line) && (match r.use with
      | .atomic _ _ => true
      | _ => false))
    if !c.merge.isEmpty then
      let bs := c.merge.foldl (fun (b : Bytes) e => b.set e.1 e.2) (padTo 64 (if c.st == 1 then c.data else data))
      s.updHost (fun h => { h with cache := AMap.set h.cache line { c with st := 3, data := bs, merge := [], used := s.nextId } })
    else if c.st == 0 || (c.st == 1 && owner) then
      s.updHost (fun h => { h with cache := AMap.set h.cache line { c with
        st := if owner then 2 else 1, data := padTo 64 data, used := s.nextId } })
    else s

/-- An outstanding coherent read whose lines have all arrived. -/
def State.cohReady (s : State) : Option (HRead × Bytes) :=
  s.host.reads.findSome? (fun r =>
    if !r.coh then none
    else match s.cohBytes r.addr.toNat r.len (match r.use with | .atomic _ _ => true | _ => false) with
      | some bs => some (r, bs)
      | none => none)

/-- Coherent reads that can now be served. The first argument bounds them. -/
def cohServe : Nat → State → State
  | 0, s => s
  | n + 1, s =>
    match s.cohReady with
    | none => s
    | some (r, bs) => cohServe n ((s.updHost (fun h => { h with reads := h.reads.erase r })).readDone r (some bs))

/-- Reports whose last line has its GO go on. -/
def goReports : Nat → State → State
  | 0, s => s
  | n + 1, s =>
    match s.host.waits.find? (fun w => w.stage == 2 && w.lines.isEmpty) with
    | none => s
    | some w => goReports n (s.waitReady w)

/-- CACHE_GO: the host returns GO, with the line's data where they were asked for. -/
def execCacheGo (addr : Nat) (data : Bytes) (s : State) : Out :=
  let line := addr / 64 * 64
  let s := s.lineFill line data
  let s := s.updHost (fun h => { h with waits := h.waits.map (fun w => { w with lines := w.lines.filter (fun l => l.toNat != line) }) })
  let s := { s with xfers := AMap.mapAll s.xfers (fun _ x => { x with lines := x.lines.filter (fun l => l.toNat != line) }) }
  let s := { s with conns := AMap.mapAll s.conns (fun _ c => { c with dirtyLines := c.dirtyLines.filter (fun l => l.toNat != line) }) }
  let s := cohServe s.host.reads.length s
  .next (goReports s.host.waits.length s)

/-- HOST_SNOOP: a host write to a line held invalidates it; a host read of a Modified line returns its data, and the line stays as a
Shared copy. -/
def execHostSnoop (addr : Nat) (inv : Bool) (s : State) : Out :=
  let line := addr / 64 * 64
  .next (match AMap.get? s.host.cache line with
    | none => s
    | some c =>
      if c.st == 0 then s
      else if inv then
        let s := s.cntHost 6 1
        if c.merge.isEmpty then s.updHost (fun h => { h with cache := AMap.erase h.cache line })
        else s.updHost (fun h => { h with cache := AMap.set h.cache line { c with st := 0, data := [] } })
      else s.updHost (fun h => { h with cache := AMap.set h.cache line { c with st := 1 } }))

/-- CACHE_ENABLE: Cache_Enable in the CXL DVSEC (R389). -/
def execCacheEnable (on : Bool) (s : State) : Out := .next (s.updHost (fun h => { h with cacheEn := on }))

/-- Every Modified line of a function is written back (R388), before its partition's reset completes. -/
def State.cacheClean (s : State) (func : Nat) : State :=
  s.each ((s.host.cache.filter (fun e => e.2.func == func && e.2.st == 3)).map Prod.fst) (fun l t => t.cacheEvict l)

/-! ### Bus Master Enable and MSI-X (R394, R395) -/

/-- BUS_MASTER_ENABLE: requests wait while it is 0, and go on in their order once it is 1; the PF's ends HOST_GONE (R398). -/
def execBusMasterEnable (func : Nat) (on : Bool) (s : State) : Out :=
  .next (if !s.funcOn func then s
    else
      let s := s.updFunc func (fun f => { f with busMaster := on })
      if !on then s
      else
        let s := s.onIf (func == 0) (fun t => t.updHost (fun h => { h with gone := false }))
        let go := s.host.bmeWait.filter (fun r => r.func == func)
        (s.updHost (fun h => { h with bmeWait := h.bmeWait.filter (fun r => r.func != func) })).eachOf go (fun r t => t.hostReq r))

/-- A pending vector that is no longer masked sends its message. -/
def State.msixRelease (s : State) (func vec : Nat) : State :=
  let f := s.func func
  let e := AMap.get f.msix vec {}
  if f.msixEn && !f.msixMask && !bitAt e.ctl 0 && f.msixPend.contains vec then
    (s.updFunc func (fun f => { f with msixPend := f.msixPend.filter (· != vec) })).hostReq
      { kind := 3, func, addr := e.addr, data := bytesLE 4 e.data.toNat }
  else s

/-- MSIX_UNMASK: the mask bit of a vector is cleared. -/
def execMsixUnmask (func vector : Nat) (s : State) : Out :=
  .next (if !s.funcOn func || 2047 < vector then s
    else (s.updFunc func (fun f => { f with msix := AMap.upd f.msix vector {} (fun e => { e with ctl := setFld e.ctl 0 0 0 }) })).msixRelease
      func vector)

/-- MSI-X Message Control of a function: bit 15 Enable, bit 14 Function Mask, as the PCIe base specification lays it out. -/
def State.msixControl (s : State) (func : Nat) (v : BitVec 64) : State :=
  let s := s.updFunc func (fun f => { f with msixEn := bitAt v 15, msixMask := bitAt v 14 })
  s.each (s.func func).msixPend (fun vec t => t.msixRelease func vec)

/-! ### Index records (R409) -/

/-- Fetching from the queues of a partition runs: no malformed entry has stopped it, and no reset of it is in progress (R422, R442). -/
def State.fetching (s : State) (p : Nat) : Bool := !(s.func p).haltedBit && !s.host.stopped && (s.part p).resetStep == 0

/-- The index record of a host-written queue is read, again after a read in progress. -/
def State.readIndex (s : State) (k : Nat) : State :=
  match s.queue? k with
  | none => s
  | some q =>
    if !q.hostWritten || !s.fetching (qpart k) || (qnum k == 0 && (s.func (qpart k)).adminStop) then s
    else if q.reading then s.updQueue k (fun q => { q with again := true })
    else (s.updQueue k (fun q => { q with reading := true, rereads := 0 })).hostReq
      { kind := 1, func := qpart k, addr := BitVec.ofNat 64 q.idxVa }

/-! ### Ride-through (R396, R397) -/

/-- The non-posted requests that wait for a completion: reads, flushing reads and lines asked for. -/
def State.nonPosted (s : State) : List HReq :=
  let on (r : HReq) : Bool := (s.func r.func).busMaster
  (s.host.reads.filterMap (fun r => if r.coh then none else some ({ kind := 1, func := r.func, addr := r.addr } : HReq)) ++
    s.host.waits.filterMap (fun w => if w.stage ≤ 1 then
        some ({ kind := 2, func := w.func, addr := BitVec.ofNat 64 w.addr } : HReq) else none) ++
    s.host.cache.filterMap (fun e => if e.2.st == 0 || !e.2.merge.isEmpty then
        some ({ kind := if e.2.merge.isEmpty then 6 else 5, func := e.2.func, addr := BitVec.ofNat 64 e.1 } : HReq) else none) ++
    s.queues.filterMap (fun e => if e.2.reading then
        some ({ kind := 1, func := qpart e.1, addr := BitVec.ofNat 64 e.2.idxVa } : HReq) else none) ++
    s.queues.filterMap (fun e => if e.2.hostWritten && e.2.recPi != e.2.ci then
        some ({ kind := 1, func := qpart e.1, addr := BitVec.ofNat 64 (e.2.ringVa + e.2.ci.toNat % e.2.size * 64) } : HReq) else none) ++
    s.parts.flatMap (fun e => e.2.paramWait.map (fun w =>
        ({ kind := 1, func := e.1, addr := BitVec.ofNat 64 w.2.2.2 } : HReq)))).filter on

/-- The data link goes down: issuing stops, and requests that wait for a completion are kept for reissue. -/
def State.linkDown (s : State) : State :=
  s.onIf s.host.up (fun s => s.updHost (fun h => { h with up := false, riding := true, rideNs := s.clockNs, reissue := s.nonPosted }))

/-- DATA_LINK_DOWN (R397). -/
def execDataLinkDown (s : State) : Out := .next s.linkDown

/-- A link at less than 128 GT/s or x16 is recorded (R396). -/
def State.linkRate (s : State) (width speed : Nat) : State :=
  let s := s.updHost (fun h => { h with width := BitVec.ofNat 5 width, speed := BitVec.ofNat 4 speed })
  s.onIf (decide (width < 16) || decide (speed < 7)) (fun t => t.postRec { cls := 8, reason := 2 })

/-- The end of a ride-through: the held writes go out in order, then the reads; every queue's index record is read; RIDDEN is set and
LINK_RIDDEN posted (R397). -/
def State.rideEnd (s : State) : State :=
  let us := (s.clockNs - s.host.rideNs) / 1000
  let hold := s.host.hold
  let again := s.host.reissue
  let s := s.updHost (fun h => { h with
    riding := false, hold := [], reissue := [], lastRide := BitVec.ofNat 16 (min us 65535), rides := satAdd h.rides 1 })
  let s := s.cntHost 9 1
  let s := (s.eachOf hold (fun r t => t.issueReq r)).eachOf again (fun r t => t.issueReq r)
  let s := s.each (AMap.keys s.queues) (fun k t => t.readIndex k)
  let s := s.each ((List.range 64).filter s.funcOn) (fun p t => t.updFunc p (fun f => { f with ridden := true, rideCount := satAdd f.rideCount 1 }))
  s.each s.partsHeld (fun p t => t.postRec { cls := 8, reason := 1, part := some p, d0 := p })

/-- DATA_LINK_UP: the data link comes up, after training or within a ride-through; not while PERST# is low. -/
def execDataLinkUp (width speed : Nat) (s : State) : Out :=
  .next (if s.host.up || !s.pins.perstN then s
    else
      let was := s.host.riding
      let s := ({ s with pins := { s.pins with refclkOk := true } }).updHost (fun h => { h with up := true, loopback := false })
      let s := s.linkRate width speed
      s.onIf was State.rideEnd)

/-- LTSSM_RECOVERY: a retrain with the data link up is counted; nothing is lost (R396). -/
def execLtssmRecovery (s : State) : Out := .next (s.onIf s.host.up (fun s => s.cntHost 8 1))

end Sys2Proof.Machine
end

