-- ==== Sys2Proof/Machine/Mgmt.lean ====
section
/-!
DEFINITION. The management port and tacking (chapter 21): the MAC's collisions and pauses, the column wire, the tacking frames, and
MGMT_CFG (R470-R482).
-/

namespace Sys2Proof.Machine

/-! ### The MAC (R470-R473) -/

/-- A frame waits to be sent. -/
def State.macQueue (s : State) (f : MgmtFrame) : State := s.updMgmt (fun m => { m with txq := m.txq ++ [{ f with src := m.eui }] })

/-- A frame arrives: one whose sums fail is counted and discarded, index 5 by its FCS or 6 by its checksums (R473, R482). -/
def State.macTake (s : State) (ok : Bool) (bad : Nat) (f : State → State) : State :=
  if !s.macOn then s
  else if !ok then s.cntMgmt bad 1
  else f (s.cntMgmt 1 1)

/-- MAC_COLLISION: back-off and a retry, or the frame at the head is discarded (R471). -/
def execMacCollision (late : Bool) (s : State) : Out :=
  let drop (s : State) : State := s.updMgmt (fun m => { m with txq := m.txq.drop 1, attempts := 0 })
  .next (if !s.macSends || s.mgmt.mode || s.mgmt.txq.isEmpty then s
    else if late then (drop s).cntMgmt 3 1
    else
      let s := s.cntMgmt 2 1
      if 15 ≤ s.mgmt.attempts then (drop s).cntMgmt 4 1
      else s.updMgmt (fun m => { m with attempts := m.attempts + 1, backoff := true }))

/-- BACKOFF_EXPIRY: the frame may be tried again (R471). -/
def execBackoffExpiry (s : State) : Out := .next (s.updMgmt (fun m => { m with backoff := false }))

/-- PAUSE_FRAME: obeyed point to point, discarded in multidrop mode (R470, R472). -/
def execPauseFrame (quanta : Nat) (fcsOk : Bool) (s : State) : Out :=
  .next (s.macTake fcsOk 5 (fun s =>
    if !s.mgmt.mode then s.cntMgmt 8 1
    else (s.cntMgmt 7 1).updMgmt (fun m => { m with paused := quanta % 65536 != 0, pauseQ := quanta % 65536 })))

/-- PAUSE_EXPIRY: transmission goes on (R472). -/
def execPauseExpiry (s : State) : Out := .next (s.updMgmt (fun m => { m with paused := false, pauseQ := 0 }))

/-! ### Tacking (R476-R478) -/

/-- Tacking runs: from the hub fabric stage on, while the port is not looped (R489, R526). -/
def State.tackOn (s : State) : Bool := s.macOn && decide (4 ≤ s.rst.stage.toNat)

/-- A tacking frame (R477). -/
def tackFrame (type pred : Nat) (eui : BitVec 48) (id : Nat) : MgmtFrame :=
  { dst := 0xFFFFFFFFFFFF, kind := 1, body := bytesLE 1 type ++ bytesLE 1 pred ++ bytesLE 6 eui.toNat ++ bytesLE 2 id ++ zeros 36 }

/-- TYPE of a tacking frame. -/
def tackType (f : MgmtFrame) : Nat := (f.body.getD 0 0).toNat
/-- PRED of a tacking frame. -/
def tackPred (f : MgmtFrame) : Nat := (f.body.getD 1 0).toNat
/-- EUI of a tacking frame. -/
def tackEui (f : MgmtFrame) : BitVec 48 := BitVec.ofNat 48 (natLE ((f.body.drop 2).take 6))
/-- ID of a tacking frame. -/
def tackId (f : MgmtFrame) : Nat := natLE ((f.body.drop 8).take 2)

/-- A record of class MGMT (R478). -/
def State.mgmtRec (s : State) (reason d0 d1 : Nat) : State := s.postRec { cls := 12, reason, d0, d1 }

/-- The device ID is set, and the ports are checked against it (R30, R31, R41). -/
def State.takeDevid (s : State) (id : Nat) : State :=
  (({ s with devid := BitVec.ofNat 16 id, devidValid := true } : State).extendId).recheck

/-- The ID that the row master gives a column (R28, R29). -/
def State.idAt (s : State) (col : Nat) : Nat :=
  let p := s.mgmt.originPlane.getD 0
  if s.spine then mkSpine (p % 2) s.mgmt.originRow col else mkId (p % 32) s.mgmt.originRow col

/-- Tacking as bring-up starts it: the row master takes column 0 where it has an ORIGIN (R478); an adapter that kept its ID is TACKED. -/
def State.tackStart (s : State) : State :=
  if s.rowMaster then
    if s.devidValid then s.updMgmt (fun m => { m with tackState := 4 })
    else if s.mgmt.originPlane.isNone then s.updMgmt (fun m => { m with tackState := 3 })
    else (s.updMgmt (fun m => { m with tackState := 4 })).takeDevid (s.idAt 0)
  else s.updMgmt (fun m => { m with tackState := if s.devidValid then 2 else 0 })

/-- A REQUEST goes out from an adapter without an ID that knows its predecessor's column. -/
def State.tackRequest (s : State) : State :=
  if s.rowMaster || s.devidValid || !s.tackOn then s
  else match s.mgmt.predCol with
    | none => s
    | some c => (s.updMgmt (fun m => { m with tackState := 1 })).macQueue (tackFrame 1 c s.mgmt.eui 0)

/-- TACK_WORD: two equal words in a row set PRED_COL (R476). -/
def execTackWord (col : Nat) (s : State) : Out :=
  .next (if s.rowMaster || !s.tackOn || 15 < col then s
    else
      let again := s.mgmt.lastWord == some col
      let news := s.mgmt.predCol != some col
      let s := s.updMgmt (fun m => { m with lastWord := some col, predCol := if again then some col else m.predCol })
      s.onIf (again && news) State.tackRequest)

/-- TACK_OUT_TIMER: the start pulse and the four bits of the column, most significant first (R476). -/
def execTackOutTimer (s : State) : Out :=
  .next (if !s.devidValid || !s.tackOn then s
    else
      let c := idCol s.devid.toNat
      { s with pins := { s.pins with tackHigh := true, tackOut := [true, c.testBit 3, c.testBit 2, c.testBit 1, c.testBit 0] } })

/-- TACK_REQUEST_TIMER: the REQUEST is sent again. -/
def execTackRequestTimer (s : State) : Out := .next s.tackRequest

/-- An OFFER for an EUI and a column goes out. -/
def State.sendOffer (s : State) (eui : BitVec 48) (col : Nat) : State := s.macQueue (tackFrame 2 0 eui (s.idAt col))

/-- REQUEST at the row master: an OFFER of the column after PRED (R478). -/
def execRequest (f : MgmtFrame) (s : State) : Out :=
  .next (s.macTake f.sumsOk 5 (fun s =>
    if (tackType f) != 1 || !s.rowMaster || !s.tackOn || !s.devidValid || 15 < (tackPred f) then s
    else if (tackPred f) = 15 then s.mgmtRec 3 (tackEui f).toNat 0
    else
      let col := (tackPred f) + 1
      let eui := (tackEui f)
      let s := s.onIf (s.mgmt.given.any (fun g => g.1 == col && g.2 != eui)) (fun t => t.mgmtRec 4 eui.toNat (t.idAt col))
      let s := s.updMgmt (fun m => { m with
        given := (col, eui) :: m.given.filter (fun g => g.1 != col)
        offers := m.offers.filter (fun o => o.1 != eui) ++ [(eui, col, 1)] })
      s.sendOffer eui col))

/-- OFFER: an adapter without an ID takes it and answers ACCEPT; one that has an ID keeps it (R30, R478). -/
def execOffer (f : MgmtFrame) (s : State) : Out :=
  .next (s.macTake f.sumsOk 5 (fun s =>
    let id := (tackId f) % 2 ^ 15 + b2n s.spine * 2 ^ 15
    if (tackType f) != 2 || (tackEui f) != s.mgmt.eui || !s.tackOn || !validId id then s
    else if s.devidValid then
      if s.devid.toNat = id then s.onIf (!s.rowMaster) (fun t => t.macQueue (tackFrame 3 0 t.mgmt.eui id))
      else s.mgmtRec 1 s.mgmt.eui.toNat id
    else if s.rowMaster then s
    else ((s.takeDevid id).updMgmt (fun m => { m with tackState := 2 })).macQueue (tackFrame 3 0 s.mgmt.eui id)))

/-- ACCEPT at the row master: its OFFER is answered (R478). -/
def execAccept (f : MgmtFrame) (s : State) : Out :=
  .next (s.macTake f.sumsOk 5 (fun s =>
    if (tackType f) != 3 || !s.rowMaster then s
    else s.updMgmt (fun m => { m with offers := m.offers.filter (fun o => o.1 != (tackEui f)) })))

/-- OFFER_RESEND_TIMER: the OFFER goes again, or after eight unanswered TACK_TIMEOUT is posted (R478). -/
def execOfferResendTimer (eui : Nat) (s : State) : Out :=
  .next (match s.mgmt.offers.find? (fun o => o.1.toNat == eui) with
    | none => s
    | some (e, col, n) =>
      if !s.tackOn then s
      else if 8 ≤ n then
        (s.updMgmt (fun m => { m with offers := m.offers.filter (fun o => o.1 != e) })).mgmtRec 2 eui (s.idAt col)
      else
        ((s.updMgmt (fun m => { m with offers := m.offers.map (fun o => if o.1 == e then (e, col, n + 1) else o) })).sendOffer e col).cntMgmt
          13 1)

/-! ### MGMT_CFG (R481) -/

/-- Key slot `n` of partition 0 holds TYPE 1. -/
def State.oobSlotOk (s : State) (n : Nat) : Bool := ((Ranges.item (s.part 0).keys n).map (fun k => (s.key k).ty)) == some 1

/-- The conditions of out-of-band service (R479). -/
def State.oobOn (s : State) : Bool := s.mgmt.ip != 0 && s.oobSlotOk s.mgmt.oobSlot.toNat

/-- A byte string of a mask or pattern parameter. -/
def paramBytes (n v : Nat) : List (BitVec 8) := bytesLE n v

/-- MGMT_CFG by its SUB. -/
def State.mgmtCfg (s : State) (vals : Nats) : Ans :=
  let v (i : Nat) : Nat := vals.getD i 0
  match vals.headD 3 with
  | 0 =>
    if 1 < v 1 || v 5 = 0 || (v 6 != 0xFFFF && !s.oobSlotOk (v 6)) then Ans.bad s
    else
      let on := v 1 == 1
      Ans.ok (s.updMgmt (fun m => { m with
        mode := on, ip := BitVec.ofNat 32 (v 2), mask := BitVec.ofNat 32 (v 3), gw := BitVec.ofNat 32 (v 4), oobPort := BitVec.ofNat 16 (v 5)
        oobSlot := BitVec.ofNat 16 (v 6), paused := on && m.paused, backoff := !on && m.backoff }))
  | 1 =>
    if !s.rowMaster || (if s.spine then 1 else 31) < v 1 || 15 < v 2 then Ans.bad s
    else
      let s := s.updMgmt (fun m => { m with
        nvPlane := some (v 1), nvRow := v 2
        originPlane := if s.devidValid then m.originPlane else some (v 1), originRow := if s.devidValid then m.originRow else v 2 })
      let s := s.onIf (s.rst.nvBusy.isNone && s.rst.held.isNone) (fun s => s.updRst (fun r => { r with nvBusy := some 1 }))
      Ans.ok (s.onIf (!s.devidValid && s.tackOn) State.tackStart)
  | 2 =>
    if 7 < v 1 || 1 < v 2 || v 3 = 0 || 128 < v 3 then Ans.bad s
    else Ans.ok (s.updMgmt (fun m => { m with wakes := AMap.set m.wakes (v 1) {
      en := v 2 == 1, len := v 3, mask := BitVec.ofNat 128 (v 4), pat := paramBytes 128 (v 5) } }))
  | _ => Ans.bad s

/-- MGMT_CFG: the port, the row's ORIGIN, or a wake pattern. -/
def execMgmtCfg (h : Issue) (vals : Nats) (s : State) : Out := .next (vuino h 0x0B00 vals (fun s => s.mgmtCfg vals) s)

end Sys2Proof.Machine
end

