-- ==== Sys2Proof/Machine/Optics.lean ====
section
/-!
DEFINITION. Optical ports and lasers (chapter 10): training, lanes in and out of service, external laser modules, and monitors.
-/

namespace Sys2Proof.Machine

/-! ### Emitters and what they light (R219-R224) -/

/-- Group of a port among the eight of its laser module (R222). -/
def groupOf (n : Nat) : Nat := if n % 8 < 3 then 0 else if n % 8 < 6 then 1 else 2
/-- Ports of a laser module. -/
def elsPorts (k : Nat) : Nats := List.range' (8 * k) 8
/-- Ports that a group of a laser module lights. -/
def groupPorts (k g : Nat) : Nats := (elsPorts k).filter (fun n => groupOf n == g)

/-- Group that the spare of a wavelength serves; 3 is none (R235). -/
def ElsS.spareOf (e : ElsS) (w : Nat) : Nat := fld e.spare (2 * w + 1) (2 * w)
/-- The spare of a wavelength set to a group. -/
def ElsS.setSpare (e : ElsS) (w g : Nat) : ElsS := { e with spare := setFld e.spare (2 * w + 1) (2 * w) g }

/-- Lanes that this end has lit on a port: wavelengths of its group's emitters or of a spare switched to it (R220, R222). -/
def State.litLanes (s : State) (n : Nat) : BitVec 16 :=
  let e := s.elsm (n / 8)
  let g := groupOf n
  let wave (w : Nat) : Bool := bitAt e.lit (4 * w + g) || (e.spareOf w == g && bitAt e.lit (4 * w + 3))
  pack 16 ((List.range 16).map (fun l => (l, l, b2n (wave (l % 4)))))

/-- A spare is being started for a port's group: its retrain waits (R227). -/
def State.spareAwaited (s : State) (n : Nat) : Bool := (s.elsm (n / 8)).starting.any (fun e => e.2 == groupOf n)

/-- A LINK record of a laser module or an emitter; 0xFF stands for no port or no emitter. -/
def State.elsRec (s : State) (k emitter reason : Nat) (value : Int) : State :=
  s.postRec { cls := 2, reason, d0 := 0xFF, d1 := k * 256 + emitter, d2 := (BitVec.ofInt 64 value).toNat }

/-! ### Training (R226-R230) -/

/-- A TRAIN_FAIL record, at most once a minute for a port (R227). -/
def State.trainFail (s : State) (n : Nat) : State :=
  let due := match (s.port n).trainFailAt with
    | some t => decide (t + 60000000000 ≤ s.clockNs)
    | none => true
  if due then (s.linkRec n 4).updPort n (fun p => { p with trainFailAt := some s.clockNs }) else s

/-- The peer's identity has been the same in three successive codewords (R227). -/
def PortS.identity (p : PortS) : Option (BitVec 16 × Bool × BitVec 8) :=
  match p.idSeen with
  | [a, b, c] => if a = b ∧ b = c then some a else none
  | _ => none

/-- A completed identity exchange: what the peer sent, and the check (R40, R44). -/
def State.exchange (s : State) (n : Nat) : State :=
  match (s.port n).identity with
  | none => s
  | some (id, valid, code) =>
    (s.updPort n (fun p => { p with obsId := id, obsValid := valid, obsPort := code })).checkPort n

/-- LIGHT_DETECT: light above LOS on 4 lanes for 100 µs (R227 step 1). -/
def execLightDetect (port : Nat) (s : State) : Out :=
  .next ((s.updPort port (fun p => { p with light := true })).trainCold port)

/-- TRAINING_PHASE_END: the step in progress ends where its condition holds, up to UP (R227). `lanes` is what the step measured: lanes
with light and lock (step 2) or clean lanes (step 3). -/
def execTrainingPhaseEnd (port : Nat) (ok : Bool) (lanes : Nat) (s : State) : Out :=
  .next (
    let p := s.port port
    let m : BitVec 16 := BitVec.ofNat 16 lanes
    if 32 ≤ port || !ok then s
    else match p.step with
      | 2 =>
        if popCount m < 4 || s.spareAwaited port then s
        else s.updPort port (fun p => { p with
          step := 3
          swaps := BitVec.ofNat 8 ((List.range 4).filter (fun f => (List.range 4).any (fun w =>
            match AMap.get? p.laneIn (4 * f + w) with
            | some l => l / 4 != f
            | none => false))).length })
      | 3 => s.updPort port (fun p => { p with step := 4, rxOk := m })
      | 4 =>
        let tx := s.litLanes port &&& p.peerRxOk
        if popCount tx < 4 || popCount p.rxMask < 4 then s
        else s.updPort port (fun p => { p with
          step := 5, state := 2, txMask := tx, idSeen := []
          narrow := if !p.cold && popCount tx < popCount p.txMask then satAdd p.narrow 1 else p.narrow })
      | 5 =>
        if p.identity.isNone then s
        else ((s.exchange port).updPort port (fun p => { p with step := 6, loopNs := 0 })).sendPings port
      | 6 => if p.echoes < 8 then s else s.linkUp port
      | _ => s)

/-- TRAINING_TIMEOUT: a training that does not reach UP in time returns the port to DOWN (R227). -/
def execTrainingTimeout (port : Nat) (s : State) : Out :=
  .next (if (s.port port).step = 0 || 32 ≤ port then s else (s.trainFail port).portOut port 0)

/-- TRAINING_RETRY_TIMER: the port tries again (R227). -/
def execTrainingRetryTimer (port : Nat) (s : State) : Out := .next (s.trainCold port)

/-- LIGHT_LOSS: the light condition has failed for 100 µs (R228). -/
def execLightLoss (port : Nat) (s : State) : Out :=
  .next (
    let s := s.updPort port (fun p => { p with light := false })
    let st := (s.port port).state
    if 32 ≤ port || st == 6 then s
    else if st == 0 then s.updPort port (fun p => { p with check := 4, reason := 0 })
    else (s.trainFail port).portOut port 0)

/-- A lane leaves RX_OK and the port retrains (R228); a looped port's errors do not count (R528). -/
def State.laneOut (s : State) (port lane : Nat) : State :=
  let st := (s.port port).state
  if s.looped port || 16 ≤ lane || !(st == 3 || st == 4 || st == 5) then s
  else (s.updPort port (fun p => { p with rxOk := setFld p.rxOk lane lane 0 })).retrain port

/-- LANE_DEGRADE: power out of range for 2 µs, or too many uncorrectable codewords (R228). -/
def execLaneDegrade (port lane : Nat) (s : State) : Out := .next (s.laneOut port lane)

/-- WIDEN_TIMER: clean lit lanes have stood outside TX_MASK for 1 s (R230). -/
def execWidenTimer (port lanes : Nat) (s : State) : Out :=
  .next (
    let p := s.port port
    let more := BitVec.ofNat 16 lanes &&& s.litLanes port &&& ~~~p.txMask
    let due := match p.widenAt with
      | some t => decide (t + 60000000000 ≤ s.clockNs)
      | none => true
    if 32 ≤ port || p.state != 3 || more = 0 || !due then s
    else (s.retrain port).updPort port (fun p => { p with widenAt := some s.clockNs }))

/-- ALIGNMENT_CODEWORD_RX: what the peer reports is taken; PHASE 0 while UP starts a retrain; three equal identities on the lowest lane
of the peer's TX_MASK are an exchange (R226, R227, R40). -/
def execAlignmentCodewordRx (port lane : Nat) (cw : BitVec 256) (s : State) : Out :=
  .next (
    let st := (s.port port).state
    if 32 ≤ port || 16 ≤ lane || fld cw 255 208 != 0x5C3A91E60D47 || st == 0 || st == 6 then s
    else
      let s := s.updPort port (fun p => { p with
        laneIn := AMap.set p.laneIn lane (fld cw 207 204)
        peerRxOk := BitVec.ofNat 16 (fld cw 199 184)
        rxMask := BitVec.ofNat 16 (fld cw 183 168) })
      let up := st == 3 || st == 4 || st == 5
      if up && !bitAt cw 200 then (if s.looped port then s else s.retrain port)
      else
        let low := (List.range 16).find? (fun l => bitAt (s.port port).rxMask l)
        if low == some (fld cw 207 204) && (up || (s.port port).step == 5) then
          let seen : BitVec 16 × Bool × BitVec 8 := (BitVec.ofNat 16 (fld cw 167 152), bitAt cw 151, BitVec.ofNat 8 (fld cw 143 136))
          let s := s.updPort port (fun p => { p with idSeen := (seen :: p.idSeen).take 3 })
          let p := s.port port
          match p.identity with
          | some x => if up && x != (p.obsId, p.obsValid, p.obsPort) then s.exchange port else s
          | none => s
        else s)

/-! ### Emitters (R223-R225) -/

/-- A group's ports lose a wavelength for good, or wait for a spare: they retrain (R224). -/
def State.groupRetrain (s : State) (k g : Nat) : State := s.each (groupPorts k g) (fun n t => t.retrain n)

/-- EMITTER_FAIL: the spare of the wavelength is started for the group, or the group runs on without it (R223, R224); a module that is
released or starting is not heeded (R232). -/
def execEmitterFail (els emitter : Nat) (s : State) : Out :=
  .next (
    let e := s.elsm els
    let w := emitter / 4
    let g := emitter % 4
    let lost (t : State) (g : Nat) : State := (t.elsRec els (4 * w + g) 7 0).groupRetrain els g
    let took (t : State) (g : Nat) : State :=
      ((t.updEls els (fun e => { e with starting := AMap.set e.starting w g })).elsRec els (4 * w + g) 6 0).groupRetrain els g
    if 4 ≤ els || 16 ≤ emitter || e.st != 2 || bitAt e.failed emitter then s
    else
      let s := s.updEls els (fun e => { e with failed := setFld e.failed emitter emitter 1, lit := setFld e.lit emitter emitter 0 })
      if g = 3 then
        match AMap.get? e.starting w, e.spareOf w with
        | some g2, _ => lost (s.updEls els (fun e => { e with starting := AMap.erase e.starting w })) g2
        | none, 3 => s
        | none, g2 => lost (s.updEls els (fun e => e.setSpare w 3)) g2
      else match AMap.get? e.starting w with
        | some g2 => if g < g2 then lost (took s g) g2 else lost s g
        | none => if e.spareOf w == 3 && !bitAt e.failed (4 * w + 3) then took s g else lost s g)

/-- SPARE_SWITCHED: the spare is at set point and lights its group (R224). -/
def execSpareSwitched (els wave : Nat) (s : State) : Out :=
  .next (match AMap.get? (s.elsm els).starting wave with
    | none => s
    | some g => if 4 ≤ wave then s else s.updEls els (fun e =>
        { e.setSpare wave g with starting := AMap.erase e.starting wave, lit := setFld e.lit (4 * wave + 3) (4 * wave + 3) 1 }))

/-- A worn emitter's group moves to a free spare ahead of failure, without a retrain (R225). -/
def State.wearMove (s : State) (k emitter : Nat) : State :=
  let e := s.elsm k
  let w := emitter / 4
  let g := emitter % 4
  if g = 3 || bitAt e.failed emitter || e.spareOf w != 3 || bitAt e.failed (4 * w + 3) || (AMap.get? e.starting w).isSome || e.st != 2 then s
  else s.updEls k (fun e => { e.setSpare w g with
    lit := setFld (setFld e.lit (4 * w + 3) (4 * w + 3) 1) emitter emitter 0, failed := setFld e.failed emitter emitter 1 })

/-! ### Laser modules (R231, R232) -/

/-- Loop-backs that use a laser module end (R528). -/
def State.elsLoopsEnd (s : State) (k : Nat) : State :=
  s.each ((elsPorts k).filter (fun n => decide (3 ≤ (AMap.get s.lb n {}).depth.toNat))) (fun n t => t.lbStop n true)

/-- The eight ports of a module leave service to a state. -/
def State.elsPortsOut (s : State) (k : Nat) (st : BitVec 4) : State :=
  s.each (elsPorts k) (fun n t =>
    let was := (t.port n).state
    let t := if was == 6 then t else t.portOut n st
    t.updPort n (fun p => { p with els := true }))

/-- A release ends: the ports are disabled, every emitter is off (R231). -/
def State.elsReleased (s : State) (k : Nat) : State :=
  let s := s.elsPortsOut k 6
  let c := (s.elsm k).cmd
  let s := s.updEls k (fun e => { e with st := 3, lit := 0, starting := [], cmd := none })
  match c with
  | some h => s.longEnd h 0x0530 { st := s }
  | none => s

/-- Whether the output queues of a module's ports are empty. -/
def State.elsDrained (s : State) (k : Nat) : Bool :=
  (elsPorts k).all (fun n => (List.range 4).all (fun v => (s.outq n v).isEmpty))

/-- ELS_RELEASE: the ports leave the candidate sets and drain, then are disabled (R231, R236). -/
def execElsRelease (h : Issue) (els : Nat) (s : State) : Out :=
  .next (vuino h 0x0530 [els] (fun s =>
    let e := s.elsm els
    if 3 < els || e.st == 0 then Ans.bad s
    else if e.cmd.isSome then Ans.busy s
    else if e.st == 3 then Ans.ok s
    else
      let s := s.elsLoopsEnd els
      let s := s.each (elsPorts els) (fun n t => t.updPort n (fun p => { p with els := true }))
      if s.elsDrained els then
        Ans.ok ((s.elsPortsOut els 6).updEls els (fun e => { e with st := 3, lit := 0, starting := [] }))
      else Ans.wait (s.updEls els (fun e => { e with cmd := some h }))) s)

/-- ELS_START: a module released or failed is lit again (R231, R236). -/
def execElsStart (h : Issue) (els : Nat) (s : State) : Out :=
  .next (vuino h 0x0531 [els] (fun s =>
    let e := s.elsm els
    if 3 < els || !(e.st == 3 || e.st == 5) then Ans.bad s
    else if e.cmd.isSome then Ans.busy s
    else Ans.wait (s.updEls els (fun e => { e with st := 1, cmd := some h }))) s)

/-- QUEUE_DRAIN_LIMIT: the 1 ms wait for output queues ends: each release that waits on one of the ports is carried out (R231). -/
def State.elsDrainLimit (s : State) (ports : Nats) : State :=
  s.each ((List.range 4).filter (fun k => (s.elsm k).cmd.isSome && (s.elsm k).st != 1 && ports.any (fun n => n / 8 == k)))
    (fun k t => t.elsReleased k)

/-- ELS_SELF_TEST_DONE: a starting module runs and its ports train, or it is refused and held dark (R231). -/
def execElsSelfTestDone (els : Nat) (ok : Bool) (s : State) : Out :=
  .next (
    let e := s.elsm els
    if 4 ≤ els || e.st != 1 then s
    else
      let reply (t : State) (status : Nat) : State := match e.cmd with
        | some h => (t.updEls els (fun e => { e with cmd := none })).longEnd h 0x0531
            { st := t.updEls els (fun e => { e with cmd := none }), status }
        | none => t
      if ok then
        let lit : BitVec 16 := pack 16 ((List.range 16).map (fun i =>
          (i, i, b2n (!bitAt e.failed i && (i % 4 != 3 || e.spareOf (i / 4) != 3)))))
        let s := s.updEls els (fun e => { e with st := 2, lit })
        let s := s.each (elsPorts els) (fun n t =>
          (t.updPort n (fun p => { p with els := false, state := if p.state == 6 then 0 else p.state })).trainCold n)
        reply s 0
      else
        reply ((s.updEls els (fun e => { e with st := 4, lit := 0 })).elsRec els 0xFF 8 0) 25)

/-- ELS_INSERT: a module enters an empty bay and starts (R231). -/
def execElsInsert (els : Nat) (s : State) : Out :=
  .next (if (s.elsm els).present && (s.elsm els).st != 0 then s
    else s.updEls els (fun _ => { present := true, st := 1 }))

/-- ELS_REMOVED: a module is pulled; one that was not released takes its ports down at once (R232). -/
def execElsRemoved (els : Nat) (s : State) : Out :=
  .next (
    let e := s.elsm els
    if 4 ≤ els || !e.present then s
    else
      let s := s.elsLoopsEnd els
      let s := s.onIf (e.st != 3) (fun t => (t.elsPortsOut els 0).elsRec els 0xFF 9 0)
      let s := s.updEls els (fun e => { e with present := false, st := 0, lit := 0, starting := [], cmd := none })
      match e.cmd with
      | some h => s.longEnd h (if e.st == 1 then 0x0531 else 0x0530) { st := s, status := if e.st == 1 then 25 else 18 }
      | none => s)

/-! ### Monitors (R233, R236) -/

/-- Whether a reading is at its warning or its alarm (R233). -/
def monitorAt (kind : Nat) (v : Int) : Bool × Bool :=
  match kind with
  | 0 => (decide (v < -60), decide (v < -90 ∨ 40 < v))
  | 1 => (decide (1 ≤ v), false)
  | 2 => (false, decide (64 ≤ v))
  | 3 => (decide (1200 ≤ v), decide (1300 ≤ v))
  | 4 => (decide (5 ≤ v), decide (10 ≤ v))
  | 5 => (decide (60 ≤ v), decide (70 ≤ v))
  | _ => (decide (85 ≤ v), decide (95 ≤ v))

/-- The record of a monitor (R505): its port, or its laser module and emitter, and its value. -/
def State.monitorRec (s : State) (x : Sample) (reason : Nat) : State :=
  let v := (BitVec.ofInt 64 x.value).toNat
  if x.kind ≤ 2 then
    let e := if s.devidValid then expected s.myId (x.index / 16) else (0, 0)
    s.postRec {
      cls := 2, reason, d1 := 0xFFFF, d2 := v
      d0 := e.1 * 2 ^ 48 + (s.port (x.index / 16)).obsId.toNat * 2 ^ 32 + e.2 * 2 ^ 24 +
        (s.port (x.index / 16)).obsPort.toNat * 2 ^ 16 + x.index / 16 }
  else if x.kind = 6 then s.postRec { cls := 2, reason, d0 := 2 * x.index, d1 := 0xFFFF, d2 := v }
  else if x.kind = 5 then s.elsRec x.index 0xFF reason x.value
  else s.elsRec (x.index / 16) (x.index % 16) reason x.value

/-- What an alarm does beside its record (R223, R225, R228, R233). -/
def State.monitorAct (s : State) (x : Sample) : State :=
  match x.kind with
  | 0 => s.laneOut (x.index / 16) (x.index % 16)
  | 2 => s.laneOut (x.index / 16) (x.index % 16)
  | 3 => s.wearMove (x.index / 16) (x.index % 16)
  | _ => s

/-- One reading: a warning at most once an hour for a monitor, an alarm as it is entered (R233); EMITTER_WEAR once at 120 % (R225);
the temperatures at which a laser module or an engine turns off. -/
def State.monitor (s : State) (x : Sample) : State :=
  let key := x.kind * 65536 + x.index
  let at_ := monitorAt x.kind x.value
  let last := AMap.get? s.optAlarm key
  let warn := at_.1 && (match last with | some t => decide (t + 3600000000000 ≤ s.clockNs) | none => true)
  let inAlarm := (AMap.get? s.optAlarm (key + 2 ^ 24)).isSome
  let s := s.onIf (x.kind == 2) (fun t => t.cntPort (x.index / 16) 6 x.value.toNat)
  let s := s.onIf (x.kind == 5) (fun t => t.updEls x.index (fun e => { e with temp := BitVec.ofInt 8 x.value }))
  let s := s.onIf warn (fun t => { t.monitorRec x 10 with optAlarm := AMap.set t.optAlarm key t.clockNs })
  let s := s.onIf (x.kind == 3 && at_.1 && !((s.elsm (x.index / 16)).worn.contains (x.index % 16))) (fun t =>
    (t.elsRec (x.index / 16) (x.index % 16) 5 x.value).updEls (x.index / 16) (fun e => { e with worn := (x.index % 16) :: e.worn }))
  let s := s.onIf (at_.2 && !inAlarm) (fun t =>
    (({ t.monitorRec x 11 with optAlarm := AMap.set t.optAlarm (key + 2 ^ 24) t.clockNs }).monitorAct x))
  let s := s.onIf (!at_.2 && inAlarm) (fun t => { t with optAlarm := AMap.erase t.optAlarm (key + 2 ^ 24) })
  let s := s.onIf (x.kind == 5 && decide (75 ≤ x.value) && ((s.elsm x.index).st == 1 || (s.elsm x.index).st == 2)) (fun t =>
    let t := (t.elsLoopsEnd x.index).elsPortsOut x.index 0
    let c := (t.elsm x.index).cmd
    let starting := (t.elsm x.index).st == 1
    let t := t.updEls x.index (fun e => { e with st := 5, lit := 0, starting := [], cmd := none })
    match c with
    | some h => t.longEnd h (if starting then 0x0531 else 0x0530) { st := t, status := if starting then 25 else 18 }
    | none => t)
  s.onIf (x.kind == 6 && decide (105 ≤ x.value)) (fun t => t.each [2 * x.index, 2 * x.index + 1] (fun n u =>
    (if (u.port n).state == 6 then u else u.portOut n 0).updPort n (fun p => { p with shut := true })))

/-- OPT_MONITOR_SAMPLE: the readings of one sampling instant (R233). -/
def execOptMonitorSample (samples : Samples) (s : State) : Out := .next (s.eachOf samples (fun x t => t.monitor x))

/-- OPT_QUERY: telemetry of a port or a laser module (R236), as measured. -/
def execOptQuery (h : Issue) (kind index : Nat) (o : Outside) (s : State) : Out :=
  .next (vuino h 0x0532 [kind, index] (fun s =>
    if 1 < kind || (kind = 0 && 31 < index) || (kind = 1 && 3 < index) then Ans.bad s
    else Ans.ok s [listItem (o.telem.map (fun v => [sc 8 (v % 2 ^ 64)]))]) s)

end Sys2Proof.Machine
end

