-- ==== Sys2Proof/Machine/Queues.lean ====
section
/-!
DEFINITION. Queues and the plainest commands (chapter 18): NOP, IDENTIFY and CMD_PROGRESS, the creation of queues, doorbells and index
records, and the admin queue's stitch (R404-R424, R431, R434).
-/

namespace Sys2Proof.Machine

/-! ### Plain commands -/

/-- NOP. -/
def execNop (h : Issue) (s : State) : Out := .next (vuino h 0x0001 [] (fun s => Ans.ok s) s)

/-- IDENTIFY: IDENT, DEVID.ID and DEVID.VALID. -/
def execIdentify (h : Issue) (s : State) : Out :=
  .next (vuino h 0x0002 [] (fun s => Ans.ok s [sc 8 (identWord + s.myId * 2 ^ 32 + b2n s.devidValid * 2 ^ 48)]) s)

/-- CMD_PROGRESS: a long command still running, or ended within the last 10 s (R431). -/
def execCmdProgress (h : Issue) (tag : Nat) (s : State) : Out :=
  .next (vuino h 0x0003 [tag] (fun s =>
    match (s.part h.part).long.find? (fun l => l.tag.toNat == tag && (!l.done || decide (s.clockNs ≤ l.endedAt + 10 * 10 ^ 9))) with
    | none => Ans.bad s
    | some l => { st := s, status := l.status.toNat, permille := l.permille, position := l.position
                  items := if l.done then [sc 8 l.data.toNat] else [] }) s)

/-! ### Q_CREATE, Q_DESTROY and Q_QUERY (R419, R420) -/

/-- The lowest bit of the first field of a queue block that fails, from the highest bits down, with its status. -/
def State.queueBad (s : State) (p : Nat) (b : BitVec 256) : Option (Nat × Nat) :=
  let q : QueueS := { blk := b }
  let kind := fld b 3 0
  let num := fld b 127 112
  let compute := kind == 4 || kind == 5
  let other (f : QueueS → Bool) : Bool := s.queues.any (fun e => qpart e.1 == p && f e.2)
  let checks : List (Bool × Nat × Nat) := [
    (q.ringVa % 4096 != 0, 192, 18),
    (q.idxVa % 16 != 0, 128, 18),
    (decide (num < 2), 112, 18),
    (decide ((s.part p).nq ≤ num), 112, 17),
    ((s.queue? (qkey p num)).isSome, 112, 18),
    (if compute then !(s.queue? (qkey p q.cq)).any (fun u => u.kind == 3) else q.cq != 0xFFFF, 96, 18),
    (if compute || kind == 1 || kind == 2 then s.ctxOwner q.ctx != some p else q.ctx != 0, 84, 18),
    (if kind == 5 then decide ((s.part p).clusters.length ≤ q.cluster) else q.cluster != 0, 78, 18),
    (!(kind == 3 || kind == 6) && q.vector != 0, 67, 18),
    (!zeroFld b 66 13, 13, 18),
    (decide (fld b 12 8 < 6) || decide (16 < fld b 12 8), 8, 18),
    (bitAt b 7 && kind != 3, 7, 18),
    (bitAt b 6 && kind != 6, 6, 18),
    (bitAt b 6 && other QueueS.isFault, 6, 20),
    (bitAt b 5 && !(kind == 6 && p == 0), 5, 18),
    (bitAt b 5 && other QueueS.isDbBits, 5, 20),
    (bitAt b 4, 4, 18),
    (kind == 0 || decide (6 < kind), 0, 18)]
  (checks.find? (fun c => c.1)).map (fun c => c.2)

/-- Q_CREATE: the first field that fails decides the reply; a new fault queue takes the pending summary first (R511). -/
def execQCreate (h : Issue) (blk : BitVec 256) (s : State) : Out :=
  .next (vuino h 0x0010 [blk.toNat] (fun s =>
    match s.queueBad h.part blk with
    | some (i, st) => { st := s, status := st, index := i }
    | none =>
      let k := qkey h.part (fld blk 127 112)
      let s := { s with queues := AMap.set s.queues k { kind := fld blk 3 0, blk } }
      Ans.ok (s.onIf (s.queue k).isFault (fun t => t.postSummary h.part)) [sc 2 (fld blk 127 112)]) s)

/-- A connection, binding, queue, context header or sync waiter names a queue of partition `p` (R420). -/
def State.queueNamed (s : State) (p q : Nat) : Bool :=
  let k := qkey p q
  let kind := (s.queue k).kind
  s.conns.any (fun e => e.2.st != 0 && e.2.part == p && !e.2.seg &&
    ((kind == 1 && e.2.sq == q) || (kind == 2 && e.2.rq == q) || (kind == 3 && e.2.cq == q))) ||
  (AMap.get? s.binds k).isSome ||
  s.queues.any (fun e => qpart e.1 == p && (e.2.kind == 4 || e.2.kind == 5) && e.2.cq == q) ||
  (kind == 6 && s.ctxs.any (fun e => s.ctxOwner e.1 == some p && fld e.2.hdrAct 79 64 == q)) ||
  s.sync.any (fun e => e.2.evq == some k)

/-- Q_DESTROY: BUSY while descriptors are at work or something names the queue. -/
def execQDestroy (h : Issue) (qnum : Nat) (s : State) : Out :=
  .next (vuino h 0x0011 [qnum] (fun s =>
    let k := qkey h.part qnum
    match s.queue? k with
    | none => Ans.bad s
    | some u =>
      if qnum < 2 then Ans.bad s
      else if !u.work.isEmpty || s.queueNamed h.part qnum then Ans.busy s
      else Ans.ok { s with
        queues := AMap.erase s.queues k
        host := { s.host with waits := s.host.waits.filter (fun w => w.q != k) } }) s)

/-- Q_QUERY: the block, PI, CI and entries held; for the admin pair its kind and the active admin configuration. -/
def execQQuery (h : Issue) (qnum : Nat) (s : State) : Out :=
  .next (vuino h 0x0012 [qnum] (fun s =>
    let k := qkey h.part qnum
    let u := s.queue k
    let tail : Items := [sc 4 u.pi.toNat, sc 4 u.ci.toNat, sc 8 u.held.length]
    if qnum < 2 then
      let a := (s.func h.part).adminAct
      Ans.ok s ([sc 1 (7 + qnum), sc 8 a.sq.toNat, sc 8 a.cq.toNat, sc 8 a.idx.toNat, sc 8 a.cfg.toNat] ++ tail)
    else if (s.queue? k).isNone then Ans.bad s
    else Ans.ok s ([blkItem 32 u.blk.toNat] ++ tail)) s)

/-! ### Doorbells (R408, R410) -/

/-- A doorbell write that is discarded is counted. -/
def State.dbRefuse (s : State) (func : Nat) : State := s.updFunc func (fun f => { f with dbRefused := satAdd f.dbRefused 1 })

/-- DOORBELL_WRITE: PI of a ring the host writes, or CI and ARM of one the adapter writes. -/
def execDoorbellWrite (func q : Nat) (value : BitVec 64) (s : State) : Out :=
  .next (s.barDo func (fun s =>
    let s := s.leaveIdle
    let k := qkey func q
    let v : BitVec 32 := value.truncate 32
    let arm := bitAt value 63
    match s.queue? k with
    | none => s.dbRefuse func
    | some u =>
      if 65535 < q then s.dbRefuse func
      else if u.hostWritten then
        if arm || decide (u.size < (v - u.ci).toNat) then s.dbRefuse func
        else if v == u.pi then s
        else (s.updQueue k (fun u => { u with pi := v })).readIndex k
      else if u.size < (u.pi - v).toNat then s.dbRefuse func
      else
        let s := s.updQueue k (fun u => { u with ci := v, armed := u.armed || arm })
        let s := s.ringDrain k
        let s := s.onIf u.isFault (fun t => t.postSummary func)
        s.ringNotify k))

/-- INDEX_RECORD_READ: the record arrives; fetching may go up to its PI, once that does not lag the doorbell's or has been read again 4
times; a PI too far ahead is a malformed entry, and a failed read fetches nothing (R409). -/
def execIndexRecordRead (part q : Nat) (record : BitVec 128) (rd : ReadEnd) (s : State) : Out :=
  let k := qkey part q
  .next (match s.queue? k with
    | none => s
    | some u =>
      if !u.reading then s
      else
        let s := s.updQueue k (fun u => { u with reading := false, again := false })
        let next (t : State) : State := t.onIf u.again (fun t => t.readIndex k)
        if rd != .ok then next ((s.updQueue k (fun u => { u with rereads := 0 })).hostReadError part u.idxVa)
        else
          let s := s.cntHost 0 16
          let pi : BitVec 32 := record.truncate 32
          let ahead := (pi - u.ci).toNat
          if u.size < ahead then s.malformed part q (u.ci.toNat % u.size) 0
          else if decide (ahead < (u.pi - u.ci).toNat) && decide (u.rereads < 4) && !u.again then
            s.updQueue k (fun u => { u with rereads := u.rereads + 1 })
          else next (s.updQueue k (fun u => { u with recPi := pi, rereads := 0 })))

/-- INDEX_REREAD_TIMER: 1 µs after a record that lagged, it is read again. -/
def execIndexRereadTimer (part q : Nat) (s : State) : Out :=
  let k := qkey part q
  .next (match s.queue? k with
    | none => s
    | some u =>
      if u.reading || u.rereads == 0 || !s.fetching part then s
      else (s.updQueue k (fun u => { u with reading := true })).hostReq { kind := 1, func := part, addr := BitVec.ofNat 64 u.idxVa })

/-- CI_WRITE: the CI of a ring the host writes goes to its index record (R407). -/
def execCiWrite (part q : Nat) (s : State) : Out :=
  let k := qkey part q
  .next (match s.queue? k with
    | none => s
    | some u =>
      if !u.hostWritten || u.ciRep == u.ci then s
      else (s.updQueue k (fun u => { u with ciRep := u.ci })).hostWrite part (u.idxVa + 8) (bytesLE 4 u.ci.toNat))

/-! ### The admin queue (R423, R424) -/

/-- Every value of an admin configuration is in range. -/
def AdminCfg.ok (a : AdminCfg) : Bool :=
  zeroFld a.sq 11 0 && zeroFld a.cq 11 0 && zeroFld a.idx 3 0 &&
  decide (6 ≤ fld a.cfg 12 8 ∧ fld a.cfg 12 8 ≤ 16) && decide (6 ≤ fld a.cfg 4 0 ∧ fld a.cfg 4 0 ≤ 16)

/-- The block of the ADMIN queue, or of the ADMIN_CQ, under an admin configuration. -/
def AdminCfg.block (a : AdminCfg) (cq : Bool) : BitVec 256 :=
  if cq then pack 256 [(255, 192, a.cq.toNat), (191, 128, a.idx.toNat + 16), (127, 112, 1), (111, 96, 0xFFFF), (77, 67, fld a.cfg 26 16),
    (12, 8, fld a.cfg 12 8), (3, 0, 8)]
  else pack 256 [(255, 192, a.sq.toNat), (191, 128, a.idx.toNat), (111, 96, 1), (12, 8, fld a.cfg 4 0), (3, 0, 7)]

/-- The admin queue turned on with the basting configuration, or REFUSED. -/
def State.adminEnable (s : State) (p : Nat) : State :=
  let f := s.func p
  if f.adminState != 0 && f.adminState != 2 then s
  else if !f.adminBast.ok then s.updFunc p (fun f => { f with adminState := 2 })
  else
    let s := s.updFunc p (fun f => { f with adminAct := f.adminBast, adminState := 1, adminStop := false })
    { s with queues := AMap.set (AMap.set s.queues (qkey p 0) { kind := 7, blk := f.adminBast.block false }) (qkey p 1)
                         { kind := 8, blk := f.adminBast.block true } }

/-- The admin queue stops fetching, and is OFF once every command taken has had its final reply. -/
def State.adminDisable (s : State) (p : Nat) : State :=
  if (s.func p).adminState != 1 then s else (s.updFunc p (fun f => { f with adminStop := true })).adminSettle p

/-- ADMIN_ENABLE. -/
def execAdminEnable (func : Nat) (s : State) : Out := .next (s.barDo func (fun s => s.adminEnable func))

/-- ADMIN_DISABLE. -/
def execAdminDisable (func : Nat) (s : State) : Out := .next (s.barDo func (fun s => s.adminDisable func))

/-- ADMIN_STITCH: a write of both bits acts as the one the state admits. -/
def State.adminStitch (s : State) (p : Nat) (v : Nat) : State :=
  if (s.func p).adminState == 1 then s.onIf (v.testBit 1) (fun t => t.adminDisable p) else s.onIf (v.testBit 0) (fun t => t.adminEnable p)

end Sys2Proof.Machine
end

