-- ==== Sys2Proof/Machine/Parts.lean ====
section
/-!
DEFINITION. Partitions (chapter 19): creation from the pools, the ten steps of a partition reset, teardown with its erase, and the
resets that functions bring about (R384, R436-R448).
-/

namespace Sys2Proof.Machine

/-! ### Pools (R436) -/

/-- Totals of the counted pools, in the order of R439. -/
def poolTotals : Nats := [65536, 2 ^ 24, 4096, 2 ^ 20, 16384, 4096, 64, 65536, 4096]
/-- Partition 0's counts after cold or warm reset. -/
def zeroCounts : Nats := [256, 4096, 64, 1024, 256, 64, 0, 256, 16]
/-- Byte offsets of the counted fields (R439). -/
def countOffsets : Nats := [4, 8, 12, 16, 20, 22, 24, 28, 32]

/-- What a partition holds of each counted pool. -/
def PartS.counts (p : PartS) : Nats :=
  [p.nq, Ranges.count p.conns, p.npins, Ranges.count p.wins, Ranges.count p.syncs, Ranges.count p.shps, Ranges.count p.colls,
   Ranges.count p.keys, Ranges.count p.ctxs]

/-- Items of pool `i` that no partition holds. -/
def State.poolFree (s : State) (i : Nat) : Nat := poolTotals.getD i 0 - (s.parts.map (fun e => e.2.counts.getD i 0)).sum

/-- `n` items of a pool of `total`, lowest free first (assumption log 9). -/
def State.poolTake (s : State) (f : PartS → Ranges) (total n : Nat) : Ranges :=
  (takeFree (gapsOf (s.parts.flatMap (fun e => f e.2)) total) n).getD []

/-- Counts of an allotment added to partition `p`, with what it takes of each pool. -/
def State.allot (s : State) (p : Nat) (n : Nats) : State :=
  let k (i : Nat) : Nat := n.getD i 0
  let t (i : Nat) : Nat := poolTotals.getD i 0
  s.updPart p (fun x => { x with
    nq := x.nq + k 0
    conns := x.conns ++ s.poolTake PartS.conns (t 1) (k 1)
    npins := x.npins + k 2
    wins := x.wins ++ s.poolTake PartS.wins (t 3) (k 3)
    syncs := x.syncs ++ s.poolTake PartS.syncs (t 4) (k 4)
    shps := x.shps ++ s.poolTake PartS.shps (t 5) (k 5)
    colls := x.colls ++ s.poolTake PartS.colls (t 6) (k 6)
    keys := x.keys ++ s.poolTake PartS.keys (t 7) (k 7)
    ctxs := x.ctxs ++ s.poolTake PartS.ctxs (t 8) (k 8) })

/-- Items of a map outside an allotment. -/
def keepOut {α : Type} (m : AMap α) (r : Ranges) : AMap α := AMap.keep m (fun k _ => !Ranges.has r k)

/-- The objects and settings that creation and reset of a partition restore (R441): sync objects, shapers, events, weight, congestion
parameters and the signature policy. -/
def State.objReset (s : State) (p : Nat) : State :=
  let x := s.part p
  let s := { s with sync := keepOut s.sync x.syncs, shps := keepOut s.shps x.shps }
  s.updPart p (fun x => { x with
    events := [], wAct := 16, wBast := 16, requireSig := false
    ccAct := ({} : PartS).ccAct, ccBast := ({} : PartS).ccBast })

/-- The admin queue OFF, unless partition 0's stands HALTED, which only a warm or cold reset leaves (R424). -/
def State.adminOff (s : State) (p : Nat) : State :=
  { s.updFunc p (fun f => { f with adminState := if f.adminState == 3 then 3 else 0, adminStop := false }) with
    queues := AMap.erase (AMap.erase s.queues (qkey p 0)) (qkey p 1) }

/-- Partition 0 as cold and warm reset leave it (R436, R438). -/
def State.partZero (s : State) : State :=
  ({ s with parts := AMap.set s.parts 0 { st := 2, held := true } } : State).allot 0 zeroCounts

/-! ### PART_CREATE (R439, R440) -/

/-- Units named by a UNIT_MAP, ascending. -/
def unitsOf (map : Nat) : Nats := (List.range 2048).filter (fun u => map.testBit u)

/-- Clusters named by a CLUSTER_MASK, ascending. -/
def clustersOf (mask : Nat) : Nats := (List.range 64).filter (fun c => mask.testBit c)

/-- The first count that fails, in table order: status and INDEX. -/
def State.countBad (s : State) (p : Nat) (n : Nats) : Option (Nat × Nat) :=
  (List.range 9).findSome? (fun i =>
    let v := n.getD i 0
    let o := countOffsets.getD i 0
    let held := (s.part p).counts.getD i 0
    if poolTotals.getD i 0 < v || (i == 0 && decide (v < 2)) || (i == 2 && decide (n.getD 1 0 < v)) then some (18, o)
    else if p = 0 && v < zeroCounts.getD i 0 then some (18, o)
    else if s.poolFree i < v - held then some (17, o)
    else none)

/-- The first named unit that is not FREE, or that cannot be backed beside the ones before it. -/
def State.unitBad (s : State) (us : Nats) : Option Nat :=
  (us.foldl (fun (r : Option Nat × Nat) u => match r.1 with
    | some _ => r
    | none =>
      let x := s.unit u
      let n := if x.framed then r.2 else r.2 + 1
      if x.st != 0 || (!x.framed && decide (s.unitsBackable < n)) then (some u, n) else (none, n)) (none, 0)).1

/-- A unit taken by a partition: a retained one keeps its frames, one without frames is placed (R70). -/
def State.takeUnit (s : State) (p u : Nat) : State :=
  (s.onIf (!(s.unit u).framed) (fun t => t.placeUnit u)).updUnit u (fun x => { x with st := 1, owner := p, retained := false })

/-- A partition's request as checked and carried out: nothing is allotted when the reply is not OK. RETIRED copy engines of its clusters
return (R518). -/
def State.createNow (s : State) (p : Nat) (n : Nats) (mask map : Nat) : Ans :=
  let cs := clustersOf mask
  let us := unitsOf map
  if 63 < p then Ans.bad s
  else if !s.funcOn p then Ans.bad s
  else if (if p = 0 then (s.part 0).replaced else (s.part p).held) then Ans.busy s
  else match s.countBad p n with
    | some (st, i) => { st := s, status := st, index := i }
    | none => match cs.find? (fun c => (s.clu c).st != 0 || (s.clu c).owner.isSome) with
      | some c => Ans.noRes s (0x100 + c)
      | none => match s.unitBad us with
        | some u => Ans.noRes s (0x1000 + u)
        | none =>
          let more := (List.range 9).map (fun i => n.getD i 0 - (s.part p).counts.getD i 0)
          let s := if p = 0 then s.updPart 0 (fun x => { x with replaced := true })
            else { s with parts := AMap.set s.parts p { st := 2, held := true, waitCreate := (s.part p).waitCreate } }
          let s := s.allot p more
          let s := s.updPart p (fun x => { x with clusters := sortUp (x.clusters ++ cs), units := sortUp (x.units ++ us) })
          let s := s.each cs (fun c t => t.updClu c (fun x => { x with owner := some p, st := 1 }))
          let s := s.updRst (fun r => { r with blocks := r.blocks.filter (fun b =>
            !(cs.contains (b.2 / 2) && (b.1 == 257 || (b.1 == 1 && r.blocks.contains (257, b.2))))) })
          let s := s.each us (fun u t => t.takeUnit p u)
          Ans.ok (if p = 0 then s
            else ((s.objReset p).adminOff p).updFunc p (fun f => { f with
              dbH2A := 0, dbA2H := 0, dbA2HMask := 0xFFFFFFFF, dbVec := 0, h2aMask := 0xFFFFFFFF }))

/-- A PART_CREATE waits for MEMINIT_DONE where it names units, for units whose erase a warm reset cut off, and for clusters under test
(R439, R446, R532). -/
def State.createWaits (s : State) (mask map : Nat) : Bool :=
  (map != 0 && !s.mem.init) || (unitsOf map).any (fun u => (s.unit u).st == 3) || (clustersOf mask).any (fun c => (s.clu c).bist)

/-- PART_CREATE. -/
def execPartCreate (h : Issue) (part queues conns pinConns windows syncObjs shapers collSlots keySlots contexts clusterMask unitMap : Nat)
    (s : State) : Out :=
  let vals := [part, queues, conns, pinConns, windows, syncObjs, shapers, collSlots, keySlots, contexts, clusterMask, unitMap]
  .next (vuino h 0x0900 vals (fun s =>
    if s.createWaits clusterMask unitMap then Ans.wait (s.updPart h.part (fun x => { x with waitCreate := x.waitCreate ++ [(h, vals)] }))
    else s.createNow part (vals.drop 1) clusterMask unitMap) s)

/-- PART_CREATEs whose wait is over are checked and answered, oldest first. -/
def State.createRetry (s : State) : State :=
  s.eachOf (s.part 0).waitCreate (fun w t =>
    let map := w.2.getD 11 0
    let mask := w.2.getD 10 0
    if t.createWaits mask map then t
    else
      let t := t.updPart 0 (fun x => { x with waitCreate := x.waitCreate.filter (· != w) })
      let a := t.createNow (w.2.getD 0 0) (w.2.drop 1) mask map
      a.st.answer w.1 0x0900 a true)

/-- MEMINIT_DONE: memory is zeroed, and units may be allotted (R91). -/
def execMeminitDone (s : State) : Out :=
  .next (if s.rst.stage.toNat < 3 || s.rst.stage == 7 || s.mem.init then s
    else (s.updMem (fun m => { m with init := true })).createRetry)

/-! ### The steps of a reset (R442) -/

/-- Step 1: fetching stops and the mailbox is cleared; commands of the partition end without a reply. -/
def State.resetFetch (s : State) (p : Nat) : State :=
  let s := s.updPart p (fun x => { x with long := [], owed := [], paramWait := [], loadWait := [], waitCreate := if p = 0 then x.waitCreate else [] })
  let s := s.updFunc p (fun f => { f with mbox := {} })
  { s with queues := AMap.mapAll s.queues (fun k q => if qpart k == p then { q with reading := false, again := false, rereads := 0, recPi := q.ci } else q) }

/-- Step 2: every window of the partition is revoked and keeps its index. -/
def State.resetWins (s : State) (p : Nat) : State :=
  s.each ((s.wins.filter (fun e => e.2.st && Ranges.has (s.part p).wins e.1)).map Prod.fst) (fun w t =>
    (t.winClose w).updWin w (fun x => { x with revoke := none }))

/-- A connection leaves with its partition: its error notice goes out once, and it is destroyed (R121, R122). -/
def State.connLeave (s : State) (cid : Nat) : State :=
  let c := s.conn cid
  let told := !c.ud && (c.st == 2 || c.st == 3) && !c.spent 2
  let p := s.connPkt cid { op := 0x45, vc := 3, wkey := c.ackSeq.toNat, aux := 16 * 2 ^ 36 }
  let s := s.connDestroy cid
  s.onIf told (fun t => t.sendLoose c.part p true)

/-- Step 3: every connection of the partition is destroyed. -/
def State.resetConns (s : State) (p : Nat) : State :=
  s.each ((s.conns.filter (fun e => e.2.part == p && e.2.st != 0)).map Prod.fst) (fun c t => t.connLeave c)

/-- Step 4: collectives in progress abort, and the slots become UNSET. -/
def State.resetColls (s : State) (p : Nat) : State :=
  let ks := (s.colls.filter (fun e => Ranges.has (s.part p).colls e.1)).map Prod.fst
  let s := s.each ks (fun k t => if (t.coll k).st ≥ 2 then t.collUser k false else t)
  { s with colls := keepOut s.colls (s.part p).colls }

/-- Step 5: runs stop, and bindings and programs are cleared (R317). -/
def State.resetRuns (s : State) (p : Nat) : State :=
  let s := { s with launches := s.launches.filter (fun l => l.part != p) }
  let s := s.each ((s.runs.filter (fun r => r.2.part == p)).map Prod.fst) (fun r t => t.dropRun r)
  let s := { s with binds := AMap.keep s.binds (fun _ b => b.part != p) }
  s.updPart p (fun x => { x with
    progGen := (AMap.keys x.progs).foldl (fun m i => AMap.upd m i 1 (fun g => if g = 255 then 1 else g + 1)) x.progGen
    progs := [] })

/-- Step 6: both copies of the partition's contexts are cleared, and its transfers issue nothing further (R60). -/
def State.resetCtxs (s : State) (p : Nat) : State :=
  let r := (s.part p).ctxs
  let s := { s with
    ctxs := keepOut s.ctxs r
    segCache := s.segCache.filter (fun e => !Ranges.has r e.1)
    segMiss := s.segMiss.filter (fun e => !Ranges.has r e.1)
    hot := s.hot.filter (fun e => !Ranges.has r e.1.1)
    xfers := AMap.keep s.xfers (fun _ x => x.part != p) }
  s.updMem (fun m => { m with jobs := m.jobs.filter (fun j => j.issue.part != p) })

/-- Step 7: host requests of the partition that wait are discarded, and its Modified lines written back. -/
def State.resetHost (s : State) (p : Nat) : State :=
  let out (rs : List HReq) : List HReq := rs.filter (fun r => r.func != p)
  let s := s.updHost (fun h => { h with
    hold := out h.hold, reissue := out h.reissue, bmeWait := out h.bmeWait
    waits := h.waits.filter (fun w => w.func != p)
    reads := h.reads.filter (fun r => r.func != p) })
  let s := s.cacheClean p
  s.updHost (fun h => { h with cache := AMap.keep h.cache (fun _ c => !(c.func == p && c.st == 0)) })

/-- Step 8: the partition's queues are destroyed, and its admin queue is OFF. -/
def State.resetQueues (s : State) (p : Nat) : State :=
  let s := { s with
    queues := AMap.keep s.queues (fun k _ => qpart k != p || decide (qnum k < 2))
    rbufs := AMap.keep s.rbufs (fun k _ => qpart k != p) }
  s.adminOff p

/-- Step 9: the contents of the partition's key slots are erased. -/
def State.resetKeys (s : State) (p : Nat) : State := { s with keys := keepOut s.keys (s.part p).keys }

/-- Registers of a function at their reset values; what its configuration space holds stays, but where `flr` (PRESUMED, the PCIe base
specification: an FLR also clears Bus Master Enable and MSI-X Enable). -/
def FuncS.reset (f : FuncS) (flr : Bool) : FuncS :=
  { adminState := if f.adminState == 3 then 3 else 0
    busMaster := f.busMaster && !flr
    msixEn := f.msixEn && !flr
    msixMask := f.msixMask && !flr }

/-- Step 10: registers and objects take their reset values. -/
def State.resetRegs (s : State) (p : Nat) : State :=
  let flr := ((s.part p).resetFrom.head?).any (fun o => o.isNone)
  (s.objReset p).updFunc p (fun f => f.reset flr)

/-- The action of one step. -/
def State.resetAct (s : State) (p step : Nat) : State :=
  match step with
  | 1 => s.resetFetch p
  | 2 => s.resetWins p
  | 3 => s.resetConns p
  | 4 => s.resetColls p
  | 5 => s.resetRuns p
  | 6 => s.resetCtxs p
  | 7 => s.resetHost p
  | 8 => s.resetQueues p
  | 9 => s.resetKeys p
  | _ => s.resetRegs p

/-! ### Teardown (R446) -/

/-- What a partition is after a teardown, or with nothing allotted. -/
def State.restState (s : State) (p : Nat) : Nat := if s.funcOn p then 1 else 0

/-- Steps 2 to 4 of a teardown: every allotment but memory goes back, pins, bounds and marks are lifted, and the units are ERASING;
with no unit it ends here. -/
def State.teardown (s : State) (p : Nat) (h : Issue) : State :=
  let x := s.part p
  let mine (g : Nat) : Bool := x.units.contains (g / 512)
  let s := s.each x.clusters (fun c t => t.updClu c (fun u => { u with owner := none, st := 0, sqs := [] }))
  let s := s.updMem (fun m => { m with
    pins := AMap.keep m.pins (fun g _ => AMap.get? m.pinOwner g != some p)
    pinOwner := AMap.keep m.pinOwner (fun _ o => o != p)
    bounds := AMap.erase m.bounds p
    damaged := m.damaged.filter (fun g => !mine g)
    badWords := m.badWords.filter (fun w => !mine (w * 8 / 2 ^ 21))
    migs := AMap.keep m.migs (fun g _ => !mine g) })
  let s := s.each x.units (fun u t => t.updUnit u (fun y => { y with st := 2 }))
  if x.units.isEmpty then
    let s := { s with parts := AMap.set s.parts p { st := s.restState p } }
    s.longEnd h 0x0902 (Ans.ok s)
  else { s with parts := AMap.set s.parts p { st := 5, units := x.units, destroy := some h, eraseTotal := x.units.length } }

/-! ### Starting and ending (R443, R486) -/

/-- A partition's reset begins: by a PART_RESET, by an FLR, or as the first part of a teardown. -/
def State.resetBegin (s : State) (p : Nat) (destroying : Bool) : State :=
  s.updPart p (fun x => { x with st := if destroying then 5 else 4, resetStep := 1 })

/-- A trigger of partition `p`'s reset: held until partitions are released, taken after the one in progress, without effect on a
teardown (R446, R486). -/
def State.resetTrigger (s : State) (p : Nat) (from_ : Option Issue) : State :=
  if s.rst.stage != 6 then s.updRst (fun r => { r with heldParts := insertUp p r.heldParts })
  else if (s.part p).st = 5 then match from_ with
    | some h => s.answerLater h 0x0901 0
    | none => s
  else
    let was := (s.part p).resetStep
    let s := s.updPart p (fun x => { x with resetFrom := x.resetFrom ++ [from_] })
    if was = 0 then s.resetBegin p false else s

/-- The state a partition returns to when its reset ends. -/
def State.activeState (s : State) (p : Nat) : Nat :=
  if !s.funcOn p then 0 else if (s.part p).held then 2 else 1

/-- A reset ends: the partition is ACTIVE or ABSENT again, what started it is answered, and the next one waiting begins. -/
def State.resetEnd (s : State) (p : Nat) : State :=
  let x := s.part p
  if x.st = 5 then match x.destroy with
    | some h => (s.updPart p (fun x => { x with resetStep := 0 })).teardown p h
    | none => s
  else
    let rest := x.resetFrom.drop 1
    let s := s.updPart p (fun x => { x with st := s.activeState p, resetStep := 0, resetFrom := rest })
    let s := match x.resetFrom.head? with
      | some (some h) => s.answerLater h 0x0901 0
      | _ => s
    if !rest.isEmpty then s.resetBegin p false else if x.destroy.isSome then s.resetBegin p true else s

/-- The step in progress completes. -/
def State.resetStep (s : State) (p : Nat) : State :=
  let n := (s.part p).resetStep
  if n = 0 then s
  else
    let s := s.resetAct p n
    if n < 10 then s.updPart p (fun x => { x with resetStep := n + 1 }) else s.resetEnd p

/-- PARTITION_RESET_STEP. -/
def execPartitionResetStep (part : Nat) (s : State) : Out := .next (s.resetStep part)

/-- The steps left of a reset, one after another. -/
def State.resetRest (s : State) (p : Nat) : State :=
  (s.each (List.range' (s.part p).resetStep (11 - (s.part p).resetStep)) (fun n t => t.resetAct p n)).resetEnd p

/-- A partition is reset at once, with FORCE, ending any reset of it in progress (R520); a teardown runs on. -/
def State.resetNow (s : State) (p : Nat) : State :=
  if (s.part p).resetStep != 0 then s.resetRest p
  else if !(s.part p).held || (s.part p).st == 5 then s
  else (s.resetBegin p false).resetRest p

/-! ### PART_RESET, PART_DESTROY and PART_QUERY (R443, R446, R448) -/

/-- The first kind of unquiesced work of a partition (R443), numbered from 0. -/
def State.unquiesced (s : State) (p : Nat) : Option Nat :=
  let x := s.part p
  if s.runs.any (fun r => r.2.part == p) || s.launches.any (fun l => l.part == p) then some 0
  else if s.colls.any (fun e => Ranges.has x.colls e.1 && (e.2.st == 2 || e.2.st == 3 || e.2.st == 4)) then some 1
  else if !x.running.isEmpty then some 2
  else if s.ctxs.any (fun e => Ranges.has x.ctxs e.1 && e.2.drain.isSome) then some 3
  else none

/-- PART_RESET: OK once the reset has ended. -/
def execPartReset (h : Issue) (part force : Nat) (s : State) : Out :=
  .next (vuino h 0x0901 [part, force] (fun s =>
    if part = 0 || 63 < part || 1 < force then Ans.bad s
    else if (s.part part).st = 5 then Ans.ok s
    else if !(s.part part).held then Ans.ok s
    else match (if force = 0 then s.unquiesced part else none) with
      | some k => Ans.busy s k
      | none => Ans.wait (s.resetTrigger part (some h))) s)

/-- PART_DESTROY. -/
def execPartDestroy (h : Issue) (part : Nat) (s : State) : Out :=
  .next (vuino h 0x0902 [part] (fun s =>
    if part = 0 || 63 < part then Ans.bad s
    else if (s.part part).st = 5 || (s.part part).destroy.isSome then Ans.busy s
    else if !(s.part part).held then Ans.ok s
    else if (s.part part).st = 4 then Ans.wait (s.updPart part (fun x => { x with destroy := some h }))
    else Ans.wait ((s.updPart part (fun x => { x with destroy := some h })).resetBegin part true)) s)

/-- UNIT_ERASE_DONE: the erase of a unit ends and it is FREE; the last one of a teardown ends it. Units are erased in ascending order
(R446). -/
def execUnitEraseDone (unit : Nat) (s : State) : Out :=
  let x := s.unit unit
  let first (st : Nat) : Bool :=
    x.st == st && !(s.units.any (fun e => decide (e.1 < unit) && e.2.st == st && e.2.owner == x.owner))
  let erased (s : State) : State :=
    let s := { s with devMem := Memory.zero s.devMem (unit * 2 ^ 30) (2 ^ 30) }
    (s.unplaceUnit unit).updUnit unit (fun _ => {})
  .next (if first 3 then (erased s).createRetry
    else if !first 2 then s
    else
      let p := x.owner
      let s := erased s
      let s := s.updPart p (fun y => { y with units := y.units.filter (· != unit) })
      let y := s.part p
      match y.destroy with
      | none => s
      | some h =>
        let n := y.eraseTotal - y.units.length
        if y.units.isEmpty then
          let s := { s with parts := AMap.set s.parts p { st := s.restState p } }
          s.longEnd h 0x0902 { st := s, position := n }
        else s.longProgress h (1000 * n / max 1 y.eraseTotal) n)

/-- A list of adapter-wide numbers, each of `n` bytes. -/
def numList (n : Nat) (ks : Nats) : Nat × Bytes := listItem (ks.map (fun k => [sc n k]))

/-- A mask of the numbers in a list. -/
def maskOf (ks : Nats) : Nat := (ks.map (fun k => 2 ^ k)).sum

/-- PART_QUERY: state; each pool's count and the numbers allotted; clusters and units held; live connections, open windows, created
queues and loaded programs. -/
def execPartQuery (h : Issue) (part : Nat) (s : State) : Out :=
  .next (vuino h 0x0903 [part] (fun s =>
    if 63 < part then Ans.bad s
    else
      let x := s.part part
      let n (i : Nat) : Nat := x.counts.getD i 0
      let st := if x.st = 2 && (s.func part).haltedBit then 3 else if x.st = 0 && s.funcOn part then 1 else x.st
      Ans.ok s [sc 1 st, sc 4 (n 0), sc 4 (n 1), numList 4 (Ranges.items x.conns), sc 2 (n 2), sc 4 (n 3), numList 4 (Ranges.items x.wins),
        sc 2 (n 4), numList 2 (Ranges.items x.syncs), sc 2 (n 5), numList 2 (Ranges.items x.shps), sc 1 (n 6), numList 1 (Ranges.items x.colls),
        sc 4 (n 7), numList 2 (Ranges.items x.keys), sc 2 (n 8), numList 2 (Ranges.items x.ctxs), sc 8 (maskOf x.clusters),
        blkItem 256 (maskOf x.units),
        sc 8 (s.conns.filter (fun e => e.2.part == part && e.2.st != 0)).length,
        sc 8 (s.wins.filter (fun e => e.2.st && Ranges.has x.wins e.1)).length,
        sc 8 (s.queues.filter (fun e => qpart e.1 == part)).length,
        sc 8 x.progs.length]) s)

/-! ### Function resets and VF Enable (R384, R438) -/

/-- VF Enable is cleared: every tenant partition is reset, and is ABSENT with its allotment held. -/
def State.vfOff (s : State) : State :=
  let s := s.updHost (fun h => { h with vfEnable := false })
  s.each (List.range' 1 63) (fun p t =>
    if (t.part p).held then t.resetTrigger p none
    else t.onIf ((t.part p).st == 1) (fun t => t.updPart p (fun x => { x with st := 0 })))

/-- VF_ENABLE_SET: tenant partitions return to ACTIVE, or are EMPTY. -/
def execVfEnableSet (s : State) : Out :=
  .next (if s.host.vfEnable || s.rst.stage.toNat < 5 || s.rst.stage == 7 then s
    else
      let s := s.updHost (fun h => { h with vfEnable := true })
      s.each (List.range' 1 63) (fun p t =>
        t.onIf ((t.part p).st == 0) (fun t => t.updPart p (fun x => { x with st := if x.held then 2 else 1 }))))

/-- VF_ENABLE_CLEAR. -/
def execVfEnableClear (s : State) : Out := .next (s.onIf s.host.vfEnable State.vfOff)

/-- VF_FLR: the VF's partition is reset. -/
def execVfFlr (func : Nat) (s : State) : Out :=
  .next (s.onIf (isTenant func && s.funcOn func) (fun s =>
    if (s.part func).held then s.resetTrigger func none else s.updFunc func (fun f => f.reset true)))

/-- PF_FLR: partition 0 is reset and VF Enable cleared, and with it every partition. -/
def execPfFlr (s : State) : Out := .next ((s.resetTrigger 0 none).onIf s.host.vfEnable State.vfOff)

end Sys2Proof.Machine
end

