-- ==== Sys2Proof/Machine/Security.lean ====
section
/-!
DEFINITION. The thimble in service (chapter 20): key slots, firmware updates, attestation reports, secure mailboxes and the SPDM
responder (R458-R464).
-/

namespace Sys2Proof.Machine

/-! ### Key slots (R463) -/

/-- A connection in READY or ERROR names a key slot. -/
def State.slotNamed (s : State) (k : Nat) : Bool :=
  s.conns.any (fun e => (e.2.st == 2 || e.2.st == 3) && e.2.encrypt && Ranges.item (s.part e.2.part).keys e.2.keySlot == some k)

/-- The plaintext of a blob as a key slot; none where it is refused. -/
def keyOf (b : BitVec 320) : Option KeyS :=
  let k : KeyS := { ty := fld b 295 288, key := BitVec.ofNat 256 (fld b 255 0), salt := BitVec.ofNat 32 (fld b 287 256) }
  if k.ty = 0 || 2 < k.ty || (k.ty == 2 && k.salt != 0) || !zeroFld b 319 296 then none else some k

/-- The slot that a KEY_LOAD or KEY_CLEAR may act on: of a partition the issuer may name, and allotted to it. -/
def State.slotOk (s : State) (h : Issue) (part slot : Nat) : Option Nat :=
  if h.part != 0 && h.part != part then none else Ranges.item (s.part part).keys slot

/-- KEY_LOAD: the blob is unwrapped by the iterated engine, whose instances are compared, and fills the slot. -/
def execKeyLoad (h : Issue) (part slot : Nat) (blob : BitVec 384) (guard : Mismatch) (s : State) : Out :=
  .next (vuino h 0x0A00 [part, slot, blob.toNat] (fun s =>
    match s.slotOk h part slot with
    | none => Ans.bad s 0 1
    | some k =>
      if s.thimble.iterUp < 2 then Ans.busy s
      else
        let s := match guard with
          | some i => s.iterMismatch i
          | none => s
        if s.thimble.iterUp < 2 then Ans.busy s
        else match Config.unwrap (Config.kek part s.thimble.kekEpoch.toNat) blob with
          | none => Ans.bad s 0 2
          | some b => match keyOf b with
            | none => Ans.bad s 0 3
            | some key => if s.slotNamed k then Ans.busy s else Ans.ok { s with keys := AMap.set s.keys k key }) s)

/-- KEY_CLEAR: the slot is erased. -/
def execKeyClear (h : Issue) (part slot : Nat) (s : State) : Out :=
  .next (vuino h 0x0A01 [part, slot] (fun s =>
    match s.slotOk h part slot with
    | none => Ans.bad s 0 1
    | some k => if s.slotNamed k then Ans.busy s else Ans.ok { s with keys := AMap.erase s.keys k }) s)

/-! ### FW_UPDATE (R458) -/

/-- FW_UPDATE: the bundle is read and verified, and the writing of its copy begins. -/
def execFwUpdate (h : Issue) (ctx va len slot activate : Nat) (o : Outside) (s : State) : Out :=
  .next (vuino h 0x0A10 [ctx, va, len, slot, activate] (fun s =>
    if len = 0 || 2 ^ 25 < len || (slot != 0 && slot != 1 && slot != 0xFF) || 1 < activate || (s.ctxOwner ctx).isNone then Ans.bad s
    else if s.thimble.update.isSome then Ans.busy s
    else
      let r := s.ctxRead 0 ctx va len [] o.bytes o.rd
      let s := r.1
      match r.2 with
      | .inr _ => Ans.bad s 0 10
      | .inl bs =>
        let b := Bundle.parse bs
        let why := s.bundleReason b .ok
        if why != 0 then Ans.bad s 0 why
        else
          let copy := if slot = 0xFF then (if s.thimble.preferB then 0 else 1) else slot
          let s := s.updThimble (fun t => { t with
            update := some (h, copy, activate == 1), updateBuf := some b, copyGood := AMap.set t.copyGood copy {} })
          Ans.wait (s.onIf s.rst.held.isNone (fun s => s.updRst (fun r => { r with nvBusy := some 2 })))) s)

/-- An FW_UPDATE ends: the copy is whole and preferred, or it is left without MAGIC. -/
def State.updateEnd (s : State) (p tag : Nat) (ok : Bool) : State :=
  match s.thimble.update with
  | none => s
  | some (h, copy, activate) =>
    if h.part != p || h.tag != tag || s.rst.held.isSome then s
    else
      let b := s.thimble.updateBuf.getD {}
      let s := (s.updRst (fun r => { r with nvBusy := none })).updThimble (fun t => { t with update := none, updateBuf := none })
      if ok then
        let s := (s.updThimble (fun t => { t with copyGood := AMap.set t.copyGood copy b, preferB := copy == 1 })).updRst
          (fun r => { r with imagesVoid := r.imagesVoid || activate })
        s.longEnd h 0x0A10 { st := s, position := b.totalLen }
      else s.longEnd h 0x0A10 (Ans.bad s 0 10)

/-! ### Attestation reports (R461) -/

/-- A measurement register. -/
def ThimbleS.mrOf (t : ThimbleS) (i : Nat) : Bytes := bytesBE 48 (AMap.get t.mr i 0).toNat

/-- Bytes 0x000 to 0x1FF of a report. -/
def State.reportBody (s : State) (nonce : BitVec 256) : Bytes :=
  let t := s.thimble
  bytesLE 4 0x52503649 ++ bytesLE 2 1 ++ zeros 2 ++ bytesLE 4 36560 ++ zeros 4 ++ bytesLE 32 nonce.toNat ++ bytesLE 8 s.now.toNat ++
    bytesLE 4 0x01060021 ++ bytesLE 2 s.myId ++ zeros 2 ++ bytesLE 16 s.mgmt.serial.toNat ++ bytesLE 4 t.svnRun.toNat ++
    bytesLE 1 t.svnFuse.toNat ++ bytesLE 1 (b2n t.rootSlot) ++ bytesLE 1 (b2n t.slot0Revoked) ++ bytesLE 1 t.kekEpoch.toNat ++
    bytesLE 8 (t.bundle.getD {}).buildId.toNat ++ (List.range 8).flatMap t.mrOf ++ zeros 32

/-- A whole report, with both signatures. -/
def reportBytes (body : Bytes) : Bytes := body ++ bytesBE 384 (Config.rsaSign body).toNat ++ padTo 35664 (Config.slhSign body)

/-! ### SPDM (R460) -/

/-- The SPDM state of a transport. -/
def State.spdm (s : State) (bus : Nat) : SpdmS := AMap.get s.thimble.spdm bus {}

/-- The SPDM state of a transport changed. -/
def State.updSpdm (s : State) (bus : Nat) (f : SpdmS → SpdmS) : State :=
  s.updThimble (fun t => { t with spdm := AMap.upd t.spdm bus {} f })

/-- A message as its bytes: version, code, both parameters, and what follows. -/
def spdmBytes (version code p1 p2 : Nat) (body : Bytes) : Bytes :=
  bytesLE 1 version ++ bytesLE 1 code ++ bytesLE 1 p1 ++ bytesLE 1 p2 ++ body

/-- A response goes out. -/
def State.spdmOut (s : State) (bus : Nat) (r : SpdmRsp) : State := s.updSpdm bus (fun x => { x with out := x.out ++ [r] })

/-- An ERROR response. -/
def State.spdmError (s : State) (bus code data : Nat) (body : Bytes) : State :=
  s.spdmOut bus { code := 0x7F, param1 := code, param2 := data, body }

/-- Bytes a response may have unchunked. -/
def spdmMax : Nat := Config.spdmRoom + 42

/-- A response: at once, or announced as large and fetched by CHUNK_GET. -/
def State.spdmReply (s : State) (bus code p1 p2 : Nat) (body : Bytes) : State :=
  if body.length + 4 ≤ spdmMax then s.spdmOut bus { code, param1 := p1, param2 := p2, body }
  else
    let h := ((s.spdm bus).outHandle + 1) % 256
    (s.updSpdm bus (fun x => { x with pendOut := spdmBytes x.version code p1 p2 body, outHandle := h, outSeq := 0 })).spdmError bus 0x0F 0
      (bytesLE 1 h)

/-- What follows the header of a request, by its code. -/
def spdmTail (m : SpdmReq) (code : Nat) : Bytes :=
  match code with
  | 0xE3 => bytesLE 4 m.a ++ bytesLE 4 m.b
  | 0x82 => bytesLE 2 m.a ++ bytesLE 2 m.b
  | 0x83 => bytesLE 32 m.nonce.toNat
  | 0xE0 => if m.param1 % 2 = 1 then bytesLE 32 m.nonce.toNat ++ bytesLE 1 m.a else []
  | _ => m.body

/-- A request of this code read from its bytes. -/
def spdmReqOf (bs : Bytes) : Nat × SpdmReq :=
  let le (o n : Nat) : Nat := natLE ((bs.drop o).take n)
  let code := le 1 1
  let w := if code = 0xE3 then 4 else 2
  (code, { version := le 0 1, param1 := le 2 1, param2 := le 3 1, a := if code = 0xE0 then le 36 1 else le 4 w, b := le (4 + w) w
           nonce := BitVec.ofNat 256 (le 4 32), body := bs.drop 4 })

/-- The transport carries SPDM: the PF's VDMs, or the I3C endpoint, which answers whenever the input is present (R460, R542). -/
def State.spdmOpen (s : State) (bus : Nat) : Bool :=
  if bus = 0 then s.host.up && decide (5 ≤ s.rst.stage.toNat) && !s.rst.halted && !s.rst.inReset else bus == 1 && s.pins.powered

/-- A random nonce of the responder. -/
def State.freshNonce (s : State) : Bytes × State :=
  let a := s.freshVal
  let b := a.2.freshVal
  let c := b.2.freshVal
  let d := c.2.freshVal
  (bytesLE 8 a.1.toNat ++ bytesLE 8 b.1.toNat ++ bytesLE 8 c.1.toNat ++ bytesLE 8 d.1.toNat, d.2)

/-- A measurement block: MRi as a raw digest under index i + 1. -/
def State.measureBlock (s : State) (i : Nat) : Bytes :=
  bytesLE 1 i ++ bytesLE 1 1 ++ bytesLE 2 51 ++ [Config.measureType i] ++ bytesLE 2 48 ++ s.thimble.mrOf (i - 1)

/-- A response that ends with a signature over the messages so far, after which they start anew. -/
def State.spdmSigned (s : State) (bus code p1 p2 : Nat) (body : Bytes) : State :=
  let x := s.spdm bus
  let sig := bytesBE 384 (Config.rsaSign (x.msgs ++ spdmBytes x.version code p1 p2 body)).toNat
  (s.updSpdm bus (fun x => { x with msgs := [] })).spdmReply bus code p1 p2 (body ++ sig)

/-- A vendor response: Standard ID IANA, Marnil's number, and the payload. -/
def vendorBody (payload : Bytes) : Bytes :=
  bytesLE 2 1 ++ bytesLE 1 4 ++ bytesLE 4 Config.vendorId.toNat ++ bytesLE 2 payload.length ++ payload

/-- Reports wait their turn; a GET_REPORT at the head is made at once, an ATTEST until its end (R461). The first argument bounds the
reports. -/
def reportNext : Nat → State → State
  | 0, s => s
  | n + 1, s =>
    match s.thimble.reports with
    | [] => s.updThimble (fun t => { t with repBody := [] })
    | (who, bus, nonce) :: rest =>
      let body := s.reportBody nonce
      if who.isSome then s.updThimble (fun t => { t with repBody := body })
      else reportNext n ((s.updThimble (fun t => { t with reports := rest })).spdmReply bus 0x7E 0 0 (vendorBody (reportBytes body)))

/-- A report is asked for. -/
def State.askReport (s : State) (who : Option Issue) (bus : Nat) (nonce : BitVec 256) : State :=
  let first := s.thimble.reports.isEmpty
  let s := s.updThimble (fun t => { t with reports := t.reports ++ [(who, bus, nonce)] })
  s.onIf first (reportNext 1)

/-- ATTEST: a report is made for the command, which must give a place for it. -/
def execAttest (h : Issue) (nonce : BitVec 256) (s : State) : Out :=
  .next (vuino h 0x0A20 [nonce.toNat] (fun s =>
    if !h.indirect then Ans.bad s
    else if s.thimble.idLost then Ans.noRes s
    else if 5 ≤ s.thimble.reports.length then Ans.busy s
    else Ans.wait (s.askReport (some h) 0 nonce)) s)

/-- The report of the ATTEST at the head is done. -/
def State.attestEnd (s : State) (p tag : Nat) : State :=
  match s.thimble.reports with
  | (some h, _, _) :: rest =>
    if h.part != p || h.tag != tag then s
    else
      let body := s.thimble.repBody
      let s := s.longEnd h 0x0A20 (Ans.ok s [(8, reportBytes body)])
      reportNext rest.length.succ (s.updThimble (fun t => { t with reports := rest }))
  | _ => s

/-- A request that needs the algorithms agreed and the version of the session. -/
def State.spdmReady (s : State) (bus : Nat) (m : SpdmReq) (f : State → State) : State :=
  let x := s.spdm bus
  if x.st != 3 then s.spdmError bus 4 0 []
  else if m.version != x.version then s.spdmError bus 0x41 0 []
  else f s

/-- A request for the identity, which a lost identity sector leaves Unspecified (R459). -/
def State.spdmIdentity (s : State) (bus : Nat) (f : State → State) : State :=
  if s.thimble.idLost then s.spdmError bus 5 0 [] else f s

/-- A request and its response join what the next signature covers. -/
def State.spdmNote (s : State) (bus : Nat) (bs : Bytes) : State := s.updSpdm bus (fun x => { x with msgs := x.msgs ++ bs })

/-- GET_VERSION. -/
def State.spdmVersion (s : State) (bus : Nat) (m : SpdmReq) : State :=
  if m.version != 0x10 then s.spdmError bus 0x41 0 []
  else
    let body := bytesLE 1 0 ++ bytesLE 1 2 ++ bytesLE 2 0x1200 ++ bytesLE 2 0x1300
    (s.updSpdm bus (fun x => ({ out := x.out, st := 1, outHandle := x.outHandle
                                msgs := spdmBytes 0x10 0x84 0 0 [] ++ spdmBytes 0x10 4 0 0 body } : SpdmS))).spdmReply bus 4 0 0 body

/-- GET_CAPABILITIES. -/
def State.spdmCapabilities (s : State) (bus : Nat) (m : SpdmReq) : State :=
  if (s.spdm bus).st != 1 then s.spdmError bus 4 0 []
  else if m.version != 0x12 && m.version != 0x13 then s.spdmError bus 0x41 0 []
  else
    let flags := 2 ^ 1 + 2 ^ 2 + 2 * 2 ^ 3 + 2 ^ 17
    let body := zeros 1 ++ [Config.spdmCt] ++ zeros 2 ++ bytesLE 4 flags ++ bytesLE 4 spdmMax ++ bytesLE 4 (2 ^ 32 - 1)
    let s := s.updSpdm bus (fun x => { x with st := 2, version := m.version })
    (s.spdmNote bus (spdmBytes m.version 0xE1 m.param1 m.param2 (spdmTail m 0xE1) ++ spdmBytes m.version 0x61 0 0 body)).spdmReply bus 0x61 0 0 body

/-- NEGOTIATE_ALGORITHMS: TPM_ALG_RSAPSS_3072 and TPM_ALG_SHA_384 must be among those offered. -/
def State.spdmAlgorithms (s : State) (bus : Nat) (m : SpdmReq) : State :=
  let x := s.spdm bus
  if x.st != 2 then s.spdmError bus 4 0 []
  else if m.version != x.version then s.spdmError bus 0x41 0 []
  else if !(m.a.testBit 3 && m.b.testBit 1) then s.spdmError bus 1 0 []
  else
    let body := bytesLE 2 36 ++ bytesLE 1 1 ++ bytesLE 1 0 ++ bytesLE 4 4 ++ bytesLE 4 8 ++ bytesLE 4 2 ++ zeros 16
    let s := s.updSpdm bus (fun x => { x with st := 3 })
    (s.spdmNote bus (spdmBytes m.version 0xE3 m.param1 m.param2 (spdmTail m 0xE3) ++ spdmBytes m.version 0x63 0 0 body)).spdmReply bus 0x63 0 0 body

/-- GET_DIGESTS. -/
def State.spdmDigests (s : State) (bus : Nat) (m : SpdmReq) : State :=
  s.spdmReady bus m (fun s => s.spdmIdentity bus (fun s =>
    let body := bytesBE 48 (Config.sha384 Config.rsaChain).toNat
    (s.spdmNote bus (spdmBytes m.version 0x81 m.param1 m.param2 [] ++ spdmBytes m.version 1 0 1 body)).spdmReply bus 1 0 1 body))

/-- GET_CERTIFICATE: a portion of slot 0's chain. -/
def State.spdmCertificate (s : State) (bus : Nat) (m : SpdmReq) : State :=
  s.spdmReady bus m (fun s => s.spdmIdentity bus (fun s =>
    let chain := Config.rsaChain
    if m.param1 % 16 != 0 || chain.length ≤ m.a then s.spdmError bus 1 0 []
    else
      let part := (chain.drop m.a).take m.b
      let body := bytesLE 2 part.length ++ bytesLE 2 (chain.length - m.a - part.length) ++ part
      (s.spdmNote bus (spdmBytes m.version 0x82 m.param1 m.param2 (spdmTail m 0x82) ++ spdmBytes m.version 2 0 0 body)).spdmReply bus 2 0 0 body))

/-- SHA-384 of the measurements, as a summary. -/
def State.measureSummary (s : State) (kind : Nat) : Bytes :=
  if kind = 0 then [] else bytesBE 48 (Config.sha384 ((List.range' 1 8).flatMap s.measureBlock)).toNat

/-- CHALLENGE: signed with IK_RSA over the messages so far. -/
def State.spdmChallenge (s : State) (bus : Nat) (m : SpdmReq) : State :=
  s.spdmReady bus m (fun s => s.spdmIdentity bus (fun s =>
    if m.param1 != 0 || (m.param2 != 0 && m.param2 != 1 && m.param2 != 0xFF) then s.spdmError bus 1 0 []
    else
      let s := s.spdmNote bus (spdmBytes m.version 0x83 m.param1 m.param2 (spdmTail m 0x83))
      let r := s.freshNonce
      let body := bytesBE 48 (Config.sha384 Config.rsaChain).toNat ++ r.1 ++ s.measureSummary m.param2 ++ zeros 2 ++
        (if m.version = 0x13 then m.body.take 8 else [])
      r.2.spdmSigned bus 3 0 1 body))

/-- GET_MEASUREMENTS: their number, one, or all, signed where asked. -/
def State.spdmMeasurements (s : State) (bus : Nat) (m : SpdmReq) : State :=
  s.spdmReady bus m (fun s =>
    if 8 < m.param2 && m.param2 != 0xFF then s.spdmError bus 1 0 []
    else
      let is := if m.param2 = 0 then [] else if m.param2 = 0xFF then List.range' 1 8 else [m.param2]
      let blocks := is.flatMap s.measureBlock
      let count := if m.param2 = 0 then 8 else 0
      let req := spdmBytes m.version 0xE0 m.param1 m.param2 (spdmTail m 0xE0)
      let r := s.freshNonce
      let body := bytesLE 1 is.length ++ bytesLE 3 blocks.length ++ blocks ++ r.1 ++ zeros 2
      if m.param1 % 2 = 1 then
        s.spdmIdentity bus (fun _ => if m.a % 16 != 0 then s.spdmError bus 1 0 [] else (r.2.spdmNote bus req).spdmSigned bus 0x60 count 0 body)
      else (r.2.spdmNote bus (req ++ spdmBytes m.version 0x60 count 0 body)).spdmReply bus 0x60 count 0 body)

/-- GET_REPORT (R461). -/
def State.spdmReport (s : State) (bus : Nat) (m : SpdmReq) : State :=
  s.spdmReady bus m (fun s => s.spdmIdentity bus (fun s =>
    if 5 ≤ s.thimble.reports.length then s.spdmError bus 3 0 [] else s.askReport none bus m.nonce))

/-- GET_PQ_CERT. -/
def State.spdmPqCert (s : State) (bus : Nat) (m : SpdmReq) : State :=
  s.spdmReady bus m (fun s => s.spdmIdentity bus (fun s => s.spdmReply bus 0x7E 0 0 (vendorBody Config.slhCert)))

/-- A request by its code, as a reassembled large request has it; other codes are not supported. -/
def State.spdmServe (s : State) (bus code : Nat) (m : SpdmReq) : State :=
  match code with
  | 0x84 => s.spdmVersion bus m
  | 0xE1 => s.spdmCapabilities bus m
  | 0xE3 => s.spdmAlgorithms bus m
  | 0x81 => s.spdmDigests bus m
  | 0x82 => s.spdmCertificate bus m
  | 0x83 => s.spdmChallenge bus m
  | 0xE0 => s.spdmMeasurements bus m
  | _ => s.spdmError bus 7 code []

/-- CHUNK_SEND: chunks in order, from number 0; the last one carries the request out. -/
def State.spdmChunkSend (s : State) (bus : Nat) (m : SpdmReq) : State :=
  s.spdmReady bus m (fun s =>
    let x := s.spdm bus
    if m.a != (if m.a = 0 then 0 else x.inSeq) || m.body.isEmpty then s.spdmError bus 1 0 []
    else
      let buf := (if m.a = 0 then [] else x.inBuf) ++ m.body
      let s := s.updSpdm bus (fun x => { x with inBuf := buf, inSeq := m.a + 1 })
      let s := s.spdmReply bus 5 0 m.param2 (bytesLE 2 m.a)
      if m.param1 % 2 = 1 then
        let r := spdmReqOf buf
        (s.updSpdm bus (fun x => { x with inBuf := [], inSeq := 0 })).spdmServe bus r.1 r.2
      else s)

/-- CHUNK_GET: the next chunk of a large response. -/
def State.spdmChunkGet (s : State) (bus : Nat) (m : SpdmReq) : State :=
  s.spdmReady bus m (fun s =>
    let x := s.spdm bus
    if x.pendOut.isEmpty || m.param2 != x.outHandle || m.a != x.outSeq then s.spdmError bus 1 0 []
    else
      let n := spdmMax - 16
      let part := x.pendOut.take n
      let rest := x.pendOut.drop n
      (s.updSpdm bus (fun x => { x with pendOut := rest, outSeq := x.outSeq + 1 })).spdmOut bus
        { code := 6, param1 := b2n rest.isEmpty, param2 := m.param2, body := bytesLE 2 m.a ++ zeros 2 ++ bytesLE 4 part.length ++ part })

/-- A request that reaches the responder. -/
def State.spdmDo (s : State) (bus : Nat) (f : State → State) : State := s.onIf (s.spdmOpen bus) f

/-- GET_VERSION (R460). -/
def execGetVersion (bus : Nat) (m : SpdmReq) (s : State) : Out := .next (s.spdmDo bus (fun s => s.spdmVersion bus m))
/-- GET_CAPABILITIES (R460). -/
def execGetCapabilities (bus : Nat) (m : SpdmReq) (s : State) : Out := .next (s.spdmDo bus (fun s => s.spdmCapabilities bus m))
/-- NEGOTIATE_ALGORITHMS (R460). -/
def execNegotiateAlgorithms (bus : Nat) (m : SpdmReq) (s : State) : Out := .next (s.spdmDo bus (fun s => s.spdmAlgorithms bus m))
/-- GET_DIGESTS (R460). -/
def execGetDigests (bus : Nat) (m : SpdmReq) (s : State) : Out := .next (s.spdmDo bus (fun s => s.spdmDigests bus m))
/-- GET_CERTIFICATE (R459, R460). -/
def execGetCertificate (bus : Nat) (m : SpdmReq) (s : State) : Out := .next (s.spdmDo bus (fun s => s.spdmCertificate bus m))
/-- CHALLENGE (R460). -/
def execChallenge (bus : Nat) (m : SpdmReq) (s : State) : Out := .next (s.spdmDo bus (fun s => s.spdmChallenge bus m))
/-- GET_MEASUREMENTS (R460). -/
def execGetMeasurements (bus : Nat) (m : SpdmReq) (s : State) : Out := .next (s.spdmDo bus (fun s => s.spdmMeasurements bus m))
/-- CHUNK_SEND (R460). -/
def execChunkSend (bus : Nat) (m : SpdmReq) (s : State) : Out := .next (s.spdmDo bus (fun s => s.spdmChunkSend bus m))
/-- CHUNK_GET (R460). -/
def execChunkGet (bus : Nat) (m : SpdmReq) (s : State) : Out := .next (s.spdmDo bus (fun s => s.spdmChunkGet bus m))
/-- GET_REPORT (R460, R461). -/
def execGetReport (bus : Nat) (m : SpdmReq) (s : State) : Out := .next (s.spdmDo bus (fun s => s.spdmReport bus m))
/-- GET_PQ_CERT (R459, R460). -/
def execGetPqCert (bus : Nat) (m : SpdmReq) (s : State) : Out := .next (s.spdmDo bus (fun s => s.spdmPqCert bus m))

/-! ### Secure mailboxes (R363, R464) -/

/-- Secure mailbox `m`. -/
def State.secure (s : State) (m : Nat) : Mbox := AMap.get s.secMbox m {}
/-- Secure mailbox `m` changed. -/
def State.updSecure (s : State) (m : Nat) (f : Mbox → Mbox) : State := { s with secMbox := AMap.upd s.secMbox m {} f }
/-- A data register of a mailbox. -/
def Mbox.word (b : Mbox) (i : Nat) : Nat := (AMap.get b.data i 0).toNat
/-- A data register of a mailbox written. -/
def Mbox.put (b : Mbox) (i v : Nat) : Mbox :=
  { b with data := AMap.put b.data i (BitVec.ofNat 32 v) }
/-- Registers from a first one on filled with bytes, least significant byte first. -/
def Mbox.fill (b : Mbox) (i : Nat) (bs : Bytes) : Mbox :=
  (List.range (bs.length / 4)).foldl (fun b k => b.put (i + k) (natLE ((bs.drop (4 * k)).take 4))) b

/-- The thimble answers in a secure mailbox: the message word, a status, and what the message returns. -/
def State.secReply (s : State) (m status : Nat) (i : Nat) (bs : Bytes) : State :=
  (s.updSecure m (fun b => { (b.put 1 status).fill i bs with go := false })).setA2H 0 0x40000000#32

/-- A message that the manager posts to the thimble: GO is set, and the thimble acts on its MSG. -/
def State.secPost (s : State) (m : Nat) (act : State → Mbox → State) : State :=
  if 3 < m || !s.barOpen 0 || (s.secure m).go then s
  else
    let s := s.updSecure m (fun b => { b with go := true, sender := 0 })
    act s (s.secure m)

/-- MR7 is extended (R456, R464). -/
def State.secExtend (m : Nat) (s : State) (b : Mbox) : State :=
  (s.extend 7 ((List.range 12).flatMap (fun i => bytesLE 4 (b.word (2 + i))))).secReply m 0 2 []

/-- A measurement register is returned (R464). -/
def State.secRead (m : Nat) (s : State) (b : Mbox) : State :=
  if 7 < b.word 2 then s.secReply m 18 2 [] else s.secReply m 0 2 (s.thimble.mrOf (b.word 2))

/-- The key epoch rises; a fuse is blown, which waits for no reset (R464, R488). -/
def State.secRotate (m : Nat) (s : State) (b : Mbox) : State :=
  let e := s.thimble.kekEpoch.toNat
  if 16 ≤ e || b.word 2 != e then s.secReply m 18 2 []
  else if s.rst.held.isSome then s
  else (s.updThimble (fun t => { t with kekEpoch := BitVec.ofNat 5 (e + 1) })).secReply m 0 2 (bytesLE 4 (e + 1))

/-- The self-test of the thimble; the manual gives no status for its failure (R464). -/
def State.secTest (m : Nat) (ok : Bool) (s : State) : State :=
  if ok then s.secReply m 0 2 []
  else
    let v := (s.secRec 9 0).freshVal
    v.2.secReply m (v.1.toNat % 256) 2 []

/-- MSG of a message. -/
def Mbox.msg (b : Mbox) : Nat := b.word 0 / 2 ^ 16

/-- A message by its own MSG, as a write of GO posts it; an unknown one is answered INVALID_OPCODE. -/
def State.secAct (m : Nat) (s : State) (b : Mbox) : State :=
  match b.msg with
  | 1 => State.secExtend m s b
  | 2 => State.secRead m s b
  | 3 => State.secRotate m s b
  | 4 => let v := s.freshVal; State.secTest m (bitAt v.1 0) v.2
  | _ => s.secReply m 19 2 []

/-- The MSG of the mailbox is the one a command names. -/
def State.secNamed (s : State) (m msg : Nat) : State :=
  s.onIf (s.barOpen 0 && !(s.secure m).go && decide (m < 4)) (fun s => s.updSecure m (fun b => b.put 0 (msg * 2 ^ 16 + b.word 0 % 2 ^ 16)))

/-- MR_EXTEND (R464). -/
def execMrExtend (mbox : Nat) (s : State) : Out := .next ((s.secNamed mbox 1).secPost mbox (State.secExtend mbox))
/-- MR_READ (R464). -/
def execMrRead (mbox : Nat) (s : State) : Out := .next ((s.secNamed mbox 2).secPost mbox (State.secRead mbox))
/-- KEK_ROTATE (R464). -/
def execKekRotate (mbox : Nat) (s : State) : Out := .next ((s.secNamed mbox 3).secPost mbox (State.secRotate mbox))
/-- SELF_TEST (R464). -/
def execSelfTest (mbox : Nat) (ok : Bool) (s : State) : Out :=
  .next ((s.secNamed mbox 4).secPost mbox (fun s _ => State.secTest mbox ok s))

/-- NOTICE: the thimble posts a SEC reason in the first free of mailboxes 4 to 7, under a TAG the manual leaves open. -/
def execNotice (reason : Nat) (s : State) : Out :=
  .next (match ([4, 5, 6, 7] : Nats).find? (fun m => !(s.secure m).go) with
    | none => s
    | some m =>
      if reason = 0 || 9 < reason || s.rst.stage.toNat < 5 || s.rst.halted then s
      else
        let v := s.freshVal
        (v.2.updSecure m (fun _ => { ((({} : Mbox).put 0 (0x0101 * 2 ^ 16 + v.1.toNat % 2 ^ 16)).put 2 reason) with
          go := true, sender := 0x40 })).setA2H 0 0x20000000#32)

/-- SECURE_MAILBOX_REPLY: the manager clears GO of a mailbox the thimble posted in. -/
def execSecureMailboxReply (mbox : Nat) (s : State) : Out :=
  .next (s.onIf (s.barOpen 0 && decide (4 ≤ mbox ∧ mbox ≤ 7)) (fun s => s.updSecure mbox (fun b => { b with go := false })))

end Sys2Proof.Machine
end

