-- ==== Sys2Proof/Machine/Reset.lean ====
section
/-!
DEFINITION. Resets, power and clocks (chapters 22 and 25): what each kind of reset clears, what happens when two meet, non-volatile
writes that hold a reset, the power states, and the limits of power and temperature (R483-R503, R538-R545).
-/

namespace Sys2Proof.Machine

/-! ### What a reset clears (R91, R483, R559) -/

/-- Everything within the reach of a cold reset at its reset value; what fuses, SPI NOR, the pins and the standby rail hold stays, and so do
the spare rows and spare needles used up and the needles that failed (R81, R266). -/
def State.coldClear (s : State) (cause : BitVec 4) : State :=
  let t := s.thimble
  let m := s.mgmt
  let v := s.freshVal
  { ({} : State) with
    pending := s.pending, fresh := v.2.fresh, clockNs := s.clockNs, nextId := s.nextId, straps := s.straps
    pins := { s.pins with pwrOk := false, ppsOut := false, tackHigh := false, tackOut := [] }
    rst := { lastCause := cause }
    thimble := { svnFuse := t.svnFuse, kekEpoch := t.kekEpoch, slot0Revoked := t.slot0Revoked, preferB := t.preferB, copyGood := t.copyGood
                 manufacturing := t.manufacturing }
    mgmt := { eui := m.eui, serial := m.serial, nvPlane := m.nvPlane, nvRow := m.nvRow, originPlane := m.nvPlane, originRow := m.nvRow }
    els := AMap.mapAll s.els (fun _ e => { present := e.present })
    mem := { spares := s.mem.spares }
    clus := AMap.mapAll s.clus (fun _ c => { present := c.present, repair := c.repair, lostSlots := c.lostSlots })
    dies := AMap.mapAll s.dies (fun _ d => { spares := d.spares })
    tp := { inc := BitVec.ofNat 16 v.1.toNat }
    power := { inputV := s.power.inputV }
    tapIr := s.tapIr
    i3c := s.i3c }

/-- Units after a warm reset: those held are retained, and an erase cut short is pending (R437, R446). -/
def UnitS.warm (u : UnitS) : UnitS :=
  if u.st = 1 then { u with st := 0, owner := 0, retained := true } else if u.st = 2 then { u with st := 3 } else u

/-- The memory tiers through a warm reset: contents, map, retirements and evacuations stay (R91). -/
def MemS.warm (m : MemS) : MemS :=
  { ({} : MemS) with
    init := m.init, chans := m.chans, triples := m.triples, gmap := m.gmap, retiredF := m.retiredF, rows := m.rows, spares := m.spares
    damaged := m.damaged, badWords := m.badWords, waiting := m.waiting, scrubPass := m.scrubPass, scrubBegan := m.scrubBegan
    scrubLate := m.scrubLate, scrubPos := m.scrubPos, retires24 := m.retires24
    evacs := m.evacs.map (fun e => { e with issue := none }) }

/-- Windows through a warm reset: an open one is closed as by WIN_REVOKE; generations stay (R110). -/
def WinS.warm (w : WinS) : WinS := { gen := if w.st then nextGen w.gen else w.gen }

/-- A value that differs from the one it replaces (R158). -/
def otherInc (old v : BitVec 16) : BitVec 16 := if v == old then v + 1 else v

/-- Everything within the reach of a warm reset at its reset value (R483, R559). -/
def State.warmClear (s : State) : State :=
  let t := s.thimble
  let m := s.mgmt
  let v := s.freshVal
  { ({} : State) with
    pending := s.pending, fresh := v.2.fresh, clockNs := s.clockNs, nextId := s.nextId, straps := s.straps, pins := s.pins
    devidValid := s.devidValid, devid := s.devid
    rst := { lastCause := s.rst.lastCause, warmCount := s.rst.warmCount, warmAt := s.rst.warmAt, warmCause := s.rst.warmCause
             imagesVoid := s.rst.imagesVoid }
    power := { inputV := s.power.inputV }
    tape := s.tape
    thimble := { svnRun := t.svnRun, svnFuse := t.svnFuse, kekEpoch := t.kekEpoch, slot0Revoked := t.slot0Revoked, rootSlot := t.rootSlot
                 copy := t.copy, preferB := t.preferB, bulkOut := t.bulkOut, bulkMiss := t.bulkMiss, copyGood := t.copyGood
                 bundle := t.bundle, idLost := t.idLost, manufacturing := t.manufacturing }
    mgmt := { eui := m.eui, serial := m.serial, nvPlane := m.nvPlane, nvRow := m.nvRow, originPlane := m.originPlane
              originRow := m.originRow, wakes := m.wakes, given := m.given }
    faults := { fatal := s.faults.fatal, others := s.faults.others, othersNext := s.faults.othersNext }
    mem := s.mem.warm
    units := AMap.mapAll s.units (fun _ u => u.warm)
    devMem := s.devMem
    host := { up := s.host.up, width := s.host.width, speed := s.host.speed, flit := s.host.flit, gone := s.host.gone, rrs := true }
    wins := AMap.mapAll s.wins (fun _ w => w.warm)
    tp := { gens := (s.conns.filter (fun e => e.2.st != 0)).foldl (fun g e => AMap.set g e.1 (s.gen e.1 + 1)) s.tp.gens
            inc := otherInc s.tp.inc (BitVec.ofNat 16 v.1.toNat) }
    ports := AMap.mapAll s.ports (fun _ p => { narrow := p.narrow, light := p.light, shut := p.shut, state := if p.shut then 6 else 0 })
    els := AMap.mapAll s.els (fun _ e => { present := e.present, failed := e.failed })
    clus := AMap.mapAll s.clus (fun _ c => { present := c.present, repair := c.repair, lostSlots := c.lostSlots })
    dies := AMap.mapAll s.dies (fun _ d => { spares := d.spares })
    tapIr := s.tapIr
    i3c := s.i3c }

/-! ### Records of class POWER (R503) -/

/-- A record of class POWER. -/
def State.powerRec (s : State) (reason d0 d1 act : Nat) : State :=
  s.postRec { cls := 13, reason, d0, d1, act, alsoLog := reason == 4 }

/-- The straps are sampled; CLK_MODE 3 is recorded (R493). -/
def State.sampleStraps (s : State) : State :=
  let s := { s with straps := s.pins.strap }
  s.onIf (s.straps.clkMode == 3) (fun s => s.powerRec 5 0 0 0)

/-! ### Triggers (R485, R486, R488) -/

/-- A cold reset begins; with RESET_N low, no power or no oscillator the adapter is held in it (R489, R494, R545). -/
def State.coldReset (s : State) (cause : Nat) : State :=
  let s := s.coldClear (BitVec.ofNat 4 cause)
  if s.pins.resetN && s.pins.oscOk && s.pins.powered then s.sampleStraps else s.updRst (fun r => { r with inReset := true })

/-- LAST_CAUSE of a cold reset that may leave HALTED or DORMANT (R501). -/
def State.coldCause (s : State) (cause : Nat) : Nat := if s.rst.halted then 9 else if s.rst.dormant then 7 else cause

/-- A cold reset is triggered: at once, or when a non-volatile write in progress ends (R486, R488). -/
def State.coldTrigger (s : State) (cause : Nat) : State :=
  if !s.pins.powered then s
  else if s.rst.nvBusy.isSome then s.updRst (fun r => { r with held := some (true, cause, 0, 0, 0) })
  else s.coldReset cause

/-- A record's identity for FAULT_HALT: SEQ, CLASS and REASON; zeros where the trigger posted none (R523). -/
abbrev Because := Nat × Nat × Nat

/-- A warm reset begins, and its window with it (R490, R519). -/
def State.warmReset (s : State) (cause : Nat) (why : Because) : State :=
  ((s.warmClear).updRst (fun r => { r with
    stage := 1, warm := true, warmCount := satAdd r.warmCount 1, lastCause := BitVec.ofNat 4 cause, warmAt := some s.clockNs
    warmCause := BitVec.ofNat 4 cause })).updFaults (fun f => { f with windows := [{ rung := 4, dom := 0, seq := BitVec.ofNat 32 why.1 }] })

/-- The adapter enters HALTED in place of a warm reset, and FAULT_HALT is latched (R485, R523). -/
def State.haltEnter (s : State) (cause : Nat) (why : Because) : State :=
  let first := s.rst.warmCause.toNat
  (((s.warmClear).updRst (fun r => { r with stage := 7, halted := true })).updFaults (fun f => { f with
    halt := pack 64 [(63, 32, why.1), (31, 24, first), (23, 16, cause), (15, 8, why.2.1), (7, 0, why.2.2)] })).updHost
      (fun h => { h with rrs := false })

/-- A warm reset would be refused now: another began within 60 s, or its bring-up is in progress (R485, R486). -/
def State.warmRefused (s : State) : Bool :=
  s.rst.warm || (s.faults.windows.any (fun w => w.rung == 4) &&
    (match s.rst.warmAt with | some t => decide (s.clockNs < t + 60 * 10 ^ 9) | none => false))

/-- The adapter is past its rails and not held, halted or dormant. -/
def State.alive (s : State) : Bool := s.pins.powered && !s.rst.inReset && !s.rst.halted && !s.rst.dormant

/-- A warm reset is triggered (R485, R486, R488). -/
def State.warmTrigger (s : State) (cause : Nat) (why : Because) : State :=
  if !s.alive || s.rst.held.isSome then s
  else if s.rst.stage != 6 && !s.rst.warm then s.coldTrigger cause
  else if s.rst.nvBusy.isSome then s.updRst (fun r => { r with held := some (false, cause, why) })
  else if s.warmRefused then s.haltEnter cause why
  else s.warmReset cause why

/-- A reset that a non-volatile write held starts (R488). -/
def State.heldStart (s : State) : State :=
  match s.rst.held with
  | none => s
  | some (cold, cause, why) =>
    let s := s.updRst (fun r => { r with held := none, nvBusy := none })
    if cold then s.coldReset cause else s.warmTrigger cause why

/-- NV_WRITE_END: a page program or sector erase ends; a held reset starts, else an update in progress goes on to its next page. -/
def execNvWriteEnd (s : State) : Out :=
  .next (match s.rst.nvBusy with
    | some k =>
      if k = 0 then s
      else if s.rst.held.isSome then s.heldStart
      else s.updRst (fun r => { r with nvBusy := if s.thimble.update.isSome then some 1 else none })
    | none => s)

/-- FUSE_PULSE_END: the fuse is blown; a held reset starts, else the commit's next pulse (R455, R488). -/
def execFusePulseEnd (s : State) : Out :=
  .next (if s.rst.nvBusy == some 0 then
      let s := (s.pulseEnd).updRst (fun r => { r with nvBusy := none })
      if s.rst.held.isSome then s.heldStart else s.fuseNext
    else s)

/-- WARM_RESET: a trigger is acted on, or refused into HALTED. -/
def execWarmReset (cause : Nat) (s : State) : Out := .next (s.warmTrigger (cause % 16) (0, 0, 0))

/-! ### Pins and power (R487, R493, R494, R544, R545) -/

/-- RESET_N_ASSERT: a low pulse shorter than 200 ns is ignored, one of 1 µs or more is honoured, and one between is either (R487). -/
def execResetNAssert (ns : Nat) (s : State) : Out :=
  .next (
    let low (s : State) : State :=
      ({ s with pins := { s.pins with resetN := false } } : State).coldTrigger (s.coldCause 1)
    if ns < 200 then s
    else if 1000 ≤ ns then low s
    else
      let v := s.freshVal
      if bitAt v.1 0 then low v.2 else v.2)

/-- Bring-up starts where the adapter was held in cold reset and nothing holds it any more. -/
def State.letGo (s : State) : State :=
  if s.rst.inReset && s.pins.resetN && s.pins.oscOk && s.pins.powered then (s.updRst (fun r => { r with inReset := false })).sampleStraps
  else s

/-- RESET_N_RELEASE: the straps are sampled and bring-up begins (R493). -/
def execResetNRelease (s : State) : Out := .next ({ s with pins := { s.pins with resetN := true } } : State).letGo

/-- POWER_ON: the input passes 40 V; the standby rail is raised and bring-up starts with RESET_N high (R545). -/
def execPowerOn (s : State) : Out :=
  .next (if s.pins.powered then s
    else ({ s with pins := { s.pins with powered := true, standby := true, overvolt := false } } : State).coldReset 0)

/-- The module loses its input: every rail goes off at once, whatever is being written (R488, R545). -/
def State.powerOff (s : State) (over_ : Bool) : State :=
  { (({ s with pins := { s.pins with powered := false, standby := false, overvolt := over_ } } : State).coldReset 0) with i3c := {} }

/-- POWER_LOSS: the input falls below 38 V. -/
def execPowerLoss (s : State) : Out := .next (if s.pins.powered then s.powerOff false else s)

/-- INPUT_OVERVOLTAGE: above 62 V the input protection disconnects the module (R544). -/
def execInputOvervoltage (s : State) : Out :=
  .next (if s.pins.powered then s.powerOff true else { s with pins := { s.pins with overvolt := true } })

/-- OSC_LOSS: the adapter is held in cold reset, recorded as POWER_ON (R494). -/
def execOscLoss (s : State) : Out :=
  .next (if s.pins.oscOk then ({ s with pins := { s.pins with oscOk := false } } : State).coldTrigger 0 else s)

/-- OSCILLATOR_RETURN: the cold reset is released (R494). -/
def execOscillatorReturn (s : State) : Out := .next ({ s with pins := { s.pins with oscOk := true } } : State).letGo

/-- REFCLK_LOST: in CLK_MODE 0 and 1 the data link goes down (R494, R396). -/
def execRefclkLost (s : State) : Out :=
  .next (if 1 < s.straps.clkMode.toNat || !s.alive then s
    else (({ s with pins := { s.pins with refclkOk := false } } : State).powerRec 6 0 0 0).linkDown)

/-! ### Reset commands and RESET_CTL (R499, R500) -/

/-- RESET_WARM: no reply; the reset starts after the command is taken. -/
def execResetWarm (h : Issue) (s : State) : Out := .next (vuino h 0x0B10 [] (fun s => Ans.wait (s.warmTrigger 3 (0, 0, 0))) s)

/-- RESET_COLD: no reply. -/
def execResetCold (h : Issue) (s : State) : Out := .next (vuino h 0x0B11 [] (fun s => Ans.wait (s.coldTrigger 2)) s)

/-- A write of RESET_CTL: served in HALTED and while the admin queue is HALTED; a wrong key, or both bits, is counted (R500, R560). -/
def State.resetCtl (s : State) (func value : Nat) : State :=
  let open_ := s.pins.powered && !s.rst.inReset && !s.rst.dormant && func == 0 &&
    (s.rst.halted || (decide (5 ≤ s.rst.stage.toNat) && (s.part 0).resetStep == 0))
  if !open_ then s
  else if value / 2 ^ 48 % 2 ^ 16 != 0xA5C3 || value % 4 = 3 then s.updRst (fun r => { r with ctlRefused := satAdd r.ctlRefused 1 })
  else if value % 4 = 2 then s.coldTrigger (s.coldCause 2)
  else if value % 4 = 1 then s.warmTrigger 3 (0, 0, 0)
  else s

/-- RESET_CTL_COLD (R500). -/
def execResetCtlCold (func value : Nat) (s : State) : Out := .next (s.resetCtl func value)
/-- RESET_CTL_WARM (R500). -/
def execResetCtlWarm (func value : Nat) (s : State) : Out := .next (s.resetCtl func value)

/-! ### Loss of the host link (R396, R398, R540) -/

/-- Link loss: what was held or in flight is discarded, packets are answered HOST_GONE, LINK_LOST is logged, and a warm reset starts. -/
def State.linkLoss (s : State) : State :=
  if !s.alive || s.rst.stage.toNat < 5 || s.rst.perstHold then s
  else
    let s := s.updHost (fun h => { h with
      hold := [], reissue := [], reads := [], waits := [], bmeWait := [], cache := [], gone := true, up := false, riding := false })
    let seq := s.faults.nextSeq.toNat
    (s.postRec { cls := 8, reason := 3, logOnly := true }).warmTrigger 6 (seq, 8, 3)

/-- LINK_LOSS_TIMER: the data link has been down for 20 ms. -/
def execLinkLossTimer (s : State) : Out := .next (s.onIf (s.host.riding && !s.host.up) State.linkLoss)

/-- PERST_ASSERT: a link loss once the host interface stage is released, a hold before; it wakes DORMANT and retrains the link in
HALTED (R485, R495, R540). -/
def execPerstAssert (s : State) : Out :=
  .next (
    let s := { s with pins := { s.pins with perstN := false } }
    if s.rst.dormant then s.coldTrigger 7
    else if s.rst.halted then s.updHost (fun h => { h with up := false })
    else s.linkLoss)

/-- PERST_RELEASE: a host interface stage that waited is released (R540). -/
def execPerstRelease (s : State) : Out :=
  .next (
    let s := { s with pins := { s.pins with perstN := true } }
    s.onIf s.rst.perstHold (fun s => (s.updRst (fun r => { r with perstHold := false })).updHost (fun h => { h with rrs := false })))

/-- HOT_RESET (R396). -/
def execHotReset (s : State) : Out := .next s.linkLoss

/-- LTSSM_LOOPBACK: the link partner directs Loopback; the data link is down (R530). -/
def execLtssmLoopback (s : State) : Out := .next (s.onIf s.host.up (fun s => (s.linkDown).updHost (fun h => { h with loopback := true })))

/-! ### Power states (R495, R496) -/

/-- What POWER_STATE SLUMBER and DORMANT require (R496). -/
def State.quiet (s : State) : Bool :=
  s.parts.all (fun e => e.1 == 0 || decide (e.2.st ≤ 1)) && (s.part 0).progs.isEmpty &&
  !s.conns.any (fun e => e.2.part == 0 && e.2.st == 2) && s.parts.all (fun e => e.2.running.isEmpty)

/-- Entry into SLUMBER or DORMANT begins: every port in service leaves the candidate sets. -/
def State.sleepBegin (s : State) (to_ : Nat) (h : Issue) : State :=
  let s := s.updPower (fun p => { p with state := 3, target := some (BitVec.ofNat 8 to_), issue := some h })
  s.each (List.range 32) (fun n t => t.onIf ((t.port n).state != 6) (fun t => t.updPort n (fun p => { p with els := true })))

/-- Exit from SLUMBER begins. -/
def State.wakeBegin (s : State) (h : Option Issue) : State := s.updPower (fun p => { p with state := 3, target := some 0, issue := h })

/-- POWER_STATE: SLUMBER or DORMANT is entered, or SLUMBER left. -/
def execPowerState (h : Issue) (state : Nat) (s : State) : Out :=
  .next (vuino h 0x0B12 [state] (fun s =>
    let st := s.power.state.toNat
    if state != 0 && state != 2 && state != 3 then Ans.bad s
    else if st = 3 then Ans.busy s
    else if state = 0 then
      if st = 2 then Ans.wait (s.wakeBegin (some h)) else Ans.ok (s.updPower (fun p => { p with state := 0 }))
    else if state = st then Ans.ok s
    else if !s.quiet then Ans.busy s
    else Ans.wait (s.sleepBegin state h)) s)

/-- The ports that a sleep took out of service are disabled; what remains in them is abandoned (R231, R496). -/
def State.sleepPorts (s : State) (ports : Nats) : State :=
  s.each ports (fun n t => t.onIf ((t.port n).els && (t.port n).state != 6) (fun t => (t.portOut n 6).updPort n (fun p => { p with els := true })))

/-- QUEUE_DRAIN_LIMIT: the 1 ms wait for the output queues of ports leaving service ends (R231, R496). -/
def execQueueDrainLimit (ports : Nats) (s : State) : Out :=
  .next ((s.elsDrainLimit ports).onIf (s.power.state == 3 && s.power.target != some 0) (fun s => s.sleepPorts ports))

/-- Emitters a running module lights. -/
def ElsS.litMask (e : ElsS) : BitVec 16 :=
  pack 16 ((List.range 16).map (fun i => (i, i, b2n (!bitAt e.failed i && (i % 4 != 3 || e.spareOf (i / 4) != 3)))))

/-- SLUMBER is entered: ports disabled, lasers dark, needle dies off, memory in self-refresh. -/
def State.slumber (s : State) : State :=
  let s := s.sleepPorts (List.range 32)
  let s := s.each (List.range 4) (fun k t => (t.updEls k (fun e => { e with lit := 0 })).updDie k (fun d => { d with cur := 0 }))
  s.updPower (fun p => { p with state := 2, scrubPaused := true })

/-- SLUMBER is left: needle dies run with zeroed memories, lasers are lit, and the ports train. -/
def State.awake (s : State) : State :=
  let s := { s with shared := [], localM := [], imem := [] }
  let s := s.each (List.range 4) (fun k t =>
    (t.updEls k (fun e => { e with lit := if e.st == 2 then e.litMask else e.lit })).updDie k (fun d => { d with cur := if s.spine then 0 else d.maxM }))
  let s := s.updPower (fun p => { p with state := 0, scrubPaused := false })
  s.each (List.range 32) (fun n t =>
    if (t.port n).els && (t.elsm (n / 8)).st == 2 then (t.updPort n (fun p => { p with els := false, state := 0 })).trainCold n else t)

/-- DORMANT is entered: only the standby rail and the wake-pattern detector stay on; memory contents are lost (R91, R475). -/
def State.goDormant (s : State) : State :=
  let w := s.mgmt.wakes
  let r := s.rst
  ((s.coldClear r.lastCause).updMgmt (fun m => { m with wakes := w })).updRst (fun x => { x with dormant := true, warmCount := r.warmCount })

/-- POWER_TRANSITION_END: the state headed for is reached, and POWER_STATE replies. -/
def execPowerTransitionEnd (s : State) : Out :=
  .next (if s.power.state != 3 then s
    else
      let h := s.power.issue
      let t := (s.power.target.getD 0).toNat
      if t = 3 then s.goDormant
      else
        let s := s.updPower (fun p => { p with target := none, issue := none })
        let s := if t = 2 then s.slumber else s.awake
        match h with
        | some h => s.answerLater h 0x0B12 0
        | none => s)

/-- WAKE_N: low for 1 µs it wakes DORMANT by a cold reset, or leaves SLUMBER (R495). -/
def execWakeN (ns : Nat) (s : State) : Out :=
  .next (if ns < 1000 || !s.pins.powered then s
    else if s.rst.dormant then s.coldTrigger 7
    else if s.power.state == 2 then s.wakeBegin none
    else s)

/-- A frame matches a wake pattern (R475). -/
def Wake.hits (w : Wake) (bytes : Bytes) : Bool :=
  w.en && (List.range w.len).all (fun i => !bitAt w.mask i || (decide (i < bytes.length) && bytes.getD i 0 == w.pat.getD i 0))

/-- WAKE_FRAME: a matching frame with a good FCS wakes DORMANT (R475). -/
def execWakeFrame (bytes : Bytes) (fcsOk : Bool) (s : State) : Out :=
  .next (if s.rst.dormant && fcsOk && s.mgmt.wakes.any (fun w => w.2.hits bytes) then s.coldTrigger 7 else s)

/-- IDLE_ENTRY: 1 ms with no queue work, no run, no packet and no event due (R495). -/
def execIdleEntry (s : State) : Out :=
  .next (if s.rst.stage == 6 && s.power.state == 0 && s.runs.isEmpty && s.xfers.isEmpty && s.launches.isEmpty &&
      s.queues.all (fun e => e.2.work.isEmpty) then s.updPower (fun p => { p with state := 1 })
    else s)

/-! ### Power (R497) -/

/-- POWER_LIMIT: the cap, answered with the fields of POWER_STAT. -/
def State.powerStat (s : State) : BitVec 64 :=
  let p := s.power
  pack 64 [(63, 48, p.inputW.toNat), (47, 32, p.capW.toNat), (31, 24, p.inputV.toNat), (23, 16, p.hotC.toNat),
    (7, 7, b2n (p.throttle != 0 || p.throttleT != 0)), (6, 6, b2n p.clkPower), (5, 5, b2n p.clkThermal), (4, 4, b2n p.memHot),
    (3, 0, p.state.toNat)]

/-- POWER_LIMIT (R497, R499). -/
def execPowerLimit (h : Issue) (capW : Nat) (s : State) : Out :=
  .next (vuino h 0x0B13 [capW] (fun s =>
    if capW < 300 || 1100 < capW then Ans.bad s
    else
      let s := s.updPower (fun p => { p with capW := BitVec.ofNat 16 capW })
      Ans.ok s [sc 8 s.powerStat.toNat]) s)

/-- Which dies the power cap and temperature hold, as POWER_STAT shows. -/
def State.clkView (s : State) : State :=
  let held (k : BitVec 2) : Bool := (List.range 4).any (fun d => (s.die d).limit == k)
  s.updPower (fun p => { p with clkPower := held 1, clkThermal := held 2 })

/-- A die 100 MHz lower, down to 1,200 MHz. -/
def DieS.lower (d : DieS) (why : BitVec 2) : DieS :=
  if d.cur ≤ 1200 then d else { d with cur := max 1200 (d.cur - 100), limit := why }

/-- A die 100 MHz higher; at its bound nothing holds it. -/
def DieS.raise (d : DieS) : DieS :=
  if d.cur = 0 then d else let c := min d.maxM (d.cur + 100); { d with cur := c, limit := if c = d.maxM then 0 else d.limit }

/-- An action of the power cap: every die lower, or an eighth more of injection held. -/
def State.powerAct (s : State) : State :=
  if (List.range 4).any (fun d => decide (1200 < (s.die d).cur)) then
    (s.each (List.range 4) (fun d t => t.updDie d (fun x => x.lower 1))).clkView
  else s.updPower (fun p => { p with throttle := min 7 (p.throttle + 1) })

/-- The last action of the power cap undone. -/
def State.powerUndo (s : State) : State :=
  if s.power.throttle != 0 then s.updPower (fun p => { p with throttle := p.throttle - 1 })
  else (s.each (List.range 4) (fun d t => t.updDie d (fun x => if x.limit == 1 then x.raise else x))).clkView

/-- POWER_SAMPLE: the cap is enforced against the 1 ms average (R497). -/
def execPowerSample (watts avgW volts : Nat) (s : State) : Out :=
  .next (if !s.alive || s.rst.stage.toNat < 2 then s
    else
      let cap := s.power.capW.toNat
      let over_ := if cap < avgW then min 10 (s.power.overNs + 1) else 0
      let under := if avgW + 20 < cap then s.power.under + 1 else 0
      let hi := if 1150 < avgW then min 101 (s.power.hiNs + 1) else 0
      let s := s.updPower (fun p => { p with
        inputW := BitVec.ofNat 16 (min avgW 65535), inputV := BitVec.ofNat 8 (min volts 255), overNs := over_, under := if 10 ≤ under then 0 else under
        hiNs := hi })
      let s := s.onIf (hi == 100) (fun s => s.powerRec 1 (min watts 65535) 0 0)
      if over_ = 10 then s.powerAct else if 10 ≤ under then s.powerUndo else s)

/-! ### Temperature (R498) -/

/-- Limits of a sensor: warning, limit, critical. Sensors: 0 the hub die, 1-4 the needle dies, 5 and 6 the LPDDR6 packages near and far. -/
def tempLimits (k : Nat) : Nat × Nat × Nat := if k < 5 then (95, 100, 110) else (85, 95, 105)

/-- Level of a reading: 0 normal, 1 warning, 2 limit, 3 critical. -/
def tempLevel (k t : Nat) : Nat :=
  let l := tempLimits k
  if l.2.2 ≤ t then 3 else if l.2.1 ≤ t then 2 else if l.1 ≤ t then 1 else 0

/-- The limit action of a sensor, or its undoing 5 °C below the limit. -/
def State.tempAct (s : State) (k t : Nat) : State :=
  let lim := (tempLimits k).2.1
  if k = 0 then
    if lim ≤ t then s.updPower (fun p => { p with throttleT := min 7 (p.throttleT + 1) })
    else if t < lim - 5 then s.updPower (fun p => { p with throttleT := p.throttleT - 1 }) else s
  else if k < 5 then
    if lim ≤ t then s.updDie (k - 1) (fun d => d.lower 2)
    else if t < lim - 5 then s.updDie (k - 1) (fun d => if d.limit == 2 then d.raise else d) else s
  else s

/-- A reading is taken: a record where its level rises, then the action. -/
def State.tempOne (s : State) (k t : Nat) : State :=
  let was := (AMap.get s.power.tempHist k 0).toNat
  let now := tempLevel k t
  let s := s.updPower (fun p => { p with tempHist := AMap.set p.tempHist k (BitVec.ofNat 8 now) })
  let s := s.onIf (decide (was < now) && now != 3) (fun s => s.powerRec (now + 1) t k 0)
  s.tempAct k t

/-- The LPDDR6 packages: refresh doubled at the warning; migration halved and scrub paused at the limit, until 5 °C below it. -/
def State.tempMem (s : State) (temps : Nats) : State :=
  let t := max (temps.getD 5 0) (temps.getD 6 0)
  s.updPower (fun p => { p with
    refreshDouble := decide (85 ≤ t), memHot := decide (95 ≤ t), migHalved := decide (95 ≤ t) || (p.migHalved && decide (90 ≤ t)) })

/-- TEMP_SAMPLE: every sensor is read; a critical one starts a warm reset (R498). -/
def execTempSample (temps : Nats) (s : State) : Out :=
  .next (if !s.alive || s.rst.stage.toNat < 2 then s
    else
      let is := (List.zip (List.range 7) temps)
      let s := s.updPower (fun p => { p with hotC := BitVec.ofNat 8 (min 255 (temps.foldl max 0)) })
      let s := ((s.eachOf is (fun e t => t.tempOne e.1 e.2)).tempMem temps).clkView
      match is.find? (fun e => tempLevel e.1 e.2 == 3) with
      | none => s
      | some (k, t) =>
        let seq := s.faults.nextSeq.toNat
        (s.powerRec 4 t k (if s.warmRefused then 5 else 4)).warmTrigger 5 (seq, 13, 4))

end Sys2Proof.Machine
end

