-- ==== Sys2Proof/Machine/Faults.lean ====
section
/-!
DEFINITION. Faults of the adapter's own hardware: block resets and their selvedges (R491, R492), the escalation ladder and the
pending list (R517-R524), FAULT_LOG_READ (R516), and the bring-up stages (R489, R490, R531).
-/

namespace Sys2Proof.Machine

/-! ### Blocks (R518) -/

/-- CLASS of a block's faults. -/
def blockClass (kind : Nat) : Nat :=
  match kind with
  | 1 => 3
  | 2 => 4
  | 5 => 2
  | 6 => 7
  | _ => 15

/-- REASON of BLOCK_FAULT in that class (R509). -/
def blockReason (kind : Nat) : Nat :=
  match kind with
  | 1 => 2
  | 2 => 3
  | 5 => 12
  | 6 => 8
  | _ => 1

/-- A block that exists: kinds 1 to 9, each with its indices; the manual bounds no index of a transport engine but BLOCK's 8 bits. -/
def blockOk (kind idx : Nat) : Bool :=
  match kind with
  | 1 => decide (idx < 128)
  | 2 => decide (idx < 256)
  | 3 => decide (idx < 64)
  | 4 => decide (idx < 96)
  | 5 => decide (idx < 16)
  | 6 => idx == 0
  | 7 => decide (idx < 96)
  | 8 => decide (idx < 4)
  | 9 => decide (idx < 4)
  | _ => false

/-- BLOCK of a record, and the domain of a block's window. -/
def blockWord (kind idx : Nat) : Nat := kind * 256 + idx

/-- The partition that owns a block: the owner of a copy engine's or needle cluster's cluster (R518). -/
def State.blockOwner (s : State) (kind idx : Nat) : Option Nat :=
  if kind = 1 then (s.clu (idx / 2)).owner else if kind = 3 then (s.clu idx).owner else none

/-- A fault of a block: BLOCK_FAULT in the block's class (R509, R518). -/
def State.blockFault (s : State) (kind idx : Nat) (check : Bool) : FPend :=
  { kind, idx, cls := BitVec.ofNat 8 (blockClass kind), reason := BitVec.ofNat 8 (blockReason kind), part := s.blockOwner kind idx, check
    d0 := if blockClass kind = 15 then blockClass kind else if kind = 5 then 2 * idx else 0
    d1 := if kind = 5 then 0xFFFF else 0 }

/-! ### Closing and opening a selvedge (R491, R492) -/

/-- Own packets held for the connections of an isolated transport engine are dropped, counted ABORTED at their ports. -/
def State.engineDrop (s : State) (idx : Nat) : State :=
  let mine (q : QPkt) : Bool := q.src == 32 && q.conn.any (fun c => Config.engineOf c == idx)
  let s := s.each (List.range 128) (fun k t =>
    let qs := (t.outq (k / 4) (k % 4)).filter mine
    if qs.isEmpty then t
    else
      let t := (t.updOutq (k / 4) (k % 4) (fun l => l.filter (fun q => !mine q))).cntPort (k / 4) 10 qs.length
      t.eachOf qs (fun q u => u.dropOwn q))
  s.each ((s.conns.filter (fun e => Config.engineOf e.1 == idx)).map Prod.fst) (fun cid t =>
    let qs := (t.conn cid).ready
    (t.eachOf qs (fun q u => u.dropOwn q)).updConn cid (fun c => { c with ready := [] }))

/-- Transfers of an isolated engine end. -/
def State.engineFail (s : State) : State :=
  s.each ((s.xfers.filter (fun e => !e.2.ended && s.xferCut e.2)).map Prod.fst) (fun id t => t.xferFail id)

/-- The runs of an isolated cluster fault (R492). -/
def State.clusterFail (s : State) (c : Nat) : State :=
  s.each (List.range' (8 * c) 8) (fun n t => t.runLost n)

/-- A looped port whose optical engine is reset fails its loop-back where the light passed the engine; the port is down. -/
def State.portCut (s : State) (n : Nat) : State :=
  let l := AMap.get s.lb n {}
  let s := s.onIf (l.st == 1 && decide (2 ≤ l.depth.toNat)) (fun t => t.lbStop n true)
  if (s.port n).state == 6 then s else s.portOut n 0

/-- Host reads in the hands of an isolated host DMA engine end in error. -/
def State.dmaFail (s : State) (idx : Nat) : State :=
  let rs := s.host.reads.filter (fun r => Config.dmaOf r.func == idx)
  let s := s.updHost (fun h => { h with reads := h.reads.filter (fun r => Config.dmaOf r.func != idx) })
  s.eachOf rs (fun r t => t.readDone r none)

/-- Commands held by an isolated control processor are answered BUSY (R492). -/
def State.processorFail (s : State) (idx : Nat) : State :=
  s.each (s.parts.map Prod.fst) (fun p t =>
    let held (tag : Nat) : Bool := Config.processorOf p tag == idx
    let ws := (t.part p).paramWait.filter (fun w => held w.1.tag)
    let t := t.updPart p (fun x => { x with paramWait := x.paramWait.filter (fun w => !held w.1.tag) })
    let t := t.eachOf ws (fun w u => u.answer w.1 w.2.1 (Ans.busy u) true)
    t.eachOf ((t.part p).running.filter (fun l => held l.tag.toNat)) (fun l u =>
      u.longEnd { part := p, tag := l.tag.toNat, path := l.path } l.opcode.toNat (Ans.busy u)))

/-- A block goes into reset: its selvedge answers what it holds with errors (R491, R492). -/
def State.closeBlock (s : State) (kind idx : Nat) : State :=
  let s := s.updRst (fun r => { r with blocks := (kind, idx) :: r.blocks.filter (· != (kind, idx)) })
  match kind with
  | 1 => s.engineFail
  | 2 => (s.engineDrop idx).engineFail
  | 3 => s.clusterFail idx
  | 4 => s.lbStop (64 + idx) true
  | 5 => (s.portCut (2 * idx)).portCut (2 * idx + 1)
  | 6 => s.each ((s.colls.filter (fun e => e.2.st == 2 || e.2.st == 3)).map Prod.fst) (fun k t => t.collDo k (fun u => u.collAbort k 26 0 true))
  | 8 => (s.dmaFail idx).engineFail
  | 9 => s.processorFail idx
  | _ => s

/-- A block's selvedge opens: ports train, and connections form what waited. A RETIRED block stays in reset. -/
def State.openBlock (s : State) (kind idx : Nat) : State :=
  if !s.isolated kind idx || s.isolated 257 idx && kind == 1 then s
  else
    let s := s.updRst (fun r => { r with blocks := r.blocks.filter (· != (kind, idx)) })
    match kind with
    | 2 => s.each ((s.conns.filter (fun e => Config.engineOf e.1 == idx)).map Prod.fst) (fun c t => t.pump c)
    | 5 => (s.trainCold (2 * idx)).trainCold (2 * idx + 1)
    | _ => s

/-! ### The ladder (R518-R522) -/

/-- The recovery in progress; that of a partition ends with its reset. -/
def State.recovery (s : State) : Option FRec :=
  match s.faults.cur with
  | none => none
  | some r => if r.rung = 2 && (s.part r.dom).resetStep = 0 then none else some r

/-- A domain contains a block (R518, R519, R521). -/
def State.domainHas (s : State) (rung dom kind idx : Nat) : Bool :=
  match rung with
  | 1 => dom == blockWord kind idx
  | 2 => s.blockOwner kind idx == some dom
  | 3 => kind == 8 || (s.blockOwner kind idx).isSome
  | _ => true

/-- The highest open window among the domains that contain a block. -/
def State.windowOver (s : State) (kind idx : Nat) : Option FWindow :=
  (s.faults.windows.filter (fun w => s.domainHas w.rung w.dom kind idx && (w.rung != 4 || s.warmRefused))).foldl
    (fun b w => match b with
      | none => some w
      | some x => if x.rung < w.rung then some w else b) none

/-- The action a fault of a block leads to (R521, the last column of R518), as ACTION numbers it: 1 block reset, 2 partition reset,
3 host-domain reset, 4 warm reset, 5 HALTED, 8 retirement. -/
def State.ladder (s : State) (kind idx : Nat) : Nat :=
  match (s.windowOver kind idx).map (fun w => w.rung) with
  | none => 1
  | some 1 =>
    if (s.blockOwner kind idx).isSome then 2
    else match kind with
      | 3 => 1
      | 2 => 4
      | 6 => 4
      | 9 => 4
      | 8 => 3
      | _ => 8
  | some 2 => 3
  | some 3 => 4
  | some _ => 5

/-- SEVERITY of a record written before the action is taken (R507). -/
def sevOf (action : Nat) : Nat :=
  match action with
  | 2 => 5
  | 3 => 6
  | 4 => 7
  | 5 => 7
  | _ => 4

/-- The record of a fault on the ladder (R504-R507): `act` is its ACTION, `rung` the action its severity goes by. -/
def State.ladderRec (s : State) (f : FPend) (act rung : Nat) : State :=
  let esc := rung != 1
  let struck := if esc then ((s.windowOver f.kind f.idx).map (fun w => w.seq.toNat)).getD 0 else 0
  s.postRec {
    cls := f.cls.toNat, reason := f.reason.toNat, part := f.part, blk := blockWord f.kind f.idx, d0 := f.d0, d1 := f.d1, d2 := f.d2
    d3 := struck * 2 ^ 32 + b2n esc * 2 + b2n f.check, act, mgr := true
    sev := if act == 6 || act == 7 then some (sevOf rung) else if f.cls == 10 && act == 1 then some 5 else none }

/-- A recovery starts: it is the one in progress, and its window opens (R519, R522). -/
def State.recoveryStart (s : State) (rung dom kind idx : Nat) (seq : BitVec 32) : State :=
  s.updFaults (fun f => { f with
    cur := some { rung, dom, kind, idx, seq }
    windows := { rung, dom, seq } :: f.windows.filter (fun w => !(w.rung == rung && w.dom == dom)) })

/-- Pending faults whose domain the recovery in progress covers are ABSORBED (R522). -/
def State.absorbPending (s : State) (rung dom : Nat) : State :=
  let hit (f : FPend) : Bool := s.domainHas rung dom f.kind f.idx
  let fs := s.faults.pending.filter hit
  let s := s.updFaults (fun x => { x with pending := x.pending.filter (fun f => !hit f) })
  s.eachOf fs (fun f t => t.ladderRec f 7 (t.ladder f.kind f.idx))

/-- A block is retired in place of another reset (R518). -/
def State.retireBlock (s : State) (kind idx : Nat) : State :=
  match kind with
  | 1 => (s.closeBlock 1 idx).updRst (fun r => { r with blocks := (257, idx) :: r.blocks })
  | 4 => s.retireChan (decide (48 ≤ idx)) (idx % 48) none
  | 5 => s.each [2 * idx, 2 * idx + 1] (fun n t => (t.portOut n 6).updPort n (fun p => { p with shut := true }))
  | 7 => s.bulkLost idx
  | _ => s

/-- A fault is handled: its record, then the action the ladder names (R510, R519-R521). -/
def State.handleFault (s : State) (f : FPend) : State :=
  let a := s.ladder f.kind f.idx
  let seq := s.faults.nextSeq
  let owner := (s.blockOwner f.kind f.idx).getD 0
  let s := s.ladderRec f a a
  match a with
  | 1 => (s.recoveryStart 1 (blockWord f.kind f.idx) f.kind f.idx seq).closeBlock f.kind f.idx
  | 2 =>
    let s := (s.recoveryStart 2 owner f.kind f.idx seq).absorbPending 2 owner
    (s.closeBlock f.kind f.idx).resetTrigger owner none
  | 3 => ((s.recoveryStart 3 0 f.kind f.idx seq).absorbPending 3 0).updHost (fun h => { h with stopped := true })
  | 8 => s.retireBlock f.kind f.idx
  | _ => s.warmTrigger 8 (seq.toNat, f.cls.toNat, f.reason.toNat)

/-- A fault enters the ladder (R486, R517, R521, R522): without effect in HALTED; held until partitions are released; ABSORBED inside the
recovery in progress; queued behind another one, a full list triggering a warm reset; handled otherwise. -/
def State.fault (s : State) (f : FPend) : State :=
  if !s.alive then s
  else if s.rst.stage != 6 then s.updRst (fun r => { r with heldBlocks := r.heldBlocks ++ [f] })
  else
    let a := s.ladder f.kind f.idx
    match s.recovery with
    | none => s.handleFault f
    | some r =>
      if s.domainHas r.rung r.dom f.kind f.idx then s.ladderRec f 7 a
      else if a = 4 || a = 5 then s.handleFault f
      else if s.faults.pending.any (fun x => x.kind == f.kind && x.idx == f.idx && x.cls == f.cls) then s.ladderRec f 6 a
      else if 32 ≤ s.faults.pending.length then
        let seq := s.faults.nextSeq
        (s.postRec { cls := 15, reason := 3, d0 := 15, act := if s.warmRefused then 5 else 4 }).warmTrigger 8 (seq.toNat, 15, 3)
      else (s.ladderRec f 6 a).updFaults (fun x => { x with pending := x.pending ++ [f] })

/-! ### The commands of the ladder -/

/-- ENGINE_WATCHDOG: no progress for 50 µs (R524), or with `check` a parity or internal-check error in any block (R509). -/
def execEngineWatchdog (kind index : Nat) (check : Bool) (s : State) : Out :=
  .next (if blockOk kind index && (check || kind == 1 || kind == 2 || kind == 5 || kind == 6 || kind == 8)
    then s.fault (s.blockFault kind index check) else s)

/-- CP_WATCHDOG: FW WATCHDOG at the block rung (R524). -/
def execCpWatchdog (cp : Nat) (s : State) : Out :=
  .next (if cp < 4 then s.fault { s.blockFault 9 cp false with reason := 2 } else s)

/-- ADAPTER_WATCHDOG: FW WATCHDOG in the sticky log, and a warm reset with LAST_CAUSE WATCHDOG (R524). -/
def execAdapterWatchdog (s : State) : Out :=
  .next (if !s.alive then s
    else
      let seq := s.faults.nextSeq
      (s.postRec { cls := 15, reason := 2, d0 := 15, act := if s.warmRefused then 5 else 4, logOnly := true }).warmTrigger 4 (seq.toNat, 15, 2))

/-- BLOCK_RESET: firmware resets a block for a fault found in it (R491, R518); a kind that is none is refused. -/
def execBlockReset (kind index : Nat) (s : State) : Out :=
  .next (if blockOk kind index then s.fault (s.blockFault kind index false) else s)

/-- BLOCK_RESET_END: the block is reinitialised and its selvedge opens; the recovery of the block rung ends with it. -/
def execBlockResetEnd (kind index : Nat) (s : State) : Out :=
  .next (if !s.isolated kind index then s
    else (s.updFaults (fun f => { f with cur := match f.cur with
        | some r => if r.rung = 1 && r.kind = kind && r.idx = index then none else some r
        | none => none })).openBlock kind index)

/-- PENDING_FAULT_TURN: no recovery being in progress, the oldest pending fault is handled, with its second record (R522). -/
def execPendingFaultTurn (s : State) : Out :=
  .next (match s.recovery, s.faults.pending with
    | none, f :: fs =>
      if s.alive && s.rst.stage == 6 then (s.updFaults (fun x => { x with cur := none, pending := fs })).handleFault f else s
    | _, _ => s)

/-- HOST_DOMAIN_RESET: partitions 1 to 63, then partition 0, are reset, then the four host DMA engines, and host requests resume (R520). -/
def execHostDomainReset (s : State) : Out :=
  .next (if !s.serving then s
    else
      let s := s.updHost (fun h => { h with stopped := true })
      let s := s.each (List.range' 1 63 ++ [0]) (fun p t => t.resetNow p)
      let s := s.each (List.range 4) (fun i t => t.closeBlock 8 i)
      let s := s.each (List.range 4) (fun i t => t.openBlock 8 i)
      let s := s.updHost (fun h => { h with stopped := (s.func 0).adminState == 3 })
      s.updFaults (fun f => { f with cur := match f.cur with
        | some r => if r.rung = 3 then none else some r
        | none => none }))

/-- RECOVERY_WINDOW_CLOSE: a window closes (R519). -/
def execRecoveryWindowClose (rung dom : Nat) (s : State) : Out :=
  .next (s.updFaults (fun f => { f with windows := f.windows.filter (fun w => !(w.rung == rung && w.dom == dom)) }))

/-! ### Forced drains and resets (R59, R444) -/

/-- The engine that holds a transfer, as a block. -/
def xferBlock (x : Xfer) : Nat × Nat :=
  match x.who with
  | .msg c _ => (2, Config.engineOf c)
  | .chunk c _ _ _ => (2, Config.engineOf c)
  | _ => (1, x.eng)

/-- DRAIN_FORCED: each engine that holds an unaccepted piece is reset, its transfers end with errors, and the command replies. -/
def execDrainForced (ctx : Nat) (s : State) : Out :=
  .next (match (s.ctx ctx).drain with
    | none => s
    | some d =>
      let xs := s.undrained ctx d.segs
      if xs.isEmpty then s
      else
        let seg (x : Xfer) : Nat := (d.segs.find? (fun k => x.src.oldIn s ctx [k] || x.dst.oldIn s ctx [k])).getD 0
        let fs := ((xs.map (fun e => xferBlock e.2)).dedup).map (fun b =>
          let k := ((xs.find? (fun e => xferBlock e.2 == b)).map (fun e => seg e.2)).getD 0
          ({ kind := b.1, idx := b.2, cls := 3, reason := 1, part := s.ctxOwner ctx, d0 := ctx + k * 2 ^ 16
             d1 := (s.segEpoch ctx k).toNat } : FPend))
        let s := s.eachOf fs (fun f t => t.fault f)
        let s := s.each (xs.map Prod.fst) (fun id t => match AMap.get? t.xfers id with
          | none => t
          | some x => if x.ended then t else (t.updXfer id (fun y => { y with unacc := 0, flying := 0 })).xferFail id)
        s.drainEnd ctx 22)

/-- The unit of a step of R442, as a block kind (assumption log 20). -/
def stepBlock (step : Nat) : Nat × Nat :=
  match step with
  | 2 => (2, 256)
  | 3 => (2, 256)
  | 4 => (6, 1)
  | 5 => (3, 64)
  | 6 => (1, 128)
  | 7 => (8, 4)
  | _ => (9, 4)

/-- RESET_FORCED: the step in progress is forced by the reset of its unit, the partition reset ends, and PART RESET_FORCED is posted. The
manual leaves open which unit it was: a free value among those that do the step. -/
def execResetForced (part : Nat) (s : State) : Out :=
  .next (
    let step := (s.part part).resetStep
    if step = 0 then s
    else
      let v := s.freshVal
      let b := stepBlock step
      (v.2.resetRest part).fault { kind := b.1, idx := v.1.toNat % b.2, cls := 10, reason := 1, part := some part, d0 := step })

/-! ### FAULT_LOG_READ (R514-R516) -/

/-- Entry `e` of the sticky log. -/
def FaultS.entry (f : FaultS) (e : Nat) : FaultRec :=
  if e < 64 then f.fatal.getD e 0
  else
    let age := (f.othersNext.toNat + 384 - 1 - e) % 192
    if age < f.others.length then f.others.getD (f.others.length - 1 - age) 0 else 0

/-- FAULT_LOG_READ: entries FIRST to FIRST + COUNT - 1; with CLEAR the log is emptied in the same step. -/
def execFaultLogRead (h : Issue) (first count clear : Nat) (s : State) : Out :=
  .next (vuino h 0x0B20 [first, count, clear] (fun s =>
    if !h.indirect || 255 < first || count = 0 || 256 < first + count || 1 < clear then Ans.bad s
    else
      let items := (List.range' first count).map (fun e => (8, bytesLE 64 (s.faults.entry e).toNat))
      Ans.ok (s.onIf (clear == 1) (fun t => t.updFaults (fun f => { f with fatal := [], others := [], othersNext := 64 }))) items) s)

/-! ### The bring-up stages (R489, R490) -/

/-- The memory stage of a cold release: channels trained, triples formed (R68), and the backing store placed over the far tier (R85). -/
def State.memRelease (s : State) (bad : Nats) : State :=
  let keys := List.range 96
  let broken (k : Nat) : Bool := (List.range 3).any (fun i => bad.contains (k / 3 * 3 + i))
  let s := s.updMem (fun m => { m with
    chans := (keys.filter broken).foldl (fun cs k => AMap.upd cs k {} (fun c => { c with st := if bad.contains k then 3 else 1 })) m.chans
    triples := (keys.filter (fun k => k % 3 == 0 && !broken k)).foldl
      (fun ts k => AMap.set ts (tripleKey (decide (48 ≤ k)) (k % 48 / 3)) [k % 48, k % 48 + 1, k % 48 + 2]) m.triples })
  let s := s.each (List.range 16) (fun _ t => (t.formTriple false).formTriple true)
  let ts := s.triplesOf true
  s.each (List.range 2048) (fun i t =>
    match (t.freeInTriple true (ts.getD (i % ts.length) 0)).orElse (fun _ => t.freeFrame true) with
    | some f => t.mapTo (backing + i) f
    | none => t)

/-- The fabric stage: the tape counts, ports train, lasers start, tacking runs, and on a cold release the needles test themselves. -/
def State.fabricRelease (s : State) (bad : Nats) : State :=
  let cold := !s.rst.warm
  let s := (s.updRst (fun r => { r with stage := 4 })).tapeRelease
  let s := s.each (List.range 4) (fun k t => if (t.elsm k).present then t.updEls k (fun e => { e with st := 1 }) else t)
  let s := s.onIf (!s.spine) (fun t => t.each (List.range 4) (fun d u => u.updDie d (fun x => { x with cur := x.maxM })))
  let s := s.onIf (cold && !s.spine) (fun t => t.each (bad.filter (· < 512)) (fun n u => u.failNeedle n))
  let s := s.each (List.range 32) (fun n t => t.trainCold n)
  s.tackStart

/-- Partitions are released: partition 0 is ACTIVE, and the resets held until now are carried out (R486). -/
def State.partsRelease (s : State) : State :=
  let ps := s.rst.heldParts
  let bs := s.rst.heldBlocks
  let s := (s.updRst (fun r => { r with stage := 6, warm := false, heldParts := [], heldBlocks := [] })).partZero
  let s := s.each ps (fun p t => t.resetTrigger p none)
  s.eachOf bs (fun f t => t.fault f)

/-- STAGE_RELEASE: the stage in progress completes and the next is released; a low PERST# holds only the host interface itself (R540). -/
def execStageRelease (bundle : Bundle) (ok idOk : Bool) (bad : Nats) (s : State) : Out :=
  .next (if !s.alive then s
    else match s.rst.stage.toNat with
    | 0 => (s.updRst (fun r => { r with stage := 1 })).chain [fun t => { t with pins := { t.pins with pwrOk := true } }]
    | 1 =>
      let r := s.thimbleStage bundle ok
      if !r.2 then r.1
      else
        let s := (r.1.updRst (fun x => { x with stage := 2, imagesVoid := false, bundleReady := false })).updThimble (fun t => { t with idLost := !idOk })
        s.onIf (!idOk) (fun t => t.secRec 8 0)
    | 2 => (s.onIf (!s.rst.warm) (fun t => t.memRelease bad)).updRst (fun r => { r with stage := 3 })
    | 3 =>
      if !s.rst.warm && !ok then
        (s.updRst (fun r => { r with stage := 4, hubFailed := true })).postRec { cls := 15, reason := 1, d0 := 15, d3 := 1, logOnly := true }
      else s.fabricRelease bad
    | 4 =>
      if s.rst.hubFailed then s
      else if !s.pins.perstN then s.updRst (fun r => { r with stage := 5, perstHold := true })
      else (s.updRst (fun r => { r with stage := 5, perstHold := false })).updHost (fun h => { h with rrs := false })
    | 5 => s.partsRelease
    | _ => s)

end Sys2Proof.Machine
end

