-- ==== Sys2Proof/Machine/Test.lean ====
section
/-!
DEFINITION. Test (chapter 24): loop-backs (R525-R529), built-in self-test (R532) and the test access port (R533, R534).
-/

namespace Sys2Proof.Machine

/-! ### Loop-backs (R525-R529) -/

/-- LB_STAT index of a resource (R529); none where KIND or INDEX is refused. -/
def lbIndex (kind index : Nat) : Option Nat :=
  match kind with
  | 1 => if index < 32 then some index else none
  | 2 => if index < 96 then some (64 + index) else none
  | 3 => if index = 0 then some 32 else none
  | _ => none

/-- Deepest DEPTH of a KIND. -/
def lbDepths (kind : Nat) : Nat := if kind = 1 then 4 else 2

/-- A memory channel is idle: standby or retired, with no evacuation in its tier. -/
def State.chanIdle (s : State) (k : Nat) : Bool :=
  let st := (AMap.get s.mem.chans k {}).st
  (st == 1 || st == 2) && s.mem.evacs.all (fun e => e.far != decide (48 ≤ k))

/-- A resource is idle for LOOPBACK_SET (R526). -/
def State.lbIdle (s : State) (kind index depth : Nat) : Bool :=
  match kind with
  | 1 => (s.port index).state == 6 && (decide (depth < 3) || (s.elsm (index / 8)).st == 2)
  | 2 => s.chanIdle index
  | _ => s.mgmt.mode || s.devidValid

/-- A loop-back starts: LB_STAT is cleared; a fabric port keeps the state it had, and with DEPTH 4 it trains through the plug (R527). -/
def State.lbStart (s : State) (kind index depth j : Nat) : State :=
  let s := { s with lb := AMap.set s.lb j { st := 1, depth := BitVec.ofNat 4 depth } }
  if kind != 1 then s
  else
    let s := { s with lbPrior := AMap.set s.lbPrior j (s.port index).state }
    s.onIf (depth == 4) (fun t => (t.updPort index (fun p => { p with state := 0 })).trainCold index)

/-- LOOPBACK_SET. -/
def execLoopbackSet (h : Issue) (kind index depth durationMs : Nat) (s : State) : Out :=
  .next (vuino h 0x0B30 [kind, index, depth, durationMs] (fun s => match lbIndex kind index with
    | none => Ans.bad s
    | some j =>
      if lbDepths kind < depth || durationMs = 0 || 60000 < durationMs then Ans.bad s
      else if depth = 0 then Ans.ok (s.lbStop j false)
      else if (AMap.get s.lb j {}).st == 1 || !s.lbIdle kind index depth then Ans.busy s
      else Ans.ok (s.lbStart kind index depth j)) s)

/-- LOOPBACK_END: DURATION_MS has passed; with DEPTH 4, training without a plug fails it (R527, R529). -/
def execLoopbackEnd (lbIdx errors units : Nat) (s : State) : Out :=
  .next (s.lbEnd lbIdx errors units ((AMap.get s.lb lbIdx {}).depth == 4 && (s.port lbIdx).state != 3))

/-! ### Built-in self-test (R532) -/

/-- A resource is idle for BIST_RUN. -/
def State.bistIdle (s : State) (target index : Nat) : Bool :=
  !s.bist.any (fun e => e.2.1 == target && e.2.2.1 == index) &&
  (match target with
   | 0 => (s.clu index).st == 0
   | 1 => s.colls.all (fun e => e.2.st == 0)
   | 2 => s.chanIdle index && (AMap.get s.lb (64 + index) {}).st != 1
   | _ => (s.elsm index).st == 3)

/-- BIST_RUN: the test runs on an idle resource. -/
def execBistRun (h : Issue) (target index : Nat) (s : State) : Out :=
  .next (vuino h 0x0B31 [target, index] (fun s =>
    if 3 < target || ([64, 1, 96, 4] : Nats).getD target 0 ≤ index then Ans.bad s
    else if !s.bistIdle target index then Ans.busy s
    else
      let r := s.takeId
      let s := { r.2 with bist := AMap.set r.2.bist r.1 (target, index, h) }
      Ans.wait (s.onIf (target == 0) (fun t => t.updClu index (fun c => { c with bist := true })))) s)

/-- What a failed test leads to: needles leave service, the staging engine's fault, the channel's retirement, or a refused module. -/
def State.bistFail (s : State) (target index mask : Nat) : State :=
  match target with
  | 0 => s.each ((List.range 8).filter (fun j => mask.testBit j)) (fun j t => t.failNeedle (8 * index + j))
  | 1 => s.fault (s.blockFault 6 0 true)
  | 2 => if (AMap.get s.mem.chans index {}).st = 2 then s else s.retireChan (decide (48 ≤ index)) (index % 48) none
  | _ => (s.updEls index (fun e => { e with st := 4, lit := 0 })).elsRec index 0xFF 8 0

/-- BIST_DONE: the final reply carries the failure mask, and a PART_CREATE that waited for the cluster goes on. -/
def execBistDone (bistId mask : Nat) (s : State) : Out :=
  .next (match AMap.get? s.bist bistId with
    | none => s
    | some (target, index, h) =>
      let s := { s with bist := AMap.erase s.bist bistId }
      let m := if target = 0 then mask % 256 else mask % 2 ^ 64
      let s := s.onIf (target == 0) (fun t => t.updClu index (fun c => { c with bist := false }))
      let s := s.onIf (m != 0) (fun t => t.bistFail target index m)
      (s.longEnd h 0x0B31 (Ans.ok s [blkItem 8 m])).createRetry)

/-! ### The test access port (R533, R534) -/

/-- TAP_INSTRUCTION: 0 BYPASS, 1 IDCODE, 2 SAMPLE/PRELOAD, 3 EXTEST, 4 CLAMP, 5 HIGHZ, 6 and above the private ones (the model's numbers,
assumption log 21). EXTEST and HIGHZ act as BYPASS unless RESET_N is low, and a private instruction outside the manufacturing state. -/
def execTapInstruction (ir : Nat) (s : State) : Out :=
  .next { s with tapIr :=
    if (ir = 3 || ir = 5) && s.pins.resetN then 0
    else if 6 ≤ ir && !s.thimble.manufacturing then 0 else ir }

end Sys2Proof.Machine
end

