-- ==== Sys2Proof/Machine/Fetch.lean ====
section
/-!
DEFINITION. How commands and descriptors reach the adapter: entries fetched from rings (R409, R421), parameter reads (R426), the mailbox
(R360-R362), out-of-band datagrams (R479, R480), and the end of long commands (R430).
-/

namespace Sys2Proof.Machine

/-! ### Running a command by its OPCODE (R427, R434) -/

/-- The state an outcome goes on in. -/
def afterOut (s : State) (o : Out) : State :=
  match o with
  | .next t => t
  | _ => s

/-- A Vuino command by its OPCODE, with the values of its parameters in order; an OPCODE outside the table is answered INVALID_OPCODE. -/
def runCmd (h : Issue) (op : Nat) (vals : Nats) (o : Outside) (s : State) : Out :=
  let v (i : Nat) : Nat := vals.getD i 0
  match op with
  | 0x0001 => execNop h s
  | 0x0002 => execIdentify h s
  | 0x0003 => execCmdProgress h (v 0) s
  | 0x0010 => execQCreate h (BitVec.ofNat 256 (v 0)) s
  | 0x0011 => execQDestroy h (v 0) s
  | 0x0012 => execQQuery h (v 0) s
  | 0x0100 => execSegWrite h (v 0) (v 1) (BitVec.ofNat 256 (v 2)) s
  | 0x0101 => execCtxWrite h (v 0) (BitVec.ofNat 128 (v 1)) s
  | 0x0102 => execSegStitch h (v 0) s
  | 0x0103 => execSegUnmap h (v 0) (v 1) s
  | 0x0104 => execSegQuery h (v 0) (v 1) (v 2) s
  | 0x0200 => execMemTierSet h (BitVec.ofNat 64 (v 0)) s
  | 0x0201 => execMemBound h (v 0) (v 1) (v 2) s
  | 0x0202 => execMemPin h (v 0) (v 1) (v 2) s
  | 0x0203 => execMemClearDamaged h (v 0) (v 1) s
  | 0x0204 => execMemScrubSet h (v 0) s
  | 0x0205 => execMemChanRetire h (v 0) (v 1) s
  | 0x0206 => execMemQuery h (v 0) (v 1) s
  | 0x0300 => execConnCreate h (BitVec.ofNat 256 (v 0)) s
  | 0x0301 => execConnConnect h (v 0) (v 1) (v 2) (v 3) (v 4) (v 5) s
  | 0x0302 => execConnReset h (v 0) s
  | 0x0303 => execConnDestroy h (v 0) s
  | 0x0304 => execConnPin h (v 0) (v 1) s
  | 0x0305 => execConnQuery h (v 0) s
  | 0x0310 => execWinOpen h (BitVec.ofNat 256 (v 0)) s
  | 0x0311 => execWinRevoke h (v 0) s
  | 0x0400 => execCcParamSet h (v 0) (BitVec.ofNat 128 (v 1)) s
  | 0x0401 => execCcStitch h (v 0) s
  | 0x0402 => execCcConnSet h (v 0) (v 1) (v 2) (BitVec.ofNat 64 (v 3)) (v 4) s
  | 0x0410 => execShpWrite h (v 0) (BitVec.ofNat 256 (v 1)) s
  | 0x0411 => execShpStitch h (v 0) (v 1) s
  | 0x0412 => execShpQuery h (v 0) (v 1) s
  | 0x0420 => execSchedWeightSet h (v 0) (v 1) s
  | 0x0421 => execSchedStitch h s
  | 0x0430 => execHistRead h (v 0) (v 1) s
  | 0x0500 => execLinkSet h (v 0) (v 1) s
  | 0x0510 => execRtWrite h (v 0) (v 1) (v 2) (v 3) (vals.drop 4) s
  | 0x0511 => execRtStitch h (v 0) s
  | 0x0512 => execRtClear h (v 0) s
  | 0x0513 => execRtFlip h (v 0) s
  | 0x0514 => execRtQuery h (v 0) (v 1) (v 2) (v 3) s
  | 0x0520 => execMcastSet h (v 0) (BitVec.ofNat 64 (v 1)) s
  | 0x0521 => execMcastQuery h (v 0) s
  | 0x0530 => execElsRelease h (v 0) s
  | 0x0531 => execElsStart h (v 0) s
  | 0x0532 => execOptQuery h (v 0) (v 1) o s
  | 0x0600 => execNdieClkSet h (v 0) (v 1) (v 2) s
  | 0x0610 => execProgLoad h (v 0) (v 1) (v 2) o s
  | 0x0611 => execProgBind h (v 0) (BitVec.ofNat 256 (v 1)) s
  | 0x0612 => execProgUnbind h (v 0) (v 1) (v 2) s
  | 0x0613 => execProgUnload h (v 0) (v 1) s
  | 0x0614 => execProgQuery h (v 0) s
  | 0x0615 => execProgPolicy h (v 0) (v 1) s
  | 0x0700 => execCollSet h (v 0) (BitVec.ofNat 512 (v 1)) s
  | 0x0701 => execCollStitch h (v 0) o s
  | 0x0702 => execCollAbort h (v 0) s
  | 0x0703 => execCollQuery h (v 0) (v 1) s
  | 0x0800 => execSyncCtl h (v 0) (v 1) (v 2) (v 3) s
  | 0x0801 => execSyncOp h (v 0) (v 1) (v 2) s
  | 0x0802 => execSyncQuery h (v 0) (v 1) s
  | 0x0810 => execTapePpsSec h (v 0) s
  | 0x0811 => execTapeEventSet h (v 0) (v 1) (v 2) (v 3) (v 4) (v 5) s
  | 0x0812 => execTapeEventCancel h (v 0) s
  | 0x0820 => execBookWrite h (v 0) (v 1) (BitVec.ofNat 4096 (v 2)) s
  | 0x0821 => execBookStitch h (v 0) (v 1) s
  | 0x0822 => execBookQuery h (v 0) (v 1) s
  | 0x0900 => execPartCreate h (v 0) (v 1) (v 2) (v 3) (v 4) (v 5) (v 6) (v 7) (v 8) (v 9) (v 10) (v 11) s
  | 0x0901 => execPartReset h (v 0) (v 1) s
  | 0x0902 => execPartDestroy h (v 0) s
  | 0x0903 => execPartQuery h (v 0) s
  | 0x0A00 => execKeyLoad h (v 0) (v 1) (BitVec.ofNat 384 (v 2)) none s
  | 0x0A01 => execKeyClear h (v 0) (v 1) s
  | 0x0A10 => execFwUpdate h (v 0) (v 1) (v 2) (v 3) (v 4) o s
  | 0x0A20 => execAttest h (BitVec.ofNat 256 (v 0)) s
  | 0x0B00 => execMgmtCfg h vals s
  | 0x0B10 => execResetWarm h s
  | 0x0B11 => execResetCold h s
  | 0x0B12 => execPowerState h (v 0) s
  | 0x0B13 => execPowerLimit h (v 0) s
  | 0x0B20 => execFaultLogRead h (v 0) (v 1) (v 2) s
  | 0x0B30 => execLoopbackSet h (v 0) (v 1) (v 2) (v 3) s
  | 0x0B31 => execBistRun h (v 0) (v 1) s
  | _ => .next (vuino h op [] (fun s => Ans.ok s) s)

/-- A command whose parameter area is at hand: missing bytes and bytes that must be zero are answered INVALID_PARAM with their offset
(R427). -/
def State.runParams (s : State) (h : Issue) (op : Nat) (ps : Bytes) (o : Outside) : State :=
  match opInfo op with
  | none => afterOut s (runCmd h op [] o s)
  | some i =>
    let count := if i.tail = 0 then 0 else (ps.getD 3 0).toNat
    match readParams (opLay op (ps.getD 0 0).toNat) i.tail count ps with
    | .inl vals => afterOut s (runCmd h op vals o s)
    | .inr at_ => vuino h op [] (fun s => Ans.bad s at_) s

/-! ### Command packets (R425, R426) -/

/-- OPCODE of a command packet. -/
def pktOp (d : Nat) : Nat := d % 2 ^ 16
/-- INDIRECT. -/
def pktInd (d : Nat) : Bool := d.testBit 16
/-- TAG. -/
def pktTag (d : Nat) : Nat := d / 2 ^ 32 % 2 ^ 16
/-- LENGTH. -/
def pktLen (d : Nat) : Nat := d / 2 ^ 48 % 2 ^ 16

/-- Who a packet is from, with the block of R426 where it is indirect. -/
def pktIssue (part : Nat) (path : Path) (d : Nat) : Issue :=
  { part, tag := pktTag d, path, indirect := pktInd d, resultVa := if pktInd d then d / 2 ^ 128 % 2 ^ 64 else 0
    resultLen := if pktInd d then d / 2 ^ 192 % 2 ^ 32 else 0 }

/-- A packet of the ADMIN queue breaks R425: reserved bits, a LENGTH beyond its limit, or unused bytes that are not zero. -/
def pktMalformedCmd (d : Nat) : Bool :=
  d / 2 ^ 17 % 2 ^ 15 != 0 ||
  (if pktInd d then decide (4096 < pktLen d) || d / 2 ^ 224 != 0 else decide (56 < pktLen d) || d / 2 ^ (64 + 8 * pktLen d) != 0)

/-- A well-formed packet is carried out: its parameters are read first where they lie in host memory (R426). -/
def State.runPacket (s : State) (part : Nat) (path : Path) (d : Nat) (o : Outside) : State :=
  let h := pktIssue part path d
  if pktInd d && pktLen d != 0 then
    let va := d / 2 ^ 64 % 2 ^ 64
    (s.updPart part (fun p => { p with paramWait := p.paramWait ++ [(h, pktOp d, pktLen d, va)] })).hostReq
      { kind := 1, func := part, addr := BitVec.ofNat 64 va }
  else s.runParams h (pktOp d) (if pktInd d then [] else bytesLE (pktLen d) (d / 2 ^ 64)) o

/-- PARAM_READ: an indirect command's parameters arrive, or it is answered MEM_UNCORRECTABLE and changes nothing (R426). -/
def execParamRead (part tag : Nat) (params : Bytes) (rd : ReadEnd) (o : Outside) (s : State) : Out :=
  .next (match (s.part part).paramWait.find? (fun w => w.1.tag == tag) with
    | none => s
    | some w =>
      let s := s.updPart part (fun p => { p with paramWait := p.paramWait.erase w })
      let s := if rd == .ok then (s.cntHost 0 w.2.2.1).runParams w.1 w.2.1 (padTo w.2.2.1 params) o
        else (s.hostReadError part w.2.2.2).answer w.1 w.2.1 { st := s, status := 5 } true
      s.adminSettle part)

/-! ### Ring entries (R409-R411, R418, R421) -/

/-- A ring that entries are completed into is full: what completes into it fetches nothing (R410). -/
def State.ringStuck (s : State) (k : Nat) : Bool := (s.queue k).full && (s.queue? k).isSome || !(s.queue k).held.isEmpty

/-- The next entry of a queue may be taken: fetching runs, the entry lies before the PI read, its completions have room, and on the ADMIN
queue every earlier command has had its first reply (R418, R429). -/
def State.mayTake (s : State) (p q : Nat) (d : Desc) : Bool :=
  match s.queue? (qkey p q) with
  | none => false
  | some u =>
    s.fetching p && u.recPi != u.ci &&
    (match u.kind with
     | 1 => !s.ringStuck (s.conn (fld d 87 64)).cqKey
     | 2 => s.conns.all (fun e => e.2.st == 0 || e.2.rqKey != qkey p q || !s.ringStuck e.2.cqKey)
     | 7 => !s.ringStuck (qkey p 1) && (s.part p).owed.isEmpty && !(s.func p).adminStop &&
         (s.part p).paramWait.all (fun w => w.1.path != .admin)
     | _ => !s.ringStuck (qkey p u.cq))

/-- An entry by its queue's kind. -/
def State.runEntry (s : State) (p q : Nat) (d : Desc) (o : Outside) : State :=
  let slot := s.slotOf p q
  match (s.queue (qkey p q)).kind with
  | 1 => s.sendDesc p q slot d
  | 2 => afterOut s (execRecvBufferPost p q d s)
  | 4 =>
    if fld d 23 16 = 1 then s.launchDesc p q slot d
    else if fld d 23 16 = 2 then s.collStartDesc p q slot d
    else s.malformed p q slot (fld d 63 0)
  | 5 => s.copyDesc p q slot d
  | _ => if pktMalformedCmd d.toNat then s.malformed p q slot (fld d 63 0) else s.runPacket p .admin d.toNat o

/-- Entries taken one after another, up to the first malformed one. -/
def takeEntries (p q : Nat) (o : Outside) : List Desc → State → State
  | [], s => s
  | d :: ds, s =>
    if !s.mayTake p q d then s
    else
      let ci := (s.queue (qkey p q)).ci
      let t := s.runEntry p q d o
      if t.fetching p then
        takeEntries p q o ds (if (t.queue? (qkey p q)).isSome then t.updQueue (qkey p q) (fun u => { u with ci := ci + 1 }) else t)
      else t

/-- ENTRY_FETCH: ring entries arrive and are executed in order, up to the PI of the index record (R409, R421); a failed read fetches nothing,
and the next doorbell starts again. -/
def execEntryFetch (part q : Nat) (entries : DescList) (rd : ReadEnd) (o : Outside) (s : State) : Out :=
  .next (match s.queue? (qkey part q) with
    | none => s
    | some u =>
      if !u.hostWritten || u.recPi == u.ci || !s.fetching part then s
      else if rd != .ok then
        (s.updQueue (qkey part q) (fun u => { u with recPi := u.ci })).hostReadError part (u.ringVa + u.ci.toNat % u.size * 64)
      else takeEntries part q o entries (s.cntHost 0 (64 * min entries.length (u.recPi - u.ci).toNat)))

/-! ### The mailbox (R360-R362) -/

/-- The 64 bytes of a mailbox as a number. -/
def Mbox.packet (b : Mbox) : Nat := natLE ((List.range 16).flatMap (fun i => bytesLE 4 (AMap.get b.data i 0).toNat))

/-- A message posted in a function's mailbox is carried out by the firmware: BUSY while the partition is halted by a malformed entry
(R422), INVALID_PARAM for a LENGTH above 56 bytes or reserved bits of the header. -/
def State.mboxGo (s : State) (func : Nat) (o : Outside) : State :=
  let s := s.leaveIdle.updFunc func (fun f => { f with mbox := { f.mbox with go := true, sender := BitVec.ofNat 8 func } })
  let d := (s.func func).mbox.packet
  let h := pktIssue func .mailbox d
  if (s.func func).haltedBit then s.answer h (pktOp d) (Ans.busy s) true
  else if 56 < pktLen d || d / 2 ^ 17 % 2 ^ 15 != 0 then s.answer h (pktOp d) (Ans.bad s) true
  else s.runPacket func .mailbox d o

/-- MAILBOX_GO: GO is set on the message in a function's mailbox; without effect while GO is set already. The thimble serves the PF's while
it boots from there (R452). -/
def execMailboxGo (func : Nat) (o : Outside) (s : State) : Out :=
  .next (if (s.func func).mbox.go then s
    else if func = 0 && s.thimble.booting && s.fetchingBundle then s.bootMessage o.bundle o.rd
    else s.barDo func (fun s => s.mboxGo func o))

/-! ### The end of a long command (R430) -/

/-- LONG_CMD_FINAL: the work of a long command ends: a PROG_LOAD that waited, an FW_UPDATE, an ATTEST. Other long commands end by the
events their own rules name. -/
def execLongCmdFinal (part tag : Nat) (ok : Bool) (s : State) : Out :=
  .next (match (s.part part).running.find? (fun l => l.tag.toNat == tag) with
    | none => s
    | some l =>
      if l.opcode == 0x0610 then s.progLoadEnd part tag
      else if l.opcode == 0x0A10 then s.updateEnd part tag ok
      else if l.opcode == 0x0A20 then s.attestEnd part tag
      else s)

/-! ### Out-of-band commands (R479, R480) -/

/-- A range of VAs of partition 0 lies in host memory. -/
def State.vaHost (s : State) (ctx va len : Nat) : Bool :=
  match s.translate ctx va len with
  | .inl (_, f) => fpaTarget f == 1
  | .inr _ => false

/-- An out-of-band command needs host memory (R480). -/
def State.needsHost (s : State) (op : Nat) (ps : Bytes) : Bool :=
  let le (o n : Nat) : Nat := natLE ((ps.drop o).take n)
  if op = 0x0610 || op = 0x0A10 then s.vaHost (le 0 2) (le 8 8) (le 16 4)
  else if op = 0x0701 then match Ranges.item (s.part 0).colls (le 0 1) with
    | none => false
    | some k => s.vaHost (s.collCtx k) (cbMembers (s.coll k).bast) (4 * cbN (s.coll k).bast)
  else false

/-- A datagram fails its authentication: counted, and recorded at the sixteenth within one second (R478, R480). -/
def State.oobFail (s : State) : State :=
  let s := s.cntMgmt 9 1
  let near := (s.mgmt.oobFails.filter (fun t => decide (s.clockNs < t + 10 ^ 9))) ++ [s.clockNs]
  if 16 ≤ near.length then (s.updMgmt (fun m => { m with oobFails := [] })).mgmtRec 5 0 0
  else s.updMgmt (fun m => { m with oobFails := near })

/-- A counter is new: above the highest accepted, or among the 64 below it and not yet accepted. -/
def MgmtS.oobNew (m : MgmtS) (seq : Nat) : Bool :=
  match m.oobHigh with
  | none => true
  | some hi => decide (hi < seq) || (decide (hi < seq + 65) && !m.oobSeen.contains seq)

/-- An authentic request is executed for partition 0. -/
def State.oobRun (s : State) (f : MgmtFrame) (seq : Nat) (o : Outside) : State :=
  let cmd := (f.body.drop 12).take (f.body.length - 28)
  let d := natLE (cmd.take 8)
  let hi := max ((s.mgmt.oobHigh).getD 0) seq
  let s := s.updMgmt (fun m => { m with
    oobHigh := some hi
    oobSeen := (m.oobSeen ++ [seq]).filter (fun q => decide (hi < q + 65))
    oobFrom := AMap.set m.oobFrom seq (f.ip.toNat, f.port) })
  let h : Issue := { part := 0, tag := pktTag d, path := .oob seq }
  let ps := (cmd.drop 8).take (pktLen d)
  if pktInd d || 1024 < pktLen d || d / 2 ^ 17 % 2 ^ 15 != 0 then s.answer h (pktOp d) (Ans.bad s) true
  else if s.host.stopped && s.needsHost (pktOp d) ps then s.answer h (pktOp d) (Ans.busy s) true
  else s.runParams h (pktOp d) ps o

/-- OOB_REQUEST: a datagram is authenticated, checked for replay, and executed (R479, R480). -/
def execOobRequest (f : MgmtFrame) (o : Outside) (s : State) : Out :=
  .next (s.macTake f.sumsOk 6 (fun s =>
    if f.kind != 2 then s
    else if !s.oobOn then s.cntMgmt 11 1
    else
      let n := f.body.length - 16
      let head := f.body.take n
      let word := natLE ((head.drop 4).take 8)
      let seq := word % 2 ^ 63
      let k := s.key (((Ranges.item (s.part 0).keys s.mgmt.oobSlot.toNat).getD 0))
      let nonce := pack 96 [(95, 64, k.salt.toNat), (63, 0, word)]
      let tag := BitVec.ofNat 128 (natBE (f.body.drop n))
      if f.body.length < 36 || Config.gcmTag k.key nonce head [] != tag || natLE (head.take 2) != 1 || word / 2 ^ 63 != 0 then s.oobFail
      else match s.mgmt.oobLast.find? (fun e => e.1 == seq) with
        | some e =>
          let s := s.updMgmt (fun m => { m with oobFrom := AMap.set m.oobFrom seq (f.ip.toNat, f.port) })
          s.updMgmt (fun m => { m with txq := m.txq ++ [s.oobFrame seq e.2.1 e.2.2] })
        | none => if s.mgmt.oobNew seq then s.oobRun f seq o else s.cntMgmt 10 1))

end Sys2Proof.Machine
end

