-- ==== Sys2Proof/Machine/Registers.lean ====
section
/-!
DEFINITION. Host writes to registers (chapters 02 and 26): which register an offset of BAR0 names, and what a write of 4 or 8 bytes does
to it (R5-R9, R386, R551-R560).
-/

namespace Sys2Proof.Machine

/-- A 32-bit half of a 64-bit register replaced. -/
def setHalf (b : BitVec 64) (high : Bool) (v : Nat) : BitVec 64 := if high then setFld b 63 32 v else setFld b 31 0 v

/-- A 4-byte write to the basting admin configuration (R423, R551): the registers by number, reserved bits of ADMIN_CFG reading 0. -/
def State.adminBaste (s : State) (func reg : Nat) (high : Bool) (v : Nat) : State :=
  s.updFunc func (fun f => { f with adminBast :=
    let a := f.adminBast
    match reg with
    | 0 => { a with sq := setHalf a.sq high v }
    | 1 => { a with cq := setHalf a.cq high v }
    | 2 => { a with idx := setHalf a.idx high v }
    | _ => if high then a else { a with cfg := BitVec.ofNat 64 v &&& 0x07FF1F1F#64 } })

/-- A 4-byte write to an MSI-X table entry (R394), its fields as the PCIe base specification lays them out (PRESUMED, assumption log 6);
a vector unmasked sends its pending message. -/
def State.msixWrite (s : State) (func vec word v : Nat) : State :=
  let e := AMap.get (s.func func).msix vec {}
  let put (e : MsixE) : State := s.updFunc func (fun f => { f with msix := AMap.set f.msix vec e })
  match word with
  | 0 => put { e with addr := setHalf e.addr false (v / 4 * 4) }
  | 1 => put { e with addr := setHalf e.addr true v }
  | 2 => put { e with data := BitVec.ofNat 32 v }
  | _ => (put { e with ctl := BitVec.ofNat 32 (v % 2) }).onIf (v % 2 == 0) (fun t => t.msixRelease func vec)

/-- A 4-byte write to a function's mailbox page (R360, R361). -/
def State.mboxWrite (s : State) (func off v : Nat) : State :=
  let m := (s.func func).mbox
  if off < 0x40 then
    if m.go then s else s.updFunc func (fun f => { f with mbox := f.mbox.put (off / 4) v })
  else if off = 0x40 && v.testBit 0 && !m.go then s.mboxGo func {}
  else s

/-- A 4-byte write to a secure mailbox (R363): in mailboxes 4 to 7 the manager writes its reply and then clears GO. -/
def State.secWrite (s : State) (m off v : Nat) : State :=
  if off < 0x40 then
    if (s.secure m).go && decide (m < 4) then s else s.updSecure m (fun b => b.put (off / 4) v)
  else if off = 0x40 && v.testBit 0 then
    if m < 4 then s.secPost m (State.secAct m) else s.updSecure m (fun b => { b with go := false })
  else s

/-- A 4-byte write to the control page and the other pages of every function (R554, R557). -/
def State.funcWrite (s : State) (func off v : Nat) : State :=
  if off = 0x20 then s.onIf (v.testBit 0) (fun s => s.updFunc func (fun f => { f with ridden := false }))
  else if off = 0x100 then s.setH2A func (BitVec.ofNat 32 v)
  else if off = 0x108 then s.updFunc func (fun f => { f with dbA2H := f.dbA2H &&& ~~~BitVec.ofNat 32 v })
  else if off = 0x110 then s.maskA2H func (BitVec.ofNat 32 v)
  else if off = 0x118 then s.updFunc func (fun f => { f with dbVec := BitVec.ofNat 11 v })
  else if 0x200 ≤ off && off < 0x220 then s.adminBaste func ((off - 0x200) / 8) (off % 8 == 4) v
  else if off = 0x220 then s.adminStitch func v
  else if off = 0x300 then s.onIf (v.testBit 0) (fun s => s.updFunc func (fun f => { f with fqOverflow := false }))
  else if 0x1000 ≤ off && off < 0x1048 then s.mboxWrite func (off - 0x1000) v
  else if 0x10000 ≤ off && off < 0x18000 then s.msixWrite func ((off - 0x10000) / 16) (off % 16 / 4) v
  else s

/-- A 4-byte write to the manager region (R558): fields of value ranges keep what they hold where a value is refused (R9). -/
def State.managerWrite (s : State) (off v : Nat) : State :=
  if off = 0x812000 then
    let x := v % 2 ^ 11
    s.onIf (decide (4 ≤ x ∧ x ≤ 1024)) (fun s => s.updTp (fun t => { t with markTh := BitVec.ofNat 11 x }))
  else if off = 0x812004 then
    let x := v % 2 ^ 14
    s.onIf (decide (64 ≤ x ∧ x ≤ 8192)) (fun s => s.updTp (fun t => { t with e2eWin := BitVec.ofNat 14 x }))
  else if off = 0x815100 then s.updRoute (fun r => { r with slack := BitVec.ofNat 8 v })
  else if off = 0x815104 then s.updRoute (fun r => { r with seed := BitVec.ofNat 16 (v / 2 ^ 16) })
  else if 0x830000 ≤ off && off < 0x830800 then s.secWrite ((off - 0x830000) / 0x100) (off % 0x100) v
  else if 0x831020 ≤ off && off < 0x831800 then
    let p := (off - 0x831000) / 0x20
    if off % 0x20 = 0 then s.updFunc p (fun f => { f with dbH2A := f.dbH2A &&& ~~~BitVec.ofNat 32 v })
    else if off % 0x20 = 8 then s.maskH2A p (BitVec.ofNat 32 v)
    else if off % 0x20 = 0x10 then s.setA2H p (BitVec.ofNat 32 (v % 2 ^ 31))
    else s
  else if off = 0x840018 then s.updTape (fun t => { t with ptpDomain := BitVec.ofNat 8 v })
  else if off = 0x88000C then
    let cause := v / 2 ^ 8 % 2 ^ 8
    (s.updRst (fun r => { r with warmCount := BitVec.ofNat 8 (v / 2 ^ 16) })).onIf (decide (cause ≤ 9)) (fun s =>
      s.updRst (fun r => { r with lastCause := BitVec.ofNat 4 cause }))
  else s

/-- A 4-byte write at a 4-byte offset of BAR0. -/
def State.word4 (s : State) (func off v : Nat) : State :=
  if off < 0x20000 then s.funcWrite func off v
  else if 0x800000 ≤ off && off < 0x1000000 && func = 0 then s.managerWrite off v
  else s

/-- An aligned write to the doorbell region: 4 bytes of [31:0] act as 8 with zeros above; [63:32] alone is refused (R408). -/
def State.bellWrite (s : State) (func off width v : Nat) : State :=
  let q := (off - 0x100000) / 8
  if width = 4 && off % 8 = 4 then s.barDo func (fun s => s.dbRefuse func)
  else afterOut s (execDoorbellWrite func q (BitVec.ofNat 64 v) s)

/-- SYNC_DB by its OP (R357). -/
def State.syncDbWrite (s : State) (func v : Nat) : State :=
  let i := v / 2 ^ 48 % 2 ^ 14
  match v / 2 ^ 62 % 4 with
  | 0 => afterOut s (execSyncDbAdd func i v s)
  | 1 => afterOut s (execSyncDbSet func i v s)
  | 2 => afterOut s (execSyncDbArm func i v s)
  | _ => s.syncDbRefused func

/-- An offset lies in the doorbell region. -/
def inBells (off : Nat) : Bool := decide (0x100000 ≤ off ∧ off < 0x180000)

/-- A host write to BAR0 of a function (R386, R551-R553): aligned, of 4 or 8 bytes; longer ones are taken in the doorbell region only, as the
aligned 8-byte words they cover whole; everything else is discarded. -/
def State.barWrite (s : State) (func off width value : Nat) : State :=
  let v := value % 2 ^ (8 * width)
  if inBells off then
    if 8 < width then
      let lo := (off + 7) / 8 * 8
      s.each (List.range ((off + width - lo) / 8)) (fun i t =>
        if inBells (lo + 8 * i) then t.bellWrite func (lo + 8 * i) 8 (v / 2 ^ (8 * (lo + 8 * i - off)) % 2 ^ 64) else t)
    else if (width = 4 || width = 8) && off % width = 0 then s.bellWrite func off width v
    else s
  else if !(width == 4 || width == 8) || off % width != 0 then s
  else if off = 0x880000 then (if width = 8 then s.resetCtl func v else s)
  else if off = 0x120 then (if width = 8 then s.syncDbWrite func v else s)
  else if off = 0x124 || off = 0x880004 then s
  else if width = 4 then s.barDo func (fun t => t.word4 func off v)
  else (s.barDo func (fun t => t.word4 func off (v % 2 ^ 32))).barDo func (fun t => t.word4 func (off + 4) (v / 2 ^ 32))

/-- Where the model puts MSI-X Message Control, a register of configuration space (R394, PCIe base specification; assumption log 22). -/
def msixControlAt : Nat := 2 ^ 32 + 2

/-- REGISTER_WRITE: a host write to a register. -/
def execRegisterWrite (func offset width value : Nat) (s : State) : Out :=
  .next (if offset = msixControlAt then (if width = 2 && s.funcOn func then s.msixControl func (BitVec.ofNat 64 value) else s)
    else s.barWrite func offset width value)

end Sys2Proof.Machine
end

