-- ==== Sys2Proof/Machine/Dispatch.lean ====
section
/-!
DEFINITION. What each command does: one arm for each constructor, in the order of the table, each a direct call of the
command's own meaning.
-/

namespace Sys2Proof.Machine

/-- The effect of one command on everything but the queue of waiting commands. -/
def exec (i : Instr) (s : State) : Host.Outcome State Fault Refusal :=
  match i with
  | .nop h => Sys2Proof.Machine.execNop h s
  | .identify h => Sys2Proof.Machine.execIdentify h s
  | .cmdProgress h tag => Sys2Proof.Machine.execCmdProgress h tag s
  | .qCreate h blk => Sys2Proof.Machine.execQCreate h blk s
  | .qDestroy h qnum => Sys2Proof.Machine.execQDestroy h qnum s
  | .qQuery h qnum => Sys2Proof.Machine.execQQuery h qnum s
  | .segWrite h ctx seg entry => Sys2Proof.Machine.execSegWrite h ctx seg entry s
  | .ctxWrite h ctx hdr => Sys2Proof.Machine.execCtxWrite h ctx hdr s
  | .segStitch h ctx => Sys2Proof.Machine.execSegStitch h ctx s
  | .segUnmap h ctx seg => Sys2Proof.Machine.execSegUnmap h ctx seg s
  | .segQuery h ctx seg copy => Sys2Proof.Machine.execSegQuery h ctx seg copy s
  | .segDrainEnd ctx => Sys2Proof.Machine.execSegDrainEnd ctx s
  | .drainForced ctx => Sys2Proof.Machine.execDrainForced ctx s
  | .segCacheMissFill ctx seg xfer => Sys2Proof.Machine.execSegCacheMissFill ctx seg xfer s
  | .transferPiece xfer errs => Sys2Proof.Machine.execTransferPiece xfer errs s
  | .hotIntervalEnd ctx => Sys2Proof.Machine.execHotIntervalEnd ctx s
  | .memTierSet h blk => Sys2Proof.Machine.execMemTierSet h blk s
  | .memBound h part nearMin nearMax => Sys2Proof.Machine.execMemBound h part nearMin nearMax s
  | .memPin h offset count tier => Sys2Proof.Machine.execMemPin h offset count tier s
  | .memClearDamaged h offset count => Sys2Proof.Machine.execMemClearDamaged h offset count s
  | .memScrubSet h hours => Sys2Proof.Machine.execMemScrubSet h hours s
  | .memChanRetire h tier chan => Sys2Proof.Machine.execMemChanRetire h tier chan s
  | .memQuery h tier chan => Sys2Proof.Machine.execMemQuery h tier chan s
  | .scrubLine tier chan errs => Sys2Proof.Machine.execScrubLine tier chan errs s
  | .rowRepair row => Sys2Proof.Machine.execRowRepair row s
  | .frameRetired row => Sys2Proof.Machine.execFrameRetired row s
  | .freeFrameAvailable tier => Sys2Proof.Machine.execFreeFrameAvailable tier s
  | .channelFailure tier chan => Sys2Proof.Machine.execChannelFailure tier chan s
  | .evacuationEnd tier lost => Sys2Proof.Machine.execEvacuationEnd tier lost s
  | .tierEpochEnd => Sys2Proof.Machine.execTierEpochEnd s
  | .granuleMoveDone granule uncorrectable => Sys2Proof.Machine.execGranuleMoveDone granule uncorrectable s
  | .meminitDone => Sys2Proof.Machine.execMeminitDone s
  | .connCreate h blk => Sys2Proof.Machine.execConnCreate h blk s
  | .connConnect h conn peerId peerConn peerGen sendPsn recvPsn => Sys2Proof.Machine.execConnConnect h conn peerId peerConn peerGen sendPsn recvPsn s
  | .connReset h conn => Sys2Proof.Machine.execConnReset h conn s
  | .connDestroy h conn => Sys2Proof.Machine.execConnDestroy h conn s
  | .connPin h conn pin => Sys2Proof.Machine.execConnPin h conn pin s
  | .connQuery h conn => Sys2Proof.Machine.execConnQuery h conn s
  | .bobbinRefill conn uncorrectable => Sys2Proof.Machine.execBobbinRefill conn uncorrectable s
  | .segmentConnIdle conn => Sys2Proof.Machine.execSegmentConnIdle conn s
  | .winOpen h entry => Sys2Proof.Machine.execWinOpen h entry s
  | .winRevoke h wkey => Sys2Proof.Machine.execWinRevoke h wkey s
  | .write part q d => Sys2Proof.Machine.execWrite part q d s
  | .writeSig part q d => Sys2Proof.Machine.execWriteSig part q d s
  | .read part q d => Sys2Proof.Machine.execRead part q d s
  | .send part q d => Sys2Proof.Machine.execSend part q d s
  | .fetchAdd part q d => Sys2Proof.Machine.execFetchAdd part q d s
  | .cmpSwap part q d => Sys2Proof.Machine.execCmpSwap part q d s
  | .syncAdd part q d => Sys2Proof.Machine.execSyncAdd part q d s
  | .invoke part q d => Sys2Proof.Machine.execInvoke part q d s
  | .recvBufferPost part q d => Sys2Proof.Machine.execRecvBufferPost part q d s
  | .writePacket port pkt guard => Sys2Proof.Machine.execWritePacket port pkt guard s
  | .writeSigPacket port pkt => Sys2Proof.Machine.execWriteSigPacket port pkt s
  | .readReq port pkt errs => Sys2Proof.Machine.execReadReq port pkt errs s
  | .sendPacket port pkt => Sys2Proof.Machine.execSendPacket port pkt s
  | .fetchAddPacket port pkt errs => Sys2Proof.Machine.execFetchAddPacket port pkt errs s
  | .cmpSwapPacket port pkt errs => Sys2Proof.Machine.execCmpSwapPacket port pkt errs s
  | .syncAddPacket port pkt => Sys2Proof.Machine.execSyncAddPacket port pkt s
  | .invokePacket port pkt => Sys2Proof.Machine.execInvokePacket port pkt s
  | .udSend port pkt => Sys2Proof.Machine.execUdSend port pkt s
  | .readResp port pkt => Sys2Proof.Machine.execReadResp port pkt s
  | .atomicResp port pkt => Sys2Proof.Machine.execAtomicResp port pkt s
  | .ack port pkt => Sys2Proof.Machine.execAck port pkt s
  | .ackDelayTimer conn => Sys2Proof.Machine.execAckDelayTimer conn s
  | .nak port pkt => Sys2Proof.Machine.execNak port pkt s
  | .skip port pkt => Sys2Proof.Machine.execSkip port pkt s
  | .cbusyHoldExpiry conn => Sys2Proof.Machine.execCbusyHoldExpiry conn s
  | .cbusyLimit conn psn => Sys2Proof.Machine.execCbusyLimit conn psn s
  | .noRecvRetry conn => Sys2Proof.Machine.execNoRecvRetry conn s
  | .rtoExpiry conn => Sys2Proof.Machine.execRtoExpiry conn s
  | .errorNotice port pkt => Sys2Proof.Machine.execErrorNotice port pkt s
  | .noticeAck port pkt => Sys2Proof.Machine.execNoticeAck port pkt s
  | .errorNoticeRepeat conn => Sys2Proof.Machine.execErrorNoticeRepeat conn s
  | .egressPacketSelect port vc guard => Sys2Proof.Machine.execEgressPacketSelect port vc guard s
  | .e2eReturn port pkt => Sys2Proof.Machine.execE2eReturn port pkt s
  | .e2eReturnTimer src => Sys2Proof.Machine.execE2eReturnTimer src s
  | .e2eStale dest => Sys2Proof.Machine.execE2eStale dest s
  | .ccParamSet h part blk => Sys2Proof.Machine.execCcParamSet h part blk s
  | .ccStitch h part => Sys2Proof.Machine.execCcStitch h part s
  | .ccConnSet h conn mode lo hi fixed => Sys2Proof.Machine.execCcConnSet h conn mode lo hi fixed s
  | .shpWrite h shaper entry => Sys2Proof.Machine.execShpWrite h shaper entry s
  | .shpStitch h first count => Sys2Proof.Machine.execShpStitch h first count s
  | .shpQuery h shaper copy => Sys2Proof.Machine.execShpQuery h shaper copy s
  | .schedWeightSet h part w => Sys2Proof.Machine.execSchedWeightSet h part w s
  | .schedStitch h => Sys2Proof.Machine.execSchedStitch h s
  | .histRead h queue clear => Sys2Proof.Machine.execHistRead h queue clear s
  | .queueSample => Sys2Proof.Machine.execQueueSample s
  | .dataFlitRx port flit => Sys2Proof.Machine.execDataFlitRx port flit s
  | .idleFlitRx port flit => Sys2Proof.Machine.execIdleFlitRx port flit s
  | .credit port word => Sys2Proof.Machine.execCredit port word s
  | .fack port word => Sys2Proof.Machine.execFack port word s
  | .retryReq port word => Sys2Proof.Machine.execRetryReq port word s
  | .tapeMark port hi lo => Sys2Proof.Machine.execTapeMark port hi lo s
  | .loopPing port word => Sys2Proof.Machine.execLoopPing port word s
  | .loopEcho port word => Sys2Proof.Machine.execLoopEcho port word s
  | .modeReq port word => Sys2Proof.Machine.execModeReq port word s
  | .modeAck port word => Sys2Proof.Machine.execModeAck port word s
  | .creditLossTimer port => Sys2Proof.Machine.execCreditLossTimer port s
  | .modeReqRepeat port => Sys2Proof.Machine.execModeReqRepeat port s
  | .modeChangeTimeout port => Sys2Proof.Machine.execModeChangeTimeout port s
  | .fackTimer port => Sys2Proof.Machine.execFackTimer port s
  | .creditTimer port => Sys2Proof.Machine.execCreditTimer port s
  | .retryReqTimer port => Sys2Proof.Machine.execRetryReqTimer port s
  | .fackStall port => Sys2Proof.Machine.execFackStall port s
  | .loopMeasureTimer port => Sys2Proof.Machine.execLoopMeasureTimer port s
  | .tapeMarkSend => Sys2Proof.Machine.execTapeMarkSend s
  | .linkSet h port action => Sys2Proof.Machine.execLinkSet h port action s
  | .packetForward port pkt => Sys2Proof.Machine.execPacketForward port pkt s
  | .mcastPacket port pkt => Sys2Proof.Machine.execMcastPacket port pkt s
  | .tapeEpochBoundary => Sys2Proof.Machine.execTapeEpochBoundary s
  | .mapPush port pkt => Sys2Proof.Machine.execMapPush port pkt s
  | .rtWrite h bank kind first count entries => Sys2Proof.Machine.execRtWrite h bank kind first count entries s
  | .rtStitch h bank => Sys2Proof.Machine.execRtStitch h bank s
  | .rtClear h bank => Sys2Proof.Machine.execRtClear h bank s
  | .rtFlip h bank => Sys2Proof.Machine.execRtFlip h bank s
  | .rtQuery h bank kind first count => Sys2Proof.Machine.execRtQuery h bank kind first count s
  | .mcastSet h group entry => Sys2Proof.Machine.execMcastSet h group entry s
  | .mcastQuery h group => Sys2Proof.Machine.execMcastQuery h group s
  | .alignmentCodewordRx port lane cw => Sys2Proof.Machine.execAlignmentCodewordRx port lane cw s
  | .lightDetect port => Sys2Proof.Machine.execLightDetect port s
  | .trainingPhaseEnd port ok lanes => Sys2Proof.Machine.execTrainingPhaseEnd port ok lanes s
  | .trainingTimeout port => Sys2Proof.Machine.execTrainingTimeout port s
  | .trainingRetryTimer port => Sys2Proof.Machine.execTrainingRetryTimer port s
  | .lightLoss port => Sys2Proof.Machine.execLightLoss port s
  | .laneDegrade port lane => Sys2Proof.Machine.execLaneDegrade port lane s
  | .widenTimer port lanes => Sys2Proof.Machine.execWidenTimer port lanes s
  | .emitterFail els emitter => Sys2Proof.Machine.execEmitterFail els emitter s
  | .spareSwitched els wave => Sys2Proof.Machine.execSpareSwitched els wave s
  | .optMonitorSample samples => Sys2Proof.Machine.execOptMonitorSample samples s
  | .elsRelease h els => Sys2Proof.Machine.execElsRelease h els s
  | .elsStart h els => Sys2Proof.Machine.execElsStart h els s
  | .optQuery h kind index o => Sys2Proof.Machine.execOptQuery h kind index o s
  | .elsInsert els => Sys2Proof.Machine.execElsInsert els s
  | .elsRemoved els => Sys2Proof.Machine.execElsRemoved els s
  | .clusterClearDone cluster => Sys2Proof.Machine.execClusterClearDone cluster s
  | .needleFailed needle => Sys2Proof.Machine.execNeedleFailed needle s
  | .needleSpared cluster => Sys2Proof.Machine.execNeedleSpared cluster s
  | .staleTailFire cluster queue => Sys2Proof.Machine.execStaleTailFire cluster queue s
  | .ndieClkSet h die minMhz maxMhz => Sys2Proof.Machine.execNdieClkSet h die minMhz maxMhz s
  | .sarith n x => Sys2Proof.Machine.execSarith n x s
  | .addi n x => Sys2Proof.Machine.execAddi n x s
  | .andi n x => Sys2Proof.Machine.execAndi n x s
  | .ori n x => Sys2Proof.Machine.execOri n x s
  | .xori n x => Sys2Proof.Machine.execXori n x s
  | .slli n x => Sys2Proof.Machine.execSlli n x s
  | .srli n x => Sys2Proof.Machine.execSrli n x s
  | .srai n x => Sys2Proof.Machine.execSrai n x s
  | .slti n x => Sys2Proof.Machine.execSlti n x s
  | .lui n x => Sys2Proof.Machine.execLui n x s
  | .mfsr n x => Sys2Proof.Machine.execMfsr n x s
  | .mtsr n x => Sys2Proof.Machine.execMtsr n x s
  | .lb n x => Sys2Proof.Machine.execLb n x s
  | .lbu n x => Sys2Proof.Machine.execLbu n x s
  | .lh n x => Sys2Proof.Machine.execLh n x s
  | .lhu n x => Sys2Proof.Machine.execLhu n x s
  | .lw n x => Sys2Proof.Machine.execLw n x s
  | .lwu n x => Sys2Proof.Machine.execLwu n x s
  | .ld n x => Sys2Proof.Machine.execLd n x s
  | .sb n x => Sys2Proof.Machine.execSb n x s
  | .sh n x => Sys2Proof.Machine.execSh n x s
  | .sw n x => Sys2Proof.Machine.execSw n x s
  | .sd n x => Sys2Proof.Machine.execSd n x s
  | .amo n x => Sys2Proof.Machine.execAmo n x s
  | .beq n x => Sys2Proof.Machine.execBeq n x s
  | .bne n x => Sys2Proof.Machine.execBne n x s
  | .blt n x => Sys2Proof.Machine.execBlt n x s
  | .bge n x => Sys2Proof.Machine.execBge n x s
  | .bltu n x => Sys2Proof.Machine.execBltu n x s
  | .bgeu n x => Sys2Proof.Machine.execBgeu n x s
  | .jal n x => Sys2Proof.Machine.execJal n x s
  | .jalr n x => Sys2Proof.Machine.execJalr n x s
  | .vld n x => Sys2Proof.Machine.execVld n x s
  | .vst n x => Sys2Proof.Machine.execVst n x s
  | .vstm n x => Sys2Proof.Machine.execVstm n x s
  | .vgather n x => Sys2Proof.Machine.execVgather n x s
  | .vscatter n x => Sys2Proof.Machine.execVscatter n x s
  | .varith n x => Sys2Proof.Machine.execVarith n x s
  | .vlogic n x => Sys2Proof.Machine.execVlogic n x s
  | .vcmp n x => Sys2Proof.Machine.execVcmp n x s
  | .vmisc n x => Sys2Proof.Machine.execVmisc n x s
  | .plogic n x => Sys2Proof.Machine.execPlogic n x s
  | .vtopk n x => Sys2Proof.Machine.execVtopk n x s
  | .tmisc n x => Sys2Proof.Machine.execTmisc n x s
  | .tmma n x => Sys2Proof.Machine.execTmma n x s
  | .vcvt n x => Sys2Proof.Machine.execVcvt n x s
  | .vcvtmx n x => Sys2Proof.Machine.execVcvtmx n x s
  | .vmxdq n x => Sys2Proof.Machine.execVmxdq n x s
  | .vscale n x => Sys2Proof.Machine.execVscale n x s
  | .cpy n x => Sys2Proof.Machine.execCpy n x s
  | .cpyDone xfer => Sys2Proof.Machine.execCpyDone xfer s
  | .fsig n x => Sys2Proof.Machine.execFsig n x s
  | .sqpush n x => Sys2Proof.Machine.execSqpush n x s
  | .sqpushResume n => Sys2Proof.Machine.execSqpushResume n s
  | .sqpop n x => Sys2Proof.Machine.execSqpop n x s
  | .sqflush n x => Sys2Proof.Machine.execSqflush n x s
  | .sqstat n x => Sys2Proof.Machine.execSqstat n x s
  | .syadd n x => Sys2Proof.Machine.execSyadd n x s
  | .sywait n x => Sys2Proof.Machine.execSywait n x s
  | .sywaitResume n => Sys2Proof.Machine.execSywaitResume n s
  | .syrd n x => Sys2Proof.Machine.execSyrd n x s
  | .tape n x => Sys2Proof.Machine.execTape n x s
  | .fence n x => Sys2Proof.Machine.execFence n x s
  | .trap n x => Sys2Proof.Machine.execTrap n x s
  | .exit n x => Sys2Proof.Machine.execExit n x s
  | .runBudgetExpiry run => Sys2Proof.Machine.execRunBudgetExpiry run s
  | .launch part q d => Sys2Proof.Machine.execLaunch part q d s
  | .launchStart => Sys2Proof.Machine.execLaunchStart s
  | .transformChunkReady conn msn chunk => Sys2Proof.Machine.execTransformChunkReady conn msn chunk s
  | .handlerRunStart conn msn => Sys2Proof.Machine.execHandlerRunStart conn msn s
  | .progLoad h ctx va len o => Sys2Proof.Machine.execProgLoad h ctx va len o s
  | .progBind h target blk => Sys2Proof.Machine.execProgBind h target blk s
  | .progUnbind h tkind target force => Sys2Proof.Machine.execProgUnbind h tkind target force s
  | .progUnload h prog force => Sys2Proof.Machine.execProgUnload h prog force s
  | .progQuery h prog => Sys2Proof.Machine.execProgQuery h prog s
  | .progPolicy h part requireSig => Sys2Proof.Machine.execProgPolicy h part requireSig s
  | .collSet h slot blk => Sys2Proof.Machine.execCollSet h slot blk s
  | .collStitch h slot o => Sys2Proof.Machine.execCollStitch h slot o s
  | .collAbort h slot => Sys2Proof.Machine.execCollAbort h slot s
  | .collQuery h slot copy => Sys2Proof.Machine.execCollQuery h slot copy s
  | .collStart part q d => Sys2Proof.Machine.execCollStart part q d s
  | .collBegin slot => Sys2Proof.Machine.execCollBegin slot s
  | .collContribReady slot chunk data rd errs => Sys2Proof.Machine.execCollContribReady slot chunk data rd errs s
  | .upData port pkt => Sys2Proof.Machine.execUpData port pkt s
  | .downData port pkt => Sys2Proof.Machine.execDownData port pkt s
  | .chunkAck port pkt => Sys2Proof.Machine.execChunkAck port pkt s
  | .collFetch port pkt errs => Sys2Proof.Machine.execCollFetch port pkt errs s
  | .seal port pkt => Sys2Proof.Machine.execSeal port pkt s
  | .sealAck port pkt => Sys2Proof.Machine.execSealAck port pkt s
  | .collAbortPacket port pkt => Sys2Proof.Machine.execCollAbortPacket port pkt s
  | .arrive port pkt => Sys2Proof.Machine.execArrive port pkt s
  | .notStarted port pkt => Sys2Proof.Machine.execNotStarted port pkt s
  | .chunkAckTimer slot chunk rank => Sys2Proof.Machine.execChunkAckTimer slot chunk rank s
  | .upResendTimer slot chunk => Sys2Proof.Machine.execUpResendTimer slot chunk s
  | .fetchTimer slot chunk => Sys2Proof.Machine.execFetchTimer slot chunk s
  | .collDeadline slot => Sys2Proof.Machine.execCollDeadline slot s
  | .abortRepeat slot => Sys2Proof.Machine.execAbortRepeat slot s
  | .hookRunStart slot chunk => Sys2Proof.Machine.execHookRunStart slot chunk s
  | .syncCtl h index evq arm thresh => Sys2Proof.Machine.execSyncCtl h index evq arm thresh s
  | .syncOp h index op value => Sys2Proof.Machine.execSyncOp h index op value s
  | .syncQuery h first count => Sys2Proof.Machine.execSyncQuery h first count s
  | .syncDbAdd func index value => Sys2Proof.Machine.execSyncDbAdd func index value s
  | .syncDbSet func index value => Sys2Proof.Machine.execSyncDbSet func index value s
  | .syncDbArm func index value => Sys2Proof.Machine.execSyncDbArm func index value s
  | .mailboxGo func o => Sys2Proof.Machine.execMailboxGo func o s
  | .dbH2aSet func bits => Sys2Proof.Machine.execDbH2aSet func bits s
  | .dbA2hClear func bits => Sys2Proof.Machine.execDbA2hClear func bits s
  | .dbA2hMaskWrite func mask => Sys2Proof.Machine.execDbA2hMaskWrite func mask s
  | .mgrH2aClear tenant bits => Sys2Proof.Machine.execMgrH2aClear tenant bits s
  | .mgrH2aMaskWrite tenant mask => Sys2Proof.Machine.execMgrH2aMaskWrite tenant mask s
  | .mgrA2hSet tenant bits => Sys2Proof.Machine.execMgrA2hSet tenant bits s
  | .tapePpsSec h seconds => Sys2Proof.Machine.execTapePpsSec h seconds s
  | .tapeEventSet h event atNs periodUs op index value => Sys2Proof.Machine.execTapeEventSet h event atNs periodUs op index value s
  | .tapeEventCancel h event => Sys2Proof.Machine.execTapeEventCancel h event s
  | .tapeEventDue part event => Sys2Proof.Machine.execTapeEventDue part event s
  | .bookWrite h port cycle bitmap => Sys2Proof.Machine.execBookWrite h port cycle bitmap s
  | .bookStitch h atNs portmask => Sys2Proof.Machine.execBookStitch h atNs portmask s
  | .bookQuery h port copy => Sys2Proof.Machine.execBookQuery h port copy s
  | .bookSlotBoundary => Sys2Proof.Machine.execBookSlotBoundary s
  | .ptpEventMessage msg => Sys2Proof.Machine.execPtpEventMessage msg s
  | .ppsEdge => Sys2Proof.Machine.execPpsEdge s
  | .tapeLossTimeout => Sys2Proof.Machine.execTapeLossTimeout s
  | .holdoverExpiry => Sys2Proof.Machine.execHoldoverExpiry s
  | .upstreamSwitch => Sys2Proof.Machine.execUpstreamSwitch s
  | .ppsOut => Sys2Proof.Machine.execPpsOut s
  | .doorbellWrite func q value => Sys2Proof.Machine.execDoorbellWrite func q value s
  | .indexRecordRead part q record rd => Sys2Proof.Machine.execIndexRecordRead part q record rd s
  | .indexRereadTimer part q => Sys2Proof.Machine.execIndexRereadTimer part q s
  | .entryFetch part q entries rd o => Sys2Proof.Machine.execEntryFetch part q entries rd o s
  | .paramRead part tag params rd o => Sys2Proof.Machine.execParamRead part tag params rd o s
  | .ciWrite part q => Sys2Proof.Machine.execCiWrite part q s
  | .longCmdFinal part tag ok => Sys2Proof.Machine.execLongCmdFinal part tag ok s
  | .copy part q d => Sys2Proof.Machine.execCopy part q d s
  | .adminEnable func => Sys2Proof.Machine.execAdminEnable func s
  | .adminDisable func => Sys2Proof.Machine.execAdminDisable func s
  | .partCreate h part queues conns pinConns windows syncObjs shapers collSlots keySlots contexts clusterMask unitMap => Sys2Proof.Machine.execPartCreate h part queues conns pinConns windows syncObjs shapers collSlots keySlots contexts clusterMask unitMap s
  | .partReset h part force => Sys2Proof.Machine.execPartReset h part force s
  | .partDestroy h part => Sys2Proof.Machine.execPartDestroy h part s
  | .partQuery h part => Sys2Proof.Machine.execPartQuery h part s
  | .partitionResetStep part => Sys2Proof.Machine.execPartitionResetStep part s
  | .resetForced part => Sys2Proof.Machine.execResetForced part s
  | .unitEraseDone unit => Sys2Proof.Machine.execUnitEraseDone unit s
  | .keyLoad h part slot blob guard => Sys2Proof.Machine.execKeyLoad h part slot blob guard s
  | .keyClear h part slot => Sys2Proof.Machine.execKeyClear h part slot s
  | .fwUpdate h ctx va len slot activate o => Sys2Proof.Machine.execFwUpdate h ctx va len slot activate o s
  | .attest h nonce => Sys2Proof.Machine.execAttest h nonce s
  | .bootImage bundle rd => Sys2Proof.Machine.execBootImage bundle rd s
  | .bootOk => Sys2Proof.Machine.execBootOk s
  | .fusePulseEnd => Sys2Proof.Machine.execFusePulseEnd s
  | .networkBootRetry => Sys2Proof.Machine.execNetworkBootRetry s
  | .i3cRecoveryWrite offset data bundle => Sys2Proof.Machine.execI3cRecoveryWrite offset data bundle s
  | .i3cRegWrite offset => Sys2Proof.Machine.execI3cRegWrite offset s
  | .mrExtend mbox => Sys2Proof.Machine.execMrExtend mbox s
  | .mrRead mbox => Sys2Proof.Machine.execMrRead mbox s
  | .kekRotate mbox => Sys2Proof.Machine.execKekRotate mbox s
  | .selfTest mbox ok => Sys2Proof.Machine.execSelfTest mbox ok s
  | .notice reason => Sys2Proof.Machine.execNotice reason s
  | .secureMailboxReply mbox => Sys2Proof.Machine.execSecureMailboxReply mbox s
  | .getVersion bus m => Sys2Proof.Machine.execGetVersion bus m s
  | .getCapabilities bus m => Sys2Proof.Machine.execGetCapabilities bus m s
  | .negotiateAlgorithms bus m => Sys2Proof.Machine.execNegotiateAlgorithms bus m s
  | .getDigests bus m => Sys2Proof.Machine.execGetDigests bus m s
  | .getCertificate bus m => Sys2Proof.Machine.execGetCertificate bus m s
  | .challenge bus m => Sys2Proof.Machine.execChallenge bus m s
  | .getMeasurements bus m => Sys2Proof.Machine.execGetMeasurements bus m s
  | .chunkSend bus m => Sys2Proof.Machine.execChunkSend bus m s
  | .chunkGet bus m => Sys2Proof.Machine.execChunkGet bus m s
  | .getReport bus m => Sys2Proof.Machine.execGetReport bus m s
  | .getPqCert bus m => Sys2Proof.Machine.execGetPqCert bus m s
  | .mgmtCfg h vals => Sys2Proof.Machine.execMgmtCfg h vals s
  | .tackWord col => Sys2Proof.Machine.execTackWord col s
  | .tackOutTimer => Sys2Proof.Machine.execTackOutTimer s
  | .tackRequestTimer => Sys2Proof.Machine.execTackRequestTimer s
  | .request f => Sys2Proof.Machine.execRequest f s
  | .offer f => Sys2Proof.Machine.execOffer f s
  | .accept f => Sys2Proof.Machine.execAccept f s
  | .offerResendTimer eui => Sys2Proof.Machine.execOfferResendTimer eui s
  | .oobRequest f o => Sys2Proof.Machine.execOobRequest f o s
  | .pauseFrame quanta fcsOk => Sys2Proof.Machine.execPauseFrame quanta fcsOk s
  | .pauseExpiry => Sys2Proof.Machine.execPauseExpiry s
  | .macCollision late => Sys2Proof.Machine.execMacCollision late s
  | .backoffExpiry => Sys2Proof.Machine.execBackoffExpiry s
  | .wakeFrame bytes fcsOk => Sys2Proof.Machine.execWakeFrame bytes fcsOk s
  | .resetWarm h => Sys2Proof.Machine.execResetWarm h s
  | .resetCold h => Sys2Proof.Machine.execResetCold h s
  | .powerState h state => Sys2Proof.Machine.execPowerState h state s
  | .powerLimit h capW => Sys2Proof.Machine.execPowerLimit h capW s
  | .resetCtlCold func value => Sys2Proof.Machine.execResetCtlCold func value s
  | .resetCtlWarm func value => Sys2Proof.Machine.execResetCtlWarm func value s
  | .powerOn => Sys2Proof.Machine.execPowerOn s
  | .powerLoss => Sys2Proof.Machine.execPowerLoss s
  | .resetNAssert ns => Sys2Proof.Machine.execResetNAssert ns s
  | .resetNRelease => Sys2Proof.Machine.execResetNRelease s
  | .nvWriteEnd => Sys2Proof.Machine.execNvWriteEnd s
  | .stageRelease bundle ok idOk bad => Sys2Proof.Machine.execStageRelease bundle ok idOk bad s
  | .warmReset cause => Sys2Proof.Machine.execWarmReset cause s
  | .blockReset kind index => Sys2Proof.Machine.execBlockReset kind index s
  | .blockResetEnd kind index => Sys2Proof.Machine.execBlockResetEnd kind index s
  | .wakeN ns => Sys2Proof.Machine.execWakeN ns s
  | .idleEntry => Sys2Proof.Machine.execIdleEntry s
  | .powerSample watts avgW volts => Sys2Proof.Machine.execPowerSample watts avgW volts s
  | .tempSample temps => Sys2Proof.Machine.execTempSample temps s
  | .oscLoss => Sys2Proof.Machine.execOscLoss s
  | .refclkLost => Sys2Proof.Machine.execRefclkLost s
  | .dataLinkDown => Sys2Proof.Machine.execDataLinkDown s
  | .dataLinkUp width speed => Sys2Proof.Machine.execDataLinkUp width speed s
  | .linkLossTimer => Sys2Proof.Machine.execLinkLossTimer s
  | .perstAssert => Sys2Proof.Machine.execPerstAssert s
  | .perstRelease => Sys2Proof.Machine.execPerstRelease s
  | .hotReset => Sys2Proof.Machine.execHotReset s
  | .ltssmRecovery => Sys2Proof.Machine.execLtssmRecovery s
  | .ltssmLoopback => Sys2Proof.Machine.execLtssmLoopback s
  | .hostReadCompletion idx data rd => Sys2Proof.Machine.execHostReadCompletion idx data rd s
  | .flushReadDone func rd => Sys2Proof.Machine.execFlushReadDone func rd s
  | .hostSnoop addr inv => Sys2Proof.Machine.execHostSnoop addr inv s
  | .cacheGo addr data => Sys2Proof.Machine.execCacheGo addr data s
  | .vfEnableSet => Sys2Proof.Machine.execVfEnableSet s
  | .vfEnableClear => Sys2Proof.Machine.execVfEnableClear s
  | .vfFlr func => Sys2Proof.Machine.execVfFlr func s
  | .pfFlr => Sys2Proof.Machine.execPfFlr s
  | .busMasterEnable func on => Sys2Proof.Machine.execBusMasterEnable func on s
  | .cacheEnable on => Sys2Proof.Machine.execCacheEnable on s
  | .msixUnmask func vector => Sys2Proof.Machine.execMsixUnmask func vector s
  | .engineWatchdog kind index check => Sys2Proof.Machine.execEngineWatchdog kind index check s
  | .cpWatchdog cp => Sys2Proof.Machine.execCpWatchdog cp s
  | .adapterWatchdog => Sys2Proof.Machine.execAdapterWatchdog s
  | .pendingFaultTurn => Sys2Proof.Machine.execPendingFaultTurn s
  | .hostDomainReset => Sys2Proof.Machine.execHostDomainReset s
  | .recoveryWindowClose rung dom => Sys2Proof.Machine.execRecoveryWindowClose rung dom s
  | .faultLogRead h first count clear => Sys2Proof.Machine.execFaultLogRead h first count clear s
  | .loopbackSet h kind index depth durationMs => Sys2Proof.Machine.execLoopbackSet h kind index depth durationMs s
  | .loopbackEnd lbIdx errors units => Sys2Proof.Machine.execLoopbackEnd lbIdx errors units s
  | .bistRun h target index => Sys2Proof.Machine.execBistRun h target index s
  | .bistDone bistId mask => Sys2Proof.Machine.execBistDone bistId mask s
  | .tapInstruction ir => Sys2Proof.Machine.execTapInstruction ir s
  | .registerWrite func offset width value => Sys2Proof.Machine.execRegisterWrite func offset width value s
  | .networkBootFrame f bundle => Sys2Proof.Machine.execNetworkBootFrame f bundle s
  | .ptpGeneralMessage msg => Sys2Proof.Machine.execPtpGeneralMessage msg s
  | .oscillatorReturn => Sys2Proof.Machine.execOscillatorReturn s
  | .inputOvervoltage => Sys2Proof.Machine.execInputOvervoltage s
  | .queueDrainLimit ports => Sys2Proof.Machine.execQueueDrainLimit ports s
  | .powerTransitionEnd => Sys2Proof.Machine.execPowerTransitionEnd s
  | .elsSelfTestDone els ok => Sys2Proof.Machine.execElsSelfTestDone els ok s
  | .setdasa target addr => Sys2Proof.Machine.execSetdasa target addr s
  | .entdaa regAddr mctpAddr => Sys2Proof.Machine.execEntdaa regAddr mctpAddr s

end Sys2Proof.Machine
end

