-- ==== Sys2Proof/Machine/RegRead.lean ====
section
/-!
DEFINITION. What a host's read of BAR0 returns (chapter 26): the registers of every function and of the manager region, by the bit maps of
the rules that map them, and the accesses and states in which they read 0 or do not answer (R386, R551-R560). No register changes when it
is read, so the table has no command for a read (assumption log 95).
-/

namespace Sys2Proof.Machine

/-- Two 32-bit registers in one 8-byte slot. -/
def twoWords (lo hi : Nat) : Nat := lo % 2 ^ 32 + 2 ^ 32 * (hi % 2 ^ 32)

/-! ### The pages of every function (R554, R557) -/

/-- The state of a function's partition as FUNC_ID shows it (R556, R438). -/
def State.partState (s : State) (func : Nat) : Nat := if func = 0 && s.rst.halted then 3 else (s.part func).st

/-- FUNC_ID (R556). -/
def State.funcId (s : State) (func : Nat) : Nat := (pack 32 [(11, 8, s.partState func), (7, 7, b2n (func == 0)), (5, 0, func)]).toNat

/-- LINK_EVENTS (R401). -/
def FuncS.linkEvents (f : FuncS) : Nat := (pack 64 [(15, 8, f.rideCount.toNat), (0, 0, b2n f.ridden)]).toNat

/-- QSTATUS (R423). -/
def FuncS.qstatus (f : FuncS) : Nat :=
  (pack 64 [(63, 48, f.haltQ.toNat), (47, 32, f.haltSlot.toNat), (31, 16, f.dbRefused.toNat), (7, 4, f.adminState.toNat),
    (0, 0, b2n f.haltedBit)]).toNat

/-- FQ_STAT (R513): the fault queue's number, 0xFFFF where the partition has none. -/
def State.fqStat (s : State) (func : Nat) : Nat :=
  let f := s.func func
  (pack 64 [(31, 16, ((s.faultQueue func).map qnum).getD 0xFFFF), (1, 1, b2n f.sumPending), (0, 0, b2n f.fqOverflow)]).toNat

/-- A word of a mailbox page, DATA0 to DATA15, GO and SENDER (R360). -/
def Mbox.shown (m : Mbox) (i : Nat) : Nat :=
  if i < 16 then (AMap.get m.data i 0).toNat else if i = 16 then b2n m.go else if i = 17 then m.sender.toNat else 0

/-- A 4-byte word of an MSI-X table entry (R394). -/
def MsixE.word (e : MsixE) (i : Nat) : Nat :=
  match i with
  | 0 => e.addr.toNat % 2 ^ 32
  | 1 => e.addr.toNat / 2 ^ 32
  | 2 => e.data.toNat
  | _ => e.ctl.toNat

/-- The 8 bytes of a function's control page, mailbox page and MSI-X structures at an offset that is a multiple of 8. -/
def State.funcWord (s : State) (func off : Nat) : Nat :=
  let f := s.func func
  if off = 0x00 then twoWords identWord (s.funcId func)
  else if off = 0x08 then s.devidWord
  else if off = 0x10 then s.now.toNat
  else if off = 0x20 then f.linkEvents
  else if off = 0x40 then (if func = 0 then s.faults.halt.toNat else 0)
  else if off = 0x100 then f.dbH2A.toNat
  else if off = 0x108 then f.dbA2H.toNat
  else if off = 0x110 then f.dbA2HMask.toNat
  else if off = 0x118 then f.dbVec.toNat
  else if off = 0x200 then f.adminBast.sq.toNat
  else if off = 0x208 then f.adminBast.cq.toNat
  else if off = 0x210 then f.adminBast.idx.toNat
  else if off = 0x218 then f.adminBast.cfg.toNat
  else if off = 0x228 then f.qstatus
  else if off = 0x300 then s.fqStat func
  else if 0x380 ≤ off ∧ off < 0x400 then (AMap.get f.fqLost ((off - 0x380) / 8) 0).toNat
  else if 0x1000 ≤ off ∧ off < 0x1048 then twoWords (f.mbox.shown ((off - 0x1000) / 4)) (f.mbox.shown ((off - 0x1000) / 4 + 1))
  else if 0x10000 ≤ off ∧ off < 0x18000 then
    let e := AMap.get f.msix ((off - 0x10000) / 16) {}
    twoWords (e.word (off % 16 / 4)) (e.word (off % 16 / 4 + 1))
  else if 0x18000 ≤ off ∧ off < 0x18100 then
    ((List.range 64).map (fun i => b2n (f.msixPend.contains (8 * (off - 0x18000) + i)) * 2 ^ i)).sum
  else 0

/-! ### The manager region (R558) -/

/-- OPT_PORTn (R234). -/
def PortS.optPort (p : PortS) : Nat :=
  (pack 64 [(63, 48, p.txMask.toNat), (47, 32, p.rxMask.toNat), (31, 16, p.rxOk.toNat), (15, 8, p.swaps.toNat), (7, 0, p.narrow.toNat)]).toNat

/-- ELS_STATk (R235). -/
def ElsS.stat (e : ElsS) : Nat :=
  (pack 64 [(63, 63, b2n e.present), (62, 60, e.st.toNat), (55, 48, e.temp.toNat), (47, 32, e.failed.toNat), (31, 16, e.lit.toNat),
    (15, 8, e.spare.toNat)]).toNat

/-- NDIE_CLKd (R264). -/
def DieS.clk (d : DieS) : Nat := (pack 64 [(49, 48, d.limit.toNat), (47, 32, d.cur), (31, 16, d.maxM), (15, 0, d.minM)]).toNat

/-- The needles of a cluster that run a program: begun and not yet at EXIT (R267). -/
def State.activeMap (s : State) (c : Nat) : Nat :=
  ((List.range 8).map (fun j => b2n (let n := s.needle (8 * c + j); n.run.isSome && n.st != 0 && n.st != 4) * 2 ^ j)).sum

/-- CLUSTER_STATc (R267). -/
def State.clusterStat (s : State) (c : Nat) : Nat :=
  let u := s.clu c
  (pack 64 [(39, 32, u.owner.getD 0xFF), (23, 16, s.activeMap c), (15, 8, u.present.toNat), (7, 4, (s.die (c / 16)).spares), (3, 0, u.st)]).toNat

/-- FAB_QCFG (R159). -/
def TpS.qcfg (t : TpS) : Nat := (pack 64 [(45, 32, t.e2eWin.toNat), (10, 0, t.markTh.toNat)]).toNat

/-- RT_CFG (R205). -/
def RouteS.cfg (r : RouteS) : Nat := (pack 64 [(63, 48, r.seed.toNat), (7, 0, r.slack.toNat)]).toNat

/-- HOST_LINK_STAT (R400). -/
def HostS.linkStat (h : HostS) : Nat :=
  (pack 64 [(63, 48, h.lastRide.toNat), (47, 40, h.rides.toNat), (33, 33, b2n h.cacheEn), (32, 32, b2n h.flit), (20, 16, h.width.toNat),
    (3, 0, h.speed.toNat)]).toNat

/-- THIMBLE_STAT (R469). -/
def State.thimbleStat (s : State) : Nat :=
  let t := s.thimble
  (pack 64 [(63, 60, t.state.toNat), (55, 48, t.bootReason.toNat), (47, 40, t.svnRun.toNat), (39, 32, t.svnFuse.toNat), (31, 27, t.kekEpoch.toNat),
    (24, 24, b2n t.slot0Revoked), (23, 23, b2n t.rootSlot), (22, 22, b2n t.copy), (21, 20, s.straps.bootSrc.toNat), (19, 19, b2n t.rsaOk),
    (18, 18, b2n t.slhOk), (15, 10, t.bulkUp 0), (9, 4, t.bulkUp 1), (2, 0, t.iterUp)]).toNat

/-- Word `j` of measurement register `i` (R469): the digest's first byte at the lowest address (PRESUMED, assumption log 98). -/
def ThimbleS.mrWord (t : ThimbleS) (i j : Nat) : Nat := natLE ((bytesBE 48 (AMap.get t.mr i 0).toNat).drop (8 * j) |>.take 8)

/-- MGMT_STAT (R482). -/
def State.mgmtStat (s : State) : Nat :=
  let m := s.mgmt
  (pack 64 [(48, 44, m.predCol.getD 0x1F), (39, 36, m.tackState.toNat), (16, 16, b2n m.paused), (8, 8, b2n s.oobOn), (0, 0, b2n m.mode)]).toNat

/-- RESET_STATUS (R501). -/
def State.resetStatus (s : State) : Nat :=
  let r := s.rst
  let since := match r.warmAt with
    | none => 65535
    | some t => min 65535 ((s.clockNs - t) / 10 ^ 9)
  (pack 64 [(55, 48, r.warmCount.toNat), (47, 40, r.lastCause.toNat), (35, 32, r.stage.toNat), (31, 16, since), (15, 8, r.ctlRefused.toNat),
    (0, 0, b2n (r.held.isSome && r.nvBusy.isSome))]).toNat

/-- FAULT_STAT (R515): a recovery's partition is the one it resets, or the owner of the block it resets. -/
def State.faultStat (s : State) : Nat :=
  let r := s.recovery
  let p := match r with
    | none => 0xFF
    | some c => if c.rung = 1 then (s.blockOwner c.kind c.idx).getD 0xFF else if c.rung = 2 then c.dom else 0xFF
  (pack 64 [(63, 56, s.faults.pending.length), (55, 48, p), (35, 32, (r.map FRec.rung).getD 0), (31, 0, s.faults.nextSeq.toNat)]).toNat

/-- FAULT_LOG_STAT (R515). -/
def FaultS.logStat (f : FaultS) : Nat :=
  (pack 64 [(31, 24, f.fatal.length), (23, 16, f.othersNext.toNat), (15, 8, f.others.length)]).toNat

/-- LB_STATj (R529). -/
def LbS.stat (l : LbS) : Nat := (pack 64 [(63, 62, l.st.toNat), (61, 58, l.depth.toNat), (47, 32, l.errors.toNat), (31, 0, l.units)]).toNat

/-- The registers that answer while the adapter is HALTED (R558): RESET_CTL, which reads 0, RESET_STATUS, STRAPS and POWER_STAT. -/
def State.haltWord (s : State) (off : Nat) : Nat :=
  match off with
  | 0x880008 => s.resetStatus
  | 0x880010 => s.straps.word
  | 0x880100 => s.powerStat.toNat
  | _ => 0

/-- The 8 bytes of the manager region at an offset that is a multiple of 8. -/
def State.managerWord (s : State) (off : Nat) : Nat :=
  let cnt (m : AMap (BitVec 64)) (base : Nat) : Nat := (AMap.get m ((off - base) / 8) 0).toNat
  if 0x810000 ≤ off ∧ off < 0x810100 then s.portPeer ((off - 0x810000) / 8)
  else if 0x811000 ≤ off ∧ off < 0x811200 then cnt s.tp.tpCnt 0x811000
  else if off = 0x812000 then s.tp.qcfg
  else if 0x812100 ≤ off ∧ off < 0x812180 then cnt s.tp.ccCnt 0x812100
  else if 0x813000 ≤ off ∧ off < 0x813100 then s.linkStat ((off - 0x813000) / 8)
  else if 0x814000 ≤ off ∧ off < 0x815000 then (AMap.get (s.port ((off - 0x814000) / 128)).cnt ((off - 0x814000) % 128 / 8) 0).toNat
  else if 0x815000 ≤ off ∧ off < 0x815080 then cnt s.route.cnt 0x815000
  else if off = 0x815100 then s.route.cfg
  else if off = 0x815200 then s.rtStatus
  else if 0x816000 ≤ off ∧ off < 0x816100 then (s.port ((off - 0x816000) / 8)).optPort
  else if 0x816100 ≤ off ∧ off < 0x816120 then (AMap.get s.els ((off - 0x816100) / 8) {}).stat
  else if 0x817000 ≤ off ∧ off < 0x817020 then (s.die ((off - 0x817000) / 8)).clk
  else if 0x817100 ≤ off ∧ off < 0x817300 then s.clusterStat ((off - 0x817100) / 8)
  else if 0x820000 ≤ off ∧ off < 0x830000 then (AMap.get s.route.map (off - 0x820000) 0).toNat
  else if 0x830000 ≤ off ∧ off < 0x830800 then
    let m := s.secure ((off - 0x830000) / 0x100)
    twoWords (m.shown (off % 0x100 / 4)) (m.shown (off % 0x100 / 4 + 1))
  else if 0x831020 ≤ off ∧ off < 0x831800 then
    let f := s.func ((off - 0x831000) / 0x20)
    if off % 0x20 = 0 then f.dbH2A.toNat else if off % 0x20 = 8 then f.h2aMask.toNat else 0
  else if 0x840000 ≤ off ∧ off < 0x840028 then s.tapeWord (off - 0x840000)
  else if off = 0x850000 then s.host.linkStat
  else if 0x850100 ≤ off ∧ off < 0x850180 then cnt s.host.cnt 0x850100
  else if off = 0x860000 then s.thimbleStat
  else if 0x860100 ≤ off ∧ off < 0x860300 then s.thimble.mrWord ((off - 0x860100) / 0x40) (off % 0x40 / 8)
  else if off = 0x870000 then s.mgmtStat
  else if off = 0x870008 then s.mgmt.eui.toNat
  else if 0x870100 ≤ off ∧ off < 0x870180 then cnt s.mgmt.cnt 0x870100
  else if 0x890000 ≤ off ∧ off < 0x894000 then (s.faults.entry ((off - 0x890000) / 64)).toNat / 2 ^ (off % 64 * 8) % 2 ^ 64
  else if off = 0x894000 then s.faultStat
  else if off = 0x894008 then s.faults.logStat
  else if 0x8A0000 ≤ off ∧ off < 0x8A0500 then (AMap.get s.lb ((off - 0x8A0000) / 8) {}).stat
  else s.haltWord off

/-- The 8 bytes of a function's BAR0 at an offset that is a multiple of 8: in HALTED only the control page and the registers marked
"answers" show anything (R558, R560). -/
def State.barWord (s : State) (func off : Nat) : Nat :=
  if s.rst.halted then (if off < 0x1000 then s.funcWord func off else s.haltWord off)
  else if off < 0x800000 then s.funcWord func off
  else if func = 0 then s.managerWord off
  else 0

/-- What an access of `width` bytes reads (R386, R552): 0 unless it is aligned and of 4 or 8 bytes, and for TAPE_NOW, which one aligned
8-byte read shows (R379), of 8. -/
def State.barRead (s : State) (func off width : Nat) : Nat :=
  if !(width == 4 || width == 8) || off % width != 0 then 0
  else if width = 4 && off / 8 * 8 = 0x10 then 0
  else s.barWord func (off / 8 * 8) / 2 ^ (off % 8 * 8) % 2 ^ (8 * width)

/-- A host's read of BAR0 of a function (R560): none where no function answers, before the host interface is released and in a warm
reset, or where the function is not enabled; in HALTED the PF alone answers. -/
def State.registerRead (s : State) (func off width : Nat) : Option Nat :=
  if s.rst.halted then (if func = 0 then some (s.barRead func off width) else none)
  else if s.funcOn func && !s.rst.perstHold && (s.rst.stage == 5 || s.rst.stage == 6) then some (s.barRead func off width)
  else none

end Sys2Proof.Machine
end

