-- ==== Sys2Proof/WellFormed.lean ====
section
/-!
DEFINITION. Which commands are well formed: every operand fits the field or the range of numbers that the manual gives it. A command of
the firmware carries the number of a partition, a TAG of 16 bits and parameters that fit their places in the parameter area (R425-R427);
an event names ports, needles, partitions and the like by numbers that exist.
-/

namespace Sys2Proof

/-- Every number lies below its bound. -/
def below (xs : List (Nat × Nat)) : Bool := xs.all (fun e => decide (e.1 < e.2))

/-- The fields of a command's header and of the block of R426 fit; out of band, the command acts for partition 0 (R479). -/
def issueOk (h : Issue) : Bool :=
  below [(h.part, 64), (h.tag, 2 ^ 16), (h.resultVa, 2 ^ 64), (h.resultLen, 2 ^ 32)] &&
  (match h.path with
   | .oob seq => h.part == 0 && decide (seq < 2 ^ 63)
   | _ => true)

/-- A command is well formed. -/
def wellFormed (i : Instr) : Bool :=
  match i with
  | .nop h => issueOk h
  | .identify h => issueOk h
  | .cmdProgress h tag => issueOk h && below [(tag, 2 ^ 16)]
  | .qCreate h _ => issueOk h
  | .qDestroy h qnum => issueOk h && below [(qnum, 2 ^ 16)]
  | .qQuery h qnum => issueOk h && below [(qnum, 2 ^ 16)]
  | .segWrite h ctx seg _ => issueOk h && below [(ctx, 2 ^ 16), (seg, 256)]
  | .ctxWrite h ctx _ => issueOk h && below [(ctx, 2 ^ 16)]
  | .segStitch h ctx => issueOk h && below [(ctx, 2 ^ 16)]
  | .segUnmap h ctx seg => issueOk h && below [(ctx, 2 ^ 16), (seg, 256)]
  | .segQuery h ctx seg copy => issueOk h && below [(ctx, 2 ^ 16), (seg, 256), (copy, 256)]
  | .segDrainEnd ctx => below [(ctx, 4096)]
  | .drainForced ctx => below [(ctx, 4096)]
  | .segCacheMissFill ctx seg _ => below [(ctx, 4096), (seg, 16)]
  | .transferPiece _ _ => true
  | .hotIntervalEnd ctx => below [(ctx, 4096)]
  | .memTierSet h _ => issueOk h
  | .memBound h part nearMin nearMax => issueOk h && below [(part, 256), (nearMin, 2 ^ 16), (nearMax, 2 ^ 16)]
  | .memPin h offset count tier => issueOk h && below [(offset, 2 ^ 64), (count, 2 ^ 32), (tier, 256)]
  | .memClearDamaged h offset count => issueOk h && below [(offset, 2 ^ 64), (count, 2 ^ 32)]
  | .memScrubSet h hours => issueOk h && below [(hours, 256)]
  | .memChanRetire h tier chan => issueOk h && below [(tier, 256), (chan, 256)]
  | .memQuery h tier chan => issueOk h && below [(tier, 256), (chan, 256)]
  | .scrubLine tier chan _ => below [(tier, 2), (chan, 48)]
  | .rowRepair row => below [(row, 96 * 2 ^ 24)]
  | .frameRetired row => below [(row, 96 * 2 ^ 24)]
  | .freeFrameAvailable tier => below [(tier, 2)]
  | .channelFailure tier chan => below [(tier, 2), (chan, 48)]
  | .evacuationEnd tier lost => below ((tier, 2) :: lost.map (fun g => (g, 1050624)))
  | .tierEpochEnd => true
  | .granuleMoveDone granule _ => below [(granule, 1050624)]
  | .meminitDone => true
  | .connCreate h _ => issueOk h
  | .connConnect h conn peerId peerConn peerGen sendPsn recvPsn =>
      issueOk h && below [(conn, 2 ^ 32), (peerId, 2 ^ 16), (peerConn, 2 ^ 32), (peerGen, 256), (sendPsn, 2 ^ 32), (recvPsn, 2 ^ 32)]
  | .connReset h conn => issueOk h && below [(conn, 2 ^ 32)]
  | .connDestroy h conn => issueOk h && below [(conn, 2 ^ 32)]
  | .connPin h conn pin => issueOk h && below [(conn, 2 ^ 32), (pin, 256)]
  | .connQuery h conn => issueOk h && below [(conn, 2 ^ 32)]
  | .bobbinRefill conn _ => below [(conn, 2 ^ 24)]
  | .segmentConnIdle conn => below [(conn, 2 ^ 24)]
  | .winOpen h _ => issueOk h
  | .winRevoke h wkey => issueOk h && below [(wkey, 2 ^ 32)]
  | .write part q _ => below [(part, 64), (q, 2 ^ 16)]
  | .writeSig part q _ => below [(part, 64), (q, 2 ^ 16)]
  | .read part q _ => below [(part, 64), (q, 2 ^ 16)]
  | .send part q _ => below [(part, 64), (q, 2 ^ 16)]
  | .fetchAdd part q _ => below [(part, 64), (q, 2 ^ 16)]
  | .cmpSwap part q _ => below [(part, 64), (q, 2 ^ 16)]
  | .syncAdd part q _ => below [(part, 64), (q, 2 ^ 16)]
  | .invoke part q _ => below [(part, 64), (q, 2 ^ 16)]
  | .recvBufferPost part q _ => below [(part, 64), (q, 2 ^ 16)]
  | .writePacket port _ _ => below [(port, 33)]
  | .writeSigPacket port _ => below [(port, 33)]
  | .readReq port _ _ => below [(port, 33)]
  | .sendPacket port _ => below [(port, 33)]
  | .fetchAddPacket port _ _ => below [(port, 33)]
  | .cmpSwapPacket port _ _ => below [(port, 33)]
  | .syncAddPacket port _ => below [(port, 33)]
  | .invokePacket port _ => below [(port, 33)]
  | .udSend port _ => below [(port, 33)]
  | .readResp port _ => below [(port, 33)]
  | .atomicResp port _ => below [(port, 33)]
  | .ack port _ => below [(port, 33)]
  | .ackDelayTimer conn => below [(conn, 2 ^ 24)]
  | .nak port _ => below [(port, 33)]
  | .skip port _ => below [(port, 33)]
  | .cbusyHoldExpiry conn => below [(conn, 2 ^ 24)]
  | .cbusyLimit conn psn => below [(conn, 2 ^ 24), (psn, 2 ^ 32)]
  | .noRecvRetry conn => below [(conn, 2 ^ 24)]
  | .rtoExpiry conn => below [(conn, 2 ^ 24)]
  | .errorNotice port _ => below [(port, 33)]
  | .noticeAck port _ => below [(port, 33)]
  | .errorNoticeRepeat conn => below [(conn, 2 ^ 24)]
  | .egressPacketSelect port vc _ => below [(port, 33), (vc, 4)]
  | .e2eReturn port _ => below [(port, 33)]
  | .e2eReturnTimer src => below [(src, 2 ^ 16)]
  | .e2eStale dest => below [(dest, 2 ^ 16)]
  | .ccParamSet h part _ => issueOk h && below [(part, 256)]
  | .ccStitch h part => issueOk h && below [(part, 256)]
  | .ccConnSet h conn mode lo _ fixed => issueOk h && below [(conn, 2 ^ 32), (mode, 256), (lo, 2 ^ 16), (fixed, 2 ^ 16)]
  | .shpWrite h shaper _ => issueOk h && below [(shaper, 2 ^ 16)]
  | .shpStitch h first count => issueOk h && below [(first, 2 ^ 16), (count, 2 ^ 16)]
  | .shpQuery h shaper copy => issueOk h && below [(shaper, 2 ^ 16), (copy, 256)]
  | .schedWeightSet h part w => issueOk h && below [(part, 256), (w, 256)]
  | .schedStitch h => issueOk h
  | .histRead h queue clear => issueOk h && below [(queue, 256), (clear, 256)]
  | .queueSample => true
  | .dataFlitRx port _ => below [(port, 32)]
  | .idleFlitRx port _ => below [(port, 32)]
  | .credit port _ => below [(port, 32)]
  | .fack port _ => below [(port, 32)]
  | .retryReq port _ => below [(port, 32)]
  | .tapeMark port _ _ => below [(port, 32)]
  | .loopPing port _ => below [(port, 32)]
  | .loopEcho port _ => below [(port, 32)]
  | .modeReq port _ => below [(port, 32)]
  | .modeAck port _ => below [(port, 32)]
  | .creditLossTimer port => below [(port, 32)]
  | .modeReqRepeat port => below [(port, 32)]
  | .modeChangeTimeout port => below [(port, 32)]
  | .fackTimer port => below [(port, 32)]
  | .creditTimer port => below [(port, 32)]
  | .retryReqTimer port => below [(port, 32)]
  | .fackStall port => below [(port, 32)]
  | .loopMeasureTimer port => below [(port, 32)]
  | .tapeMarkSend => true
  | .linkSet h port action => issueOk h && below [(port, 256), (action, 256)]
  | .packetForward port _ => below [(port, 33)]
  | .mcastPacket port _ => below [(port, 33)]
  | .tapeEpochBoundary => true
  | .mapPush port _ => below [(port, 33)]
  | .rtWrite h bank kind first count _ => issueOk h && below [(bank, 256), (kind, 256), (first, 256), (count, 256)]
  | .rtStitch h bank => issueOk h && below [(bank, 256)]
  | .rtClear h bank => issueOk h && below [(bank, 256)]
  | .rtFlip h bank => issueOk h && below [(bank, 256)]
  | .rtQuery h bank kind first count => issueOk h && below [(bank, 256), (kind, 256), (first, 256), (count, 256)]
  | .mcastSet h group _ => issueOk h && below [(group, 2 ^ 16)]
  | .mcastQuery h group => issueOk h && below [(group, 2 ^ 16)]
  | .alignmentCodewordRx port lane _ => below [(port, 32), (lane, 16)]
  | .lightDetect port => below [(port, 32)]
  | .trainingPhaseEnd port _ lanes => below [(port, 32), (lanes, 2 ^ 16)]
  | .trainingTimeout port => below [(port, 32)]
  | .trainingRetryTimer port => below [(port, 32)]
  | .lightLoss port => below [(port, 32)]
  | .laneDegrade port lane => below [(port, 32), (lane, 16)]
  | .widenTimer port lanes => below [(port, 32), (lanes, 2 ^ 16)]
  | .emitterFail els emitter => below [(els, 4), (emitter, 16)]
  | .spareSwitched els wave => below [(els, 4), (wave, 4)]
  | .optMonitorSample _ => true
  | .elsRelease h els => issueOk h && below [(els, 256)]
  | .elsStart h els => issueOk h && below [(els, 256)]
  | .optQuery h kind index _ => issueOk h && below [(kind, 256), (index, 256)]
  | .elsInsert els => below [(els, 4)]
  | .elsRemoved els => below [(els, 4)]
  | .clusterClearDone cluster => below [(cluster, 64)]
  | .needleFailed needle => below [(needle, 512)]
  | .needleSpared cluster => below [(cluster, 64)]
  | .staleTailFire cluster queue => below [(cluster, 64), (queue, 32)]
  | .ndieClkSet h die minMhz maxMhz => issueOk h && below [(die, 256), (minMhz, 2 ^ 16), (maxMhz, 2 ^ 16)]
  | .sarith n _ => below [(n, 512)]
  | .addi n _ => below [(n, 512)]
  | .andi n _ => below [(n, 512)]
  | .ori n _ => below [(n, 512)]
  | .xori n _ => below [(n, 512)]
  | .slli n _ => below [(n, 512)]
  | .srli n _ => below [(n, 512)]
  | .srai n _ => below [(n, 512)]
  | .slti n _ => below [(n, 512)]
  | .lui n _ => below [(n, 512)]
  | .mfsr n _ => below [(n, 512)]
  | .mtsr n _ => below [(n, 512)]
  | .lb n _ => below [(n, 512)]
  | .lbu n _ => below [(n, 512)]
  | .lh n _ => below [(n, 512)]
  | .lhu n _ => below [(n, 512)]
  | .lw n _ => below [(n, 512)]
  | .lwu n _ => below [(n, 512)]
  | .ld n _ => below [(n, 512)]
  | .sb n _ => below [(n, 512)]
  | .sh n _ => below [(n, 512)]
  | .sw n _ => below [(n, 512)]
  | .sd n _ => below [(n, 512)]
  | .amo n _ => below [(n, 512)]
  | .beq n _ => below [(n, 512)]
  | .bne n _ => below [(n, 512)]
  | .blt n _ => below [(n, 512)]
  | .bge n _ => below [(n, 512)]
  | .bltu n _ => below [(n, 512)]
  | .bgeu n _ => below [(n, 512)]
  | .jal n _ => below [(n, 512)]
  | .jalr n _ => below [(n, 512)]
  | .vld n _ => below [(n, 512)]
  | .vst n _ => below [(n, 512)]
  | .vstm n _ => below [(n, 512)]
  | .vgather n _ => below [(n, 512)]
  | .vscatter n _ => below [(n, 512)]
  | .varith n _ => below [(n, 512)]
  | .vlogic n _ => below [(n, 512)]
  | .vcmp n _ => below [(n, 512)]
  | .vmisc n _ => below [(n, 512)]
  | .plogic n _ => below [(n, 512)]
  | .vtopk n _ => below [(n, 512)]
  | .tmisc n _ => below [(n, 512)]
  | .tmma n _ => below [(n, 512)]
  | .vcvt n _ => below [(n, 512)]
  | .vcvtmx n _ => below [(n, 512)]
  | .vmxdq n _ => below [(n, 512)]
  | .vscale n _ => below [(n, 512)]
  | .cpy n _ => below [(n, 512)]
  | .cpyDone _ => true
  | .fsig n _ => below [(n, 512)]
  | .sqpush n _ => below [(n, 512)]
  | .sqpushResume n => below [(n, 512)]
  | .sqpop n _ => below [(n, 512)]
  | .sqflush n _ => below [(n, 512)]
  | .sqstat n _ => below [(n, 512)]
  | .syadd n _ => below [(n, 512)]
  | .sywait n _ => below [(n, 512)]
  | .sywaitResume n => below [(n, 512)]
  | .syrd n _ => below [(n, 512)]
  | .tape n _ => below [(n, 512)]
  | .fence n _ => below [(n, 512)]
  | .trap n _ => below [(n, 512)]
  | .exit n _ => below [(n, 512)]
  | .runBudgetExpiry _ => true
  | .launch part q _ => below [(part, 64), (q, 2 ^ 16)]
  | .launchStart => true
  | .transformChunkReady conn msn chunk => below [(conn, 2 ^ 24), (msn, 2 ^ 32), (chunk, 2 ^ 24)]
  | .handlerRunStart conn msn => below [(conn, 2 ^ 24), (msn, 2 ^ 32)]
  | .progLoad h ctx va len _ => issueOk h && below [(ctx, 2 ^ 16), (va, 2 ^ 64), (len, 2 ^ 32)]
  | .progBind h target _ => issueOk h && below [(target, 2 ^ 32)]
  | .progUnbind h tkind target force => issueOk h && below [(tkind, 256), (target, 2 ^ 32), (force, 256)]
  | .progUnload h prog force => issueOk h && below [(prog, 2 ^ 16), (force, 256)]
  | .progQuery h prog => issueOk h && below [(prog, 2 ^ 16)]
  | .progPolicy h part requireSig => issueOk h && below [(part, 256), (requireSig, 256)]
  | .collSet h slot _ => issueOk h && below [(slot, 256)]
  | .collStitch h slot _ => issueOk h && below [(slot, 256)]
  | .collAbort h slot => issueOk h && below [(slot, 256)]
  | .collQuery h slot copy => issueOk h && below [(slot, 256), (copy, 256)]
  | .collStart part q _ => below [(part, 64), (q, 2 ^ 16)]
  | .collBegin slot => below [(slot, 64)]
  | .collContribReady slot chunk _ _ _ => below [(slot, 64), (chunk, 2 ^ 24)]
  | .upData port _ => below [(port, 33)]
  | .downData port _ => below [(port, 33)]
  | .chunkAck port _ => below [(port, 33)]
  | .collFetch port _ _ => below [(port, 33)]
  | .seal port _ => below [(port, 33)]
  | .sealAck port _ => below [(port, 33)]
  | .collAbortPacket port _ => below [(port, 33)]
  | .arrive port _ => below [(port, 33)]
  | .notStarted port _ => below [(port, 33)]
  | .chunkAckTimer slot chunk rank => below [(slot, 64), (chunk, 2 ^ 24), (rank, 8192)]
  | .upResendTimer slot chunk => below [(slot, 64), (chunk, 2 ^ 24)]
  | .fetchTimer slot chunk => below [(slot, 64), (chunk, 2 ^ 24)]
  | .collDeadline slot => below [(slot, 64)]
  | .abortRepeat slot => below [(slot, 64)]
  | .hookRunStart slot chunk => below [(slot, 64), (chunk, 2 ^ 24)]
  | .syncCtl h index evq arm thresh => issueOk h && below [(index, 2 ^ 16), (evq, 2 ^ 16), (arm, 256), (thresh, 2 ^ 64)]
  | .syncOp h index op value => issueOk h && below [(index, 2 ^ 16), (op, 256), (value, 2 ^ 64)]
  | .syncQuery h first count => issueOk h && below [(first, 2 ^ 16), (count, 256)]
  | .syncDbAdd func index value => below [(func, 64), (index, 16384), (value, 2 ^ 48)]
  | .syncDbSet func index value => below [(func, 64), (index, 16384), (value, 2 ^ 48)]
  | .syncDbArm func index value => below [(func, 64), (index, 16384), (value, 2 ^ 48)]
  | .mailboxGo func _ => below [(func, 64)]
  | .dbH2aSet func _ => below [(func, 64)]
  | .dbA2hClear func _ => below [(func, 64)]
  | .dbA2hMaskWrite func _ => below [(func, 64)]
  | .mgrH2aClear tenant _ => below [(tenant, 64)]
  | .mgrH2aMaskWrite tenant _ => below [(tenant, 64)]
  | .mgrA2hSet tenant _ => below [(tenant, 64)]
  | .tapePpsSec h seconds => issueOk h && below [(seconds, 2 ^ 64)]
  | .tapeEventSet h event atNs periodUs op index value =>
      issueOk h && below [(event, 256), (atNs, 2 ^ 64), (periodUs, 2 ^ 32), (op, 256), (index, 2 ^ 16), (value, 2 ^ 64)]
  | .tapeEventCancel h event => issueOk h && below [(event, 256)]
  | .tapeEventDue part event => below [(part, 64), (event, 64)]
  | .bookWrite h port cycle _ => issueOk h && below [(port, 256), (cycle, 2 ^ 16)]
  | .bookStitch h atNs portmask => issueOk h && below [(atNs, 2 ^ 64), (portmask, 2 ^ 32)]
  | .bookQuery h port copy => issueOk h && below [(port, 256), (copy, 256)]
  | .bookSlotBoundary => true
  | .ptpEventMessage _ => true
  | .ppsEdge => true
  | .tapeLossTimeout => true
  | .holdoverExpiry => true
  | .upstreamSwitch => true
  | .ppsOut => true
  | .doorbellWrite func q _ => below [(func, 64), (q, 2 ^ 16)]
  | .indexRecordRead part q _ _ => below [(part, 64), (q, 2 ^ 16)]
  | .indexRereadTimer part q => below [(part, 64), (q, 2 ^ 16)]
  | .entryFetch part q _ _ _ => below [(part, 64), (q, 2 ^ 16)]
  | .paramRead part tag _ _ _ => below [(part, 64), (tag, 2 ^ 16)]
  | .ciWrite part q => below [(part, 64), (q, 2 ^ 16)]
  | .longCmdFinal part tag _ => below [(part, 64), (tag, 2 ^ 16)]
  | .copy part q _ => below [(part, 64), (q, 2 ^ 16)]
  | .adminEnable func => below [(func, 64)]
  | .adminDisable func => below [(func, 64)]
  | .partCreate h part queues conns pinConns windows syncObjs shapers collSlots keySlots contexts clusterMask unitMap =>
      issueOk h && below [(part, 256), (queues, 2 ^ 32), (conns, 2 ^ 32), (pinConns, 2 ^ 16), (windows, 2 ^ 32), (syncObjs, 2 ^ 16), (shapers, 2 ^ 16), (collSlots, 256), (keySlots, 2 ^ 32), (contexts, 2 ^ 16), (clusterMask, 2 ^ 64), (unitMap, 2 ^ 2048)]
  | .partReset h part force => issueOk h && below [(part, 256), (force, 256)]
  | .partDestroy h part => issueOk h && below [(part, 256)]
  | .partQuery h part => issueOk h && below [(part, 256)]
  | .partitionResetStep part => below [(part, 64)]
  | .resetForced part => below [(part, 64)]
  | .unitEraseDone unit => below [(unit, 2048)]
  | .keyLoad h part slot _ _ => issueOk h && below [(part, 256), (slot, 2 ^ 16)]
  | .keyClear h part slot => issueOk h && below [(part, 256), (slot, 2 ^ 16)]
  | .fwUpdate h ctx va len slot activate _ => issueOk h && below [(ctx, 2 ^ 16), (va, 2 ^ 64), (len, 2 ^ 32), (slot, 256), (activate, 256)]
  | .attest h _ => issueOk h
  | .bootImage _ _ => true
  | .bootOk => true
  | .fusePulseEnd => true
  | .networkBootRetry => true
  | .i3cRecoveryWrite offset _ _ => below [(offset, 2 ^ 16)]
  | .i3cRegWrite offset => below [(offset, 2 ^ 16)]
  | .mrExtend mbox => below [(mbox, 8)]
  | .mrRead mbox => below [(mbox, 8)]
  | .kekRotate mbox => below [(mbox, 8)]
  | .selfTest mbox _ => below [(mbox, 8)]
  | .notice reason => below [(reason, 256)]
  | .secureMailboxReply mbox => below [(mbox, 8)]
  | .getVersion bus _ => below [(bus, 2)]
  | .getCapabilities bus _ => below [(bus, 2)]
  | .negotiateAlgorithms bus _ => below [(bus, 2)]
  | .getDigests bus _ => below [(bus, 2)]
  | .getCertificate bus _ => below [(bus, 2)]
  | .challenge bus _ => below [(bus, 2)]
  | .getMeasurements bus _ => below [(bus, 2)]
  | .chunkSend bus _ => below [(bus, 2)]
  | .chunkGet bus _ => below [(bus, 2)]
  | .getReport bus _ => below [(bus, 2)]
  | .getPqCert bus _ => below [(bus, 2)]
  | .mgmtCfg h _ => issueOk h
  | .tackWord col => below [(col, 16)]
  | .tackOutTimer => true
  | .tackRequestTimer => true
  | .request _ => true
  | .offer _ => true
  | .accept _ => true
  | .offerResendTimer eui => below [(eui, 2 ^ 48)]
  | .oobRequest _ _ => true
  | .pauseFrame quanta _ => below [(quanta, 2 ^ 16)]
  | .pauseExpiry => true
  | .macCollision _ => true
  | .backoffExpiry => true
  | .wakeFrame _ _ => true
  | .resetWarm h => issueOk h
  | .resetCold h => issueOk h
  | .powerState h state => issueOk h && below [(state, 256)]
  | .powerLimit h capW => issueOk h && below [(capW, 2 ^ 16)]
  | .resetCtlCold func value => below [(func, 64), (value, 2 ^ 64)]
  | .resetCtlWarm func value => below [(func, 64), (value, 2 ^ 64)]
  | .powerOn => true
  | .powerLoss => true
  | .resetNAssert _ => true
  | .resetNRelease => true
  | .nvWriteEnd => true
  | .stageRelease _ _ _ _ => true
  | .warmReset cause => below [(cause, 16)]
  | .blockReset kind index => below [(kind, 256), (index, 256)]
  | .blockResetEnd kind index => below [(kind, 256), (index, 256)]
  | .wakeN _ => true
  | .idleEntry => true
  | .powerSample watts avgW volts => below [(watts, 2 ^ 16), (avgW, 2 ^ 16), (volts, 256)]
  | .tempSample _ => true
  | .oscLoss => true
  | .refclkLost => true
  | .dataLinkDown => true
  | .dataLinkUp _ speed => below [(speed, 16)]
  | .linkLossTimer => true
  | .perstAssert => true
  | .perstRelease => true
  | .hotReset => true
  | .ltssmRecovery => true
  | .ltssmLoopback => true
  | .hostReadCompletion idx _ _ => below [(idx, 2 ^ 32)]
  | .flushReadDone func _ => below [(func, 64)]
  | .hostSnoop addr _ => below [(addr, 2 ^ 64)]
  | .cacheGo addr _ => below [(addr, 2 ^ 64)]
  | .vfEnableSet => true
  | .vfEnableClear => true
  | .vfFlr func => below [(func, 64)]
  | .pfFlr => true
  | .busMasterEnable func _ => below [(func, 64)]
  | .cacheEnable _ => true
  | .msixUnmask func vector => below [(func, 64), (vector, 2048)]
  | .engineWatchdog kind index _ => below [(kind, 256), (index, 256)]
  | .cpWatchdog cp => below [(cp, 4)]
  | .adapterWatchdog => true
  | .pendingFaultTurn => true
  | .hostDomainReset => true
  | .recoveryWindowClose rung _ => below [(rung, 5)]
  | .faultLogRead h first count clear => issueOk h && below [(first, 256), (count, 2 ^ 16), (clear, 256)]
  | .loopbackSet h kind index depth durationMs => issueOk h && below [(kind, 256), (index, 256), (depth, 256), (durationMs, 2 ^ 16)]
  | .loopbackEnd lbIdx errors _ => below [(lbIdx, 160), (errors, 2 ^ 16)]
  | .bistRun h target index => issueOk h && below [(target, 256), (index, 256)]
  | .bistDone _ mask => below [(mask, 2 ^ 64)]
  | .tapInstruction _ => true
  | .registerWrite func _ _ value => below [(func, 64), (value, 2 ^ 64)]
  | .networkBootFrame _ _ => true
  | .ptpGeneralMessage _ => true
  | .oscillatorReturn => true
  | .inputOvervoltage => true
  | .queueDrainLimit ports => below (ports.map (fun n => (n, 32)))
  | .powerTransitionEnd => true
  | .elsSelfTestDone els _ => below [(els, 4)]
  | .setdasa target addr => below [(target, 2), (addr, 2 ^ 7)]
  | .entdaa regAddr mctpAddr => below [(regAddr, 2 ^ 7), (mctpAddr, 2 ^ 7)]

end Sys2Proof
end

