-- ==== Sys2Proof/Safety.lean ====
section
/-!
DEFINITION. The words the claims are made in: when the firmware admits a command, what of the state lies beyond the host's side of the
adapter, and what a safe state is: memories in canonical form, and fuses that are only ever blown.
-/

namespace Sys2Proof.Machine

/-! ### When a Vuino command is carried out -/

/-- Nothing keeps the firmware from a command's own meaning: the host interface serves, the power state serves the opcode (R496), the
control processor that holds the command is not isolated (R492), its TAG names no long command in progress (R430), the partition may
issue it (R434), and no parameter sets a reserved bit (R427). -/
def State.admits (s : State) (h : Issue) (op : Nat) (vals : Nats) : Bool :=
  match opInfo op with
  | none => false
  | some i =>
    s.serving && (decide (s.power.state.toNat < 2) || i.slumber) && !s.isolated 9 (Config.processorOf h.part h.tag) &&
    !(s.part h.part).running.any (fun l => l.tag.toNat == h.tag) && (!i.zeroOnly || h.part == 0) &&
    (reservedAt (opLay op (vals.headD 0)) vals).isNone

/-! ### Beyond the host's side -/

/-- The state with everything blank that a reply, a completion, a record or a message to the host may change: the host link, the
functions' registers, the rings, the fault log, the management port's frames and the partitions' lists of commands. Two states with
equal `beyond` have the same memories, segments, connections, windows, ports, routes, clusters, needles, runs, collectives, sync objects,
tape, thimble, keys, power and reset state. -/
def State.beyond (s : State) : State := { s with host := {}, funcs := [], queues := [], faults := {}, mgmt := {}, parts := [] }

/-- A partition without its lists of commands. -/
def PartS.kept (p : PartS) : PartS := { p with owed := [], long := [] }

/-- `t` differs from `s` on the host's side only, and every partition keeps what it holds. -/
def Aside (s t : State) : Prop := t.beyond = s.beyond ∧ ∀ p, (t.part p).kept = (s.part p).kept

/-- The words of a mailbox's DATA0 to DATA7 as one number. -/
def Mbox.reply (m : Mbox) : Reply := pack 256 ((List.range 8).map (fun i => (32 * i + 31, 32 * i, (AMap.get m.data i 0).toNat)))

/-! ### What a command finds and what it alone changes -/

/-- A context that command `h` may act on at once: allotted to a partition that the issuer may name, with no command draining (R53, R56). -/
def ctxFree (s : State) (h : Issue) (ctx : Nat) : Prop :=
  (s.ctx ctx).drain = none ∧ ∃ p, s.ctxOwner ctx = some p ∧ (h.part = 0 ∨ h.part = p)

/-- `t` is `s` but for port `n`, which holds `p`. -/
def State.onlyPort (s t : State) (n : Nat) (p : PortS) : Prop :=
  t.port n = p ∧ (∀ m, m ≠ n → t.port m = s.port m) ∧ { t with ports := s.ports } = s

/-- Needle `n` runs and stands at an instruction of operation `op`, which `i` holds; its cluster serves, its PC and the words lie in the text of
its program, and no double-bit error meets the fetch (R269, R271, R277, R300). -/
def State.stands (s : State) (n op : Nat) (x : Upset) (i : Ins) : Prop :=
  n < 512 ∧ i.n = n ∧ (s.needle n).st = 1 ∧ (s.needle n).run = some i.id ∧ AMap.get? s.runs i.id = some i.run ∧ i.prog = s.runProg i.run ∧
  i.pc = (s.needle n).pc.toNat ∧ s.isolated 3 (clusterOf n) = false ∧ i.prog.inText i.pc = true ∧ x ≠ .fetch ∧
  s.imemWord (clusterOf n) i.pc % 256 = op ∧ (128 ≤ op → i.prog.inText (i.pc + 4) = true) ∧
  i.w = s.imemWord (clusterOf n) i.pc + (if 128 ≤ op then s.imemWord (clusterOf n) (i.pc + 4) * 2 ^ 32 else 0)

/-- `t` is `s` but for needle `n`, which holds `d`. -/
def State.onlyNeedle (s t : State) (n : Nat) (d : NeedleS) : Prop :=
  t.needle n = d ∧ (∀ m, m ≠ n → t.needle m = s.needle m) ∧ { t with needles := s.needles } = s

/-- The needle after `d`, its PC moved past the instruction. -/
def NeedleS.past (d : NeedleS) (op : Nat) : NeedleS := { d with pc := d.pc + (if 128 ≤ op then 8 else 4) }

/-- `t` is `s` with these bytes at address `a` of needle `n`'s data space and the needle's PC moved on: every other byte of every memory, and
everything else, is as it was. -/
def State.storedOnly (s t : State) (n a : Nat) (bs : Bytes) : Prop :=
  t.dataRead n a bs.length = bs ∧ t.devMem = s.devMem ∧ t.imem = s.imem ∧
  (∀ k, ¬(isLocal a = true ∧ localKey n a ≤ k ∧ k < localKey n a + bs.length) → Memory.rd t.localM k = Memory.rd s.localM k) ∧
  (∀ k, ¬(isLocal a = false ∧ sharedKey (clusterOf n) a ≤ k ∧ k < sharedKey (clusterOf n) a + bs.length) → Memory.rd t.shared k = Memory.rd s.shared k) ∧
  { t with localM := s.localM, shared := s.shared, needles := s.needles } = s ∧ (∀ m, m ≠ n → t.needle m = s.needle m)

/-! ### Safe states -/

/-- Every memory is in its canonical form. -/
def State.memoriesOk (s : State) : Bool := Memory.wf s.devMem && Memory.wf s.shared && Memory.wf s.localM && Memory.wf s.imem

/-- At least `n` fuses of the anti-rollback counter and `e` of the key epoch are blown, and slot 0's revocation if `r` (R449, R455). -/
def State.fusesAtLeast (s : State) (n e : Nat) (r : Bool) : Prop :=
  n ≤ s.thimble.svnFuse.toNat ∧ e ≤ s.thimble.kekEpoch.toNat ∧ (r = true → s.thimble.slot0Revoked = true)

end Sys2Proof.Machine
end

