-- ==== Sys2Proof/Certificates/Slice0/Obligations.lean ====
section
/-!
DEFINITION. The statements for the provers, in the spec's order of families: what every command does where its rules let it do it, what
it leaves alone, and what every step keeps.
-/

open Sys2Proof Sys2Proof.Machine

/-! ### Vuino commands: each, where its own checks pass, leaves the state its rule gives and replies OK with its result (R427, R433,
R562). What a reply itself is, and that it touches nothing else, is stated by the obligations on replies. -/

/-- The plain commands and the queue commands (R434, R431, R419, R420): NOP does nothing; IDENTIFY answers IDENT, the device ID and VALID;
CMD_PROGRESS answers the record of a long command that runs or ended within 10 s; Q_CREATE of a queue whose block passes its checks makes
that queue, all of its counters 0; Q_DESTROY of an idle queue that nothing names removes it; Q_QUERY answers a queue's block, PI, CI and
held entries.
Where the spec leaves a point open, the model's own choice stands here: assumption log entries 49, 59. -/
def Obligations.PlainAndQueueCommandsReply : Prop :=
  (∀ (s : State) (h : Issue), s.admits h 0x0001 [] = true → exec (.nop h) s = .next (s.answer h 0x0001 (Ans.ok s) true)) ∧
  (∀ (s : State) (h : Issue), s.admits h 0x0002 [] = true →
    exec (.identify h) s = .next (s.answer h 0x0002 (Ans.ok s [sc 8 (0x01060021 + s.myId * 2 ^ 32 + b2n s.devidValid * 2 ^ 48)]) true)) ∧
  (∀ (s : State) (h : Issue) (tag : Nat) (l : LongC), s.admits h 0x0003 [tag] = true →
    (s.part h.part).long.find? (fun l => l.tag.toNat == tag && (!l.done || decide (s.clockNs ≤ l.endedAt + 10 * 10 ^ 9))) = some l →
    exec (.cmdProgress h tag) s = .next (s.answer h 0x0003
      { st := s, status := l.status.toNat, permille := l.permille, position := l.position
        items := if l.done then [sc 8 l.data.toNat] else [] } true)) ∧
  (∀ (s : State) (h : Issue) (blk : BitVec 256), s.admits h 0x0010 [blk.toNat] = true → s.queueBad h.part blk = none →
    let made : State := { s with queues := AMap.set s.queues (qkey h.part (fld blk 127 112)) { kind := fld blk 3 0, blk } }
    let t := if fld blk 3 0 = 6 ∧ bitAt blk 6 = true then made.postSummary h.part else made
    exec (.qCreate h blk) s = .next (t.answer h 0x0010 (Ans.ok t [sc 2 (fld blk 127 112)]) true)) ∧
  (∀ (s : State) (h : Issue) (q : Nat) (u : QueueS), s.admits h 0x0011 [q] = true → s.queue? (qkey h.part q) = some u → 2 ≤ q →
    u.work = [] → s.queueNamed h.part q = false →
    let t : State := { s with queues := AMap.erase s.queues (qkey h.part q)
                              host := { s.host with waits := s.host.waits.filter (fun w => w.q != qkey h.part q) } }
    exec (.qDestroy h q) s = .next (t.answer h 0x0011 (Ans.ok t) true)) ∧
  (∀ (s : State) (h : Issue) (q : Nat) (u : QueueS), s.admits h 0x0012 [q] = true → s.queue? (qkey h.part q) = some u → 2 ≤ q →
    exec (.qQuery h q) s = .next (s.answer h 0x0012
      (Ans.ok s [blkItem 32 u.blk.toNat, sc 4 u.pi.toNat, sc 4 u.ci.toNat, sc 8 u.held.length]) true)) ∧
  (∀ (s : State) (h : Issue) (q : Nat), s.admits h 0x0012 [q] = true → q < 2 →
    exec (.qQuery h q) s = .next (s.answer h 0x0012
      (Ans.ok s [sc 1 (7 + q), sc 8 (s.func h.part).adminAct.sq.toNat, sc 8 (s.func h.part).adminAct.cq.toNat,
        sc 8 (s.func h.part).adminAct.idx.toNat, sc 8 (s.func h.part).adminAct.cfg.toNat, sc 4 (s.queue (qkey h.part q)).pi.toNat,
        sc 4 (s.queue (qkey h.part q)).ci.toNat, sc 8 (s.queue (qkey h.part q)).held.length]) true))

/-- The segment commands (R53, R55, R58): SEG_WRITE and CTX_WRITE change the basting copy alone; SEG_STITCH makes the basting copy active
in one step, every changed segment in a new epoch; SEG_UNMAP clears VALID in both copies, the segment in a new epoch; both reply at once
where no transfer holds a piece of an old epoch, and otherwise keep the reply; SEG_QUERY answers the entry, the epoch and, of the active
copy, the two hot counts. -/
def Obligations.SegmentCommandsReply : Prop :=
  (∀ (s : State) (h : Issue) (ctx seg : Nat) (e : BitVec 256), s.admits h 0x0100 [ctx, seg, e.toNat] = true → ctxFree s h ctx →
    segReserved e = false →
    let t := s.updCtx ctx (fun c => { c with bast := AMap.set c.bast seg e })
    exec (.segWrite h ctx seg e) s = .next (t.answer h 0x0100 (Ans.ok t) true)) ∧
  (∀ (s : State) (h : Issue) (ctx : Nat) (hd : BitVec 128), s.admits h 0x0101 [ctx, hd.toNat] = true → ctxFree s h ctx →
    zeroFld hd 127 80 = true → zeroFld hd 63 46 = true → zeroFld hd 31 6 = true →
    let t := s.updCtx ctx (fun c => { c with hdrBast := hd })
    exec (.ctxWrite h ctx hd) s = .next (t.answer h 0x0101 (Ans.ok t) true)) ∧
  (∀ (s : State) (h : Issue) (ctx : Nat), s.admits h 0x0102 [ctx] = true → ctxFree s h ctx → s.devidValid = true →
    (∀ k < 16, segValid (AMap.get (s.ctx ctx).bast k 0) = true → s.segReason ((s.ctxOwner ctx).getD 64) ctx k = 0) →
    headerBad (s.ctx ctx).hdrBast = false →
    let changed := (List.range 16).filter (fun k => AMap.get (s.ctx ctx).act k 0 != AMap.get (s.ctx ctx).bast k 0)
    let t := (s.updCtx ctx (fun c => { c with act := c.bast, hdrAct := c.hdrBast })).newEpochs ctx changed
    (t.undrained ctx changed = [] → exec (.segStitch h ctx) s = .next (t.answer h 0x0102 (Ans.ok t) true)) ∧
    (t.undrained ctx changed ≠ [] → exec (.segStitch h ctx) s =
      .next ((t.updCtx ctx (fun c => { c with drain := some { issue := h, segs := changed, isStitch := true } })).owe h))) ∧
  (∀ (s : State) (h : Issue) (ctx seg : Nat), s.admits h 0x0103 [ctx, seg] = true → ctxFree s h ctx →
    let unset (m : AMap (BitVec 256)) : AMap (BitVec 256) := AMap.upd m seg 0 (fun e => setFld e 199 199 0)
    let t := (s.updCtx ctx (fun c => { c with act := unset c.act, bast := unset c.bast })).newEpochs ctx [seg]
    (t.undrained ctx [seg] = [] → exec (.segUnmap h ctx seg) s = .next (t.answer h 0x0103 (Ans.ok t) true)) ∧
    (t.undrained ctx [seg] ≠ [] → exec (.segUnmap h ctx seg) s =
      .next ((t.updCtx ctx (fun c => { c with drain := some { issue := h, segs := [seg], isStitch := false } })).owe h))) ∧
  (∀ (s : State) (h : Issue) (ctx seg : Nat), seg < 16 → ctxFree s h ctx →
    (s.admits h 0x0104 [ctx, seg, 0] = true → exec (.segQuery h ctx seg 0) s = .next (s.answer h 0x0104
      (Ans.ok s [blkItem 32 (s.seg ctx seg).toNat, sc 2 (s.segEpoch ctx seg).toNat, sc 4 (s.ctx ctx).hotNoSlot.toNat,
        sc 4 (s.ctx ctx).hotLost.toNat]) true)) ∧
    (s.admits h 0x0104 [ctx, seg, 1] = true → exec (.segQuery h ctx seg 1) s = .next (s.answer h 0x0104
      (Ans.ok s [blkItem 32 (AMap.get (s.ctx ctx).bast seg 0).toNat, sc 2 (s.segEpoch ctx seg).toNat]) true)))

/-- The memory commands (R89, R90): MEM_TIER_SET writes the tiering block's basting copy; MEM_BOUND sets NEAR_MIN and NEAR_MAX;
MEM_PIN with TIER 0 unpins the range, and with the tier its granules are in pins them at once; MEM_CLEAR_DAMAGED of granules that have
frames makes them zero and no longer DAMAGED; MEM_SCRUB_SET sets SCRUB_HOURS; MEM_CHAN_RETIRE of a channel that serves a triple retires it
and evacuates the triple, replying at the end; MEM_QUERY answers the channel's counts. -/
def Obligations.MemoryCommandsReply : Prop :=
  (∀ (s : State) (h : Issue) (blk : BitVec 64), s.admits h 0x0200 [blk.toNat] = true →
    1 ≤ fld blk 47 40 → fld blk 47 40 ≤ 200 → 8 ≤ fld blk 39 32 → fld blk 39 32 ≤ 64 → 1 ≤ fld blk 31 16 → fld blk 31 16 ≤ 1000 →
    fld blk 15 8 = 0 → fld blk 7 0 ≤ 1 →
    let t := s.updMem (fun m => { m with tierBast := blk })
    exec (.memTierSet h blk) s = .next (t.answer h 0x0200 (Ans.ok t) true)) ∧
  (∀ (s : State) (h : Issue) (p lo hi : Nat), s.admits h 0x0201 [p, lo, hi] = true → p < 64 → lo ≤ hi →
    hi ≤ (s.part p).units.length →
    ((s.mem.bounds.filter (fun e => e.1 != p)).map (fun e => e.2.1)).sum + lo ≤
      (32768 * (s.triplesOf false).length - (s.mem.retiredF.filter (fun f => f.1 == 0)).length) / 512 →
    let t := s.updMem (fun m => { m with bounds := AMap.set m.bounds p (lo, hi) })
    exec (.memBound h p lo hi) s = .next (t.answer h 0x0201 (Ans.ok t) true)) ∧
  (∀ (s : State) (h : Issue) (offset count : Nat), s.granRangeOk h offset count = true →
    (s.admits h 0x0202 [offset, count, 0] = true →
      let keep (g : Nat) : Bool := !(List.range' (offset / 2 ^ 21) count).contains g
      let t := s.updMem (fun m => { m with pins := AMap.keep m.pins (fun g _ => keep g), pinOwner := AMap.keep m.pinOwner (fun g _ => keep g) })
      exec (.memPin h offset count 0) s = .next (t.answer h 0x0202 (Ans.ok t) true)) ∧
    (s.admits h 0x0202 [offset, count, 2] = true →
      (∀ g ∈ List.range' (offset / 2 ^ 21) count, ∀ f, AMap.get? s.mem.gmap g = some f → f.far = true) →
      let gs := List.range' (offset / 2 ^ 21) count
      let t := s.updMem (fun m => { m with
        pins := gs.foldl (fun x g => AMap.set x g true) m.pins
        pinOwner := gs.foldl (fun x g => AMap.set x g ((s.unitOwner offset).getD h.part)) m.pinOwner })
      exec (.memPin h offset count 2) s = .next (t.answer h 0x0202 (Ans.ok t) true))) ∧
  (∀ (s : State) (h : Issue) (offset g : Nat) (f : Frame3), s.admits h 0x0203 [offset, 1] = true → s.granRangeOk h offset 1 = true →
    g = offset / 2 ^ 21 → s.mem.damaged.contains g = true → AMap.get? s.mem.gmap g = some f →
    let t : State := { s with
      devMem := Memory.zero s.devMem (g * 2 ^ 21) (2 ^ 21)
      mem := { s.mem with
        gmap := AMap.set s.mem.gmap g f
        damaged := s.mem.damaged.filter (· != g)
        badWords := s.mem.badWords.filter (fun w => w * 8 / 2 ^ 21 != g) } }
    exec (.memClearDamaged h offset 1) s = .next (t.answer h 0x0203 { Ans.ok t with position := 1, permille := 1000 } true)) ∧
  (∀ (s : State) (h : Issue) (hours : Nat), s.admits h 0x0204 [hours] = true → 1 ≤ hours → hours ≤ 168 →
    let t := s.updMem (fun m => { m with scrubHours := BitVec.ofNat 8 hours })
    exec (.memScrubSet h hours) s = .next (t.answer h 0x0204 (Ans.ok t) true)) ∧
  (∀ (s : State) (h : Issue) (tier chan : Nat) (x : Nat × Nats), s.admits h 0x0205 [tier, chan] = true → tier ≤ 1 → chan ≤ 47 →
    (AMap.get s.mem.chans (chanKey (tier == 1) chan) {}).st ≠ 2 → s.tripleOf (tier == 1) chan = some x →
    (s.part h.part).running.length < 8 →
    let t := s.updMem (fun m => { m with
      chans := AMap.upd m.chans (chanKey (tier == 1) chan) {} (fun c => { c with st := 2 })
      evacs := m.evacs ++ [{
        far := tier == 1, triple := x.1, chan := chan
        left := (s.mem.gmap.filter (fun e => e.2.far == (tier == 1) && e.2.triple == x.1)).map Prod.fst
        total := (s.mem.gmap.filter (fun e => e.2.far == (tier == 1) && e.2.triple == x.1)).length
        issue := some h }] })
    exec (.memChanRetire h tier chan) s =
      .next ((t.longStart h 0x0205).answer h 0x0205 { Ans.wait t with status := 21 } false)) ∧
  (∀ (s : State) (h : Issue) (tier chan : Nat), s.admits h 0x0206 [tier, chan] = true → tier ≤ 1 → chan ≤ 47 →
    let c := AMap.get s.mem.chans (chanKey (tier == 1) chan) {}
    exec (.memQuery h tier chan) s = .next (s.answer h 0x0206
      (Ans.ok s [sc 8 c.ce1.toNat, sc 8 c.ce2.toNat, sc 8 c.ue.toNat, sc 8 c.repaired.toNat, sc 8 c.retiredF.toNat,
        sc 1 (match s.tripleOf (tier == 1) chan with | some (t, _) => t | none => if c.st == 1 then 0xFE else 0xFF),
        sc 2 s.allottable, sc 1 (b2n s.mem.init)]) true))

/-- The connection and window commands (R95, R96, R98, R108, R110, R111): CONN_CREATE makes the lowest FREE connection of the partition,
with its block, INIT or, for a UD endpoint, READY, and answers its ID and generation; CONN_CONNECT of an INIT connection gives it its peer
and PSNs and makes it READY, its window at the initial window; CONN_RESET leaves it INIT, or READY for a UD endpoint, with nothing sent or
waiting; CONN_DESTROY leaves no connection; CONN_PIN pins or unpins its context; CONN_QUERY answers its counters; WIN_OPEN opens the lowest
closed window of the partition with its entry and answers its key; WIN_REVOKE closes a window and moves its generation on, replying at once
unless a request validated under the key is still to be placed.
Where the spec leaves a point open, the model's own choice stands here: assumption log entry 9. -/
def Obligations.ConnectionAndWindowCommandsReply : Prop :=
  (∀ (s : State) (h : Issue) (blk : BitVec 256) (cid : Nat), s.admits h 0x0300 [blk.toNat] = true →
    fld blk 255 208 = 0 → fld blk 127 12 = 0 → fld blk 6 4 = 0 → fld blk 3 0 ≤ 1 → (fld blk 3 0 = 1 → bitAt blk 7 = false) →
    let c : ConnS := { part := h.part, blk }
    (c.encrypt = true → (Ranges.item (s.part h.part).keys c.keySlot).isSome = true) →
    (c.shaper = 0xFFFF ∨ (Ranges.item (s.part h.part).shps c.shaper).isSome = true) →
    s.queueKind h.part c.cq 3 = true → (c.rq = 0xFFFF ∨ s.queueKind h.part c.rq 2 = true) → s.queueKind h.part c.sq 1 = true →
    s.freeConn h.part = some cid → (bitAt blk 8 = true → s.pinRoom h.part = true) →
    let r := s.bobbinRoom
    let t : State := { r with
      nextId := r.nextId + 1
      conns := AMap.set r.conns cid { c with
        ud := fld blk 3 0 == 1, st := if fld blk 3 0 = 1 then 2 else 1, pinned := bitAt blk 8, resident := true, lru := r.nextId + 1 } }
    exec (.connCreate h blk) s = .next (t.answer h 0x0300 (Ans.ok t [(8, bytesLE 8 (cid + (r.gen cid).toNat * 2 ^ 32))]) true)) ∧
  (∀ (s : State) (h : Issue) (conn peerId peerConn peerGen sendPsn recvPsn : Nat),
    s.admits h 0x0301 [conn, peerId, peerConn, peerGen, sendPsn, recvPsn] = true → s.connOwned h.part conn = true →
    (s.conn conn).st = 1 → (s.conn conn).ud = false → (s.conn conn).encrypt = false → s.devidValid = true → validId peerId = true →
    (idSpine peerId = true → h.part = 0) →
    ∃ t : State, exec (.connConnect h conn peerId peerConn peerGen sendPsn recvPsn) s = .next (t.answer h 0x0301 (Ans.ok t) true) ∧
      (t.conn conn).st = 2 ∧ (t.conn conn).peerId = BitVec.ofNat 16 peerId ∧ (t.conn conn).peerConn = BitVec.ofNat 24 peerConn ∧
      (t.conn conn).peerGen = BitVec.ofNat 8 peerGen ∧ (t.conn conn).psn = BitVec.ofNat 32 sendPsn ∧
      (t.conn conn).c = BitVec.ofNat 32 recvPsn ∧ (∀ k, k ≠ conn → t.conn k = s.conn k) ∧ { t with conns := s.conns } = s) ∧
  (∀ (s : State) (h : Issue) (conn : Nat), s.admits h 0x0302 [conn] = true → s.connOwned h.part conn = true → (s.conn conn).st ≠ 0 →
    ∃ t : State, exec (.connReset h conn) s = .next (t.answer h 0x0302 (Ans.ok t) true) ∧
      (t.conn conn).st = (if (t.conn conn).ud then 2 else 1) ∧ (t.conn conn).outs = [] ∧ (t.conn conn).tx = [] ∧ (t.conn conn).rx = []) ∧
  (∀ (s : State) (h : Issue) (conn : Nat), s.admits h 0x0303 [conn] = true → s.connOwned h.part conn = true → (s.conn conn).st ≠ 0 →
    ∃ t : State, exec (.connDestroy h conn) s = .next (t.answer h 0x0303 (Ans.ok t) true) ∧ AMap.get? t.conns conn = none) ∧
  (∀ (s : State) (h : Issue) (conn : Nat), s.connOwned h.part conn = true → (s.conn conn).st ≠ 0 →
    (s.admits h 0x0304 [conn, 0] = true →
      let t := s.updConn conn (fun c => { c with pinned := false })
      exec (.connPin h conn 0) s = .next (t.answer h 0x0304 (Ans.ok t) true)) ∧
    (s.admits h 0x0304 [conn, 1] = true → (s.conn conn).pinned = false → s.pinRoom (s.conn conn).part = true →
      let t := (if (s.conn conn).resident then s else s.bobbinRoom).updConn conn (fun c => { c with pinned := true, resident := true })
      exec (.connPin h conn 1) s = .next (t.answer h 0x0304 (Ans.ok t) true))) ∧
  (∀ (s : State) (h : Issue) (conn : Nat), s.admits h 0x0305 [conn] = true → s.connOwned h.part conn = true → (s.conn conn).st ≠ 0 →
    let c := s.conn conn
    exec (.connQuery h conn) s = .next (s.answer h 0x0305
      (Ans.ok s [sc 1 c.st, sc 1 (s.gen conn).toNat, sc 4 c.psn.toNat, sc 4 c.c.toNat, sc 4 c.msn.toNat, sc 4 c.rxMsn.toNat,
        sc 8 c.outs.length, sc 8 c.cwnd, sc 8 c.misses.toNat]) true)) ∧
  (∀ (s : State) (h : Issue) (e : BitVec 256) (w : Nat), s.admits h 0x0310 [e.toNat] = true → s.spine = false →
    s.winBad h.part e = none → s.freeWin (winPart e) = some w →
    let t := s.updWin w (fun x => { x with st := true, entry := e })
    exec (.winOpen h e) s = .next (t.answer h 0x0310 (Ans.ok t [(8, bytesLE 8 (w * 2 ^ 12 + (s.win w).gen.toNat))]) true)) ∧
  (∀ (s : State) (h : Issue) (wkey w : Nat), s.admits h 0x0311 [wkey] = true → w = wkey / 2 ^ 12 → (s.win w).st = true →
    (s.win w).gen.toNat = wkey % 2 ^ 12 → Ranges.has (s.part (winPart (s.win w).entry)).wins w = true →
    (h.part = 0 ∨ h.part = winPart (s.win w).entry) →
    let t := s.updWin w (fun x => { x with st := false, gen := nextGen x.gen })
    (s.winBusy w = false → exec (.winRevoke h wkey) s = .next (t.answer h 0x0311 (Ans.ok t) true)) ∧
    (s.winBusy w = true → exec (.winRevoke h wkey) s = .next ((t.updWin w (fun x => { x with revoke := some h })).owe h)))

/-- The congestion, shaper and scheduler commands (R155, R156, R163, R164, R167, R168, R170): CC_PARAM_SET and SCHED_WEIGHT_SET write a
partition's basting copy and CC_STITCH and SCHED_STITCH make it active; CC_CONN_SET sets a connection's override and holds its window within
it at once; SHP_WRITE writes a shaper's basting entry, SHP_STITCH makes the basting entries of a range active together, each one's buckets empty or full as the
entry says, SHP_QUERY answers entry, buckets and counts; HIST_READ answers a queue's histograms, and with CLEAR they start again.
Where the spec leaves a point open, the model's own choice stands here: assumption log entry 14. -/
def Obligations.CongestionCommandsReply : Prop :=
  (∀ (s : State) (h : Issue) (p : Nat) (blk : BitVec 128), s.admits h 0x0400 [p, blk.toNat] = true → s.created p = true →
    ccBad blk = false →
    let t := s.updPart p (fun x => { x with ccBast := blk })
    exec (.ccParamSet h p blk) s = .next (t.answer h 0x0400 (Ans.ok t) true)) ∧
  (∀ (s : State) (h : Issue) (p : Nat), s.admits h 0x0401 [p] = true → s.created p = true →
    let t := s.updPart p (fun x => { x with ccAct := x.ccBast })
    exec (.ccStitch h p) s = .next (t.answer h 0x0401 (Ans.ok t) true)) ∧
  (∀ (s : State) (h : Issue) (conn mode lo : Nat) (hi : BitVec 64) (fixed : Nat),
    s.admits h 0x0402 [conn, mode, lo, hi.toNat, fixed] = true → (s.conn conn).st ≠ 0 → mode ≤ 2 →
    (mode = 1 → 4 ≤ lo ∧ lo ≤ hi.toNat ∧ hi.toNat ≤ 8192) → (mode = 2 → 4 ≤ fixed ∧ fixed ≤ 8192) →
    let u := s.updConn conn (fun c => { c with ovMode := mode, ovLo := lo, ovHi := hi.toNat, ovFix := fixed })
    let t := u.updConn conn (fun c => { c with cwnd := if mode = 0 then c.cwnd else u.clampWin c c.cwnd })
    exec (.ccConnSet h conn mode lo hi fixed) s = .next (t.answer h 0x0402 (Ans.ok t) true)) ∧
  (∀ (s : State) (h : Issue) (k n : Nat) (e : BitVec 256), s.admits h 0x0410 [k, e.toNat] = true →
    Ranges.item (s.part h.part).shps k = some n → shpBad e = false →
    let t := s.updShp n (fun x => { x with bast := e })
    exec (.shpWrite h k e) s = .next (t.answer h 0x0410 (Ans.ok t) true)) ∧
  (∀ (s : State) (h : Issue) (first count : Nat), s.admits h 0x0411 [first, count] = true → 1 ≤ count → count ≤ 4096 →
    (∀ i ∈ List.range' first count, (Ranges.item (s.part h.part).shps i).isSome = true) →
    let ns := (List.range' first count).filterMap (fun i => Ranges.item (s.part h.part).shps i)
    let t := s.each ns (fun n t => t.updShp n (fun x => { x with
      act := x.bast, atNs := s.clockNs
      tc := if bitAt x.bast 193 && shpCir x.bast != 0 then shpCbs x.bast * 8000 else 0
      tp := if bitAt x.bast 193 && shpPir x.bast != 0 then shpPbs x.bast * 8000 else 0 }))
    exec (.shpStitch h first count) s = .next (t.answer h 0x0411 (Ans.ok t) true)) ∧
  (∀ (s : State) (h : Issue) (k n copy : Nat), s.admits h 0x0412 [k, copy] = true → Ranges.item (s.part h.part).shps k = some n →
    copy ≤ 1 →
    let x := s.shp n
    let y := x.filled s.clockNs
    exec (.shpQuery h k copy) s = .next (s.answer h 0x0412
      (Ans.ok s [blkItem 32 (if copy = 0 then x.act else x.bast).toNat, sc 8 (if shpValid x.act then y.tc / 8000 else 0),
        sc 8 (if shpValid x.act then y.tp / 8000 else 0), sc 8 x.green.toNat, sc 8 x.yellow.toNat, sc 8 (s.heldBy n)]) true)) ∧
  (∀ (s : State) (h : Issue) (p w : Nat), s.admits h 0x0420 [p, w] = true → 1 ≤ w → p < 64 →
    let t := s.updPart p (fun x => { x with wBast := w })
    exec (.schedWeightSet h p w) s = .next (t.answer h 0x0420 (Ans.ok t) true)) ∧
  (∀ (s : State) (h : Issue), s.admits h 0x0421 [] = true →
    ∃ t : State, exec (.schedStitch h) s = .next (t.answer h 0x0421 (Ans.ok t) true) ∧ { t with parts := s.parts } = s ∧
      ∀ p < 64, t.part p = { s.part p with wAct := (s.part p).wBast }) ∧
  (∀ (s : State) (h : Issue) (q c : Nat), s.admits h 0x0430 [q, c] = true → q < 192 → c ≤ 1 →
    let x := AMap.get s.tp.hist q {}
    let bins (m : AMap (BitVec 32)) : Items := (List.range 16).map (fun i => sc 4 (AMap.get m i 0).toNat)
    let t := if c = 1 then s.updTp (fun t => { t with hist := AMap.erase t.hist q }) else s
    exec (.histRead h q c) s = .next (t.answer h 0x0430
      (Ans.ok t (bins x.depth ++ bins x.delay ++ [sc 8 x.samples.toNat, sc 8 x.maxDepth, sc 8 x.maxDelay])) true))

/-- The routing and multicast commands (R202, R207, R209, R211, R216): RT_WRITE of the idle bank writes the named entries over those it
holds, or over zeros where it was EMPTY, and the bank is WRITING; RT_STITCH of a WRITING bank whose entries all pass makes it READY; RT_CLEAR
empties the idle bank; RT_FLIP makes a bank that is not WRITING the injection epoch; RT_QUERY answers the state and the entries; MCAST_SET
replaces a group entry, an entry of zeros being none; MCAST_QUERY answers it. -/
def Obligations.RoutingCommandsReply : Prop :=
  (∀ (s : State) (h : Issue) (bank kind first count : Nat) (es : Nats), s.admits h 0x0510 [bank, kind, first, count] = true →
    bank ≤ 1 → kind ≤ 2 → 1 ≤ count → count ≤ 32 → first + count ≤ rtSize kind → es.length = count →
    decide (bank = 1) ≠ s.route.inj → 200 ≤ s.sinceFlip →
    let t := s.updBank bank (fun b => {
      st := 1, ents := ((List.zip (List.range' (rtBase kind + first) count) es).foldl (fun m e => AMap.set m e.1 (BitVec.ofNat 64 e.2))
        (if b.st == 0 then [] else b.ents)) })
    exec (.rtWrite h bank kind first count es) s = .next (t.answer h 0x0510 (Ans.ok t) true)) ∧
  (∀ (s : State) (h : Issue) (bank : Nat), s.admits h 0x0511 [bank] = true → bank ≤ 1 → s.devidValid = true →
    (s.route.bank (bank == 1)).st = 1 → s.bankFault (s.route.bank (bank == 1)) = none →
    let t := s.updBank bank (fun b => { b with st := 2 })
    exec (.rtStitch h bank) s = .next (t.answer h 0x0511 (Ans.ok t) true)) ∧
  (∀ (s : State) (h : Issue) (bank : Nat), s.admits h 0x0512 [bank] = true → bank ≤ 1 → decide (bank = 1) ≠ s.route.inj →
    200 ≤ s.sinceFlip →
    let t := s.updBank bank (fun _ => {})
    exec (.rtClear h bank) s = .next (t.answer h 0x0512 (Ans.ok t) true)) ∧
  (∀ (s : State) (h : Issue) (bank : Nat), s.admits h 0x0513 [bank] = true → bank ≤ 1 → (s.route.bank (bank == 1)).st ≠ 1 →
    decide (bank = 1) ≠ s.route.inj →
    let t := s.updRoute (fun r => { r with inj := decide (bank = 1), flipAt := some s.clockNs })
    exec (.rtFlip h bank) s = .next (t.answer h 0x0513 (Ans.ok t) true)) ∧
  (∀ (s : State) (h : Issue) (bank kind first count : Nat), s.admits h 0x0514 [bank, kind, first, count] = true →
    bank ≤ 1 → kind ≤ 2 → 1 ≤ count → count ≤ 32 → first + count ≤ rtSize kind →
    let b := s.route.bank (bank == 1)
    exec (.rtQuery h bank kind first count) s = .next (s.answer h 0x0514
      (Ans.ok s [sc 1 b.st.toNat, listItem ((List.range' (rtBase kind + first) count).map
        (fun i => [blkItem 8 (AMap.get b.ents i 0).toNat]))]) true)) ∧
  (∀ (s : State) (h : Issue) (group : Nat) (e : BitVec 64), s.admits h 0x0520 [group, e.toNat] = true → s.spine = false →
    group < 4096 → fld e 15 0 = 0 →
    let t := s.updRoute (fun r => { r with mcast := if e = 0 then AMap.erase r.mcast group else AMap.set r.mcast group e })
    exec (.mcastSet h group e) s = .next (t.answer h 0x0520 (Ans.ok t) true)) ∧
  (∀ (s : State) (h : Issue) (group : Nat), s.admits h 0x0521 [group] = true → s.spine = false → group < 4096 →
    exec (.mcastQuery h group) s =
      .next (s.answer h 0x0521 (Ans.ok s [blkItem 8 (AMap.get s.route.mcast group 0).toNat]) true))

/-- The link, laser and clock commands (R194, R231, R236, R264, R265): LINK_SET DISABLE takes a port out of service, DISABLED; RETRAIN of a
port that is DOWN or DISABLED changes nothing, and of any other port begins and keeps its reply; ELS_RELEASE takes the module's ports out of
the candidate sets and, once their queues are empty, leaves it RELEASED and dark; ELS_START of a released or failed module starts it; OPT_QUERY
answers the telemetry; NDIE_CLK_SET sets the bounds of one needle die or of all, and no other die changes.
Where the spec leaves a point open, the model's own choice stands here: assumption log entry 31. -/
def Obligations.LinkLaserAndClockCommandsReply : Prop :=
  (∀ (s : State) (h : Issue) (n : Nat), s.admits h 0x0500 [n, 1] = true → n < 32 → (s.port n).linkCmd = none → (s.port n).state ≠ 6 →
    let t := s.portOut n 6
    exec (.linkSet h n 1) s = .next (t.answer h 0x0500 (Ans.ok t) true) ∧ (t.port n).state = 6) ∧
  (∀ (s : State) (h : Issue) (n a : Nat), s.admits h 0x0500 [n, a] = true → n < 32 → (a = 2 ∨ a = 3) → (s.port n).linkCmd = none →
    ((s.port n).state = 0 ∨ (s.port n).state = 6) →
    exec (.linkSet h n a) s = .next (s.answer h 0x0500 (Ans.ok s) true)) ∧
  (∀ (s : State) (h : Issue) (n a : Nat), s.admits h 0x0500 [n, a] = true → n < 32 → (a = 2 ∨ a = 3) → (s.port n).linkCmd = none →
    (s.port n).state ≠ 0 → (s.port n).state ≠ 6 →
    ∃ t : State, exec (.linkSet h n a) s = .next (t.owe h) ∧ (t.port n).linkCmd = some (h, BitVec.ofNat 4 a)) ∧
  (∀ (s : State) (h : Issue) (k : Nat), s.admits h 0x0530 [k] = true → k < 4 → (s.elsm k).st ≠ 0 → (s.elsm k).st ≠ 3 →
    (s.elsm k).cmd = none → (s.part h.part).running.length < 8 →
    let u := (s.elsLoopsEnd k).each (elsPorts k) (fun n t => t.updPort n (fun p => { p with els := true }))
    (u.elsDrained k = true → ∃ t : State, exec (.elsRelease h k) s = .next (t.answer h 0x0530 (Ans.ok t) true) ∧
      (t.elsm k).st = 3 ∧ (t.elsm k).lit = 0) ∧
    (u.elsDrained k = false → exec (.elsRelease h k) s =
      .next (((u.updEls k (fun e => { e with cmd := some h })).longStart h 0x0530).answer h 0x0530
        { Ans.wait (u.updEls k (fun e => { e with cmd := some h })) with status := 21 } false))) ∧
  (∀ (s : State) (h : Issue) (k : Nat), s.admits h 0x0531 [k] = true → k < 4 → ((s.elsm k).st = 3 ∨ (s.elsm k).st = 5) →
    (s.elsm k).cmd = none → (s.part h.part).running.length < 8 →
    let t := s.updEls k (fun e => { e with st := 1, cmd := some h })
    exec (.elsStart h k) s = .next ((t.longStart h 0x0531).answer h 0x0531 { Ans.wait t with status := 21 } false)) ∧
  (∀ (s : State) (h : Issue) (kind k : Nat) (o : Outside), s.admits h 0x0532 [kind, k] = true →
    (kind = 0 ∧ k < 32 ∨ kind = 1 ∧ k < 4) →
    exec (.optQuery h kind k o) s =
      .next (s.answer h 0x0532 (Ans.ok s [listItem (o.telem.map (fun v => [sc 8 (v % 2 ^ 64)]))]) true)) ∧
  (∀ (s : State) (h : Issue) (die lo hi : Nat), s.admits h 0x0600 [die, lo, hi] = true → (die < 4 ∨ die = 15) →
    lo % 100 = 0 → hi % 100 = 0 → 1200 ≤ lo → lo ≤ hi → hi ≤ 4000 →
    ∃ t : State, exec (.ndieClkSet h die lo hi) s = .next (t.answer h 0x0600 (Ans.ok t) true) ∧ { t with dies := s.dies } = s ∧
      ∀ d, if (d = die ∨ die = 15) ∧ d < 4 then (t.die d).minM = lo ∧ (t.die d).maxM = hi else t.die d = s.die d)

/-- The program commands (R304, R306, R307, R317, R318, R305): PROG_LOAD of a whole, checked image takes the lowest free handle and the
lowest free region, and its text stands in every cluster of the partition; PROG_BIND of a free target makes the binding; PROG_UNBIND of a
binding with no work undoes it, and with work keeps the reply; PROG_UNLOAD with FORCE 0 frees a program that nothing uses and is BUSY for any other; PROG_QUERY answers
its record; PROG_POLICY sets REQUIRE_SIG.
Where the spec leaves a point open, the model's own choice stands here: assumption log entries 9, 11. -/
def Obligations.ProgramCommandsReply : Prop :=
  (∀ (s u : State) (h : Issue) (ctx va len i a : Nat) (o : Outside) (b : Bytes), s.admits h 0x0610 [ctx, va, len] = true →
    s.ctxOwner ctx = some h.part → 256 ≤ len → len ≤ 256 + 262144 → s.ctxRead h.part ctx va len [] o.bytes o.rd = (u, .inl b) →
    u.clearing h.part = false →
    (List.range 256).find? (fun i => (AMap.get? (u.part h.part).progs i).isNone) = some i →
    (u.part h.part).textRoom (imgNat b 8 4) = some a →
    let v := u.updPart h.part (fun x => { x with progs := AMap.set x.progs i { imageProg b with addr := a } })
    let t := v.each (u.part h.part).clusters (fun c t => { t with imem := Memory.wrs t.imem (c * 2 ^ 18 + a) (b.drop 256) })
    exec (.progLoad h ctx va len o) s = .next (if u.imageReason h.part b = 0
      then t.answer h 0x0610 (Ans.ok t [sc 2 (AMap.get (u.part h.part).progGen i 1 * 256 + i)]) true
      else u.answer h 0x0610 (Ans.bad u 0 (u.imageReason h.part b)) true)) ∧
  (∀ (s : State) (h : Issue) (target k : Nat) (blk : BitVec 256), s.admits h 0x0611 [target, blk.toNat] = true →
    s.bindKey h.part (fld blk 17 16) target = some k → s.bindReason h.part k blk = 0 → AMap.get? s.binds k = none →
    (∀ c ∈ s.bindClusters { blk, part := h.part }, ∀ r ∈ s.runs, r.2.kind = 1 → c ∉ r.2.clusters) →
    let t : State := { s with binds := AMap.set s.binds k { blk, part := h.part } }
    exec (.progBind h target blk) s = .next (t.answer h 0x0611 (Ans.ok t) true)) ∧
  (∀ (s : State) (h : Issue) (tk target force k : Nat) (b : Bind), s.admits h 0x0612 [tk, target, force] = true → force ≤ 1 →
    s.bindKey h.part tk target = some k → AMap.get? s.binds k = some b → b.unbinding = none →
    (tk = 2 → force = 0 → (s.coll (k % 2 ^ 32)).st < 2) →
    let u := s.unbindBegin k h
    (u.bindInUse k = false → ∃ t : State, exec (.progUnbind h tk target force) s = .next (t.answer h 0x0612 (Ans.ok t) true) ∧
      AMap.get? t.binds k = none ∧ { t with binds := u.binds } = u) ∧
    (u.bindInUse k = true → (s.part h.part).running.length < 8 → exec (.progUnbind h tk target force) s =
      .next ((u.longStart h 0x0612).answer h 0x0612 { Ans.wait u with status := 21 } false))) ∧
  (∀ (s : State) (h : Issue) (prog : Nat) (g : Prog), s.admits h 0x0613 [prog, 0] = true → s.prog? h.part prog = some g →
    g.unloading = none → s.launches = [] → h.part < 64 → prog < 2 ^ 16 →
    ((∀ b ∈ s.binds, b.2.part = h.part → fld b.2.blk 15 0 ≠ prog) → (∀ r ∈ s.runs, r.2.part = h.part → r.2.prog.toNat ≠ prog) →
      let u := (s.updProg h.part prog (fun g => { g with unloading := some h })).programsSettle
      u.prog? h.part prog = none ∧ exec (.progUnload h prog 0) s = .next (u.answer h 0x0613 (Ans.ok u) true)) ∧
    ((∃ b ∈ s.binds, b.2.part = h.part ∧ fld b.2.blk 15 0 = prog) ∨ (∃ r ∈ s.runs, r.2.part = h.part ∧ r.2.prog.toNat = prog) →
      exec (.progUnload h prog 0) s = .next (s.answer h 0x0613 (Ans.busy s) true))) ∧
  (∀ (s : State) (h : Issue) (prog : Nat) (g : Prog), s.admits h 0x0614 [prog] = true → s.prog? h.part prog = some g →
    exec (.progQuery h prog) s = .next (s.answer h 0x0614
      (Ans.ok s [sc 1 g.kind, sc 4 g.textLen, sc 8 g.addr,
        sc 8 (s.binds.filter (fun b => b.2.part == h.part && fld b.2.blk 15 0 == prog)).length, sc 8 g.runs, sc 8 g.faults]) true)) ∧
  (∀ (s : State) (h : Issue) (p r : Nat), s.admits h 0x0615 [p, r] = true → s.created p = true → r ≤ 1 →
    let t := s.updPart p (fun x => { x with requireSig := r == 1 })
    exec (.progPolicy h p r) s = .next (t.answer h 0x0615 (Ans.ok t) true))

/-- The collective and sync commands (R322, R324, R350, R356, R357, R358): COLL_SET writes a slot's basting copy; COLL_STITCH of a slot
with no collective in progress makes it active with the member table it read and STAGE reserved, SEQ 0, and then takes the starts that
wait for it; of a slot in use, it waits for the end; COLL_ABORT aborts; COLL_QUERY answers both copies and the counts; SYNC_CTL names the
object's event queue and arms or disarms its host waiter; SYNC_OP adds or sets and answers the value; SYNC_QUERY answers a range.
Where the spec leaves a point open, the model's own choice stands here: assumption log entries 11, 49. -/
def Obligations.CollectiveAndSyncCommandsReply : Prop :=
  (∀ (s : State) (h : Issue) (slot k : Nat) (blk : BitVec 512), s.admits h 0x0700 [slot, blk.toNat] = true → s.spine = false →
    Ranges.item (s.part h.part).colls slot = some k → cbReserved blk = false →
    let t := s.updColl k (fun c => { c with bast := blk })
    exec (.collSet h slot blk) s = .next (t.answer h 0x0700 (Ans.ok t) true)) ∧
  (∀ (s u : State) (h : Issue) (slot k : Nat) (o : Outside) (bs : Bytes), s.admits h 0x0701 [slot] = true → u.spine = false →
    Ranges.item (s.part h.part).colls slot = some k →
    let b := (s.coll k).bast
    let table := (readElems 4 (cbN b) bs).map (BitVec.ofNat 32)
    s.collRead k (cbMembers b) (4 * cbN b) [] o.bytes o.rd = (u, .inl bs) → u.collReason k b (some table) = 0 →
    ((((Ranges.items (s.part h.part).colls).filter (fun j => j != k)).map (fun j => (u.coll j).stage)).sum + cbStage b
      ≤ Ranges.count (s.part h.part).colls * 2 ^ 20) →
    ((u.coll k).st ≤ 1 →
      let v := u.updColl k (fun c => { c with act := b, table, stage := cbStage b, seq := 0, st := 1, defer := none })
      let t := startHeads (v.launches.length + 1) v
      exec (.collStitch h slot o) s = .next (t.answer h 0x0701 (Ans.ok t) true)) ∧
    (2 ≤ (u.coll k).st →
      let t := u.updColl k (fun c => { c with defer := some (b, table, cbStage b) })
      exec (.collStitch h slot o) s = .next (t.answer h 0x0701 (Ans.ok t) true))) ∧
  (∀ (s : State) (h : Issue) (slot k : Nat), s.admits h 0x0702 [slot] = true → Ranges.item (s.part h.part).colls slot = some k →
    let t := s.collDo k (fun t => t.collUser k true)
    exec (.collAbort h slot) s = .next (t.answer h 0x0702 (Ans.ok t) true)) ∧
  (∀ (s : State) (h : Issue) (slot k copy : Nat), s.admits h 0x0703 [slot, copy] = true → copy ≤ 1 →
    Ranges.item (s.part h.part).colls slot = some k →
    let c := s.coll k
    exec (.collQuery h slot copy) s = .next (s.answer h 0x0703
      (Ans.ok s [blkItem 64 (if copy = 0 then c.act else c.bast).toNat, sc 1 c.st, sc 4 c.seq.toNat, sc 8 c.stage, sc 8 c.cResent.toNat,
        sc 8 c.cFetch.toNat, sc 8 c.cFail.toNat, sc 8 c.cNot.toNat, sc 8 c.cDisc.toNat, sc 8 c.cCorr.toNat]) true)) ∧
  (∀ (s : State) (h : Issue) (i k evq thresh : Nat), Ranges.item (s.part h.part).syncs i = some k → s.evqOk h.part evq = true →
    (s.admits h 0x0800 [i, evq, 0, thresh] = true →
      let t := s.updObj k (fun x => { x with evq := some (qkey h.part evq), armed := false })
      exec (.syncCtl h i evq 0 thresh) s = .next (t.answer h 0x0800 (Ans.ok t) true)) ∧
    (s.admits h 0x0800 [i, evq, 1, thresh] = true →
      let t := (s.updObj k (fun x => { x with evq := some (qkey h.part evq), armed := true, thresh := BitVec.ofNat 64 thresh })).hostWaiter k
        (s.obj k).val
      exec (.syncCtl h i evq 1 thresh) s = .next (t.answer h 0x0800 (Ans.ok t) true))) ∧
  (∀ (s : State) (h : Issue) (i k op v : Nat), s.admits h 0x0801 [i, op, v] = true → Ranges.item (s.part h.part).syncs i = some k →
    op ≤ 1 →
    let x : BitVec 64 := if op = 0 then (s.obj k).val + BitVec.ofNat 64 v else BitVec.ofNat 64 v
    let t := s.syncPut k x
    exec (.syncOp h i op v) s = .next (t.answer h 0x0801 (Ans.ok t [sc 8 x.toNat]) true) ∧ (t.obj k).val = x ∧
      ∀ j, j ≠ k → (t.obj j).val = (s.obj j).val) ∧
  (∀ (s : State) (h : Issue) (first count : Nat), s.admits h 0x0802 [first, count] = true → 1 ≤ count → count ≤ 64 →
    first + count ≤ Ranges.count (s.part h.part).syncs →
    let one (i : Nat) : Items :=
      let o := s.obj ((Ranges.item (s.part h.part).syncs i).getD 0)
      [sc 8 o.val.toNat, sc 1 (b2n o.armed), sc 8 o.thresh.toNat, sc 2 ((o.evq.map qnum).getD 0)]
    exec (.syncQuery h first count) s = .next (s.answer h 0x0802
      (Ans.ok s [listItem ((List.range' first count).map one), sc 4 (s.part h.part).syncLost.toNat,
        sc 4 (s.part h.part).syncRefused.toNat]) true))

/-- The tape and booking commands (R381, R375, R377, R378): TAPE_PPS_SEC with TAPE_SRC 1 names the second of the next edge;
TAPE_EVENT_SET fills and arms an entry and TAPE_EVENT_CANCEL disarms it; BOOK_WRITE writes a port's basting booking; BOOK_STITCH of ports
with no booking pending makes theirs pend for AT_NS and keeps its reply; BOOK_QUERY answers a booking. -/
def Obligations.TapeAndBookingCommandsReply : Prop :=
  (∀ (s : State) (h : Issue) (sec : Nat), s.admits h 0x0810 [sec] = true → s.straps.tapeSrc = 1 →
    let t := s.updTape (fun t => { t with ppsSec := some (BitVec.ofNat 64 sec) })
    exec (.tapePpsSec h sec) s = .next (t.answer h 0x0810 (Ans.ok t) true)) ∧
  (∀ (s : State) (h : Issue) (ev atNs period op index value : Nat), s.admits h 0x0811 [ev, atNs, period, op, index, value] = true →
    ev < 64 → period ≤ 1000000 → op ≤ 1 → (Ranges.item (s.part h.part).syncs index).isSome = true →
    let e : Event := { armed := true, atNs, period, set := op == 1, index, value := BitVec.ofNat 64 value }
    let t := s.updPart h.part (fun p => { p with events := AMap.set p.events ev e })
    exec (.tapeEventSet h ev atNs period op index value) s = .next (t.answer h 0x0811 (Ans.ok t) true)) ∧
  (∀ (s : State) (h : Issue) (ev : Nat), s.admits h 0x0812 [ev] = true → ev < 64 →
    ∃ t : State, exec (.tapeEventCancel h ev) s = .next (t.answer h 0x0812 (Ans.ok t) true) ∧ { t with parts := s.parts } = s ∧
      (AMap.get (t.part h.part).events ev {}).armed = false ∧ (∀ e, e ≠ ev → AMap.get (t.part h.part).events e {} =
        AMap.get (s.part h.part).events e {}) ∧ ∀ p, p ≠ h.part → t.part p = s.part p) ∧
  (∀ (s : State) (h : Issue) (port cycle : Nat) (bits : BitVec 4096), s.admits h 0x0820 [port, cycle, bits.toNat] = true → port < 32 →
    1 ≤ cycle → cycle ≤ 4096 →
    let t := s.updPort port (fun p => { p with bookBast := { cycle, bits := bits.toNat } })
    exec (.bookWrite h port cycle bits) s = .next (t.answer h 0x0820 (Ans.ok t) true)) ∧
  (∀ (s : State) (h : Issue) (at_ mask : Nat), s.admits h 0x0821 [at_, mask] = true → mask ≠ 0 →
    (∀ n ∈ portsOf mask, (s.port n).bookAt = none) → (s.part h.part).running.length < 8 →
    let t := s.each (portsOf mask) (fun n t => t.updPort n (fun p => { p with bookAt := some (at_, h) }))
    exec (.bookStitch h at_ mask) s = .next ((t.longStart h 0x0821).answer h 0x0821 { Ans.wait t with status := 21 } false)) ∧
  (∀ (s : State) (h : Issue) (port copy : Nat), s.admits h 0x0822 [port, copy] = true → port < 32 → copy ≤ 1 →
    let b := if copy = 0 then (s.port port).bookAct else (s.port port).bookBast
    exec (.bookQuery h port copy) s = .next (s.answer h 0x0822
      (Ans.ok s [sc 2 b.cycle, blkItem 512 b.bits, sc 1 (b2n (s.port port).bookSusp)]) true))

/-- The partition commands (R438, R439, R442, R443, R446, R448): PART_CREATE of a tenant partition whose counts and items are free makes it
ACTIVE with the clusters and units it names; of partition 0, once, replaces its allotment and adds them; PART_RESET of an ACTIVE partition
that is quiet, or with FORCE, begins its reset and keeps its reply; PART_DESTROY begins the teardown of one that holds an allotment and
answers OK for one that holds none; PART_QUERY answers the state first.
Where the spec leaves a point open, the model's own choice stands here: assumption log entries 9, 60. -/
def Obligations.PartitionCommandsReply : Prop :=
  (∀ (s : State) (h : Issue) (p q c pc w sy sh co k cx mask map : Nat),
    s.admits h 0x0900 [p, q, c, pc, w, sy, sh, co, k, cx, mask, map] = true → p < 64 → s.funcOn p = true →
    s.createWaits mask map = false → s.countBad p [q, c, pc, w, sy, sh, co, k, cx, mask, map] = none →
    (∀ c ∈ clustersOf mask, (s.clu c).st = 0 ∧ (s.clu c).owner = none) → s.unitBad (unitsOf map) = none →
    (1 ≤ p → (s.part p).held = false →
      ∃ t items, exec (.partCreate h p q c pc w sy sh co k cx mask map) s = .next (State.answer t h 0x0900 (Ans.ok t items) true) ∧
        (t.part p).st = 2 ∧ (t.part p).held = true ∧ (t.part p).clusters = sortUp (clustersOf mask) ∧
        (t.part p).units = sortUp (unitsOf map) ∧ (t.part p).wAct = 16 ∧ (t.part p).requireSig = false) ∧
    (p = 0 → (s.part 0).replaced = false →
      ∃ t items, exec (.partCreate h p q c pc w sy sh co k cx mask map) s = .next (State.answer t h 0x0900 (Ans.ok t items) true) ∧
        (t.part 0).replaced = true ∧ (t.part 0).clusters = sortUp ((s.part 0).clusters ++ clustersOf mask) ∧
        (t.part 0).units = sortUp ((s.part 0).units ++ unitsOf map))) ∧
  (∀ (s : State) (h : Issue) (p force : Nat), s.admits h 0x0901 [p, force] = true → 1 ≤ p → p < 64 → force ≤ 1 →
    s.rst.stage = 6 → (s.part p).st ≠ 5 → (s.part p).held = true → (s.part p).resetStep = 0 →
    (force = 0 → s.unquiesced p = none) →
    let t := s.updPart p (fun x => { x with resetFrom := x.resetFrom ++ [some h], st := 4, resetStep := 1 })
    exec (.partReset h p force) s = .next (t.owe h)) ∧
  (∀ (s : State) (h : Issue) (p : Nat), s.admits h 0x0902 [p] = true → 1 ≤ p → p < 64 → (s.part p).st ≠ 5 →
    (s.part p).destroy = none →
    ((s.part p).held = false → exec (.partDestroy h p) s = .next (s.answer h 0x0902 (Ans.ok s) true)) ∧
    ((s.part p).held = true → (s.part p).st ≠ 4 → (s.part h.part).running.length < 8 →
      let t := s.updPart p (fun x => { x with destroy := some h, st := 5, resetStep := 1 })
      exec (.partDestroy h p) s = .next ((t.longStart h 0x0902).answer h 0x0902 { Ans.wait t with status := 21 } false))) ∧
  (∀ (s : State) (h : Issue) (p : Nat), s.admits h 0x0903 [p] = true → p < 64 →
    ∃ items, exec (.partQuery h p) s = .next (s.answer h 0x0903 (Ans.ok s
      (sc 1 (if (s.part p).st = 2 && (s.func p).haltedBit then 3 else if (s.part p).st = 0 && s.funcOn p then 1 else (s.part p).st) :: items))
      true))

/-- The key, firmware and attestation commands (R457, R461, R464, R466): KEY_LOAD of a blob that unwraps to a key fills the slot and
KEY_CLEAR empties it, where no live connection names the slot; FW_UPDATE of a bundle that passes the boot chain's checks begins to write
the copy it names; ATTEST asks for a report.
Where the spec leaves a point open, the model's own choice stands here: assumption log entries 10, 63. -/
def Obligations.KeyAndFirmwareCommandsReply : Prop :=
  (∀ (s : State) (h : Issue) (p slot k : Nat) (blob : BitVec 384),
    s.admits h 0x0A00 [p, slot, blob.toNat] = true → (h.part = 0 ∨ h.part = p) → Ranges.item (s.part p).keys slot = some k →
    2 ≤ s.thimble.iterUp → s.slotNamed k = false →
    exec (.keyLoad h p slot blob none) s = .next (match Config.unwrap (Config.kek p s.thimble.kekEpoch.toNat) blob with
      | none => s.answer h 0x0A00 (Ans.bad s 0 2) true
      | some b => match keyOf b with
        | none => s.answer h 0x0A00 (Ans.bad s 0 3) true
        | some key =>
          let t : State := { s with keys := AMap.set s.keys k key }
          t.answer h 0x0A00 (Ans.ok t) true)) ∧
  (∀ (s : State) (h : Issue) (p slot k : Nat), s.admits h 0x0A01 [p, slot] = true → (h.part = 0 ∨ h.part = p) →
    Ranges.item (s.part p).keys slot = some k → s.slotNamed k = false →
    let t : State := { s with keys := AMap.erase s.keys k }
    exec (.keyClear h p slot) s = .next (t.answer h 0x0A01 (Ans.ok t) true)) ∧
  (∀ (s u : State) (h : Issue) (ctx va len slot act : Nat) (o : Outside) (bs : Bytes),
    s.admits h 0x0A10 [ctx, va, len, slot, act] = true → 1 ≤ len → len ≤ 2 ^ 25 → (slot = 0 ∨ slot = 1 ∨ slot = 255) → act ≤ 1 →
    (s.ctxOwner ctx).isSome = true → s.thimble.update = none → s.ctxRead 0 ctx va len [] o.bytes o.rd = (u, .inl bs) →
    (s.part h.part).running.length < 8 →
    let why := u.bundleReason (Bundle.parse bs) .ok
    let copy := if slot = 255 then (if u.thimble.preferB then 0 else 1) else slot
    let v := u.updThimble (fun t => { t with
      update := some (h, copy, act == 1), updateBuf := some (Bundle.parse bs), copyGood := AMap.set t.copyGood copy {} })
    let t := if u.rst.held = none then v.updRst (fun r => { r with nvBusy := some 2 }) else v
    exec (.fwUpdate h ctx va len slot act o) s = .next (if why = 0
      then (t.longStart h 0x0A10).answer h 0x0A10 { Ans.wait t with status := 21 } false
      else u.answer h 0x0A10 (Ans.bad u 0 why) true)) ∧
  (∀ (s : State) (h : Issue) (nonce : BitVec 256), s.admits h 0x0A20 [nonce.toNat] = true → h.indirect = true →
    s.thimble.idLost = false → s.thimble.reports.length < 5 → (s.part h.part).running.length < 8 →
    ∃ t : State, exec (.attest h nonce) s = .next ((t.longStart h 0x0A20).answer h 0x0A20 { Ans.wait t with status := 21 } false) ∧
      t.thimble.reports = s.thimble.reports ++ [(some h, 0, nonce)] ∧ { t with thimble := s.thimble } = s)

/-- The management, power, log and test commands (R481, R484, R486, R490, R496, R497, R499, R514, R526, R532): MGMT_CFG writes the port's
settings or a wake pattern; RESET_WARM and RESET_COLD start their resets and send no reply; POWER_STATE enters SLUMBER or DORMANT or leaves SLUMBER,
replying at the end; POWER_LIMIT sets the cap; FAULT_LOG_READ answers entries and with CLEAR empties the log; LOOPBACK_SET starts a
loop-back on an idle resource; BIST_RUN begins a test of an idle resource.
Where the spec leaves a point open, the model's own choice stands here: assumption log entry 67. -/
def Obligations.ManagementAndResetCommandsReply : Prop :=
  (∀ (s : State) (h : Issue) (mode ip mask gw port slot : Nat), s.admits h 0x0B00 [0, mode, ip, mask, gw, port, slot] = true →
    mode ≤ 1 → port ≠ 0 → (slot = 0xFFFF ∨ s.oobSlotOk slot = true) →
    let t := s.updMgmt (fun m => { m with
      mode := mode == 1, ip := BitVec.ofNat 32 ip, mask := BitVec.ofNat 32 mask, gw := BitVec.ofNat 32 gw
      oobPort := BitVec.ofNat 16 port, oobSlot := BitVec.ofNat 16 slot
      paused := mode == 1 && m.paused, backoff := !(mode == 1) && m.backoff })
    exec (.mgmtCfg h [0, mode, ip, mask, gw, port, slot]) s = .next (t.answer h 0x0B00 (Ans.ok t) true)) ∧
  (∀ (s : State) (h : Issue) (k en len mask pat : Nat), s.admits h 0x0B00 [2, k, en, len, mask, pat] = true → k < 8 → en ≤ 1 →
    1 ≤ len → len ≤ 128 →
    let w : Wake := { en := en == 1, len, mask := BitVec.ofNat 128 mask, pat := paramBytes 128 pat }
    let t := s.updMgmt (fun m => { m with wakes := AMap.set m.wakes k w })
    exec (.mgmtCfg h [2, k, en, len, mask, pat]) s = .next (t.answer h 0x0B00 (Ans.ok t) true)) ∧
  (∀ (s : State) (h : Issue), s.admits h 0x0B10 [] = true → s.alive = true → s.rst.held = none → s.rst.stage = 6 → s.rst.nvBusy = none →
    s.warmRefused = false →
    ∃ t : State, exec (.resetWarm h) s = .next (t.owe h) ∧ t.rst.stage = 1 ∧ t.rst.warm = true ∧ t.rst.lastCause = 3 ∧
      t.rst.warmCount = satAdd s.rst.warmCount 1 ∧ t.conns = [] ∧ t.runs = [] ∧ t.keys = [] ∧ t.devMem = s.devMem ∧ t.pending = s.pending) ∧
  (∀ (s : State) (h : Issue), s.admits h 0x0B11 [] = true → s.pins.powered = true → s.rst.nvBusy = none →
    ∃ t : State, exec (.resetCold h) s = .next (t.owe h) ∧ t.rst.stage = 0 ∧ t.rst.lastCause = 2 ∧ t.rst.warmCount = 0 ∧
      t.devidValid = false ∧ t.conns = [] ∧ t.keys = [] ∧ t.devMem = [] ∧ t.pending = s.pending) ∧
  (∀ (s : State) (h : Issue), s.admits h 0x0B12 [0] = true → s.power.state = 2 →
    let t := s.updPower (fun p => { p with state := 3, target := some 0, issue := some h })
    exec (.powerState h 0) s = .next (t.owe h)) ∧
  (∀ (s : State) (h : Issue) (st : Nat), s.admits h 0x0B12 [st] = true → (st = 2 ∨ st = 3) → s.power.state.toNat < 2 → s.quiet = true →
    ∃ t : State, exec (.powerState h st) s = .next (t.owe h) ∧
      t.power = { s.power with state := 3, target := some (BitVec.ofNat 8 st), issue := some h } ∧
      { t with power := s.power, ports := s.ports } = s ∧ ∀ n < 32, (s.port n).state ≠ 6 → (t.port n).els = true) ∧
  (∀ (s : State) (h : Issue) (w : Nat), s.admits h 0x0B13 [w] = true → 300 ≤ w → w ≤ 1100 →
    let t := s.updPower (fun p => { p with capW := BitVec.ofNat 16 w })
    exec (.powerLimit h w) s = .next (t.answer h 0x0B13 (Ans.ok t [sc 8 t.powerStat.toNat]) true)) ∧
  (∀ (s : State) (h : Issue) (first count c : Nat), s.admits h 0x0B20 [first, count, c] = true → h.indirect = true → c ≤ 1 →
    1 ≤ count → first + count ≤ 256 →
    let t := if c = 1 then s.updFaults (fun f => { f with fatal := [], others := [], othersNext := 64 }) else s
    exec (.faultLogRead h first count c) s = .next (t.answer h 0x0B20
      (Ans.ok t ((List.range' first count).map (fun e => (8, bytesLE 64 (s.faults.entry e).toNat)))) true)) ∧
  (∀ (s : State) (h : Issue) (kind index depth ms j : Nat), s.admits h 0x0B30 [kind, index, depth, ms] = true →
    lbIndex kind index = some j → 1 ≤ depth → depth ≤ lbDepths kind → 1 ≤ ms → ms ≤ 60000 → (AMap.get s.lb j {}).st ≠ 1 →
    s.lbIdle kind index depth = true →
    ∃ t : State, exec (.loopbackSet h kind index depth ms) s = .next (t.answer h 0x0B30 (Ans.ok t) true) ∧
      AMap.get? t.lb j = some { st := 1, depth := BitVec.ofNat 4 depth } ∧ ∀ k, k ≠ j → AMap.get? t.lb k = AMap.get? s.lb k) ∧
  (∀ (s : State) (h : Issue) (target index : Nat), s.admits h 0x0B31 [target, index] = true →
    (target = 0 ∧ index < 64 ∨ target = 1 ∧ index < 1 ∨ target = 2 ∧ index < 96 ∨ target = 3 ∧ index < 4) →
    s.bistIdle target index = true → (s.part h.part).running.length < 8 →
    let u : State := { s with nextId := s.nextId + 1, bist := AMap.set s.bist s.nextId (target, index, h) }
    let t := if target = 0 then u.updClu index (fun c => { c with bist := true }) else u
    exec (.bistRun h target index) s = .next ((t.longStart h 0x0B31).answer h 0x0B31 { Ans.wait t with status := 21 } false))

/-! ### Segments, transfers and memory: what happens by itself -/

/-- Drains, the segment cache, transfers and idle contexts (R55, R57, R58, R59, R61, R63, R64, R97, R107): SEG_DRAIN_END of a drain with
nothing left to wait for ends it with OK; DRAIN_FORCED of one past its limit resets the engines, fails their transfers and ends it with
status 22; SEG_CACHE_MISS_FILL ends a miss, its pair now the most recent, and its transfer goes on once it waits for no other; TRANSFER_PIECE of
a transfer whose pairs are cached and whose epochs stand issues its next piece; HOT_INTERVAL_END frees the context's slots and changes nothing
but counters, the slots and what it tells the host; BOBBIN_REFILL makes the context resident and takes up what waited; SEGMENT_CONN_IDLE
destroys a segment connection without traffic.
Where the spec leaves a point open, the model's own choice stands here: assumption log entries 3, 33. -/
def Obligations.DrainAndTransferEventsAct : Prop :=
  (∀ (s : State) (ctx : Nat) (d : Drain), (s.ctx ctx).drain = some d → s.undrained ctx d.segs = [] →
    let u := s.updCtx ctx (fun c => { c with drain := none })
    let t := u.answer d.issue (if d.isStitch then 0x102 else 0x103) (Ans.ok u) true
    exec (.segDrainEnd ctx) s = .next (segResume ctx (t.ctx ctx).waiting.length t)) ∧
  (∀ (s : State) (ctx : Nat) (d : Drain), (s.ctx ctx).drain = some d → s.undrained ctx d.segs ≠ [] →
    ∃ fs : List FPend, fs.map (fun f => (f.kind, f.idx)) = ((s.undrained ctx d.segs).map (fun e => xferBlock e.2)).dedup ∧
      (∀ f ∈ fs, f.cls = 3 ∧ f.reason = 1) ∧
      exec (.drainForced ctx) s = .next (((s.eachOf fs (fun f t => t.fault f)).each ((s.undrained ctx d.segs).map Prod.fst)
        (fun id t => match AMap.get? t.xfers id with
          | none => t
          | some x => if x.ended then t else (t.updXfer id (fun y => { y with unacc := 0, flying := 0 })).xferFail id)).drainEnd ctx 22)) ∧
  (∀ (s : State) (ctx seg x : Nat), (ctx, seg, x) ∈ s.segMiss.take 64 →
    ∃ t : State, exec (.segCacheMissFill ctx seg x) s = .next t ∧ t.segMiss = s.segMiss.erase (ctx, seg, x) ∧
      t.segCache = ((ctx, seg) :: s.segCache.filter (· != (ctx, seg))).take 4096 ∧
      ((∀ m ∈ t.segMiss, m.2.2 ≠ x) → ∀ y, AMap.get? s.xfers x = some y → AMap.get? t.xfers x = some { y with missing := false }) ∧
      { t with segMiss := s.segMiss, segCache := s.segCache, xfers := s.xfers } = s) ∧
  (∀ (s : State) (id : Nat) (x y : Xfer) (errs : WordErrs), AMap.get? s.xfers id = some x → x.stopped = false → x.ended = false →
    x.missing = false → s.xferTurn id x = true →
    let u := (if x.xlate then s.xlateNow id x else s).nextRow id
    AMap.get? u.xfers id = some y → y.stopped = false → y.done < y.len → u.xferCut y = false →
    (∀ v ∈ y.vas, (y.ctx, v.1) ∈ u.segCache ∧ u.segEpoch y.ctx v.1 = v.2.2) → u.hostHeld y = false →
    (u.injHeld = false ∨ 128 ≤ y.eng) →
    exec (.transferPiece id errs) s = .next ((u.eachOf y.vas (fun v t => t.segCached y.ctx v.1)).issuePiece id y errs)) ∧
  (∀ (s : State) (ctx : Nat), ∃ t : State, exec (.hotIntervalEnd ctx) s = .next t ∧
    t.hot = s.hot.filter (fun e => e.1.1 != ctx) ∧ { t.beyond with ctxs := s.ctxs, hot := s.hot } = s.beyond) ∧
  (∀ (s : State) (conn : Nat), (s.conn conn).st ≠ 0 → (s.conn conn).refill = true →
    let c := s.conn conn
    let u := (if c.resident then s else s.bobbinRoom).updConn conn (fun c => { c with resident := true, refill := false, staged := [] })
    let v := (u.eachOf c.staged (fun q t => t.rxHere conn q.1 q.2.1 q.2.2)).updConn conn (fun c => { c with waitD := [] })
    exec (.bobbinRefill conn false) s = .next (v.eachOf c.waitD (fun w t =>
      if (t.conn conn).st = 2 then t.sendNow conn w.1 w.2.1 w.2.2.1 w.2.2.2
      else t.endAtOnce conn { op := w.2.2.2, d := w.2.2.1, q := w.1, work := w.2.1 } 16))) ∧
  (∀ (s : State) (conn : Nat), (s.conn conn).seg = true → (s.conn conn).st ≠ 0 → (s.conn conn).tx = [] → (s.conn conn).rx = [] →
    ∃ t : State, exec (.segmentConnIdle conn) s = .next t ∧ AMap.get? t.conns conn = none)

/-- Memory's own events (R68, R79-R82, R86, R87, R90, R91): SCRUB_LINE reads the next line of a channel in use and moves on;
ROW_REPAIR of a row whose granules have moved off forgets its errors and takes a spare row; FRAME_RETIRED forgets the row; FREE_FRAME_AVAILABLE
takes up the oldest repair or retirement that waits; CHANNEL_FAILURE retires a channel; EVACUATION_END ends the oldest evacuation of its tier;
TIER_EPOCH_END starts the counts again and makes the basting block active; GRANULE_MOVE_DONE points the map entry at the destination, a
swap's other entry at the source, and ends the move; MEMINIT_DONE sets the bit.
Where the spec leaves a point open, the model's own choice stands here: assumption log entries 3, 9. -/
def Obligations.MemoryEventsAct : Prop :=
  (∀ (s : State) (tier chan : Nat) (errs : WordErrs), tier < 2 → chan < 48 → s.power.scrubPaused = false → s.power.migHalved = false →
    (s.tripleOf (tier == 1) chan).isSome = true →
    ∃ t : State, exec (.scrubLine tier chan errs) s = .next t ∧
      AMap.get t.mem.scrubPos (chanKey (tier == 1) chan) 0 = (AMap.get s.mem.scrubPos (chanKey (tier == 1) chan) 0 + 1) % 402653184 ∧
      t.devMem = s.devMem) ∧
  (∀ (s u : State) (row : Nat), (AMap.get s.mem.rows row {}).need = true → s.spareLeft row = true → s.power.scrubPaused = false →
    s.clearRow row = (u, true) →
    ∃ t : State, exec (.rowRepair row) s = .next t ∧ t.mem = { u.mem with
      rows := AMap.erase u.mem.rows row
      spares := AMap.upd u.mem.spares (bankOfRow row) 0 (· + 1)
      chans := AMap.upd u.mem.chans (chanOfRow row) {} (fun c => { c with repaired := c.repaired + 1 })
      waiting := u.mem.waiting.filter (fun w => w != (0, row)) } ∧ { t with mem := u.mem }.beyond = u.beyond) ∧
  (∀ (s u : State) (row : Nat), (AMap.get s.mem.rows row {}).need = true → s.spareLeft row = false → s.power.scrubPaused = false →
    s.clearRow row = (u, true) →
    ∃ t : State, exec (.frameRetired row) s = .next t ∧ t.mem.rows = AMap.erase u.mem.rows row ∧ { t with mem := u.mem }.beyond = u.beyond) ∧
  (∀ (s : State) (tier k row : Nat) (rest : List (Nat × Nat)), s.mem.waiting = (k, row) :: rest →
    (s.freeFrame (tier == 1)).isSome = true →
    exec (.freeFrameAvailable tier) s = .next (if k = 0 then s.repairRow row else s.retireRow row)) ∧
  (∀ (s : State) (tier chan : Nat), tier < 2 → chan < 48 → (AMap.get s.mem.chans (chanKey (tier == 1) chan) {}).st ≠ 2 →
    ∃ t : State, exec (.channelFailure tier chan) s = .next t ∧ (AMap.get t.mem.chans (chanKey (tier == 1) chan) {}).st = 2 ∧
      { t with mem := s.mem }.beyond = s.beyond) ∧
  (∀ (s : State) (tier : Nat) (lost : Nats) (e : Evac), s.mem.evacs.find? (fun e => e.far == (tier == 1)) = some e →
    s.power.scrubPaused = false →
    ∃ t : State, exec (.evacuationEnd tier lost) s = .next t ∧ t.mem.evacs = s.mem.evacs.erase e ∧ t.devMem = s.devMem) ∧
  (∀ (s : State), ∃ t : State, exec .tierEpochEnd s = .next t ∧ t.mem.counts = [] ∧ t.mem.tierAct = s.mem.tierBast ∧
    { t with mem := s.mem } = s) ∧
  (∀ (s : State) (g : Nat) (m : Mig) (src : Frame3), AMap.get? s.mem.migs g = some m → AMap.get? s.mem.gmap g = some src →
    s.hasBad g = false → (∀ v, m.swap = some v → v ≠ g ∧ s.hasBad v = false) →
    ∃ t : State, exec (.granuleMoveDone g false) s = .next t ∧ AMap.get? t.mem.gmap g = some m.dst ∧
      (∀ v, m.swap = some v → AMap.get? t.mem.gmap v = some src) ∧ AMap.get? t.mem.migs g = none ∧ t.devMem = s.devMem) ∧
  (∀ (s : State), 3 ≤ s.rst.stage.toNat → s.rst.stage ≠ 7 →  s.mem.init = false →
    ∃ t : State, exec .meminitDone s = .next t ∧ t.mem.init = true)

/-! ### Descriptors -/

/-- The descriptor rows that send on a connection, with their OP (R101). -/
def Sys2Proof.Machine.sendRows : List (Nat × (Nat → Nat → Desc → Instr)) :=
  [(1, .write), (2, .writeSig), (3, .read), (4, .send), (5, .fetchAdd), (6, .cmpSwap), (7, .syncAdd), (8, .invoke)]

/-- A descriptor at its queue takes the next model number, and its queue works on it. -/
def Sys2Proof.Machine.State.taken (s : State) (k : Nat) : State :=
  { s with nextId := s.nextId + 1 }.updQueue k (fun u => { u with work := u.work ++ [s.nextId] })

/-- Descriptors as fetched (R94, R98, R101, R104, R105, R310, R325, R414, R421): a well-formed send descriptor of a READY, resident connection is
taken and carried out; of one that is not READY, it completes FLUSHED; of one whose context is away, it waits and the context is called back; RECV_BUFFER_POST
puts its buffer at the end of the receive queue; COPY becomes a transfer of its queue's cluster, its ends translated in its turn; LAUNCH and
COLL_START wait in their queue's order.
Where the spec leaves a point open, the model's own choice stands here: assumption log entry 4. -/
def Obligations.DescriptorsAreTaken : Prop :=
  (∀ e ∈ sendRows, ∀ (s : State) (p q : Nat) (d : Desc), s.queueKind p q 1 = true →
    s.sendMalformed p q (withOp d e.1) = false →
    let w := withOp d e.1
    let cid := fld w 87 64
    ((s.conn cid).st = 2 → (s.conn cid).resident = true → (s.conn cid).waitD = [] →
      exec (e.2 p q d) s = .next ((s.taken (qkey p q)).sendNow cid (qkey p q) s.nextId w (BitVec.ofNat 8 (fld w 23 16)))) ∧
    ((s.conn cid).st ≠ 2 → exec (e.2 p q d) s = .next ((s.taken (qkey p q)).endAtOnce cid
      { op := BitVec.ofNat 8 (fld w 23 16), d := w, q := qkey p q, work := s.nextId } 16)) ∧
    ((s.conn cid).st = 2 → (s.conn cid).resident = false → exec (e.2 p q d) s = .next ((s.taken (qkey p q)).updConn cid (fun c => { c with
      waitD := c.waitD ++ [(qkey p q, s.nextId, w, BitVec.ofNat 8 (fld w 23 16))], refill := true
      misses := if c.refill then c.misses else c.misses + 1 })))) ∧
  (∀ (s : State) (p q : Nat) (d : Desc), s.queueKind p q 2 = true → fld d 15 12 = 2 → fld d 7 0 = 1 → fld d 511 240 = 0 →
    fld d 95 16 = 0 → fld d 11 8 = 0 → fld d 127 96 ≤ 2 ^ 30 →
    let b : RBuf := { va := BitVec.ofNat 64 (fld d 239 192), len := fld d 127 96, wrId := BitVec.ofNat 64 (fld d 191 128)
                      work := s.nextId, q := qkey p q }
    exec (.recvBufferPost p q d) s = .next { s.taken (qkey p q) with rbufs := AMap.upd s.rbufs (qkey p q) [] (· ++ [b]) }) ∧
  (∀ (s : State) (p q : Nat) (d : Desc), s.queueKind p q 5 = true →
    let w := withOp d 1
    fld w 15 12 = 5 → fld w 11 8 = 0 → fld w 7 0 = 1 → fld w 511 448 = 0 → fld w 351 320 = 0 → fld w 279 270 = 0 → fld w 255 192 = 0 →
    fld w 127 27 = 0 → fld w 24 24 = 0 → fld w 269 256 = 0x3FFF →
    let u := s.queue (qkey p q)
    let x : Xfer := {
      who := .copyQ p q, eng := s.copyEngine ((s.part p).clusters.getD u.cluster 0), part := p, ctx := u.ctx
      src := .va 0 (fld w 447 400) 0 0, dst := .va 0 (fld w 399 352) 0 0, len := fld w 319 280
      wrId := BitVec.ofNat 64 (fld w 191 128), noCqe := bitAt w 26, fence := bitAt w 25, work := s.nextId, xlate := true }
    let v : State := { s.taken (qkey p q) with nextId := s.nextId + 2, xfers := AMap.set s.xfers (s.nextId + 1) x }
    (v.xferTurn (s.nextId + 1) x = false → exec (.copy p q d) s = .next v) ∧
    (v.xferTurn (s.nextId + 1) x = true → exec (.copy p q d) s = .next ((v.xlateNow (s.nextId + 1) x).xferSettle (s.nextId + 1)))) ∧
  (∀ (s : State) (p q : Nat) (d : Desc), s.queueKind p q 4 = true →
    let w := withOp d 1
    fld w 15 12 = 4 → fld w 11 8 = 0 → fld w 7 0 = 1 → fld w 103 95 = 0 → fld w 71 24 = 0 →
    exec (.launch p q d) s = .next { s.taken (qkey p q) with
      launches := s.launches ++ [{ q := qkey p q, work := s.nextId, part := p, launch := some w }] }) ∧
  (∀ (s : State) (p q : Nat) (d : Desc), s.queueKind p q 4 = true →
    let w := withOp d 2
    fld w 15 12 = 4 → fld w 11 8 = 0 → fld w 7 0 = 1 → fld w 407 400 = 0 → fld w 303 192 = 0 → fld w 127 70 = 0 → fld w 63 24 = 0 →
    (Ranges.item (s.part p).colls (fld w 69 64)).isSome = true →
    let t : State := { s.taken (qkey p q) with
      launches := s.launches ++ [{ q := qkey p q, work := s.nextId, part := p, coll := some w }] }
    exec (.collStart p q d) s = .next (startHeads (t.launches.length + 1) t))

/-- A malformed descriptor (R421, R422): partition 0's ADMIN aside, it sets the partition's HALTED with the queue and the slot, and one QUEUE
record is posted; nothing else changes but what tells the host. -/
def Obligations.MalformedEntryHaltsItsPartition : Prop :=
  ∀ (s : State) (p q slot first8 : Nat), ¬ (p = 0 ∧ q = 0) →
    let t := s.malformed p q slot first8
    (t.beyond = s.beyond ∧ ∀ k, (t.part k).kept = (s.part k).kept) ∧ t.faults.nextSeq = s.faults.nextSeq + 1 ∧
    t = (s.updFunc p (fun f => { f with
      haltedBit := true, haltQ := BitVec.ofNat 16 q, haltSlot := BitVec.ofNat 16 slot })).postRec
        { cls := 9, reason := 1, part := some p, d0 := q + slot * 2 ^ 16, d1 := first8, mgr := true }

/-! ### Packets for this adapter -/

/-- The packet rows that a connection may receive, with their opcode and whether they carry word errors of what they read (R128). -/
def Sys2Proof.Machine.packetRows : List (Nat × Bool × (Nat → Pkt → WordErrs → Instr)) :=
  [(1, false, fun n p _ => .writePacket n p none), (2, false, fun n p _ => .writeSigPacket n p), (3, true, .readReq),
   (4, false, fun n p _ => .sendPacket n p), (5, true, .fetchAddPacket), (6, true, .cmpSwapPacket), (7, false, fun n p _ => .syncAddPacket n p),
   (8, false, fun n p _ => .invokePacket n p), (0x40, false, fun n p _ => .readResp n p), (0x41, false, fun n p _ => .atomicResp n p),
   (0x42, false, fun n p _ => .ack n p), (0x43, false, fun n p _ => .nak n p), (0x44, false, fun n p _ => .skip n p),
   (0x45, false, fun n p _ => .errorNotice n p), (0x46, false, fun n p _ => .noticeAck n p)]

/-- A packet of an opcode is accepted for this adapter, well-formed and whole, and its connection is READY, resident, in clear and of the
packet's generation (R142, R144, R147). -/
def Sys2Proof.Machine.lands (s u : State) (n op : Nat) (p : Pkt) : Prop :=
  p.proto = 0 ∧ p.op = op ∧ s.takeHere n p = (u, true) ∧ u.isolated 2 (Config.engineOf p.conn) = false ∧ pktMalformed p = false ∧
  p.enc = false ∧ p.crcOk = true ∧ (op = 0x43 → u.nakIsOwn p = true) ∧ (u.conn p.conn).st = 2 ∧ (u.conn p.conn).ud = false ∧
  (u.conn p.conn).encrypt = false ∧ (u.conn p.conn).resident = true ∧ (u.conn p.conn).staged = [] ∧ p.gen = (u.gen p.conn).toNat

/-- The connection of a packet is the most recent, and not idle. -/
def Sys2Proof.Machine.State.reached (u : State) (p : Pkt) : State :=
  (u.touch p.conn).updConn p.conn (fun c => { c with idle := false })

/-- A packet of a READY connection is taken up by its kind (R133, R134, R140, R121, R131): a request or SKIP at the receiver's side, an ACK, a
NAK, a response and a notice at the sender's. A UD_SEND goes to its endpoint (R143).
Where the spec leaves a point open, the model's own choice stands here: assumption log entry 28. -/
def Obligations.PacketsReachTheirConnection : Prop :=
  (∀ e ∈ packetRows, ∀ (s u : State) (n : Nat) (p : Pkt) (errs : WordErrs), lands s u n e.1 p → u.host.gone = false →
    let v := u.reached p
    let now : BitVec 32 := BitVec.ofNat 32 u.now.toNat
    exec (e.2.2 n p errs) s = .next (
      if e.1 ≤ 8 ∨ e.1 = 0x44 then v.rxRequest p.conn p (if e.2.1 then errs else []) now
      else if e.1 = 0x42 then v.rxAck p.conn p
      else if e.1 = 0x43 then v.rxNak p.conn p
      else if e.1 = 0x40 ∨ e.1 = 0x41 then v.rxResp p.conn p
      else if e.1 = 0x46 then v
      else if (v.conn p.conn).ackSeen.contains (BitVec.ofNat 32 p.wkey) then v
      else ((v.updConn p.conn (fun x => { x with ackSeen := (BitVec.ofNat 32 p.wkey :: (v.conn p.conn).ackSeen).take 64 })).connError
        p.conn 15 none true).sendNotice p.conn 0x46 (BitVec.ofNat 8 (fld p.hdr 43 36)))) ∧
  (∀ (s u : State) (n : Nat) (p : Pkt), p.proto = 0 → p.op = 9 → s.takeHere n p = (u, true) →
    u.isolated 2 (Config.engineOf p.conn) = false → pktMalformed p = false → p.enc = false → p.crcOk = true →
    (u.conn p.conn).resident = true → (u.conn p.conn).staged = [] →
    exec (.udSend n p) s = .next (u.rxUd p.conn p))

/-- A PSN that is new, in range and of a message not yet settled, at a connection with no data handler (R109, R131, R136, R313). -/
def Sys2Proof.Machine.fresh (v : State) (p : Pkt) : Prop :=
  let c := v.conn p.conn
  (p.psn - c.c).toNat < 256 ∧ p.psn ∉ c.seen ∧ serLt p.msn c.rxMsn = false ∧ (c.rxMsg p.msn p.op).settled = none ∧
  p ∉ (c.rxMsg p.msn p.op).waitP ∧ (∀ q ∈ (c.rxMsg p.msn p.op).hq, q.psn ≠ p.psn) ∧ v.handlerOf p.conn 1 = none ∧
  v.handlerBad p.conn = false ∧ (p.ordered = true → c.earlierDone p.msn = true)

/-- What a new request does at a READY connection (R101, R103, R105, R109, R117, R131, R141): a WRITE or WRITE_SIG that passes its window's checks is placed; a
READ_REQ or an atomic is recorded to be served in its turn; a SYNC_ADD is counted; a SEND goes to the receive queue's buffers; an INVOKE waits for
a run of its handler, or without one settles its message; a SKIP settles its message with the status it carries. Then the connection moves on.
Where the spec leaves a point open, the model's own choice stands here: assumption log entry 29. -/
def Obligations.NewRequestsTakeEffect : Prop :=
  ∀ (v : State) (p : Pkt) (errs : WordErrs) (now : BitVec 32), fresh v p →
    let c := v.conn p.conn
    let w := (v.updConn p.conn (fun c => { c with tracker := c.tracker || false })).rxNote p.conn p now
    let m := c.rxMsg p.msn p.op
    ((p.op = 1 ∨ p.op = 2) → w.winCheck p.conn p = .ok →
      v.rxRequest p.conn p errs now = (w.rxWrite p.conn p).rxSettle p.conn p.isLast) ∧
    ((p.op = 3 ∨ p.op = 5 ∨ p.op = 6) → w.winCheck p.conn p = .ok →
      v.rxRequest p.conn p errs now = ((w.putRx p.conn { m.counted p 0 none with reqs := m.reqs ++ [(p, errs)], served := false }).rxRecord
        p.conn p).rxSettle p.conn p.isLast) ∧
    (p.op = 7 → w.winCheck p.conn p = .ok →
      v.rxRequest p.conn p errs now = ((w.putRx p.conn (m.counted p 0 (w.sigOf p))).rxRecord p.conn p).rxSettle p.conn p.isLast) ∧
    (p.op = 4 → v.rxRequest p.conn p errs now = (w.rxSend p.conn p).rxSettle p.conn p.isLast) ∧
    (p.op = 8 → v.rxRequest p.conn p errs now = ((if (w.handlerOf p.conn 0).isSome then
      w.rxHold p.conn p (fun m => { m with hq := m.hq ++ [p] }) else w.settleRx p.conn p 9 0).rxSettle p.conn p.isLast)) ∧
    (p.op = 0x44 → v.rxRequest p.conn p errs now = ((w.putRx p.conn { m with
      settled := some (BitVec.ofNat 8 (fld p.hdr 43 36)), waitP := [], hq := [], reqs := [] }).rxRecord p.conn p).rxSettle p.conn false)

/-! ### The transport's timers, the schedulers and the end-to-end count -/

/-- The transport's timers (R121, R133, R137, R139, R140, R142, R153): ACK_DELAY_TIMER sends the ACK that is owed; CBUSY_HOLD_EXPIRY ends the hold and sends the
refused PSNs again; CBUSY_LIMIT fails the connection with RETRY_EXCEEDED; NO_RECV_RETRY sends the refused packet again; RTO_EXPIRY fails the connection
once its oldest PSN has been sent again seven times, and before that cuts the window and sends what has timed out; ERROR_NOTICE_REPEAT sends the notice
again, seven times at most.
Where the spec leaves a point open, the model's own choice stands here: assumption log entries 3, 26. -/
def Obligations.TransportTimersAct : Prop :=
  (∀ (s : State) (c : Nat), (s.conn c).st = 2 → (s.conn c).uncovered = true → exec (.ackDelayTimer c) s = .next (s.ackNow c)) ∧
  (∀ (s : State) (c : Nat), (s.conn c).st = 2 → (s.conn c).holdTo.isSome = true →
    exec (.cbusyHoldExpiry c) s = .next (((((s.updConn c (fun c => { c with holdTo := none })).eachOf
      ((s.conn c).outs.filter (fun o => o.refused == 1)) (fun o t => t.resend c o false)).pump c).admitReady c))) ∧
  (∀ (s : State) (c psn : Nat) (o : TxPsn), (s.conn c).st = 2 →
    (s.conn c).outs.find? (fun o => o.psn.toNat == psn && o.busySince.isSome) = some o →
    exec (.cbusyLimit c psn) s = .next (s.connError c 14 (some o.msn) true)) ∧
  (∀ (s : State) (c : Nat), (s.conn c).st = 2 → (s.conn c).recvHold.isSome = true →
    exec (.noRecvRetry c) s = .next ((s.updConn c (fun c => { c with recvHold := none })).eachOf
      ((s.conn c).outs.filter (fun o => o.refused == 2)) (fun o t =>
        (t.updMsg c o.msn (fun m => { m with tries := m.tries + 1 })).resend c o false))) ∧
  (∀ (s : State) (c : Nat) (o : TxPsn) (l : List TxPsn), (s.conn c).st = 2 → (s.conn c).ud = false → (s.conn c).holdTo = none →
    timeoutList (s.conn c) s.clockNs = o :: l →
    (7 ≤ o.tries → exec (.rtoExpiry c) s = .next (s.connError c 14 (some o.msn) true)) ∧
    (o.tries < 7 → exec (.rtoExpiry c) s = .next ((s.lossCut c 1 2).eachOf ((o :: l).filter (fun o => decide (o.tries < 7))) (fun o t =>
      ((((t.cntTp 9 1).onIf (o.pkt.counted && o.pkt.dest != t.myId) (fun u => u.updTp (fun x => { x with
        e2e := AMap.upd x.e2e o.pkt.dest {} (fun e => { e with lost := e.lost + o.pkt.size }) }))).updConn c
          (fun c => { c with skipEnt := (o.ent, 256) :: c.skipEnt.filter (fun e => e.1 != o.ent) })).resend c o true)))) ) ∧
  (∀ (s : State) (c : Nat), (s.conn c).st = 3 → (s.conn c).noticeAcked = false → 1 ≤ (s.conn c).notices → (s.conn c).notices < 8 →
    exec (.errorNoticeRepeat c) s = .next
      ((s.updConn c (fun c => { c with notices := c.notices + 1 })).sendNotice c 0x45 (s.conn c).errStatus))

/-- The schedulers and the end-to-end count (R158, R165, R166, R167, R169, R179): EGRESS_PACKET_SELECT lets the packet leave that the
scheduler picks, after control words and a replay; E2E_RETURN from a new incarnation starts the count towards the sender anew, and from the
known one advances it; E2E_RETURN_TIMER returns what was accepted; E2E_STALE takes bytes in flight out of the count; QUEUE_SAMPLE adds one sample to
each of the 192 histograms and changes nothing else.
Where the spec leaves a point open, the model's own choice stands here: assumption log entries 3, 16, 85. -/
def Obligations.SchedulersAndReturnsAct : Prop :=
  (∀ (s : State) (n vc : Nat) (src : Nat) (q : QPkt), n ≤ 32 → vc ≤ 3 →
    ((s.port n).replayFrom.isSome && !(s.port n).waitFack) = false →
    let u := s.admitAll.sendFirst n
    u.vcTurn n vc = true → u.pick n vc = some (src, q) →
    exec (.egressPacketSelect n vc none) s = .next ((u.depart n vc src q).udLeft q)) ∧
  (∀ (s u : State) (n : Nat) (p : Pkt), p.proto = 2 → fld p.hdr 127 120 = 1 → s.takeHere n p = (u, true) → fld p.fab 89 88 = 0 →
    fld p.fab 50 48 = 0 → p.flen = 16 → p.payload = [] → p.crcOk = true →
    let acc : BitVec 48 := BitVec.ofNat 48 (fld p.hdr 95 48)
    let inc : BitVec 16 := BitVec.ofNat 16 (fld p.hdr 47 32)
    let e := u.e2eOf p.src
    let adv := (acc - e.raw).toNat
    (e.inc ≠ some inc → exec (.e2eReturn n p) s = .next ((u.updTp (fun t => { t with
      e2e := AMap.set t.e2e p.src { sent := 0, acc := 0, lost := 0, raw := acc, inc := some inc } })).admitAll)) ∧
    (e.inc = some inc → 0 < adv → adv < 2 ^ 47 → exec (.e2eReturn n p) s = .next ((u.updTp (fun t => { t with
      e2e := AMap.set t.e2e p.src { e with acc := e.acc + adv, raw := acc } })).admitAll))) ∧
  (∀ (s : State) (src : Nat), (AMap.get s.tp.e2eR src {}).unret ≠ 0 → exec (.e2eReturnTimer src) s = .next (s.sendReturn src)) ∧
  (∀ (s : State) (dest : Nat), s.inflight dest ≠ 0 → exec (.e2eStale dest) s = .next
    (((s.updTp (fun t => { t with e2e := AMap.upd t.e2e dest {} (fun e => { e with sent := e.acc + e.lost }) })).cntCc 5 1).admitAll)) ∧
  (∀ (s : State), ∃ t : State, exec .queueSample s = .next t ∧ { t with tp := { t.tp with hist := s.tp.hist } } = s ∧
    ∀ n < 192, AMap.get t.tp.hist n {} = (AMap.get s.tp.hist n {}).add (s.sampled n) s.now.toNat)

/-! ### Links, ports and optics -/

/-- Flits (R175, R178, R180, R182, R184, R186, R187): DATA_FLIT_RX on a running port drops a bad flit, asks once for a retry of a flit out of order
on a row or column port, and takes every other flit into its slot; IDLE_FLIT_RX drops a bad flit and obeys the STOP bits of a good one. -/
def Obligations.FlitsAreTaken : Prop :=
  (∀ (s : State) (n : Nat) (f : Flit), n < 32 → (s.port n).state = 3 ∨ (s.port n).state = 4 → flitBad f true (s.creditMode n) = true →
    exec (.dataFlitRx n f) s = .next (s.badFlit n)) ∧
  (∀ (s : State) (n : Nat) (f : Flit), n < 32 → (s.port n).state = 3 ∨ (s.port n).state = 4 → flitBad f true (s.creditMode n) = false →
    s.creditMode n = true → fld f.head 15 0 = (s.port n).rxSeq.toNat →
    AMap.get (s.port n).slots (fld f.head 29 28) 0 < (if fld f.head 29 28 = 3 then 256 else 1280) →
    exec (.dataFlitRx n f) s = .next (s.takeFlit n (fld f.head 29 28) f)) ∧
  (∀ (s : State) (n : Nat) (f : Flit), n < 32 → (s.port n).state = 3 ∨ (s.port n).state = 4 → flitBad f true (s.creditMode n) = false →
    s.creditMode n = false → (s.rowCol n = true → fld f.head 15 0 = (s.port n).rxSeq.toNat) →
    (s.rowCol n = false → (s.port n).skipTo.contains (fld f.head 29 28) = true → fld f.head 27 23 ≠ 31) →
    exec (.dataFlitRx n f) s =
      .next ((s.updPort n (fun p => { p with stopRx := BitVec.ofNat 4 (fld f.head 21 18) })).takeFlit n (fld f.head 29 28) f)) ∧
  (∀ (s : State) (n : Nat) (f : Flit), n < 32 → (s.port n).state = 3 ∨ (s.port n).state = 4 → flitBad f true (s.creditMode n) = false →
    s.creditMode n = true → fld f.head 15 0 ≠ (s.port n).rxSeq.toNat →
    ∃ t : State, exec (.dataFlitRx n f) s = .next t ∧ s.onlyPort t n { s.port n with
      discarding := true, words := (s.port n).words ++ (if (s.port n).discarding then [] else [(s.port n).retryWord]) }) ∧
  (∀ (s : State) (n : Nat) (f : Flit), n < 32 → (s.port n).state = 3 ∨ (s.port n).state = 4 → flitBad f false (s.creditMode n) = true →
    exec (.idleFlitRx n f) s = .next (s.badFlit n)) ∧
  (∀ (s : State) (n : Nat) (f : Flit), n < 32 → (s.port n).state = 3 ∨ (s.port n).state = 4 → flitBad f false (s.creditMode n) = false →
    s.creditMode n = false → ∃ t : State, exec (.idleFlitRx n f) s = .next t ∧
      s.onlyPort t n { s.port n with stopRx := BitVec.ofNat 4 (fld f.head 21 18) })

/-- Control words received (R178, R180, R181, R185, R186, R188): CREDIT adds what was freed since the last; FACK of a flit in the replay buffer
drops it and all before it; RETRY_REQ of a flit in the replay buffer starts a replay there, and the eighth in a row makes the link retrain; LOOP_PING is echoed with
its cookie; LOOP_ECHO keeps the largest loop time; MODE_REQ is answered and starts the change; MODE_ACK ends it.
Where the spec leaves a point open, the model's own choice stands here: assumption log entry 30. -/
def Obligations.ControlWordsAct : Prop :=
  (∀ (s : State) (n : Nat) (w : BitVec 64), n < 32 → s.creditMode n = true → (s.port n).state = 3 →
    let val (vc : Nat) : BitVec 14 := BitVec.ofNat 14 (fld w (55 - 14 * vc) (42 - 14 * vc))
    let up (vc : Nat) : Nat := (s.port n).creditsOf vc + (val vc - AMap.get (s.port n).creditRx vc 0).toNat
    (∀ vc < 4, up vc ≤ (if vc = 3 then 256 else 1280)) →
    ∃ t : State, exec (.credit n w) s = .next t ∧ { t with ports := s.ports } = s ∧ (∀ m, m ≠ n → t.port m = s.port m) ∧
      ∀ vc < 4, (t.port n).creditsOf vc = up vc ∧ AMap.get (t.port n).creditRx vc 0 = val vc) ∧
  (∀ (s : State) (n : Nat) (w : BitVec 64) (a b : List (BitVec 16)) (f : BitVec 16), n < 32 → s.rowCol n = true →
    (s.port n).state = 3 ∨ (s.port n).state = 4 → f = BitVec.ofNat 16 (fld w 15 0) → (s.port n).replay = a ++ f :: b → f ∉ a → (s.port n).waitFack = false →
    (s.port n).replayFrom = none →
    ∃ t : State, exec (.fack n w) s = .next t ∧ s.onlyPort t n { s.port n with
      replay := b, replayEnd := (s.port n).replayEnd.filter b.contains }) ∧
  (∀ (s : State) (n : Nat) (w : BitVec 64), n < 32 → s.rowCol n = true → (s.port n).state = 3 ∨ (s.port n).state = 4 →
    BitVec.ofNat 16 (fld w 15 0) ∈ (s.port n).replay → (s.port n).replayFrom = none → (s.port n).retrySame = 0 →
    ∃ t : State, exec (.retryReq n w) s = .next t ∧ (t.port n).replayFrom = some (BitVec.ofNat 16 (fld w 15 0)) ∧
      (t.port n).replay = (s.port n).replay ∧ (∀ m, m ≠ n → t.port m = s.port m) ∧ { t with ports := s.ports } = s) ∧
  (∀ (s : State) (n : Nat) (w : BitVec 64), n < 32 → s.rowCol n = true → (s.port n).state = 3 ∨ (s.port n).state = 4 →
    7 ≤ (s.port n).retrySame → (s.port n).retryLast = BitVec.ofNat 16 (fld w 15 0) →
    exec (.retryReq n w) s = .next
      ((s.updPort n (fun p => { p with retrySame := (s.port n).retrySame + 1, retryLast := BitVec.ofNat 16 (fld w 15 0) })).retrain181 n)) ∧
  (∀ (s : State) (n : Nat) (w : BitVec 64), n < 32 → 2 ≤ (s.port n).state.toNat → (s.port n).state.toNat ≤ 5 →
    ∃ t : State, exec (.loopPing n w) s = .next t ∧ s.onlyPort t n { s.port n with
      words := (s.port n).words ++ [pack 64 [(63, 56, 7), (47, 32, s.clockNs % 65536), (31, 0, fld w 31 0)]] }) ∧
  (∀ (s : State) (n : Nat) (w : BitVec 64) (e : BitVec 32 × Nat), n < 32 → 2 ≤ (s.port n).state.toNat → (s.port n).state.toNat ≤ 5 →
    (s.port n).pings.find? (fun e => e.1 == BitVec.ofNat 32 (fld w 31 0)) = some e →
    s.clockNs - e.2 - fld w 47 32 ≤ (if n < 30 && !s.spine then 800 else 6000) →
    ∃ t : State, exec (.loopEcho n w) s = .next t ∧ s.onlyPort t n { s.port n with
      loopNs := BitVec.ofNat 16 (max (s.port n).loopNs.toNat (s.clockNs - e.2 - fld w 47 32))
      pings := (s.port n).pings.erase e, echoes := (s.port n).echoes + 1 }) ∧
  (∀ (s : State) (n : Nat) (w : BitVec 64) (e : BitVec 32 × Nat), n < 32 → (s.port n).state = 3 →
    (s.port n).pings.find? (fun e => e.1 == BitVec.ofNat 32 (fld w 31 0)) = some e →
    (if n < 30 && !s.spine then 800 else 6000) < s.clockNs - e.2 - fld w 47 32 →
    ∃ t : State, exec (.loopEcho n w) s = .next t ∧ (t.port n).state = 5) ∧
  (∀ (s : State) (n : Nat) (w : BitVec 64), n < 32 → s.rowCol n = true → bitAt w 0 = true → (s.port n).state = 3 → (s.port n).onoff ≠ some true →
    ∃ t : State, exec (.modeReq n w) s = .next t ∧ (t.port n).state = 4 ∧ (t.port n).onoff = some true ∧
      (t.port n).words = (s.port n).words ++ [pack 64 [(63, 56, 9), (0, 0, 1)]] ∧
      (∀ m, m ≠ n → t.port m = s.port m) ∧ { t with ports := s.ports } = s) ∧
  (∀ (s : State) (n : Nat) (w : BitVec 64), n < 32 → s.rowCol n = true → bitAt w 0 = true → (s.port n).state = 4 →
    ∃ t : State, exec (.modeAck n w) s = .next t ∧ (t.port n).state = 3 ∧ (t.port n).onoff = some true ∧
      (t.port n).words = (s.port n).words ++ (if (s.port n).sentMode then [] else [pack 64 [(63, 56, 9), (0, 0, 1)]]) ∧
      (∀ m, m ≠ n → t.port m = s.port m) ∧ { t with ports := s.ports } = s)

/-- The links' timers (R178, R180, R181, R185, R188, R190): CREDIT_LOSS_TIMER starts the change of mode; MODE_REQ_REPEAT sends the unanswered word again;
MODE_CHANGE_TIMEOUT, and FACK_STALL with flits unacknowledged, make the link retrain; FACK_TIMER, CREDIT_TIMER and RETRY_REQ_TIMER send the word that is owed;
LOOP_MEASURE_TIMER sends eight pings; TAPE_MARK_SEND puts a mark ahead of what waits on every port in UP with ID_WAIT or MATCH that is not looped.
Where the spec leaves a point open, the model's own choice stands here: assumption log entry 3. -/
def Obligations.LinkTimersAct : Prop :=
  (∀ (s : State) (n : Nat), n < 32 → s.rowCol n = true → (s.port n).onoff ≠ some true → (s.port n).state = 3 →
    ∃ t : State, exec (.creditLossTimer n) s = .next t ∧ (t.port n).state = 4 ∧ (t.port n).reqMode = true ∧
      (t.port n).words = (s.port n).words ++ [pack 64 [(63, 56, 8), (0, 0, 1)]] ∧
      (∀ m, m ≠ n → t.port m = s.port m) ∧ { t with ports := s.ports } = s) ∧
  (∀ (s : State) (n : Nat), n < 32 → (s.port n).state = 4 →
    (∃ t : State, exec (.modeReqRepeat n) s = .next t ∧ s.onlyPort t n { s.port n with
      words := (s.port n).words ++ [pack 64 [(63, 56, if (s.port n).sentMode then 9 else 8), (0, 0, 1)]] }) ∧
    exec (.modeChangeTimeout n) s = .next (s.retrain181 n)) ∧
  (∀ (s : State) (n : Nat), n < 32 → s.rowCol n = true → (s.port n).unacked ≠ 0 →
    ∃ t : State, exec (.fackTimer n) s = .next t ∧
      s.onlyPort t n { s.port n with unacked := 0, words := (s.port n).words ++ [(s.port n).fackWord] }) ∧
  (∀ (s : State) (n : Nat), n < 32 → s.creditMode n = true → (s.port n).state = 3 →
    ∃ t : State, exec (.creditTimer n) s = .next t ∧
      s.onlyPort t n { s.port n with freedNew := [], words := (s.port n).words ++ [(s.port n).creditWord] }) ∧
  (∀ (s : State) (n : Nat), n < 32 → s.rowCol n = true → (s.port n).discarding = true → (s.port n).state = 3 ∨ (s.port n).state = 4 →
    ∃ t : State, exec (.retryReqTimer n) s = .next t ∧
      s.onlyPort t n { s.port n with words := (s.port n).words ++ [(s.port n).retryWord] }) ∧
  (∀ (s : State) (n : Nat), s.rowCol n = true → (s.port n).replay ≠ [] → exec (.fackStall n) s = .next (s.retrain181 n)) ∧
  (∀ (s : State) (n : Nat), s.looped n = false → (s.port n).state = 3 ∨ (s.port n).state = 4 →
    n < 32 → ∃ t : State, s.retrain181 n = t ∧ (t.port n).state = 7 ∧ (t.port n).step = 2) ∧
  (∀ (s : State) (n : Nat), n < 32 → 3 ≤ (s.port n).state.toNat → (s.port n).state.toNat ≤ 5 →
    ∃ t : State, exec (.loopMeasureTimer n) s = .next t ∧ (t.port n).pings.length = 8 ∧ (t.port n).echoes = 0 ∧
      (t.port n).words.length = (s.port n).words.length + 8 ∧ (∀ m, m ≠ n → t.port m = s.port m) ∧ { t with ports := s.ports } = s) ∧
  (∀ (s : State), s.tape.running = true → ∃ t : State, exec .tapeMarkSend s = .next t ∧ { t with ports := s.ports } = s ∧
    ∀ n < 32, t.port n = if (s.port n).state == 3 && ((s.port n).check == 1 || (s.port n).check == 2) && !s.looped n
      then { s.port n with words := s.markWords ++ (s.port n).words } else s.port n)

/-- Packets on their way (R37, R196, R203, R210-R214, R371, R372): PACKET_FORWARD of a packet that may go on joins the output queue its route names, and
one past its sixth hop is dropped and counted; MCAST_PACKET is relayed, and taken where it is delivered here; MAP_PUSH keeps the push; TAPE_MARK
keeps the mark; TAPE_EPOCH_BOUNDARY advances the map's sequence, writes every port's epoch counts from zero and leaves memories as they are.
Where the spec leaves a point open, the model's own choice stands here: assumption log entry 30. -/
def Obligations.FabricPacketsGoOn : Prop :=
  (∀ (s u : State) (n k : Nat) (p : Pkt) (detour : Bool), n < 32 → p.mcast = false → (s.devidValid && p.dest = s.myId) = false →
    s.arrive n p = (u, true) → validId p.dest = true → p.hops < 6 → u.tapeAges = true →
    (u.now.toNat + 2 ^ 32 - p.txTape) % 2 ^ 32 ≤ 196000 → u.routeBy true n p = .out k detour →
    exec (.packetForward n p) s = .next (u.enqueue k { pkt := p, src := n, detour })) ∧
  (∀ (s u : State) (n : Nat) (p : Pkt), n < 32 → p.mcast = false → (s.devidValid && p.dest = s.myId) = false →
    s.arrive n p = (u, true) → validId p.dest = true → 6 ≤ p.hops →
    exec (.packetForward n p) s = .next ((u.cntRt 3 1).dropIn n p)) ∧
  (∀ (s u : State) (n : Nat) (p : Pkt) (here : Bool), p.mcast = true → s.mcastArrive n p = (u, here) →
    exec (.mcastPacket n p) s = .next (if here then u.collTake p [] else u)) ∧
  (∀ (s u : State) (n : Nat) (p : Pkt), n < 32 → p.proto = 2 → fld p.hdr 511 504 = 2 → s.takeHere n p = (u, true) → p.crcOk = true →
    ∃ t : State, exec (.mapPush n p) s = .next t ∧ (t.port n).pushLvl = some (BitVec.ofNat 256 (fld p.hdr 255 0)) ∧ (t.port n).pushAge = 0 ∧
      (t.port n).pushUp = BitVec.ofNat 32 (fld p.hdr 471 440) ∧ ∀ m, m ≠ n → t.port m = u.port m) ∧
  (∀ (s : State) (n : Nat) (hi lo : BitVec 64), n < 32 → (s.port n).state = 3 → (s.port n).check = 2 →
    ∃ (t : State) (m : TMark), exec (.tapeMark n hi lo) s = .next t ∧ AMap.get? t.tape.marks n = some m ∧
      m.refId = BitVec.ofNat 16 (fld hi 55 40) ∧ m.hops = BitVec.ofNat 6 (fld hi 39 34) ∧ m.cls = BitVec.ofNat 2 (fld hi 33 32) ∧
      m.ns = BitVec.ofNat 64 (fld hi 23 0 * 2 ^ 40 + fld lo 55 16) ∧ m.frac = BitVec.ofNat 16 (fld lo 15 0)) ∧
  (∀ (s : State), s.tape.running = true → ∃ t : State, exec .tapeEpochBoundary s = .next t ∧ t.route.mapSeq = s.route.mapSeq + 1 ∧
    t.devMem = s.devMem ∧ ∀ n < 32, (t.port n).epochTx = 0 ∧ (t.port n).epochRx = 0 ∧ (t.port n).epochMark = 0 ∧ (t.port n).snapB = [])

/-- Optics (R40, R222-R233): an alignment codeword is taken while the port trains; training starts at light, moves from step to step, and ends in
UP, DOWN at its timeout, or again at its retry timer; light lost takes the port out of service; a degraded lane and wider masks make the port
retrain; a failed emitter goes dark; a spare lights its group; a module starts when it is inserted, runs when its self test passes, and is gone when it is
removed; samples are monitored in their order.
Where the spec leaves a point open, the model's own choice stands here: assumption log entries 3, 11. -/
def Obligations.OpticsAct : Prop :=
  (∀ (s : State) (n lane : Nat) (cw : BitVec 256), n < 32 → lane < 16 → fld cw 255 208 = 0x5C3A91E60D47 → (s.port n).state = 1 →
    (s.port n).step ≠ 5 → ∃ t : State, exec (.alignmentCodewordRx n lane cw) s = .next t ∧ s.onlyPort t n { s.port n with
      laneIn := AMap.set (s.port n).laneIn lane (fld cw 207 204), peerRxOk := BitVec.ofNat 16 (fld cw 199 184)
      rxMask := BitVec.ofNat 16 (fld cw 183 168) }) ∧
  (∀ (s : State) (n : Nat), n < 32 → (s.port n).mayTrain = true → s.isolated 5 (n / 2) = false →
    (∃ t : State, exec (.trainingRetryTimer n) s = .next t ∧
      s.onlyPort t n { (s.port n).stopped with state := 1, check := 0, step := 2, cold := true })) ∧
  (∀ (s : State) (n : Nat), n < 32 →
    exec (.lightDetect n) s = .next ((s.updPort n (fun p => { p with light := true })).trainCold n)) ∧
  (∀ (s : State) (n lanes : Nat), n < 32 → (s.port n).step = 2 → 4 ≤ popCount (BitVec.ofNat 16 lanes) → s.spareAwaited n = false →
    ∃ t : State, exec (.trainingPhaseEnd n true lanes) s = .next t ∧ (t.port n).step = 3 ∧
      (∀ m, m ≠ n → t.port m = s.port m) ∧ { t with ports := s.ports } = s) ∧
  (∀ (s : State) (n lanes : Nat), n < 32 → (s.port n).step = 3 → ∃ t : State, exec (.trainingPhaseEnd n true lanes) s = .next t ∧
      s.onlyPort t n { s.port n with step := 4, rxOk := BitVec.ofNat 16 lanes }) ∧
  (∀ (s : State) (n lanes : Nat), n < 32 → (s.port n).step = 4 → 4 ≤ popCount (s.litLanes n &&& (s.port n).peerRxOk) → 4 ≤ popCount (s.port n).rxMask →
    ∃ t : State, exec (.trainingPhaseEnd n true lanes) s = .next t ∧ (t.port n).step = 5 ∧ (t.port n).state = 2 ∧
      (t.port n).txMask = s.litLanes n &&& (s.port n).peerRxOk ∧ (∀ m, m ≠ n → t.port m = s.port m) ∧ { t with ports := s.ports } = s) ∧
  (∀ (s : State) (n lanes : Nat), n < 32 → (s.port n).step = 6 → 8 ≤ (s.port n).echoes →
    ∃ t : State, exec (.trainingPhaseEnd n true lanes) s = .next t ∧ t = s.linkUp n ∧ (t.port n).state = 3 ∧ (t.port n).step = 0) ∧
  (∀ (s : State) (n : Nat), n < 32 → (s.port n).step ≠ 0 →
    ∃ t : State, exec (.trainingTimeout n) s = .next t ∧ t = (s.trainFail n).portOut n 0 ∧ (t.port n).state = 0 ∧ (t.port n).check = 4) ∧
  (∀ (s : State) (n : Nat), n < 32 → (s.port n).state ≠ 6 → (s.port n).state ≠ 0 →
    ∃ t : State, exec (.lightLoss n) s = .next t ∧ (t.port n).light = false ∧ (t.port n).state = 0 ∧ (t.port n).check = 4) ∧
  (∀ (s : State) (n lane : Nat), s.looped n = false → lane < 16 → (s.port n).state = 3 →
    exec (.laneDegrade n lane) s = .next ((s.updPort n (fun p => { p with rxOk := setFld p.rxOk lane lane 0 })).retrain n)) ∧
  (∀ (s : State) (n lanes : Nat), n < 32 → (s.port n).state = 3 → BitVec.ofNat 16 lanes &&& s.litLanes n &&& ~~~(s.port n).txMask ≠ 0 →
    (∀ x, (s.port n).widenAt = some x → x + 60000000000 ≤ s.clockNs) →
    exec (.widenTimer n lanes) s = .next ((s.retrain n).updPort n (fun p => { p with widenAt := some s.clockNs }))) ∧
  (∀ (s : State) (k e : Nat), k < 4 → e < 16 → (s.elsm k).st = 2 → bitAt (s.elsm k).failed e = false →
    ∃ t : State, exec (.emitterFail k e) s = .next t ∧ (t.elsm k).failed = setFld (s.elsm k).failed e e 1 ∧
      (t.elsm k).lit = setFld (s.elsm k).lit e e 0 ∧ ∀ j, j ≠ k → t.elsm j = s.elsm j) ∧
  (∀ (s : State) (k w g : Nat), k < 4 → w < 4 → AMap.get? (s.elsm k).starting w = some g →
    ∃ t : State, exec (.spareSwitched k w) s = .next t ∧ t.elsm k = { (s.elsm k).setSpare w g with
      starting := AMap.erase (s.elsm k).starting w, lit := setFld (s.elsm k).lit (4 * w + 3) (4 * w + 3) 1 } ∧
      (∀ j, j ≠ k → t.elsm j = s.elsm j)) ∧
  (∀ (s : State) (k : Nat), k < 4 → (s.elsm k).st = 1 → (s.elsm k).cmd = none →
    (∃ t : State, exec (.elsSelfTestDone k true) s = .next t ∧ (t.elsm k).st = 2 ∧ ∀ n ∈ elsPorts k, (t.port n).els = false) ∧
    (∃ t : State, exec (.elsSelfTestDone k false) s = .next t ∧ (t.elsm k).st = 4 ∧ (t.elsm k).lit = 0)) ∧
  (∀ (s : State) (k : Nat), k < 4 → (s.elsm k).present = false ∨ (s.elsm k).st = 0 →
    ∃ t : State, exec (.elsInsert k) s = .next t ∧ t.elsm k = { present := true, st := 1 } ∧ ∀ j, j ≠ k → t.elsm j = s.elsm j) ∧
  (∀ (s : State) (k : Nat), k < 4 → (s.elsm k).present = true → ∃ t : State, exec (.elsRemoved k) s = .next t ∧
    (t.elsm k).present = false ∧ (t.elsm k).st = 0 ∧ (t.elsm k).lit = 0 ∧
    ((s.elsm k).st ≠ 3 → (s.elsm k).cmd = none → ∀ n ∈ elsPorts k, (s.port n).state ≠ 6 → s.looped n = false → (t.port n).state = 0 ∧ (t.port n).els = true)) ∧
  (∀ (s : State) (x : Sample) (xs : Samples), exec (.optMonitorSample (x :: xs)) s = exec (.optMonitorSample xs) (s.monitor x))

/-! ### Needles -/

/-- An instruction that only changes its needle's registers: the command, its OP, when its fields are legal, and what the needle holds then. -/
structure RegRow where
  /-- The command. -/
  cmd : Nat → Upset → Instr
  /-- OP. -/
  op : Nat
  /-- Its fields are as its format says. -/
  legal : Ins → Bool := fun _ => true
  /-- They are not. -/
  illegal : Ins → Bool := fun i => !legal i
  /-- What the needle holds, but for its PC. -/
  after : State → Ins → NeedleS → NeedleS

/-- Scalar instructions, special registers, tape and state of queues (R274-R276, R296, R298). -/
def scalarRows : List RegRow := [
  { cmd := .sarith, op := 0x01, legal := fun i => i.pr == 0 && decide (i.fn ≤ 22) && (decide (i.fn ≤ 20) || i.s2 == 0)
    after := fun _ i d => d.ws i.d (sarithOp i.fn (d.rs i.s1) (d.rs i.s2)) },
  { cmd := .addi, op := 0x02, after := fun _ i d => d.ws i.d (d.rs i.s1 + low64 i.imm14) },
  { cmd := .andi, op := 0x03, after := fun _ i d => d.ws i.d (d.rs i.s1 &&& low64 i.imm14) },
  { cmd := .ori, op := 0x04, after := fun _ i d => d.ws i.d (d.rs i.s1 ||| low64 i.imm14) },
  { cmd := .xori, op := 0x05, after := fun _ i d => d.ws i.d (d.rs i.s1 ^^^ low64 i.imm14) },
  { cmd := .slli, op := 0x06, legal := fun i => i.f 31 24 == 0, after := fun _ i d => d.ws i.d (d.rs i.s1 <<< i.f 23 18) },
  { cmd := .srli, op := 0x07, legal := fun i => i.f 31 24 == 0, after := fun _ i d => d.ws i.d (d.rs i.s1 >>> i.f 23 18) },
  { cmd := .srai, op := 0x08, legal := fun i => i.f 31 24 == 0, after := fun _ i d => d.ws i.d ((d.rs i.s1).sshiftRight (i.f 23 18)) },
  { cmd := .slti, op := 0x09, after := fun _ i d => d.ws i.d (if (d.rs i.s1).slt (low64 i.imm14) then 1 else 0) },
  { cmd := .lui, op := 0x0A, after := fun _ i d => d.ws i.d (low64 (i.imm19 * 2 ^ 13)) },
  { cmd := .mfsr, op := 0x0C, legal := fun i => i.s1 == 0 && decide (i.f 31 18 ≤ 4) && i.f 31 18 != 3
    illegal := fun i => i.s1 != 0 || decide (4 < i.f 31 18)
    after := fun s i d => d.ws i.d (match i.f 31 18 with
      | 0 => d.nstat.setWidth 64
      | 1 => d.srseed.setWidth 64
      | 2 => BitVec.ofNat 64 ((s.inService (clusterOf i.n)).length * 2 ^ 8 + s.jOf i.n)
      | _ => d.cpyst) },
  { cmd := .mtsr, op := 0x0D, legal := fun i => i.s1 == 0 && (i.f 31 18 == 0 || i.f 31 18 == 1 || i.f 31 18 == 4)
    after := fun _ i d => if i.f 31 18 = 0 then { d with nstat := (d.rs i.d).setWidth 4 }
      else if i.f 31 18 = 4 then { d with cpyst := 0 }
      else { d with srseed := if (d.rs i.d).setWidth 32 = (0 : BitVec 32) then 1 else (d.rs i.d).setWidth 32 } },
  { cmd := .sqstat, op := 0x63, legal := fun i => i.f 31 18 == 0
    after := fun s i d => let q := s.sq (clusterOf i.n) i.s1
      d.ws i.d (pack 64 [(9, 9, b2n q.draining), (8, 8, b2n q.stale), (6, 0, q.items.length)]) },
  { cmd := .tape, op := 0x6C, legal := fun i => i.s1 == 0 && decide (i.f 31 18 ≤ 2)
    after := fun s i d => let frac := if s.tape.running then s.tape.frac.toNat else 0
      d.ws i.d (match i.f 31 18 with
        | 0 => s.now
        | 1 => pack 64 [(19, 16, s.tape.state.toNat), (15, 0, frac)]
        | _ => BitVec.ofNat 64 (s.now.toNat % 2 ^ 48 * 2 ^ 16 + frac)) },
  { cmd := .fence, op := 0x70, legal := fun i => i.f 31 8 == 0, after := fun _ _ d => d }]

/-- Vector instructions and predicates (R282-R284, R286). -/
def vectorRows : List RegRow := [
  { cmd := .varith, op := 0x40, legal := fun i => decide (i.et ≤ 5) && i.vop != 7 && (i.vop != 6 || i.s2 == 0)
    after := fun _ i d =>
      let w := etWidth i.et
      let r := laneMap w (d.rp i.pr) (d.rv i.d) (fun k o =>
        if etFloat i.et then fpLane (etFmt i.et) i.vop o (elem w (d.rv i.s1) k) (elem w (d.rv i.s2) k)
        else intLane w i.vop o (elem w (d.rv i.s1) k) (elem w (d.rv i.s2) k))
      (d.wv i.d r.1).flag r.2 },
  { cmd := .vlogic, op := 0x41, legal := fun i => decide (3 ≤ i.et) && decide (i.et ≤ 5) && i.vop != 7
    after := fun _ i d =>
      let w := etWidth i.et
      let r := laneMap w (d.rp i.pr) (d.rv i.d) (fun k _ => (logicLane w i.vop (elem w (d.rv i.s1) k) (elem w (d.rv i.s2) k), {}))
      (d.wv i.d r.1).flag r.2 },
  { cmd := .vcmp, op := 0x42, legal := fun i => decide (i.et ≤ 5) && decide (i.vop ≤ 5) && decide (i.d ≤ 7)
    after := fun _ i d =>
      let w := etWidth i.et
      d.wp i.d (BitVec.ofNat 128 (ofElems 1 ((List.range 128).map (fun b => b2n (active (d.rp i.pr) w (b / (w / 8)) &&
        cmpLane i.et i.vop (elem w (d.rv i.s1) (b / (w / 8))) (elem w (d.rv i.s2) (b / (w / 8)))))))) },
  { cmd := .vmisc, op := 0x43, legal := fun i => decide (i.et ≤ 5) && (match i.vop with
      | 1 => true
      | 4 => i.pr == 0
      | 5 => decide (3 ≤ i.et) && i.s1 == 0 && i.s2 == 0
      | o => decide (o ≤ 3) && i.s2 == 0)
    after := fun _ i d =>
      let w := etWidth i.et
      let put (g : Nat → Nat) : NeedleS :=
        let r := laneMap w (d.rp i.pr) (d.rv i.d) (fun k _ => (g k, {}))
        (d.wv i.d r.1).flag r.2
      match i.vop with
      | 0 => put (fun k => elem w (d.rv i.s1) k)
      | 1 => d.wv i.d (BitVec.ofNat 1024 (ofElems w ((List.range (etCount i.et)).map (fun k =>
          if active (d.rp i.pr) w k then elem w (d.rv i.s1) k else elem w (d.rv i.s2) k))))
      | 2 => put (fun _ => (d.rs i.s1).toNat % 2 ^ w)
      | 3 => (d.ws i.d (vrsum i.et (d.rp i.pr) (d.rv i.s1)).1).flag (vrsum i.et (d.rp i.pr) (d.rv i.s1)).2
      | 4 => d.ws i.d (BitVec.ofNat 64 (elem w (d.rv i.s1) ((d.rs i.s2).toNat % etCount i.et)))
      | _ => put (fun k => k % 2 ^ w) },
  { cmd := .plogic, op := 0x44
    legal := fun i => i.pr == 0 && decide (i.fn ≤ 5) && decide (i.d ≤ 7) && (i.fn == 5 || decide (i.s1 ≤ 7)) &&
      (if i.fn = 4 || i.fn = 5 then i.s2 == 0 else decide (i.s2 ≤ 7))
    after := fun _ i d => d.wp i.d (match i.fn with
      | 0 => d.rp i.s1 &&& d.rp i.s2
      | 1 => d.rp i.s1 ||| d.rp i.s2
      | 2 => d.rp i.s1 ^^^ d.rp i.s2
      | 3 => d.rp i.s1 &&& ~~~(d.rp i.s2)
      | 4 => ~~~(d.rp i.s1)
      | _ => BitVec.ofNat 128 (2 ^ min (d.rs i.s1).toNat 128 - 1)) },
  { cmd := .vtopk, op := 0x45
    after := fun _ i d => d.wv i.d (topList (i.fn % 16 + 1) (bitAt (BitVec.ofNat 6 i.fn) 4) (bitAt (BitVec.ofNat 6 i.fn) 5) (d.rv i.d)
      (d.rv i.s1) (d.rp i.pr) ((d.rs i.s2).toNat % 2 ^ 32)) },
  { cmd := .tmisc, op := 0x50
    legal := fun i => i.pr == 0 && i.s2 == 0 && (match i.fn with
      | 0 => decide (i.d ≤ 7) && i.s1 == 0
      | 1 => decide (i.s1 ≤ 7)
      | 2 => decide (i.d ≤ 7)
      | _ => false)
    after := fun _ i d => match i.fn with
      | 0 => d.wa i.d 0
      | 1 => d.wv i.d ((d.ra i.s1).setWidth 1024)
      | _ => d.wa i.d ((d.rv i.s1).setWidth 512) }]

/-- What every row of a list does: with legal fields its needle holds the result and stands at the next instruction, and nothing else changes;
with any other fields it traps ILLEGAL with its first word (R272, R300). -/
def regRowsAct (l : List RegRow) : Prop :=
  ∀ e ∈ l, ∀ (s : State) (n : Nat) (x : Upset) (i : Ins), s.stands n e.op x i →
    (e.legal i = true → ∃ t : State, exec (e.cmd n x) s = .next t ∧ s.onlyNeedle t n ((e.after s i (s.needle n)).past e.op)) ∧
    (e.illegal i = true → exec (e.cmd n x) s = .next (s.trap n 1 (i.w % 2 ^ 32)))

/-- Instructions that only change registers of their needle (R244, R274-R276, R282-R284, R286, R290, R296, R298, R299): SARITH, ADDI, ANDI, ORI, XORI, SLLI, SRLI, SRAI, SLTI, LUI,
MFSR, MTSR, SQSTAT, TAPE, FENCE, VARITH, VLOGIC, VCMP, VMISC, PLOGIC, VTOPK and TMISC write what their rules say into their destination, vectors element by element under their predicate, move the PC on by 4 and change
nothing else; illegal fields trap ILLEGAL; MFSR of CYCLES reads a count that never falls.
Where the spec leaves a point open, the model's own choice stands here: assumption log entries 17, 93. -/
def Obligations.RegisterInstructionsAct : Prop :=
  regRowsAct scalarRows ∧ regRowsAct vectorRows ∧
  (∀ (s : State) (n : Nat) (x : Upset) (i : Ins), s.stands n 0x0C x i → i.s1 = 0 → i.f 31 18 = 3 →
    ∃ (t : State) (c : Nat), exec (.mfsr n x) s = .next t ∧ (s.needle n).cycles ≤ c ∧
      t.needle n = ({ s.needle n with cycles := c }.ws i.d (BitVec.ofNat 64 c)).past 0x0C ∧
      (∀ m, m ≠ n → t.needle m = s.needle m) ∧ { t with needles := s.needles, fresh := s.fresh } = s)

/-- Tile instructions and conversions (R253-R262, R287-R293): TMMA writes its accumulator, element by element the sum of its terms in the order of R289 or the integer
sum; VCVT, VCVTMX, VMXDQ and VSCALE write their destination, their scale and their residuals; each adds its flags to NSTAT, moves the PC on
by 8 and changes no other register and nothing else.
Where the spec leaves a point open, the model's own choice stands here: assumption log entry 17. -/
def Obligations.TileInstructionsAct : Prop :=
  (∀ (s : State) (n : Nat) (x : Upset) (i : Ins), s.stands n 0x80 x i → i.f 63 46 = 0 → i.f 39 36 ≤ 9 → i.f 43 40 = i.f 39 36 →
    i.f 44 44 = 0 → i.f 25 21 = 0 → (tIsMx (i.f 39 36) = true ∨ i.f 35 26 = 0) →
    ∃ (t : State) (v : BitVec 512) (fl : Flags), exec (.tmma n x) s = .next t ∧
      s.onlyNeedle t n ((((s.needle n).wa (i.f 10 8) v).flag fl).past 0x80) ∧
      let d := s.needle n
      let fa := i.f 39 36
      ∀ r < 4, ∀ c < 4, let acc := if i.f 45 45 = 1 then 0 else fld (d.ra (i.f 10 8)) (128 * r + 32 * c + 31) (128 * r + 32 * c)
        fld v (128 * r + 32 * c + 31) (128 * r + 32 * c) = (if fa = 4 then tInteger acc (d.rv (i.f 15 11)) (d.rv (i.f 20 16)) r c
          else tElement acc (tCycle fa) (denseTerms fa fa (d.rv (i.f 15 11)) (d.rv (i.f 20 16)) r c)
            (fun k => (tScale fa (d.rs (i.f 30 26)) r k, tScale fa (d.rs (i.f 35 31)) c k)) (tIsMx fa)).1 % 2 ^ 32) ∧
  (∀ (s : State) (n : Nat) (x : Upset) (i : Ins), s.stands n 0x80 x i → i.f 63 46 ≠ 0 ∨ 9 < i.f 39 36 ∨ 9 < i.f 43 40 →
    exec (.tmma n x) s = .next (s.trap n 1 (i.w % 2 ^ 32))) ∧
  (∀ (s : State) (n : Nat) (x : Upset) (i : Ins), s.stands n 0x88 x i → i.f 63 45 = 0 → i.mode ≠ 3 →
    (i.srcF = 0 ∧ i.dstF ≠ 0 ∨ i.srcF ≠ 0 ∧ i.dstF = 0 ∨ i.srcF = 8 ∧ i.dstF = 9 ∨ i.srcF = 9 ∧ i.dstF = 8) →
    partOk i.srcF i.spart = true → partOk i.dstF i.dpart = true → i.ss = 0 → i.vr = 0 → i.res = 0 →
    let d := s.needle n
    let r := roundings 32 (if widening i.srcF i.dstF then 0 else i.mode) d.srseed
    let es := (List.zip (partElems i.srcF i.spart (d.rv i.s1)) r.1).map (fun e => dstVal i.dstF e.2 (srcVal i.srcF e.1))
    ∃ (t : State) (fl : Flags), exec (.vcvt n x) s = .next t ∧
      s.onlyNeedle t n (((({ d with srseed := r.2 }).wv i.d (putPart i.dstF i.dpart (d.rv i.d) (es.map Prod.fst))).flag fl).past 0x88)) ∧
  (∀ (s : State) (n : Nat) (x : Upset) (i : Ins), s.stands n 0x89 x i → i.f 63 45 = 0 → i.mode ≠ 3 → i.srcF ≤ 1 → 3 ≤ i.dstF → i.dstF ≤ 7 →
    partOk i.srcF i.spart = true → partOk i.dstF i.dpart = true → i.vr = 0 → i.res = 0 →
    let d := s.needle n
    let r := roundings 32 i.mode d.srseed
    let m := toMx (fmtOf i.dstF) r.1 ((partElems i.srcF i.spart (d.rv i.s1)).map (srcVal i.srcF))
    ∃ (t : State) (fl : Flags), exec (.vcvtmx n x) s = .next t ∧
      s.onlyNeedle t n ((((({ d with srseed := r.2 }).wv i.d (putPart i.dstF i.dpart (d.rv i.d) m.2.1)).ws i.ss
        (setFld (d.rs i.ss) (8 * i.dpart + 7) (8 * i.dpart) m.1)).flag fl).past 0x89)) ∧
  (∀ (s : State) (n : Nat) (x : Upset) (i : Ins), s.stands n 0x8A x i → i.f 63 45 = 0 → i.mode = 0 → i.dpart = 0 → i.dstF = 0 →
    3 ≤ i.srcF → i.srcF ≤ 7 → partOk i.srcF i.spart = true → i.vr = 0 → i.res = 0 →
    let d := s.needle n
    let sc := fld (d.rs i.ss) (8 * i.spart + 7) (8 * i.spart)
    let es := (partElems i.srcF i.spart (d.rv i.s1)).map (fun e => let v := mxVal (fmtOf i.srcF) sc e; fp32.arith [v] v)
    ∃ (t : State) (fl : Flags), exec (.vmxdq n x) s = .next t ∧
      s.onlyNeedle t n (((d.wv i.d (BitVec.ofNat 1024 (ofElems 32 (es.map Prod.fst)))).flag fl).past 0x8A)) ∧
  (∀ (s : State) (n : Nat) (x : Upset) (i : Ins), s.stands n 0x8B x i → i.f 63 45 = 0 → i.mode = 0 → i.dpart = 0 → i.spart = 0 → i.dstF = 0 →
    i.srcF = 0 → i.vr = 0 → i.res = 0 →
    let d := s.needle n
    let e := max (-300) (min 300 (d.rs i.ss).toInt)
    let es := (partElems 0 0 (d.rv i.s1)).map (fun b => let v := fp32.decode b; fp32.arith [v] (v.scale e))
    ∃ (t : State) (fl : Flags), exec (.vscale n x) s = .next t ∧
      s.onlyNeedle t n (((d.wv i.d (BitVec.ofNat 1024 (ofElems 32 (es.map Prod.fst)))).flag fl).past 0x8B))

/-- Branches, jumps, TRAP and EXIT (R277, R299, R300): a taken branch, JAL and JALR go on at a target within the text, JAL and JALR with the address of the next
instruction in s[D]; a branch not taken goes on after itself; a target outside the text traps FETCH; TRAP traps USER with its code; EXIT ends the needle's part
of the run. -/
def Obligations.ControlFlowActs : Prop :=
  (∀ e ∈ ([(.beq, 0x20, fun a b => a == b), (.bne, 0x21, fun a b => a != b), (.blt, 0x22, fun a b => decide (a.toInt < b.toInt)),
      (.bge, 0x23, fun a b => decide (b.toInt ≤ a.toInt)), (.bltu, 0x24, fun a b => decide (a.toNat < b.toNat)),
      (.bgeu, 0x25, fun a b => decide (b.toNat ≤ a.toNat))] :
        List ((Nat → Upset → Instr) × Nat × (BitVec 64 → BitVec 64 → Bool))),
    ∀ (s : State) (n : Nat) (x : Upset) (i : Ins), s.stands n e.2.1 x i →
      let d := s.needle n
      let target := BitVec.ofNat 64 i.pc + low64 (4 * i.imm14)
      (e.2.2 (d.rs i.s1) (d.rs i.d) = false → ∃ t : State, exec (e.1 n x) s = .next t ∧ s.onlyNeedle t n (d.past e.2.1)) ∧
      (e.2.2 (d.rs i.s1) (d.rs i.d) = true → i.prog.inText target.toNat = true →
        ∃ t : State, exec (e.1 n x) s = .next t ∧ s.onlyNeedle t n { d with pc := BitVec.ofNat 32 target.toNat }) ∧
      (e.2.2 (d.rs i.s1) (d.rs i.d) = true → i.prog.inText target.toNat = false → exec (e.1 n x) s = .next (s.trap n 2 target.toNat))) ∧
  (∀ (s : State) (n : Nat) (x : Upset) (i : Ins), s.stands n 0x26 x i →
    let target := BitVec.ofNat 64 i.pc + low64 (4 * i.imm19)
    i.prog.inText target.toNat = true → ∃ t : State, exec (.jal n x) s = .next t ∧
      s.onlyNeedle t n { (s.needle n).ws i.d (BitVec.ofNat 64 (i.pc + 4)) with pc := BitVec.ofNat 32 target.toNat }) ∧
  (∀ (s : State) (n : Nat) (x : Upset) (i : Ins), s.stands n 0x27 x i →
    let target := (s.needle n).rs i.s1 + low64 i.imm14
    i.prog.inText target.toNat = true → ∃ t : State, exec (.jalr n x) s = .next t ∧
      s.onlyNeedle t n { (s.needle n).ws i.d (BitVec.ofNat 64 (i.pc + 4)) with pc := BitVec.ofNat 32 target.toNat }) ∧
  (∀ (s : State) (n : Nat) (x : Upset) (i : Ins), s.stands n 0x78 x i → i.d = 0 → i.f 31 29 = 0 →
    ∃ t u : State, exec (.trap n x) s = .next t ∧ s.onlyNeedle u n { s.needle n with
      trapCode := 7, trapPc := (s.needle n).pc, trapInfo := BitVec.ofNat 64 (i.f 28 13) } ∧
      t = u.runFault i.id n 1 7 (s.needle n).pc.toNat (i.f 28 13)) ∧
  (∀ (s : State) (n m : Nat) (x : Upset) (i : Ins), s.stands n 0x79 x i → i.f 31 8 = 0 → m ∈ i.run.left.erase n →
    ∃ t : State, exec (.exit n x) s = .next t ∧ t.needle n = { s.needle n with st := 4 } ∧
      AMap.get? t.runs i.id = some { i.run with left := i.run.left.erase n } ∧
      (∀ k, k ≠ n → t.needle k = s.needle k) ∧ { t with needles := s.needles, runs := s.runs } = s) ∧
  (∀ (s : State) (n : Nat) (x : Upset) (i : Ins), s.stands n 0x79 x i → i.f 31 8 = 0 → i.run.left.erase n = [] →
    exec (.exit n x) s = .next (((s.updNeedle n (fun d => { d with st := 4 })).updRun i.id (fun r => { r with left := r.left.erase n })).runExit i.id n))

/-- What meets an access costs it nothing: no error, or a corrected one outside local memory (R242). -/
def Sys2Proof.Upset.calm (x : Upset) (a : Nat) : Prop := x = .none ∨ x = .ce ∧ isLocal a = false

/-- Loads (R242, R278, R279, R280, R285): LB, LBU, LH, LHU, LW, LWU, LD and VLD write their destination with what stands at their address, VGATHER each active lane with
its own word; nothing else changes. An address outside the data spaces or not aligned traps ADDR or ALIGN, and a double-bit error MEM_UE.
Where the spec leaves a point open, the model's own choice stands here: assumption log entry 48. -/
def Obligations.LoadsAct : Prop :=
  (∀ e ∈ ([(.lb, 0x10, 1, true), (.lbu, 0x11, 1, false), (.lh, 0x12, 2, true), (.lhu, 0x13, 2, false), (.lw, 0x14, 4, true),
      (.lwu, 0x15, 4, false), (.ld, 0x16, 8, false)] : List ((Nat → Upset → Instr) × Nat × Nat × Bool)),
    ∀ (s : State) (n : Nat) (x : Upset) (i : Ins), s.stands n e.2.1 x i →
      let a := i.addr s 1
      let v := natLE (s.dataRead n a e.2.2.1)
      (addrTrap a e.2.2.1 true true = none → x.calm a → ∃ t : State, exec (e.1 n x) s = .next t ∧
        s.onlyNeedle t n (((s.needle n).ws i.d (if e.2.2.2 then low64 (toSigned (8 * e.2.2.1) v) else BitVec.ofNat 64 v)).past 0)) ∧
      (∀ c, addrTrap a e.2.2.1 true true = some c → exec (e.1 n x) s = .next (s.trap n c a)) ∧
      (addrTrap a e.2.2.1 true true = none → x = .data → isLocal a = false →
        exec (e.1 n x) s = .next ((s.needleRec 4 (clusterOf n) (needleSlot n) a).trap n 3 a))) ∧
  (∀ (s : State) (n : Nat) (x : Upset) (i : Ins), s.stands n 0x30 x i →
    let a := i.addr s 128
    addrTrap a 128 true true = none → x.calm a → ∃ t : State, exec (.vld n x) s = .next t ∧
      s.onlyNeedle t n (((s.needle n).wv i.d (BitVec.ofNat 1024 (natLE (s.dataRead n a 128)))).past 0)) ∧
  (∀ (s : State) (n : Nat) (i : Ins), s.stands n 0x33 .none i → i.f 31 28 = 0 → i.laneTrap s = none →
    ∃ (t : State), exec (.vgather n .none) s = .next t ∧
      s.onlyNeedle t n (((s.needle n).wv i.d (((s.needle n).lanes32 i.pr).foldl (fun v l =>
        setFld v (32 * l + 31) (32 * l) (natLE (s.dataRead n (i.laneAddr s l) 4))) ((s.needle n).rv i.d))).past 0))

/-- Stores (R242, R278, R279, R280): SB, SH, SW, SD, VST, VSTM and AMO store exactly the bytes of their width at the address they compute: the low bytes of s[D], v[D], of v[D]
where p[PR] is 1, or the result of the atomic operation, whose old value goes to s[D]. A trap stores nothing.
Where the spec leaves a point open, the model's own choice stands here: assumption log entry 19. -/
def Obligations.StoresAct : Prop :=
  (∀ e ∈ ([(.sb, 0x18, 1), (.sh, 0x19, 2), (.sw, 0x1A, 4), (.sd, 0x1B, 8)] : List ((Nat → Upset → Instr) × Nat × Nat)),
    ∀ (s : State) (n : Nat) (x : Upset) (i : Ins), s.stands n e.2.1 x i →
      let a := i.addr s 1
      (addrTrap a e.2.2 true true = none → x ≠ .ce ∨ isLocal a = false → ∃ t : State, exec (e.1 n x) s = .next t ∧
        s.storedOnly t n a (bytesLE e.2.2 ((s.needle n).rs i.d).toNat) ∧ t.needle n = (s.needle n).past 0) ∧
      (∀ c, addrTrap a e.2.2 true true = some c → exec (e.1 n x) s = .next (s.trap n c a))) ∧
  (∀ (s : State) (n : Nat) (x : Upset) (i : Ins), s.stands n 0x31 x i →
    let a := i.addr s 128
    addrTrap a 128 true true = none → x ≠ .ce ∨ isLocal a = false → ∃ t : State, exec (.vst n x) s = .next t ∧
      s.storedOnly t n a (bytesLE 128 ((s.needle n).rv i.d).toNat) ∧ t.needle n = (s.needle n).past 0) ∧
  (∀ (s : State) (n : Nat) (x : Upset) (i : Ins), s.stands n 0x32 x i → i.s2 = 0 → i.fn = 0 →
    let a := ((s.needle n).rs i.s1).toNat
    let mixed := (List.range 128).map (fun b => if bitAt ((s.needle n).rp i.pr) b then (bytesLE 128 ((s.needle n).rv i.d).toNat).getD b 0
      else (s.dataRead n a 128).getD b 0)
    addrTrap a 128 true true = none → x ≠ .ce ∨ isLocal a = false → ∃ t : State, exec (.vstm n x) s = .next t ∧
      s.storedOnly t n a mixed ∧ t.needle n = (s.needle n).past 0) ∧
  (∀ (s : State) (n : Nat) (x : Upset) (i : Ins), s.stands n 0x34 x i → i.f 31 28 = 0 → i.laneTrap s = none → x = .none →
    let ls := (s.needle n).lanes32 i.pr
    ∃ t : State, exec (.vscatter n x) s = .next t ∧ t.needle n = (s.needle n).past 0 ∧
      (∀ k, (∀ l ∈ ls, ¬(localKey n (i.laneAddr s l) ≤ k ∧ k < localKey n (i.laneAddr s l) + 4)) → Memory.rd t.localM k = Memory.rd s.localM k) ∧
      { t with localM := s.localM, needles := s.needles } = s ∧ (∀ m, m ≠ n → t.needle m = s.needle m) ∧
      (∀ l ∈ ls, (∀ k ∈ ls, l < k → i.laneAddr s k ≠ i.laneAddr s l) →
        t.dataRead n (i.laneAddr s l) 4 = bytesLE 4 (fld ((s.needle n).rv i.d) (32 * l + 31) (32 * l)))) ∧
  (∀ (s : State) (n : Nat) (x : Upset) (i : Ins), s.stands n 0x1C x i → i.pr = 0 → i.fn ≤ 6 →
    let a := ((s.needle n).rs i.s1).toNat
    let old := BitVec.ofNat 64 (natLE (s.dataRead n a 8))
    addrTrap a 8 false true = none → x = .none → ∃ t : State, exec (.amo n x) s = .next t ∧
      s.storedOnly t n a (bytesLE 8 (amoOp i.fn old ((s.needle n).rs i.s2) ((s.needle n).rs i.d)).toNat) ∧
      t.needle n = ((s.needle n).ws i.d old).past 0)

/-! ### Streams, sync instructions, copies, clusters and runs -/

/-- Stream queues and sync objects as needles use them (R249-R252, R296, R297, R352, R355): SQPUSH adds its item at the end of a queue that is not full and
stalls on a full one; SQPUSH_RESUME lets the push take effect once there is room; SQPOP takes the oldest item, or the idle item; SQFLUSH leaves no item, DRAINING
where the last item had no END; SYADD adds to an object; SYRD and a satisfied SYWAIT read it; an unsatisfied SYWAIT waits, and goes on at SYWAIT_RESUME with the value that
satisfied it; STALE_TAIL_FIRE sets STALE and keeps every item. -/
def Obligations.StreamsAndSyncAct : Prop :=
  (∀ (s : State) (n : Nat) (x : Upset) (i : Ins), s.stands n 0x60 x i → i.f 31 31 = 0 → i.d = 0 → i.f 29 23 ≠ 0 →
    let q := s.sq (clusterOf n) i.s1
    let item : BitVec 72 := pack 72 [(71, 71, i.f 30 30), (70, 64, i.f 29 23), (63, 0, ((s.needle n).rs i.s2).toNat)]
    (q.draining = false → q.items.length < 64 → ∃ t : State, exec (.sqpush n x) s = .next t ∧
      t.sq (clusterOf n) i.s1 = { q with items := q.items ++ [item], timer := if q.items = [] then q.us != 0 else q.timer } ∧
      t.needle n = (s.needle n).past 0 ∧ { t with clus := s.clus, needles := s.needles } = s ∧
      (∀ k, k ≠ i.s1 → t.sq (clusterOf n) k = s.sq (clusterOf n) k) ∧ (∀ c, c ≠ clusterOf n → t.clu c = s.clu c)) ∧
    (q.draining = false → 64 ≤ q.items.length → ∃ t : State, exec (.sqpush n x) s = .next t ∧
      (t.sq (clusterOf n) i.s1).items = q.items ∧ (t.sq (clusterOf n) i.s1).stalled = q.stalled ++ [n] ∧
      t.needle n = { s.needle n with st := 2, pushQ := i.s1, pushI := item })) ∧
  (∀ (s : State) (n : Nat) (d : NeedleS) (q : SQ), n < 512 → s.needle n = d → d.st = 2 → s.sq (clusterOf n) d.pushQ = q → q.draining = false →
    q.items.length < 64 → ∃ t : State, exec (.sqpushResume n) s = .next t ∧ (t.sq (clusterOf n) d.pushQ).items = q.items ++ [d.pushI] ∧
      (t.sq (clusterOf n) d.pushQ).stalled = q.stalled.erase n ∧ t.needle n = { d with st := 1, pc := d.pc + 4 }) ∧
  (∀ (s : State) (n : Nat) (x : Upset) (i : Ins) (it : BitVec 72) (rest : List (BitVec 72)), s.stands n 0x61 x i → i.f 31 23 = 0 →
    (i.d ≠ i.s2 ∨ i.d = 0) → (s.sq (clusterOf n) i.s1).draining = false → (s.sq (clusterOf n) i.s1).items = it :: rest →
    ∃ t : State, exec (.sqpop n x) s = .next t ∧ (t.sq (clusterOf n) i.s1).items = rest ∧
      t.needle n = (((s.needle n).ws i.d (it.setWidth 64)).ws i.s2 (BitVec.ofNat 64 (fld it 71 64))).past 0 ∧
      { t with clus := s.clus, needles := s.needles } = s) ∧
  (∀ (s : State) (n : Nat) (x : Upset) (i : Ins), s.stands n 0x61 x i → i.f 31 23 = 0 → (i.d ≠ i.s2 ∨ i.d = 0) →
    (s.sq (clusterOf n) i.s1).draining = true ∨ (s.sq (clusterOf n) i.s1).items = [] →
    ∃ t : State, exec (.sqpop n x) s = .next t ∧ s.onlyNeedle t n ((((s.needle n).ws i.d 0).ws i.s2 0).past 0)) ∧
  (∀ (s : State) (n : Nat) (x : Upset) (i : Ins) (it : BitVec 72), s.stands n 0x62 x i → i.f 31 18 = 0 → i.d = 0 →
    (s.sq (clusterOf n) i.s1).draining = false → (s.sq (clusterOf n) i.s1).items.getLast? = some it → (s.sq (clusterOf n) i.s1).stalled = [] →
    ∃ t : State, exec (.sqflush n x) s = .next t ∧ (t.sq (clusterOf n) i.s1).items = [] ∧ (t.sq (clusterOf n) i.s1).draining = !it.msb ∧
      (t.sq (clusterOf n) i.s1).timer = false ∧ t.needle n = (s.needle n).past 0 ∧ { t with clus := s.clus, needles := s.needles } = s) ∧
  (∀ (s : State) (n o : Nat) (x : Upset) (i : Ins), s.stands n 0x68 x i → i.pr = 0 → i.fn = 0 → i.d = 0 →
    i.object s ((s.needle n).rs i.s1) = some o → ∃ t : State, exec (.syadd n x) s = .next t ∧
      (t.obj o).val = (s.obj o).val + (s.needle n).rs i.s2 ∧ t.needle n = (s.needle n).past 0) ∧
  (∀ (s : State) (n o : Nat) (x : Upset) (i : Ins), s.stands n 0x6A x i → i.pr = 0 → i.fn = 0 → i.s2 = 0 →
    i.object s ((s.needle n).rs i.s1) = some o → ∃ t : State, exec (.syrd n x) s = .next t ∧
      s.onlyNeedle t n (((s.needle n).ws i.d (s.obj o).val).past 0)) ∧
  (∀ (s : State) (n o : Nat) (x : Upset) (i : Ins), s.stands n 0x69 x i → i.pr = 0 → i.fn = 0 →
    i.object s ((s.needle n).rs i.s1) = some o →
    (((s.needle n).rs i.s2).toNat ≤ (s.obj o).val.toNat → ∃ t : State, exec (.sywait n x) s = .next t ∧
      s.onlyNeedle t n (((s.needle n).ws i.d (s.obj o).val).past 0)) ∧
    ((s.obj o).val.toNat < ((s.needle n).rs i.s2).toNat → ∃ t : State, exec (.sywait n x) s = .next t ∧
      s.onlyNeedle t n { s.needle n with
        st := 3, waitObj := o, waitT := (s.needle n).rs i.s2, waitD := BitVec.ofNat 5 i.d, waitOk := none })) ∧
  (∀ (s : State) (n : Nat) (v : BitVec 64), n < 512 → (s.needle n).st = 3 → (s.needle n).waitOk = some v →
    ∃ t : State, exec (.sywaitResume n) s = .next t ∧
      s.onlyNeedle t n (({ s.needle n with st := 1, waitOk := none }.ws (s.needle n).waitD.toNat v).past 0)) ∧
  (∀ (s : State) (c q : Nat), c < 64 → q < 32 → (s.sq c q).timer = true → (s.sq c q).items ≠ [] → (s.sq c q).draining = false →
    ∃ t : State, exec (.staleTailFire c q) s = .next t ∧ t.sq c q = { s.sq c q with stale := true, timer := false } ∧
      (∀ p o, (s.clu c).owner = some p → (s.sq c q).sync ≠ 0x3FFF → Ranges.item (s.part p).syncs (s.sq c q).sync = some o →
        (t.obj o).val = (s.obj o).val + 1))

/-- Copies of needles (R47, R57, R248, R294, R295): CPY whose ends lie in their spaces and whose objects exist gives its transfer, rows in order, to the engine of its cluster that
holds fewer, and the needle goes on; it stalls while the engine holds 32. FSIG to an object of this device adds to it and goes on. CPY_DONE of a copy that ended well takes it off and
raises its object by 1; of one that failed, its status goes to CPYST.
Where the spec leaves a point open, the model's own choice stands here: assumption log entries 19, 43, 46. -/
def Obligations.CopiesAct : Prop :=
  (∀ (s : State) (n : Nat) (x : Upset) (i : Ins), s.stands n 0x90 x i → i.f 63 36 = 0 → i.f 10 8 = 3 →
    let d := s.needle n
    let sl := d.rs (i.f 25 21)
    let src : CpyEnd := { va := true, addr := (d.rs (i.f 20 16)).toNat, stride := 0, j := 0 }
    let dst : CpyEnd := { va := true, addr := (d.rs (i.f 15 11)).toNat, stride := 0, j := 0 }
    fld sl 63 32 = 0 → fld sl 31 0 ≤ 2 ^ 30 → fld sl 31 0 ≠ 0 → src.addr < 2 ^ 48 → dst.addr < 2 ^ 48 → d.rs (i.f 35 31) = 0x3FFF →
    let eng := s.copyEngine (clusterOf n)
    (32 ≤ s.engineLoad eng → exec (.cpy n x) s = .next s) ∧
    (∀ a b : XEnd, s.engineLoad eng < 32 → src.take s i.run.ctx (clusterOf n) 0 (fld sl 31 0) = .inl a →
      dst.take s i.run.ctx (clusterOf n) 0 (fld sl 31 0) = .inl b → (a.remote s && b.remote s) = false →
      ∃ t : State, exec (.cpy n x) s = .next t ∧ t.needle n = d.past 0x90 ∧
        AMap.get? t.xfers s.takeId.1 = some { who := .cpy n, eng, part := i.run.part, ctx := i.run.ctx, syIdx := 0x3FFF, run := some i.id
                                              src := a, dst := b, len := fld sl 31 0 } ∧
        { t with xfers := s.xfers, needles := s.needles } = { s.takeId.2 with xfers := s.xfers, needles := s.needles })) ∧
  (∀ (s : State) (n k o : Nat) (x : Upset) (i : Ins) (f : Nat), s.stands n 0x98 x i → i.f 63 28 = 0 →
    let d := s.needle n
    let so := d.rs (i.f 17 13)
    so.toNat < 2 ^ 14 → d.rs (i.f 27 23) = 0x3FFF → s.translate i.run.ctx (d.rs (i.f 12 8)).toNat 0 = .inl (k, f) → fpaDev f = s.myId →
    i.object s so = some o → ∃ t : State, exec (.fsig n x) s = .next t ∧ (t.obj o).val = (s.obj o).val + d.rs (i.f 22 18) ∧
      (t.needle n).pc = d.pc + 8 ∧ t.devMem = s.devMem) ∧
  (∀ (s : State) (id n : Nat) (x : Xfer), AMap.get? s.xfers id = some x → x.who = .cpy n → x.ended = true → x.path = .none → x.run = none →
    ∃ t : State, exec (.cpyDone id) s = .next t ∧ AMap.get? t.xfers id = none ∧
      (∀ o, x.sync = some o → (t.obj o).val = (s.obj o).val + 1)) ∧
  (∀ (s : State) (id n r : Nat) (x : Xfer), n < 512 → AMap.get? s.xfers id = some x → x.who = .cpy n → x.ended = true → x.path = .none →
    x.sync = none → x.run = some r → (s.needle n).run = some r → x.status ≠ 0 → AMap.get? s.runs r = none →
    ∃ t : State, exec (.cpyDone id) s = .next t ∧ (t.needle n).cpyst = cpystNote (s.needle n).cpyst x.status.toNat x.syIdx)

/-- Clusters and runs (R242, R243, R266, R302, R309-R314, R344): CLUSTER_CLEAR_DONE leaves zeros in every memory of a cluster, which is READY, and every other byte
as it was; NEEDLE_FAILED takes a needle out of service, NEEDLE_SPARED puts a spare in its place with its memory zeroed; RUN_BUDGET_EXPIRY faults the run with BUDGET;
LAUNCH_START starts the oldest launch that need not wait; TRANSFORM_CHUNK_READY, HANDLER_RUN_START and HOOK_RUN_START start a run on a free needle with the arguments of its
kind.
Where the spec leaves a point open, the model's own choice stands here: assumption log entries 3, 47, 86. -/
def Obligations.ClustersAndRunsAct : Prop :=
  (∀ (s : State) (c : Nat), c < 64 → (s.clu c).st = 1 → ∃ t : State, exec (.clusterClearDone c) s = .next t ∧
    (∀ k, Memory.rd t.shared k = if c * 2 ^ 22 ≤ k ∧ k < c * 2 ^ 22 + 2 ^ 22 then 0 else Memory.rd s.shared k) ∧
    (∀ k, Memory.rd t.imem k = if c * 2 ^ 18 ≤ k ∧ k < c * 2 ^ 18 + 2 ^ 18 then 0 else Memory.rd s.imem k) ∧
    (∀ k, Memory.rd t.localM k = if c * 2 ^ 23 ≤ k ∧ k < c * 2 ^ 23 + 2 ^ 23 then 0 else Memory.rd s.localM k) ∧
    ((s.clu c).bist = false → s.clusterBusy c = false → (s.clu c).repair = [] → (t.clu c).st = 2)) ∧
  (∀ (s : State) (n : Nat), n < 512 → bitAt (s.clu (clusterOf n)).present (needleSlot n) = true → (s.needle n).run = none →
    exec (.needleFailed n) s = .next ((((s.updClu (clusterOf n) (fun u => { u with
      present := u.present &&& ~~~(1#8 <<< needleSlot n), repair := u.repair ++ [needleSlot n] })).needleRec 1 (clusterOf n) (needleSlot n) 0)).clusterSettle
        (clusterOf n))) ∧
  (∀ (s : State) (c j : Nat), c < 64 → (s.clu c).st = 4 → (s.clu c).repair = [j] → j < 8 → (s.die (c / 16)).spares ≠ 0 →
    ∃ t : State, exec (.needleSpared c) s = .next t ∧ bitAt (t.clu c).present j = true ∧ (t.clu c).repair = [] ∧
      (t.die (c / 16)).spares + 1 = (s.die (c / 16)).spares ∧ t.needle (8 * c + j) = {} ∧
      (∀ k, (8 * c + j) * 2 ^ 20 ≤ k → k < (8 * c + j) * 2 ^ 20 + 2 ^ 20 → Memory.rd t.localM k = 0)) ∧
  (∀ (s : State) (id n : Nat) (l : Nats) (r : RunS), AMap.get? s.runs id = some r → r.left = n :: l →
    ∃ (info fresh : Nat), exec (.runBudgetExpiry id) s = .next ({ s with fresh }.runFault id n 1 8 (s.needle n).pc.toNat info)) ∧
  (∀ (s : State) (l : LaunchW) (d : Desc) (st : Nat), s.launches = [l] → l.launch = some d → s.launchGo l d = .ends st →
    let t := { s with launches := [] }.computeDone l.q l.work (launchCqe (fld d 191 128) 0 0 0 0 0 (qnum l.q) st) 0 [] none
    exec .launchStart s = .next (startHeads (t.launches.length + 1) t)) ∧
  (∀ (s : State) (l : LaunchW) (d : Desc) (g : Prog) (cs : Nats), s.launches = [l] → l.launch = some d → s.launchGo l d = .on g cs →
    exec .launchStart s = .next (startHeads ({ s with launches := [] }.kernelStart l d g cs).launches.length.succ
      ({ s with launches := [] }.kernelStart l d g cs))) ∧
  (∀ (s : State) (cid chunk at_ n : Nat) (msn : BitVec 32) (m : TxMsg) (b : Bind),
    (s.conn cid).tx.find? (fun m => m.msn == msn && !m.fin && !m.settled && !m.held && decide (chunk < m.given)) = some m →
    AMap.get? s.binds m.q = some b → b.slots.find? (fun e => e.2 == chunkMark cid msn.toNat chunk) = some (at_, chunkMark cid msn.toNat chunk) →
    s.runNeedle (at_ / 64) = some n → s.xfers.any (fun x => x.2.who == .chunk cid msn.toNat chunk at_) = false →
    AMap.get? m.outLen chunk = none →
    s.runs.any (fun r => r.2.kind == 2 && r.2.conn == cid && r.2.msn == msn && r.2.chunk == chunk) = false →
    let len := min b.chunk (m.len - chunk * b.chunk)
    exec (.transformChunkReady cid msn.toNat chunk) s = .next (s.takeId.2.bindRun m.q b n s.takeId.1
      [(1, b.inBase + at_ % 64 * b.chunk), (2, len), (3, b.outBase + at_ % 64 * b.chunk), (4, b.chunk), (5, chunk * 2 ^ 32 + msn.toNat),
       (6, m.op.toNat + b2n (chunk == 0) * 2 ^ 8 + b2n (chunk + 1 == m.chunks) * 2 ^ 9), (7, cid), (8, chunk * b.chunk)]
      { kind := 2, conn := cid, msn, chunk, slot := at_ % 64, inB := len, last := chunk + 1 == m.chunks })) ∧
  (∀ (s : State) (cid c k n : Nat) (msn : BitVec 32) (m : RxMsg) (b : Bind) (p : Pkt) (rest : List Pkt),
    (s.conn cid).rx.find? (fun m => m.msn == msn && m.settled.isNone && !m.hq.isEmpty) = some m → AMap.get? s.binds (2 ^ 32 + cid) = some b →
    m.hq = p :: rest → s.pickSlot b b.slotCount = some (c, k) → s.runNeedle c = some n → b.faulted = false → b.unbinding = none → p.op = 1 →
    let a := b.inBase + k * 4096
    let u := { s.takeId.2 with shared := Memory.wrs s.shared (sharedKey c a) p.payload }.updBind (2 ^ 32 + cid) (fun b => { b with
      slots := AMap.set b.slots (c * 64 + k) (runMark s.takeId.1) })
    exec (.handlerRunStart cid msn.toNat) s = .next (((u.putRx cid { m with hq := rest, runs := m.runs + 1 }).bindRun (2 ^ 32 + cid) b n s.takeId.1
      [(1, a), (2, p.payload.length), (5, msn.toNat), (6, 1 + b2n p.isFirst * 2 ^ 8 + b2n p.isLast * 2 ^ 9), (7, 0), (8, p.offset), (9, p.src)]
      { kind := 3, conn := cid, msn, slot := k, inB := p.payload.length }).rxSettle cid p.isLast)) ∧
  (∀ (s : State) (slot chunk cl k n : Nat) (ph : Bool) (bd : Bind), let c := s.coll slot
    (c.chunk chunk).hook = some ph → AMap.get? s.binds (collKey slot) = some bd → c.run.isSome = true →
    s.runs.any (fun r => r.2.kind == 4 && r.2.coll == slot && r.2.chunk == chunk) = false → s.pickSlot bd (cbDepth c.act) = some (cl, k) →
    s.runNeedle cl = some n →
    let x := c.chunk chunk
    let b := c.act
    let a := cbInBase b + k * (cbE b * max (elemSize (cbElem b)) (elemSize (resultElem b)))
    let u := { s.takeId.2 with shared := Memory.wrs s.shared (sharedKey cl a) x.pend }.updBind (collKey slot) (fun b => { b with
      slots := AMap.set b.slots (cl * 64 + k) (runMark s.takeId.1) })
    exec (.hookRunStart slot chunk) s = .next (u.bindRun (collKey slot) bd n s.takeId.1
      [(2, a), (3, x.pend.length), (4, b2n ph + chunk % 2 * 2), (5, chunk), (6, if ph then dstElem b c.desc chunk else srcElem b c.desc chunk),
       (7, c.seq.toNat), (8, cbRank b), (9, cbN b)]
      { kind := 4, chunk, slot := k, inB := x.pend.length, phase := ph, coll := slot }))

/-! ### Collectives and sync objects of the host -/

/-- The arrival of a collective packet of each CTYPE (R333, R334, R336-R339, R346, R349): one that fails its CRC counts as a transport error; one that no running slot
matches is discarded and counted; one of the slot's collective has the effect of its type, after which the slot goes on with what it may do; one of the next collective
is answered NOT_STARTED. An UP_DATA packet that does not complete its chunk is kept, with its bit set; a FETCH after an abort is answered by ABORT; ARRIVE from a child is
noted; what no collective in progress expects is discarded and counted.
Where the spec leaves a point open, the model's own choice stands here: assumption log entry 41. -/
def Obligations.CollectivePacketsAct : Prop :=
  (∀ e ∈ ([(.upData, 1, fun k p s => s.collUp k p), (.downData, 2, fun k p s => s.collDown k p), (.chunkAck, 3, fun k p s => s.collAck k p),
        ((fun n p => .collFetch n p []), 4, fun k p s => s.collFetch k p []), (.seal, 5, fun k p s => s.collSeal k p),
        (.sealAck, 6, fun k p s => s.collSealAck k p), (.collAbortPacket, 7, fun k p s => s.collAborted k p),
        (.arrive, 8, fun k p s => s.collArrive k p), (.notStarted, 9, fun k p s => s.collRefused k p)] :
          List ((Nat → Pkt → Instr) × Nat × (Nat → Pkt → State → State))),
      ∀ (s u : State) (n : Nat) (p : Pkt), p.proto = 1 → p.op = e.2.1 → s.takeHere n p = (u, true) →
        let k := ctSlot p
        let c := u.coll k
        let bad := c.st = 0 ∨ fld p.hdr 239 208 ≠ cbTag c.act ∨ cbN c.act ≤ ctRank p ∨ fld (c.table.getD (ctRank p) 0) 31 16 ≠ p.src
        (p.crcOk = false → exec (e.1 n p) s = .next (u.cntTp 0 1)) ∧
        (p.crcOk = true → bad ∨ (ctSeq p ≠ c.seq ∧ (ctSeq p ≠ c.seq + 1 ∨ p.op = 9)) → exec (e.1 n p) s = .next (u.collDiscard k)) ∧
        (p.crcOk = true → ¬bad → ctSeq p = c.seq → exec (e.1 n p) s = .next (u.collDo k (e.2.2 k p))) ∧
        (k < 64 → p.crcOk = true → ¬bad → ctSeq p = c.seq + 1 → p.op ≠ 9 → ∃ t : State, exec (e.1 n p) s = .next t ∧
          (t.coll k).cNot = satAdd c.cNot 1 ∧ (t.coll k).run = c.run)) ∧
  (∀ (s : State) (k : Nat) (p : Pkt), k < 64 →
    let c := s.coll k
    let n := ctChunk p
    let q := ctRank p
    let x := c.chunk n
    let had := AMap.get x.kidGot q 0
    c.run.isSome = true → c.st ≠ 4 → ctDigest p = paramDigest c.act c.desc c.seq c.table → (kidsOf c.act (ctTree p) (cbRank c.act)).contains q = true →
    c.shapeOk p = true → (upChunks c.act c.desc (ctTree p) q).contains n = true → bitAt had (ctPkt p) = false →
    had ||| BitVec.ofNat 64 (2 ^ ctPkt p) ≠ wholeBits (ctCount p) →
    ∃ t : State, s.collUp k p = t ∧ AMap.get ((t.coll k).chunk n).kidGot q 0 = had ||| BitVec.ofNat 64 (2 ^ ctPkt p) ∧
      AMap.get? ((t.coll k).chunk n).kidWire (q * 64 + ctPkt p) = some p.payload ∧ (t.coll k).cDisc = c.cDisc ∧ t.devMem = s.devMem) ∧
  (∀ (s : State) (k : Nat) (p : Pkt), (s.coll k).abortSt ≠ 0 → s.collFetch k p [] = s.sendAbort k (ctRank p)) ∧
  (∀ (s : State) (k : Nat) (p : Pkt), k < 64 → let c := s.coll k
    c.run.isSome = true → (kidsOf c.act (ctTree p) (cbRank c.act)).contains (ctRank p) = true → ctDigest p = paramDigest c.act c.desc c.seq c.table →
    ∃ r : CollRun, ((s.collArrive k p).coll k).run = some r ∧ (ctTree p, ctRank p) ∈ r.arrive) ∧
  (∀ (s : State) (k : Nat) (p : Pkt), k < 64 → (s.coll k).run = none →
    ∀ u ∈ [s.collUp k p, s.collDown k p, s.collAck k p, s.collSeal k p, s.collArrive k p, s.collRefused k p],
      (u.coll k).cDisc = satAdd (s.coll k).cDisc 1 ∧ (u.coll k).st = (s.coll k).st ∧ u.devMem = s.devMem)

/-- The engines and timers of a collective (R330, R334, R338, R342, R344-R346): COLL_BEGIN starts an ARMED slot at its instant; COLL_CONTRIB_READY takes what was read, or aborts
with SOURCE; CHUNK_ACK_TIMER acknowledges what has come of an incomplete chunk; UP_RESEND_TIMER sends the chunk again, seven times at most before it aborts with
PEER_LOST; FETCH_TIMER likewise; COLL_DEADLINE aborts with TIMEOUT; ABORT_REPEAT sends ABORT again to a neighbour that has not answered.
Where the spec leaves a point open, the model's own choice stands here: assumption log entry 3. -/
def Obligations.CollectiveTimersAct : Prop :=
  (∀ (s : State) (k : Nat), (s.coll k).st = 2 → s.tape.running = true → roundUp (fld (s.coll k).desc 511 448) 1000 ≤ s.now.toNat →
    exec (.collBegin k) s = .next (s.collDo k (fun t => t.collBegin k))) ∧
  (∀ (s u : State) (k n : Nat) (data bs : Bytes) (rd : ReadEnd) (errs : WordErrs), k < 64 → let c := s.coll k
    let b := c.act
    c.st = 3 → n < chunkCount b c.desc → contributes b c.desc (cbRank b) n = true → (c.chunk n).own = false → (c.chunk n).hook = none →
    n ≤ c.ownLimit (n % 2) → cbHookContrib b = false →
    s.collRead k (fld c.desc 351 304 + srcElem b c.desc n * elemSize (cbElem b)) (chunkElems b c.desc n * elemSize (cbElem b)) errs data rd = (u, .inl bs) →
    ∃ t : State, exec (.collContribReady k n data rd errs) s = .next t ∧ ∀ f : State → State, f s = u.contribute k n bs → t = s.collDo k f) ∧
  (∀ (s u : State) (k n st : Nat) (data : Bytes) (rd : ReadEnd) (errs : WordErrs), k < 64 → let c := s.coll k
    let b := c.act
    c.st = 3 → n < chunkCount b c.desc → contributes b c.desc (cbRank b) n = true → (c.chunk n).own = false → (c.chunk n).hook = none →
    n ≤ c.ownLimit (n % 2) →
    s.collRead k (fld c.desc 351 304 + srcElem b c.desc n * elemSize (cbElem b)) (chunkElems b c.desc n * elemSize (cbElem b)) errs data rd = (u, .inr st) →
    ∃ t : State, exec (.collContribReady k n data rd errs) s = .next t ∧ ∀ f : State → State, f s = u.collAbort k 29 n true → t = s.collDo k f) ∧
  (∀ (s : State) (k n q : Nat), k < 64 → let x := (s.coll k).chunk n
    let had := AMap.get x.kidGot q 0
    (s.coll k).run.isSome = true → had ≠ 0 → had ≠ wholeBits (AMap.get x.kidN q 0) →
    exec (.chunkAckTimer k n q) s = .next (s.sendChunkAck k n q had)) ∧
  (∀ (s : State) (k n q : Nat), let c := s.coll k
    c.ackDest n = some q → c.st = 3 → (c.chunk n).upSent = true → (c.chunk n).upAcked = false →
    (7 ≤ (c.chunk n).resends → exec (.upResendTimer k n) s = .next (s.collDo k (fun t => t.collAbort k 27 n true))) ∧
    ((c.chunk n).resends < 7 → exec (.upResendTimer k n) s = .next
      (((s.updColl k (fun c => { c with cResent := satAdd c.cResent 1 })).updChunk k n (fun x => { x with resends := x.resends + 1 })).sendChunk k n q
        (c.ackType n) (c.chunk n).wire (List.range (chunkPkts c.act c.desc n))))) ∧
  (∀ (s : State) (k n q : Nat), let c := s.coll k
    c.st = 3 → sourceOf c.act c.desc (cbRank c.act) n = some q → n < chunkCount c.act c.desc → (c.chunk n).verified = false → (c.chunk n).rGot ≠ 0 →
    (7 ≤ (c.chunk n).fetches → exec (.fetchTimer k n) s = .next (s.collDo k (fun t => t.collAbort k 27 n true))) ∧
    ((c.chunk n).fetches < 7 → exec (.fetchTimer k n) s = .next (s.sendFetch k n))) ∧
  (∀ (s : State) (k : Nat), (s.coll k).st = 3 → exec (.collDeadline k) s = .next (s.collDo k (fun t => t.collAbort k 31 0 true))) ∧
  (∀ (s : State) (k r n : Nat), (s.coll k).aborts = [(r, n)] →
    exec (.abortRepeat k) s = .next (if n ≤ 7
      then (s.updColl k (fun c => { c with aborts := AMap.upd c.aborts r 0 (· + 1) })).sendAbort k r
      else s.updColl k (fun c => { c with aborts := AMap.erase c.aborts r })))

/-- The host's writes to sync objects and to doorbell words (R352, R353, R355, R356, R364-R366): SYNC_DB_ADD and SYNC_DB_SET give the object its value, SYNC_DB_ARM arms its waiter; an index outside
the allotment is counted and changes no object. DB_H2A_SET sets bits of a tenant's word, DB_A2H_CLEAR clears them in its other word, the masks are written whole, and the manager
clears and sets a tenant's.
Where the spec leaves a point open, the model's own choice stands here: assumption log entry 53. -/
def Obligations.SyncAndDoorbellWritesAct : Prop :=
  (∀ (s : State) (p i o v : Nat), s.barOpen p = true → Ranges.item (s.leaveIdle.part p).syncs i = some o →
    (∃ t : State, exec (.syncDbAdd p i v) s = .next t ∧ (t.obj o).val = (s.leaveIdle.obj o).val + dbValue v ∧
      (∀ q, q ≠ o → t.obj q = s.leaveIdle.obj q)) ∧
    (∃ t : State, exec (.syncDbSet p i v) s = .next t ∧ (t.obj o).val = dbValue v ∧ (∀ q, q ≠ o → t.obj q = s.leaveIdle.obj q)) ∧
    (∃ t : State, exec (.syncDbArm p i v) s = .next t ∧ (t.obj o).val = (s.leaveIdle.obj o).val ∧ (t.obj o).thresh = dbValue v ∧
      (t.obj o).armed = decide ((s.leaveIdle.obj o).val.toNat < (dbValue v).toNat))) ∧
  (∀ (s : State) (p i v : Nat), s.barOpen p = true → Ranges.item (s.leaveIdle.part p).syncs i = none →
    ∀ c ∈ [Instr.syncDbAdd p i v, .syncDbSet p i v, .syncDbArm p i v], exec c s = .next (s.leaveIdle.updPart p (fun q => { q with
      syncRefused := satAdd q.syncRefused 1 }))) ∧
  (∀ (s : State) (p i v : Nat), s.barOpen p = false →
    ∀ c ∈ [Instr.syncDbAdd p i v, .syncDbSet p i v, .syncDbArm p i v, .dbH2aSet p (BitVec.ofNat 32 v), .dbA2hClear p (BitVec.ofNat 32 v),
      .dbA2hMaskWrite p (BitVec.ofNat 32 v)], exec c s = .next s) ∧
  (∀ (s : State) (p : Nat) (w : BitVec 32), s.barOpen p = true → p < 64 →
    (p ≠ 0 → ∃ t : State, exec (.dbH2aSet p w) s = .next t ∧ (t.func p).dbH2A = (s.func p).dbH2A ||| w ∧ t.beyond = s.beyond) ∧
    (∃ t : State, exec (.dbA2hClear p w) s = .next t ∧ t.func p = { s.func p with dbA2H := (s.func p).dbA2H &&& ~~~w } ∧
      (∀ q, q ≠ p → t.func q = s.func q) ∧ { t with funcs := s.funcs } = s) ∧
    (∃ t : State, exec (.dbA2hMaskWrite p w) s = .next t ∧ (t.func p).dbA2HMask = w ∧ (t.func p).dbA2H = (s.func p).dbA2H ∧ t.beyond = s.beyond)) ∧
  (∀ (s : State) (p : Nat) (w : BitVec 32), s.barOpen 0 = true → 1 ≤ p → p ≤ 63 →
    (∃ t : State, exec (.mgrH2aClear p w) s = .next t ∧ t.func p = { s.func p with dbH2A := (s.func p).dbH2A &&& ~~~w } ∧
      (∀ q, q ≠ p → t.func q = s.func q) ∧ { t with funcs := s.funcs } = s) ∧
    (∃ t : State, exec (.mgrH2aMaskWrite p w) s = .next t ∧ (t.func p).h2aMask = w ∧ (t.func p).dbH2A = (s.func p).dbH2A ∧ t.beyond = s.beyond) ∧
    (∃ t : State, exec (.mgrA2hSet p w) s = .next t ∧ (t.func p).dbA2H = (s.func p).dbA2H ||| (w &&& 0x7FFFFFFF#32) ∧ t.beyond = s.beyond))

/-! ### The tape's timers and messages -/

/-- The tape's own events (R369, R372, R374, R375, R377): TAPE_LOSS_TIMEOUT moves LOCKED to HOLDOVER and ACQUIRING to FREE, HOLDOVER_EXPIRY HOLDOVER to FREE, each with its
record; UPSTREAM_SWITCH takes the port that has stayed better; TAPE_EVENT_DUE applies a due event to its object and disarms it or moves it on by its period; BOOK_SLOT_BOUNDARY opens VC0
where the slot is booked, and suspends bookings outside LOCKED; PPS_EDGE compares the count with the second named; PTP messages give the times of a
Sync, and the delay.
Where the spec leaves a point open, the model's own choice stands here: assumption log entries 3, 50, 51, 52. -/
def Obligations.TapeEventsAct : Prop :=
  (∀ (s : State), s.straps.tapeSrc ≠ 3 →
    (s.tape.state = 2 → exec .tapeLossTimeout s = .next ((s.tapeTo 3).tapeRec 2 0)) ∧
    (s.tape.state = 1 → exec .tapeLossTimeout s = .next ((s.tapeTo 4).tapeRec 3 0))) ∧
  (∀ (s : State), s.tape.state = 3 → ∃ t : State, exec .holdoverExpiry s = .next t ∧ t.tape.state = 4 ∧ t.tape.ns = s.tape.ns ∧
    { t with tape := s.tape }.beyond = s.beyond) ∧
  (∀ (s : State) (n : Nat), s.inBand = true → s.tape.better = some n → s.bestMark = some n → n < 32 →
    ∃ t : State, exec .upstreamSwitch s = .next t ∧ t.tape.upstream = BitVec.ofNat 8 n ∧ t.tape.better = none ∧ { t with tape := s.tape } = s) ∧
  (∀ (s : State) (p k o : Nat), p < 64 → s.tape.running = true → let e := AMap.get (s.part p).events k {}
    e.due s.now.toNat = true → Ranges.item (s.part p).syncs e.index = some o →
    ∃ t : State, exec (.tapeEventDue p k) s = .next t ∧ (t.obj o).val = (if e.set then e.value else (s.obj o).val + e.value) ∧
      AMap.get (t.part p).events k {} = (if e.period = 0 then { e with armed := false } else { e with atNs := e.atNs + e.period * 1000 }) ∧
      (∀ q, q ≠ o → t.obj q = s.obj q)) ∧
  (∀ (s : State), ∃ t : State, exec .bookSlotBoundary s = .next t ∧ { t with ports := s.ports } = s ∧
    ∀ n < 32, (s.port n).bookAct.cycle ≠ 0 → (s.tape.state ≠ 2 → (t.port n).bookSusp = true ∧ (t.port n).vc0Open = false) ∧
      (s.tape.state = 2 → (s.port n).bookSusp = false → (t.port n).bookSusp = false ∧
        (t.port n).vc0Open = (s.port n).bookAct.bits.testBit (s.now.toNat / 2000 % (s.port n).bookAct.cycle))) ∧
  (∀ (s : State) (k : BitVec 64), s.straps.tapeSrc = 1 → s.tape.running = true → s.tape.ppsSec = some k →
    exec .ppsEdge s = .next ((s.updTape (fun t => { t with ppsSec := some (k + 1) })).tapeCompare ((k.toNat : Int) * (10 ^ 9 * 65536) - s.tapeUnits))) ∧
  (∀ (s : State) (m : PtpMsg), s.ptpMine m = true → m.kind = 0 → let u := (s.cntMgmt 12 1).cntMgmt 1 1
    (m.twoStep = true → exec (.ptpEventMessage m) s = .next (u.updTape (fun t => { t with ptpWait := some (u.now, BitVec.ofNat 16 m.seq) }))) ∧
    (m.twoStep = false → exec (.ptpEventMessage m) s = .next (u.ptpSync m.time u.now m.correction))) ∧
  (∀ (s : State) (m : PtpMsg) (t2 : BitVec 64) (q : BitVec 16), s.ptpMine m = true → s.tape.ptpWait = some (t2, q) → q.toNat = m.seq → m.kind = 8 →
    exec (.ptpGeneralMessage m) s = .next ((s.cntMgmt 1 1).ptpSync m.time t2 m.correction)) ∧
  (∀ (s : State) (m : PtpMsg), s.ptpMine m = true → m.kind = 9 → ∃ t : State, exec (.ptpGeneralMessage m) s = .next t ∧
    t.tape.ptpDelay = (((s.tape.ptpT2.toNat : Int) - s.tape.ptpT1.toNat + (m.time.toNat - s.tape.ptpT3.toNat)) * 65536 - m.correction) / 2 ∧
    { t with tape := s.tape, mgmt := s.mgmt } = s)

/-! ### Queues, mailboxes and partitions -/

/-- Rings and doorbells (R404, R407, R409, R410, R421, R422, R424, R426): DOORBELL_WRITE of PI takes it and reads the index record; of CI, the adapter's ring takes what waited; a value out of
range, or for no queue, is counted and changes nothing. INDEX_RECORD_READ allows fetching up to the record's PI; INDEX_REREAD_TIMER reads again; ENTRY_FETCH executes entries in order; PARAM_READ executes the
indirect command; CI_WRITE writes CI to the record. ADMIN_ENABLE turns the admin queue on with its basting configuration, or REFUSED; ADMIN_DISABLE turns it off. LONG_CMD_FINAL ends the
long command in progress. MAILBOX_GO hands the message to the firmware.
Where the spec leaves a point open, the model's own choice stands here: assumption log entries 53, 57. -/
def Obligations.QueuesAct : Prop :=
  (∀ (s : State) (p q : Nat) (v : BitVec 64) (u : QueueS), s.barOpen p = true → s.leaveIdle.queue? (qkey p q) = some u → q ≤ 65535 →
    u.hostWritten = true → bitAt v 63 = false → (v.truncate 32 - u.ci).toNat ≤ u.size → (v.truncate 32 : BitVec 32) ≠ u.pi →
    exec (.doorbellWrite p q v) s = .next ((s.leaveIdle.updQueue (qkey p q) (fun u => { u with pi := v.truncate 32 })).readIndex (qkey p q))) ∧
  (∀ (s : State) (p q : Nat) (v : BitVec 64) (u : QueueS), s.barOpen p = true → s.leaveIdle.queue? (qkey p q) = some u → q ≤ 65535 →
    u.hostWritten = false → (u.pi - v.truncate 32).toNat ≤ u.size → u.isFault = false →
    exec (.doorbellWrite p q v) s = .next (((s.leaveIdle.updQueue (qkey p q) (fun u => { u with
      ci := v.truncate 32, armed := u.armed || bitAt v 63 })).ringDrain (qkey p q)).ringNotify (qkey p q))) ∧
  (∀ (s : State) (p q : Nat) (v : BitVec 64), p < 64 → s.barOpen p = true →
    s.leaveIdle.queue? (qkey p q) = none ∨ (∃ u, s.leaveIdle.queue? (qkey p q) = some u ∧ u.hostWritten = true ∧
      (bitAt v 63 = true ∨ u.size < (v.truncate 32 - u.ci).toNat)) →
    ∃ t : State, exec (.doorbellWrite p q v) s = .next t ∧ (t.func p).dbRefused = satAdd (s.func p).dbRefused 1 ∧
      t.queues = s.queues ∧ t.beyond = s.leaveIdle.beyond) ∧
  (∀ (s : State) (p q : Nat) (r : BitVec 128) (u : QueueS), s.queue? (qkey p q) = some u → u.reading = true → u.again = false →
    (r.truncate 32 - u.ci).toNat ≤ u.size → (u.pi - u.ci).toNat ≤ (r.truncate 32 - u.ci).toNat →
    ∃ t : State, exec (.indexRecordRead p q r .ok) s = .next t ∧
      t.queue? (qkey p q) = some { u with reading := false, recPi := r.truncate 32, rereads := 0 } ∧
      { t with queues := s.queues, host := s.host } = s) ∧
  (∀ (s : State) (p q : Nat) (r : BitVec 128) (u : QueueS), s.queue? (qkey p q) = some u → u.reading = true →
    u.size < (r.truncate 32 - u.ci).toNat → exec (.indexRecordRead p q r .ok) s = .next
      (((s.updQueue (qkey p q) (fun u => { u with reading := false, again := false })).cntHost 0 16).malformed p q (u.ci.toNat % u.size) 0)) ∧
  (∀ (s : State) (p q : Nat) (u : QueueS), s.queue? (qkey p q) = some u → u.reading = false → u.rereads ≠ 0 → s.fetching p = true →
    exec (.indexRereadTimer p q) s = .next ((s.updQueue (qkey p q) (fun u => { u with reading := true })).hostReq
      { kind := 1, func := p, addr := BitVec.ofNat 64 u.idxVa })) ∧
  (∀ (s : State) (p q : Nat) (es : DescList) (o : Outside) (u : QueueS), s.queue? (qkey p q) = some u → u.hostWritten = true → u.recPi ≠ u.ci →
    s.fetching p = true → exec (.entryFetch p q es .ok o) s = .next (takeEntries p q o es (s.cntHost 0 (64 * min es.length (u.recPi - u.ci).toNat)))) ∧
  (∀ (s : State) (p tag op n va : Nat) (ps : Bytes) (o : Outside) (h : Issue), p < 64 →
    (s.part p).paramWait.find? (fun w => w.1.tag == tag) = some (h, op, n, va) →
    let u := s.updPart p (fun x => { x with paramWait := x.paramWait.erase (h, op, n, va) })
    exec (.paramRead p tag ps .ok o) s = .next (((u.cntHost 0 n).runParams h op (padTo n ps) o).adminSettle p)) ∧
  (∀ (s : State) (p q : Nat) (u : QueueS), s.queue? (qkey p q) = some u → u.hostWritten = true → u.ciRep ≠ u.ci →
    exec (.ciWrite p q) s = .next ((s.updQueue (qkey p q) (fun u => { u with ciRep := u.ci })).hostWrite p (u.idxVa + 8) (bytesLE 4 u.ci.toNat))) ∧
  (∀ (s : State) (p : Nat), p < 64 → s.barOpen p = true → (s.func p).adminState = 0 →
    ((s.func p).adminBast.ok = true → ∃ t : State, exec (.adminEnable p) s = .next t ∧ (t.func p).adminState = 1 ∧
      (t.func p).adminAct = (s.func p).adminBast ∧ t.queue? (qkey p 0) = some { kind := 7, blk := (s.func p).adminBast.block false } ∧
      t.queue? (qkey p 1) = some { kind := 8, blk := (s.func p).adminBast.block true }) ∧
    ((s.func p).adminBast.ok = false → ∃ t : State, exec (.adminEnable p) s = .next t ∧ (t.func p).adminState = 2 ∧ t.queues = s.queues)) ∧
  (∀ (s : State) (p : Nat), p < 64 → s.barOpen p = true → (s.func p).adminState = 1 → (s.part p).long = [] → (s.part p).paramWait = [] →
    (s.part p).owed = [] → ∃ t : State, exec (.adminDisable p) s = .next t ∧ (t.func p).adminState = 0 ∧ t.queue? (qkey p 0) = none ∧
      t.queue? (qkey p 1) = none) ∧
  (∀ (s : State) (p tag : Nat) (ok : Bool) (l : LongC), (s.part p).running.find? (fun l => l.tag.toNat == tag) = some l →
    (l.opcode = 0x0610 → exec (.longCmdFinal p tag ok) s = .next (s.progLoadEnd p tag)) ∧
    (l.opcode = 0x0A10 → exec (.longCmdFinal p tag ok) s = .next (s.updateEnd p tag ok)) ∧
    (l.opcode = 0x0A20 → exec (.longCmdFinal p tag ok) s = .next (s.attestEnd p tag))) ∧
  (∀ (s : State) (p : Nat) (o : Outside), s.barOpen p = true → (s.func p).mbox.go = false → (p = 0 → s.thimble.booting = false) →
    exec (.mailboxGo p o) s = .next (s.mboxGo p o)) ∧
  (∀ (s : State) (p : Nat) (o : Outside), (s.func p).mbox.go = true → exec (.mailboxGo p o) s = .next s)

/-- Partitions (R386, R387, R442-R446): PARTITION_RESET_STEP carries out the step in progress and names the next; RESET_FORCED follows where a step's limit passes; UNIT_ERASE_DONE frees the
lowest unit under erasure, which then reads zero, and no other byte changes; VF_ENABLE_SET makes tenants EMPTY or ACTIVE; VF_ENABLE_CLEAR, VF_FLR and PF_FLR reset the partitions that hold
something.
Where the spec leaves a point open, the model's own choice stands here: assumption log entries 3, 55. -/
def Obligations.PartitionEventsAct : Prop :=
  (∀ (s : State) (p n : Nat), p < 64 → (s.part p).resetStep = n → n ≠ 0 →
    (n < 10 → exec (.partitionResetStep p) s = .next ((s.resetAct p n).updPart p (fun x => { x with resetStep := n + 1 }))) ∧
    (n = 10 → exec (.partitionResetStep p) s = .next ((s.resetAct p n).resetEnd p))) ∧
  (∀ (s : State) (k p : Nat) (h : Issue), p < 64 → (s.unit k).st = 2 → (s.unit k).owner = p →
    s.units.any (fun e => decide (e.1 < k) && e.2.st == 2 && e.2.owner == p) = false → (s.part p).destroy = some h →
    (∃ m ∈ (s.part p).units, m ≠ k) → ∃ t : State, exec (.unitEraseDone k) s = .next t ∧ t.unit k = {} ∧
      (t.part p).units = (s.part p).units.filter (· != k) ∧
      (∀ a, Memory.rd t.devMem a = if k * 2 ^ 30 ≤ a ∧ a < k * 2 ^ 30 + 2 ^ 30 then 0 else Memory.rd s.devMem a)) ∧
  (∀ (s : State), s.host.vfEnable = false → 5 ≤ s.rst.stage.toNat → s.rst.stage ≠ 7 →
    ∃ t : State, exec .vfEnableSet s = .next t ∧ t.host.vfEnable = true ∧ { t with host := s.host, parts := s.parts } = s ∧
      ∀ p, 1 ≤ p → p ≤ 63 → t.part p = { s.part p with
        st := if (s.part p).st = 0 then (if (s.part p).held then 2 else 1) else (s.part p).st }) ∧
  (∀ (s : State), s.host.vfEnable = true → (∀ p, 1 ≤ p → p ≤ 63 → (s.part p).held = false) →
    ∃ t : State, exec .vfEnableClear s = .next t ∧ t.host.vfEnable = false ∧ { t with host := s.host, parts := s.parts } = s ∧
      ∀ p, 1 ≤ p → p ≤ 63 → (t.part p).st = if (s.part p).st = 1 then 0 else (s.part p).st) ∧
  (∀ (s : State) (p : Nat), 1 ≤ p → p ≤ 63 → s.host.vfEnable = true →
    ((s.part p).held = true → exec (.vfFlr p) s = .next (s.resetTrigger p none)) ∧
    ((s.part p).held = false → exec (.vfFlr p) s = .next (s.updFunc p (fun f => f.reset true)))) ∧
  (∀ (s : State), s.host.vfEnable = false → exec .pfFlr s = .next (s.resetTrigger 0 none)) ∧
  (∀ (s : State) (p : Nat), s.rst.stage = 6 → p < 64 → (s.part p).st ≠ 5 → (s.part p).resetStep = 0 →
    ∃ t : State, s.resetTrigger p none = t ∧ t = (s.updPart p (fun x => { x with resetFrom := x.resetFrom ++ [none] })).resetBegin p false) ∧
  (∀ (s : State) (p : Nat), s.rst.stage ≠ 6 → ∃ t : State, s.resetTrigger p none = t ∧ p ∈ t.rst.heldParts ∧ { t with rst := s.rst } = s)

/-! ### The host link -/

/-- The host link's events (R386, R389-R392, R394-R397): DATA_LINK_DOWN of a link that is up starts a ride-through; DATA_LINK_UP ends it, at the width and speed given; LTSSM_RECOVERY is counted;
LTSSM_LOOPBACK takes the data link down; LINK_LOSS_TIMER, HOT_RESET and PERST_ASSERT lose the link; PERST_RELEASE releases a host interface that waited; FLUSH_READ_DONE writes the PI of the
entry it followed; HOST_READ_COMPLETION hands the bytes to what asked for them; CACHE_GO fills the line asked for; HOST_SNOOP invalidates a clean line or leaves a Shared copy; CACHE_ENABLE and
BUS_MASTER_ENABLE take their bit; MSIX_UNMASK clears a vector's mask.
Where the spec leaves a point open, the model's own choice stands here: assumption log entries 53, 54, 55, 56. -/
def Obligations.HostLinkEventsAct : Prop :=
  (∀ (s : State), s.host.up = true → ∃ t : State, exec .dataLinkDown s = .next t ∧ t.host.up = false ∧ t.host.riding = true ∧
    t.host.rideNs = s.clockNs ∧ t.host.hold = s.host.hold ∧ { t with host := s.host } = s) ∧
  (∀ (s : State) (width speed : Nat), s.host.up = false → s.pins.perstN = true → s.host.riding = false → 16 ≤ width → 7 ≤ speed →
    ∃ t : State, exec (.dataLinkUp width speed) s = .next t ∧ t.host = { s.host with
      up := true, loopback := false, width := BitVec.ofNat 5 width, speed := BitVec.ofNat 4 speed } ∧ t.pins = { s.pins with refclkOk := true } ∧
      { t with host := s.host, pins := s.pins } = s) ∧
  (∀ (s : State) (width speed : Nat), s.host.up = false → s.pins.perstN = true → s.host.riding = true →
    exec (.dataLinkUp width speed) s = .next (((({ s with pins := { s.pins with refclkOk := true } }.updHost (fun h => { h with
      up := true, loopback := false })).linkRate width speed)).rideEnd)) ∧
  (∀ (s : State), exec .ltssmRecovery s = .next (if s.host.up then s.cntHost 8 1 else s)) ∧
  (∀ (s : State), s.host.up = true → ∃ t : State, exec .ltssmLoopback s = .next t ∧ t.host.up = false ∧ t.host.loopback = true ∧ { t with host := s.host } = s) ∧
  (∀ (s : State), s.host.riding = true → s.host.up = false → exec .linkLossTimer s = .next s.linkLoss) ∧
  (∀ (s : State), exec .hotReset s = .next s.linkLoss) ∧
  (∀ (s : State), let u := { s with pins := { s.pins with perstN := false } }
    (s.rst.dormant = true → exec .perstAssert s = .next (u.coldTrigger 7)) ∧
    (s.rst.dormant = false → s.rst.halted = false → exec .perstAssert s = .next u.linkLoss) ∧
    (s.rst.dormant = false → s.rst.halted = true → exec .perstAssert s = .next (u.updHost (fun h => { h with up := false })))) ∧
  (∀ (s : State), s.rst.perstHold = true → ∃ t : State, exec .perstRelease s = .next t ∧ t.pins.perstN = true ∧ t.rst.perstHold = false ∧
    t.host.rrs = false ∧ t.rst.stage = s.rst.stage) ∧
  (∀ (s : State) (p : Nat) (w : HWait), s.host.waits.find? (fun w => w.func == p && (w.stage == 0 || w.stage == 1)) = some w → w.stage = 1 →
    exec (.flushReadDone p .ok) s = .next ((s.updHost (fun h => { h with waits := h.waits.erase w })).ringPi w.q w.pi)) ∧
  (∀ (s : State) (i : Nat) (data : Bytes) (r : HRead), s.host.reads[i]? = some r → s.isolated 8 (Config.dmaOf r.func) = false → r.coh = false →
    exec (.hostReadCompletion i data .ok) s =
      .next (((s.updHost (fun h => { h with reads := h.reads.eraseIdx i })).cntHost 0 r.len).readDone r (some (padTo r.len data)))) ∧
  (∀ (s : State) (i : Nat) (data : Bytes) (r : HRead) (rd : ReadEnd), s.host.reads[i]? = some r → s.isolated 8 (Config.dmaOf r.func) = false →
    rd ≠ .ok → exec (.hostReadCompletion i data rd) s =
      .next (((s.updHost (fun h => { h with reads := h.reads.eraseIdx i })).hostReadError r.func r.addr.toNat).readDone r none)) ∧
  (∀ (s : State) (a : Nat) (data : Bytes) (c : CLine), AMap.get? s.host.cache (a / 64 * 64) = some c → c.st = 0 → c.merge = [] →
    s.host.reads = [] → s.host.waits = [] → s.xfers = [] → s.conns = [] →
    ∃ (t : State) (d : CLine), exec (.cacheGo a data) s = .next t ∧ AMap.get? t.host.cache (a / 64 * 64) = some d ∧ d.st = 1 ∧ d.data = padTo 64 data ∧
      { t with host := s.host } = s) ∧
  (∀ (s : State) (a : Nat) (c : CLine), AMap.get? s.host.cache (a / 64 * 64) = some c → c.st ≠ 0 →
    (c.merge = [] → ∃ t : State, exec (.hostSnoop a true) s = .next t ∧ AMap.get? t.host.cache (a / 64 * 64) = none ∧ { t with host := s.host } = s) ∧
    (∃ t : State, exec (.hostSnoop a false) s = .next t ∧ AMap.get? t.host.cache (a / 64 * 64) = some { c with st := 1 } ∧ { t with host := s.host } = s)) ∧
  (∀ (s : State) (on : Bool), ∃ t : State, exec (.cacheEnable on) s = .next t ∧ t.host = { s.host with cacheEn := on } ∧ { t with host := s.host } = s) ∧
  (∀ (s : State) (p : Nat), s.funcOn p = true → (∃ t : State, exec (.busMasterEnable p false) s = .next t ∧ (t.func p) = { s.func p with busMaster := false } ∧
      { t with funcs := s.funcs } = s) ∧
    (s.host.bmeWait.filter (fun r => r.func == p) = [] → ∃ t : State, exec (.busMasterEnable p true) s = .next t ∧
      (t.func p) = { s.func p with busMaster := true } ∧ t.host.gone = (s.host.gone && p != 0) ∧ { t with funcs := s.funcs, host := s.host } = s)) ∧
  (∀ (s : State) (p v : Nat), s.funcOn p = true → v ≤ 2047 → (s.func p).msixPend.contains v = false →
    ∃ t : State, exec (.msixUnmask p v) s = .next t ∧ bitAt (AMap.get (t.func p).msix v {}).ctl 0 = false ∧
      (∀ q, q ≠ p → t.func q = s.func q) ∧ { t with funcs := s.funcs } = s)

/-! ### The thimble: booting, attestation and secure mailboxes -/

/-- Booting from outside (R450-R455, R540, R542): BOOT_IMAGE and a TFTP transfer's last block hand their bundle to the thimble's checks; NETWORK_BOOT_RETRY starts again from the address; a DHCP answer starts the transfer, and a
file over 2^25 bytes ends it; I3C_RECOVERY_WRITE of LENGTH restarts reception and of the window appends 256 bytes, the last of which has the bundle checked; I3C_REG_WRITE keeps the offset; SETDASA
and ENTDAA give dynamic addresses. BOOT_OK within 10 s of the release notes what the bundle asks to be committed and starts the first fuse pulse.
Where the spec leaves a point open, the model's own choice stands here: assumption log entries 11, 64. -/
def Obligations.BootingActs : Prop :=
  (∀ (s : State) (b : Bundle) (rd : ReadEnd), s.thimble.booting = true → s.fetchingBundle = true → (s.func 0).mbox.go = false →
    exec (.bootImage b rd) s = .next (s.bootMessage b rd)) ∧
  (∀ (s : State) (b : Bundle), ∃ t : State, s.tryBundle b .ok = (t, s.bundleReason b .ok) ∧ t.thimble.bootReason = BitVec.ofNat 8 (s.bundleReason b .ok) ∧
    (if s.bundleReason b .ok = 0 then t.thimble.bundle = some b ∧ t.thimble.state = 2 ∧ t.rst.bundleReady = true
      else t.thimble.attempt = s.thimble.attempt + 1 ∧ t.thimble.bundle = s.thimble.bundle)) ∧
  (∀ (s : State), s.netBoot = true → exec .networkBootRetry s = .next
    ((s.updThimble (fun t => { t with netIp := none, netFile := false, netBlock := 0, netBytes := 0 })).sendBoot 0 0)) ∧
  (∀ (s : State) (f : BootFrame) (b : Bundle), s.netBoot = true →
    (f.kind = 1 → s.thimble.netIp = none → exec (.networkBootFrame f b) s = .next
      (((s.updThimble (fun t => { t with netIp := some f.ip, netFile := true, netBlock := 0, netBytes := 0 })).updMgmt (fun m => { m with ip := f.ip })).sendBoot
        2 0)) ∧
    (f.kind = 3 → s.thimble.netFile = true → f.block ≠ s.thimble.netBlock % 65536 → f.block = (s.thimble.netBlock + 1) % 65536 →
      let u := (s.updThimble (fun t => { t with netBlock := t.netBlock + 1, netBytes := t.netBytes + f.len })).sendBoot 3 f.block
      (2 ^ 25 < s.thimble.netBytes + f.len → exec (.networkBootFrame f b) s = .next ((u.updThimble (fun t => { t with netFile := false })).bootFails 2)) ∧
      (s.thimble.netBytes + f.len ≤ 2 ^ 25 → f.len < f.blksize → exec (.networkBootFrame f b) s = .next
        ((u.updThimble (fun t => { t with netFile := false })).tryBundle b .ok).1))) ∧
  (∀ (s : State) (data : Bytes) (b : Bundle), s.pins.powered = true → s.recoveryOpen = true →
    (data.length = 4 → natLE data ≤ 2 ^ 25 → ∃ t : State, exec (.i3cRecoveryWrite 0x8000 data b) s = .next t ∧
      t.i3c = { s.i3c with len := BitVec.ofNat 32 (natLE data), got := 0, status := 1, reason := 0 } ∧ { t with i3c := s.i3c } = s) ∧
    (data.length = 256 → s.i3c.status = 1 → s.i3c.got + 256 < s.i3c.len.toNat → ∃ t : State, exec (.i3cRecoveryWrite 0x8100 data b) s = .next t ∧
      t.i3c = { s.i3c with got := s.i3c.got + 256 } ∧ { t with i3c := s.i3c } = s) ∧
    (data.length = 256 → s.i3c.status = 1 → s.i3c.len.toNat ≤ s.i3c.got + 256 → ∃ t : State, exec (.i3cRecoveryWrite 0x8100 data b) s = .next t ∧
      let k := (({ s with i3c := { s.i3c with got := s.i3c.got + 256 } } : State).tryBundle b .ok).2
      t.i3c.status = (if k = 0 then 3 else 4) ∧ t.i3c.reason = BitVec.ofNat 8 k)) ∧
  (∀ (s : State) (a b k : Nat), s.pins.powered = true →
    (∃ t : State, exec (.i3cRegWrite a) s = .next t ∧ t.i3c = { s.i3c with off := BitVec.ofNat 16 a } ∧ { t with i3c := s.i3c } = s) ∧
    (k < 2 → ∃ t : State, exec (.setdasa k a) s = .next t ∧ AMap.get? t.i3c.dyn k = some (BitVec.ofNat 7 a) ∧
      (∀ j, j ≠ k → AMap.get? t.i3c.dyn j = AMap.get? s.i3c.dyn j) ∧ { t with i3c := s.i3c } = s) ∧
    (∃ t : State, exec (.entdaa a b) s = .next t ∧ AMap.get? t.i3c.dyn 0 = (AMap.get? s.i3c.dyn 0).or (some (BitVec.ofNat 7 a)) ∧
      AMap.get? t.i3c.dyn 1 = (AMap.get? s.i3c.dyn 1).or (some (BitVec.ofNat 7 b)) ∧ { t with i3c := s.i3c } = s)) ∧
  (∀ (s : State) (b : Bundle), s.thimble.bundle = some b → s.rst.stage = 6 → s.thimble.state = 3 → s.thimble.bootOk = false →
    s.clockNs ≤ s.thimble.releasedAt + 10 * 10 ^ 9 → ∃ t : State, exec .bootOk s = .next t ∧ t.thimble = { s.thimble with
      bootOk := true
      wantSvn := if b.flags.testBit 0 = true ∧ s.thimble.svnFuse.toNat < b.svn then some (BitVec.ofNat 8 b.svn) else none
      wantRevoke := b.flags.testBit 1 && b.rootSlot == 1 && !s.thimble.slot0Revoked } ∧
      { t with thimble := s.thimble, rst := s.rst } = s)

/-- Secure mailboxes and non-volatile commits (R455, R456, R464, R488): MR_EXTEND extends MR7, MR_READ returns a register, KEK_ROTATE raises the key epoch by one and SELF_TEST reports, each in the reply of its mailbox;
NOTICE fills the first free of mailboxes 4 to 7 and SECURE_MAILBOX_REPLY frees it; FUSE_PULSE_END blows one fuse and NV_WRITE_END ends one page, then a held reset starts.
Where the spec leaves a point open, the model's own choice stands here: assumption log entries 66, 68, 69. -/
def Obligations.SecureMailboxesAct : Prop :=
  (∀ (s : State) (m : Nat), m < 4 → s.barOpen 0 = true → (s.secure m).go = false →
    let w (k : Nat) : State := (s.secNamed m k).updSecure m (fun b => { b with go := true, sender := 0 })
    exec (.mrExtend m) s = .next (State.secExtend m (w 1) ((w 1).secure m)) ∧
    exec (.mrRead m) s = .next (if 7 < (s.secure m).word 2 then (w 2).secReply m 18 2 []
      else (w 2).secReply m 0 2 (s.thimble.mrOf ((s.secure m).word 2))) ∧
    (s.thimble.kekEpoch.toNat < 16 → (s.secure m).word 2 = s.thimble.kekEpoch.toNat → s.rst.held = none →
      ∃ t : State, exec (.kekRotate m) s = .next t ∧ t.thimble = { s.thimble with kekEpoch := s.thimble.kekEpoch + 1 }) ∧
    ((s.secure m).word 2 ≠ s.thimble.kekEpoch.toNat → ∃ t : State, exec (.kekRotate m) s = .next t ∧ t.thimble = s.thimble) ∧
    exec (.selfTest m true) s = .next ((w 4).secReply m 0 2 [])) ∧
  (∀ (s : State) (r m : Nat), 1 ≤ r → r ≤ 9 → 5 ≤ s.rst.stage.toNat → s.rst.halted = false → 4 ≤ m → m ≤ 7 → (s.secure m).go = false →
    (∀ k, 4 ≤ k → k < m → (s.secure k).go = true) → ∃ t : State, exec (.notice r) s = .next t ∧ (t.secure m).go = true ∧
      (t.secure m).sender = 0x40 ∧ (t.secure m).word 2 = r ∧ (t.secure m).word 0 / 2 ^ 16 = 0x0101 ∧ ∀ k, k ≠ m → t.secure k = s.secure k) ∧
  (∀ (s : State) (m : Nat), 4 ≤ m → m ≤ 7 → s.barOpen 0 = true → ∃ t : State, exec (.secureMailboxReply m) s = .next t ∧
    t.secure m = { s.secure m with go := false } ∧ (∀ k, k ≠ m → t.secure k = s.secure k) ∧ { t with secMbox := s.secMbox } = s) ∧
  (∀ (s : State), s.rst.nvBusy = some 0 → s.rst.held = none → exec .fusePulseEnd s = .next
    ((s.pulseEnd.updRst (fun r => { r with nvBusy := none })).fuseNext)) ∧
  (∀ (s : State), s.rst.nvBusy = some 0 → s.rst.held.isSome = true → exec .fusePulseEnd s = .next
    ((s.pulseEnd.updRst (fun r => { r with nvBusy := none })).heldStart)) ∧
  (∀ (s : State) (k : Nat), s.rst.nvBusy = some (k + 1) → (s.rst.held.isSome = true → exec .nvWriteEnd s = .next s.heldStart) ∧
    (s.rst.held = none → exec .nvWriteEnd s = .next (s.updRst (fun r => { r with nvBusy := if s.thimble.update.isSome then some 1 else none }))))

/-- The SPDM responder (R459-R461): GET_VERSION starts a connection; GET_CAPABILITIES and NEGOTIATE_ALGORITHMS follow it in their order; every later request needs the algorithms agreed and the version
of the connection, and then answers with the response of its code; out of order they are answered UnexpectedRequest, without the identity Unspecified.
Where the spec leaves a point open, the model's own choice stands here: assumption log entries 10, 32. -/
def Obligations.SpdmAnswers : Prop :=
  (∀ (s : State) (bus : Nat) (m : SpdmReq), s.spdmOpen bus = true → m.version = 0x10 →
    ∃ t : State, exec (.getVersion bus m) s = .next t ∧ (t.spdm bus).st = 1 ∧
      { t with thimble := { t.thimble with spdm := s.thimble.spdm } } = s) ∧
  (∀ (s : State) (bus : Nat) (m : SpdmReq), s.spdmOpen bus = true → (s.spdm bus).st = 1 → m.version = 0x12 ∨ m.version = 0x13 →
    ∃ t : State, exec (.getCapabilities bus m) s = .next t ∧ (t.spdm bus).st = 2 ∧ (t.spdm bus).version = m.version ∧
      { t with thimble := { t.thimble with spdm := s.thimble.spdm } } = s) ∧
  (∀ (s : State) (bus : Nat) (m : SpdmReq), s.spdmOpen bus = true → (s.spdm bus).st = 2 → m.version = (s.spdm bus).version →
    m.a.testBit 3 = true → m.b.testBit 1 = true → ∃ t : State, exec (.negotiateAlgorithms bus m) s = .next t ∧ (t.spdm bus).st = 3 ∧
      { t with thimble := { t.thimble with spdm := s.thimble.spdm } } = s) ∧
  (∀ e ∈ ([(.getDigests, fun b m s => s.spdmDigests b m), (.getCertificate, fun b m s => s.spdmCertificate b m), (.challenge, fun b m s => s.spdmChallenge b m),
      (.getMeasurements, fun b m s => s.spdmMeasurements b m), (.chunkSend, fun b m s => s.spdmChunkSend b m), (.chunkGet, fun b m s => s.spdmChunkGet b m),
      (.getReport, fun b m s => s.spdmReport b m), (.getPqCert, fun b m s => s.spdmPqCert b m)] :
        List ((Nat → SpdmReq → Instr) × (Nat → SpdmReq → State → State))), ∀ (s : State) (bus : Nat) (m : SpdmReq),
    (s.spdmOpen bus = false → exec (e.1 bus m) s = .next s) ∧
    (s.spdmOpen bus = true → (s.spdm bus).st ≠ 3 → exec (e.1 bus m) s = .next (s.spdmError bus 4 0 [])) ∧
    (s.spdmOpen bus = true → (s.spdm bus).st = 3 → m.version ≠ (s.spdm bus).version → exec (e.1 bus m) s = .next (s.spdmError bus 0x41 0 [])) ∧
    (s.spdmOpen bus = true → (s.spdm bus).st = 3 → m.version = (s.spdm bus).version → exec (e.1 bus m) s = .next (e.2 bus m s))) ∧
  (∀ (s : State) (bus : Nat) (m : SpdmReq), (s.spdm bus).st = 3 → m.version = (s.spdm bus).version → s.thimble.idLost = false →
    s.spdmDigests bus m = (s.spdmNote bus (spdmBytes m.version 0x81 m.param1 m.param2 [] ++
      spdmBytes m.version 1 0 1 (bytesBE 48 (Config.sha384 Config.rsaChain).toNat))).spdmReply bus 1 0 1 (bytesBE 48 (Config.sha384 Config.rsaChain).toNat) ∧
    s.spdmPqCert bus m = s.spdmReply bus 0x7E 0 0 (vendorBody Config.slhCert) ∧
    (s.thimble.reports.length < 5 → s.spdmReport bus m = s.askReport none bus m.nonce) ∧
    (5 ≤ s.thimble.reports.length → s.spdmReport bus m = s.spdmError bus 3 0 []) ∧
    (m.param1 = 0 → ∃ part rest : Bytes, part = (Config.rsaChain.drop m.a).take m.b ∧
      rest = Config.rsaChain.drop (m.a + part.length) ∧ s.spdmCertificate bus m = (if m.a < Config.rsaChain.length
        then (s.spdmNote bus (spdmBytes m.version 0x82 m.param1 m.param2 (spdmTail m 0x82) ++
          spdmBytes m.version 2 0 0 (bytesLE 2 part.length ++ bytesLE 2 rest.length ++ part))).spdmReply bus 2 0 0
            (bytesLE 2 part.length ++ bytesLE 2 rest.length ++ part)
        else s.spdmError bus 1 0 []))) ∧
  (∀ (s : State) (bus : Nat) (m : SpdmReq), (s.spdm bus).st = 3 → m.version = (s.spdm bus).version → s.thimble.idLost = true →
    ∀ u ∈ [s.spdmDigests bus m, s.spdmCertificate bus m, s.spdmChallenge bus m, s.spdmReport bus m, s.spdmPqCert bus m], u = s.spdmError bus 5 0 [])

/-! ### Management, tacking and out-of-band requests -/

/-- The management port (R470-R476, R478-R480): MAC_COLLISION starts a back-off or gives the frame up after sixteen attempts; BACKOFF_EXPIRY and PAUSE_EXPIRY let it send again; PAUSE_FRAME is obeyed point to point;
TACK_OUT_TIMER drives this column; two equal TACK_WORDs name the predecessor's; REQUEST and TACK_REQUEST_TIMER ask for an ID, the row master answers with an OFFER of the next column and resends it up to eight
times; an OFFER gives an adapter its ID, ACCEPT ends it; OOB_REQUEST that is authentic and new is executed, one seen before is answered again.
Where the spec leaves a point open, the model's own choice stands here: assumption log entries 70, 89. -/
def Obligations.ManagementEventsAct : Prop :=
  (∀ (s : State), s.macSends = true → s.mgmt.mode = false → s.mgmt.txq ≠ [] →
    (∃ t : State, exec (.macCollision true) s = .next t ∧ t.mgmt.txq = s.mgmt.txq.drop 1 ∧ t.mgmt.attempts = 0 ∧ { t with mgmt := s.mgmt } = s) ∧
    (s.mgmt.attempts < 15 → ∃ t : State, exec (.macCollision false) s = .next t ∧ t.mgmt.txq = s.mgmt.txq ∧
      t.mgmt.attempts = s.mgmt.attempts + 1 ∧ t.mgmt.backoff = true ∧ { t with mgmt := s.mgmt } = s) ∧
    (15 ≤ s.mgmt.attempts → ∃ t : State, exec (.macCollision false) s = .next t ∧ t.mgmt.txq = s.mgmt.txq.drop 1 ∧ t.mgmt.attempts = 0 ∧
      { t with mgmt := s.mgmt } = s)) ∧
  (∀ (s : State), (∃ t : State, exec .backoffExpiry s = .next t ∧ t.mgmt = { s.mgmt with backoff := false } ∧ { t with mgmt := s.mgmt } = s) ∧
    (∃ t : State, exec .pauseExpiry s = .next t ∧ t.mgmt = { s.mgmt with paused := false, pauseQ := 0 } ∧ { t with mgmt := s.mgmt } = s)) ∧
  (∀ (s : State) (q : Nat), s.macOn = true → s.mgmt.mode = true → ∃ t : State, exec (.pauseFrame q true) s = .next t ∧
    t.mgmt.paused = (q % 65536 != 0) ∧ t.mgmt.pauseQ = q % 65536 ∧ { t with mgmt := s.mgmt } = s) ∧
  (∀ (s : State), s.devidValid = true → s.tackOn = true → ∃ t : State, exec .tackOutTimer s = .next t ∧ t.pins.tackHigh = true ∧
    t.pins.tackOut = true :: [3, 2, 1, 0].map (idCol s.devid.toNat).testBit ∧ { t with pins := s.pins } = s) ∧
  (∀ (s : State) (c : Nat), s.rowMaster = false → s.tackOn = true → c ≤ 15 →
    (s.mgmt.lastWord ≠ some c → ∃ t : State, exec (.tackWord c) s = .next t ∧ t.mgmt = { s.mgmt with lastWord := some c } ∧ { t with mgmt := s.mgmt } = s) ∧
    (s.mgmt.lastWord = some c → s.mgmt.predCol ≠ some c → s.devidValid = false → ∃ t : State, exec (.tackWord c) s = .next t ∧ t.mgmt.predCol = some c ∧
      t.mgmt.tackState = 1 ∧ t.mgmt.txq = s.mgmt.txq ++ [{ tackFrame 1 c s.mgmt.eui 0 with src := s.mgmt.eui }] ∧ { t with mgmt := s.mgmt } = s)) ∧
  (∀ (s : State) (c : Nat), s.rowMaster = false → s.devidValid = false → s.tackOn = true → s.mgmt.predCol = some c →
    ∃ t : State, exec .tackRequestTimer s = .next t ∧ t.mgmt.txq = s.mgmt.txq ++ [{ tackFrame 1 c s.mgmt.eui 0 with src := s.mgmt.eui }] ∧
      { t with mgmt := s.mgmt } = s) ∧
  (∀ (s : State) (f : MgmtFrame), s.macOn = true → f.sumsOk = true → tackType f = 1 → s.rowMaster = true → s.tackOn = true → s.devidValid = true →
    tackPred f < 15 → s.mgmt.given.any (fun g => g.1 == tackPred f + 1 && g.2 != tackEui f) = false → ∃ t : State, exec (.request f) s = .next t ∧
      (tackEui f, tackPred f + 1, 1) ∈ t.mgmt.offers ∧ (tackPred f + 1, tackEui f) ∈ t.mgmt.given ∧
      t.mgmt.txq = s.mgmt.txq ++ [{ tackFrame 2 0 (tackEui f) (s.idAt (tackPred f + 1)) with src := s.mgmt.eui }] ∧ { t with mgmt := s.mgmt } = s) ∧
  (∀ (s : State) (f : MgmtFrame), s.macOn = true → f.sumsOk = true → tackType f = 2 → tackEui f = s.mgmt.eui → s.tackOn = true → s.rowMaster = false →
    s.devidValid = false → let id := tackId f % 2 ^ 15 + b2n s.spine * 2 ^ 15
    validId id = true → exec (.offer f) s = .next ((((s.cntMgmt 1 1).takeDevid id).updMgmt (fun m => { m with tackState := 2 })).macQueue
      (tackFrame 3 0 s.mgmt.eui id)) ∧ ((s.cntMgmt 1 1).takeDevid id).devidValid = true ∧ ((s.cntMgmt 1 1).takeDevid id).devid = BitVec.ofNat 16 id) ∧
  (∀ (s : State) (f : MgmtFrame), s.macOn = true → f.sumsOk = true → tackType f = 3 → s.rowMaster = true → ∃ t : State, exec (.accept f) s = .next t ∧
    t.mgmt.offers = s.mgmt.offers.filter (fun o => o.1 != tackEui f) ∧ { t with mgmt := s.mgmt } = s) ∧
  (∀ (s : State) (e : BitVec 48) (c n : Nat), s.tackOn = true → s.mgmt.offers.find? (fun o => o.1.toNat == e.toNat) = some (e, c, n) →
    (n < 8 → ∃ t : State, exec (.offerResendTimer e.toNat) s = .next t ∧ (e, c, n + 1) ∈ t.mgmt.offers ∧
      t.mgmt.txq = s.mgmt.txq ++ [{ tackFrame 2 0 e (s.idAt c) with src := s.mgmt.eui }] ∧ { t with mgmt := s.mgmt } = s) ∧
    (8 ≤ n → exec (.offerResendTimer e.toNat) s = .next
      ((s.updMgmt (fun m => { m with offers := m.offers.filter (fun o => o.1 != e) })).mgmtRec 2 e.toNat (s.idAt c)))) ∧
  (∀ (s : State) (f : MgmtFrame) (o : Outside), s.macOn = true → f.sumsOk = true → f.kind = 2 → s.oobOn = true → 36 ≤ f.body.length →
    let head := f.body.take (f.body.length - 16)
    let word := natLE ((head.drop 4).take 8)
    let k := s.key (((Ranges.item (s.part 0).keys s.mgmt.oobSlot.toNat).getD 0))
    natLE (head.take 2) = 1 → word < 2 ^ 63 →
    let authentic := Config.gcmTag k.key (pack 96 [(95, 64, k.salt.toNat), (63, 0, word)]) head [] = BitVec.ofNat 128 (natBE (f.body.drop (f.body.length - 16)))
    (∀ e, s.mgmt.oobLast.find? (fun e => e.1 == word) = some e → ∃ t : State,
      exec (.oobRequest f o) s = .next (if authentic then t else (s.cntMgmt 1 1).oobFail) ∧
      t.mgmt.txq.length = s.mgmt.txq.length + 1 ∧ { t with mgmt := s.mgmt } = s) ∧
    (s.mgmt.oobLast.find? (fun e => e.1 == word) = none → exec (.oobRequest f o) s = .next (if authentic
      then (if s.mgmt.oobNew word = true then (s.cntMgmt 1 1).oobRun f word o else (s.cntMgmt 1 1).cntMgmt 10 1)
      else (s.cntMgmt 1 1).oobFail)))

/-! ### Reset and power -/

/-- Resets (R485-R489, R493, R494, R500, R544, R545): POWER_ON starts a cold reset and POWER_LOSS and INPUT_OVERVOLTAGE end everything; RESET_N holds the adapter in cold reset from a pulse of 1 µs on, ignores one under 200 ns, and lets go
at its release; the loss of the oscillator holds it likewise; RESET_CTL with its key triggers the reset its bit names, without it counts a refusal; WARM_RESET is carried out once, a second within 60 s leads to HALTED.
Where the spec leaves a point open, the model's own choice stands here: assumption log entries 72, 73. -/
def Obligations.ResetsAct : Prop :=
  (∀ (s : State), s.pins.powered = false → exec .powerOn s = .next
    ({ s with pins := { s.pins with powered := true, standby := true, overvolt := false } }.coldReset 0)) ∧
  (∀ (s : State), s.pins.powered = true → exec .powerLoss s = .next (s.powerOff false) ∧ exec .inputOvervoltage s = .next (s.powerOff true) ∧
    (s.powerOff false).pins.powered = false ∧ (s.powerOff false).rst.inReset = true) ∧
  (∀ (s : State) (ns : Nat), ns < 200 → exec (.resetNAssert ns) s = .next s) ∧
  (∀ (s : State) (ns : Nat), 1000 ≤ ns → exec (.resetNAssert ns) s = .next
    ({ s with pins := { s.pins with resetN := false } }.coldTrigger (s.coldCause 1))) ∧
  (∀ (s : State) (ns : Nat), 200 ≤ ns → ns < 1000 → ∃ fresh : Nat, exec (.resetNAssert ns) s = .next { s with fresh } ∨
    exec (.resetNAssert ns) s = .next ({ s with fresh, pins := { s.pins with resetN := false } }.coldTrigger (s.coldCause 1))) ∧
  (∀ (s : State), s.pins.powered = true → s.rst.nvBusy = none → s.pins.resetN = false → ∃ t : State, s.coldTrigger (s.coldCause 1) = t ∧ t.rst.inReset = true) ∧
  (∀ (s : State), s.pins.powered = true → s.rst.nvBusy.isSome = true → ∀ cause : Nat, s.coldTrigger cause = { s with rst := { s.rst with
    held := some (true, cause, 0, 0, 0) } }) ∧
  (∀ (s : State), exec .resetNRelease s = .next ({ s with pins := { s.pins with resetN := true } }.letGo) ∧
    exec .oscillatorReturn s = .next ({ s with pins := { s.pins with oscOk := true } }.letGo)) ∧
  (∀ (s : State), s.rst.inReset = true → s.pins.resetN = true → s.pins.oscOk = true → s.pins.powered = true →
    s.letGo = (s.updRst (fun r => { r with inReset := false })).sampleStraps) ∧
  (∀ (s : State), s.pins.oscOk = true → exec .oscLoss s = .next ({ s with pins := { s.pins with oscOk := false } }.coldTrigger 0)) ∧
  (∀ (s : State), s.straps.clkMode.toNat ≤ 1 → s.alive = true → exec .refclkLost s = .next
    (({ s with pins := { s.pins with refclkOk := false } }.powerRec 6 0 0 0).linkDown)) ∧
  (∀ (s : State) (v : Nat), s.pins.powered = true → s.rst.inReset = false → s.rst.dormant = false → 5 ≤ s.rst.stage.toNat → (s.part 0).resetStep = 0 →
    ∀ c ∈ [Instr.resetCtlCold 0 v, .resetCtlWarm 0 v],
      (v / 2 ^ 48 % 2 ^ 16 = 0xA5C3 → v % 4 = 2 → exec c s = .next (s.coldTrigger (s.coldCause 2))) ∧
      (v / 2 ^ 48 % 2 ^ 16 = 0xA5C3 → v % 4 = 1 → exec c s = .next (s.warmTrigger 3 (0, 0, 0))) ∧
      (v / 2 ^ 48 % 2 ^ 16 ≠ 0xA5C3 ∨ v % 4 = 3 → exec c s = .next { s with rst := { s.rst with ctlRefused := satAdd s.rst.ctlRefused 1 } })) ∧
  (∀ (s : State) (cause : Nat), cause < 16 → s.alive = true → s.rst.held = none → s.rst.stage = 6 → s.rst.nvBusy = none →
    (s.warmRefused = true → exec (.warmReset cause) s = .next (s.haltEnter cause (0, 0, 0))) ∧
    (s.warmRefused = false → exec (.warmReset cause) s = .next (s.warmReset cause (0, 0, 0))))

/-- The stages of bring-up (R450, R489, R490, R540): STAGE_RELEASE completes the stage in progress and releases the next, from the rails over the thimble, memory, the hub fabric and the host interface to the partitions; each stage is reached only from the one
before it, a thimble whose boot does not end and a hub that fails hold it, and a low PERST# holds the host interface alone.
Where the spec leaves a point open, the model's own choice stands here: assumption log entries 5, 79. -/
def Obligations.StagesFollowInOrder : Prop :=
  (∀ (s : State) (b : Bundle) (ok idOk : Bool) (bad : Nats), s.alive = true → s.rst.stage = 0 →
    ∃ t : State, exec (.stageRelease b ok idOk bad) s = .next t ∧ t.rst = { s.rst with stage := 1 } ∧ t.pins = { s.pins with pwrOk := true } ∧
      { t with rst := s.rst, pins := s.pins } = s) ∧
  (∀ (s u : State) (b : Bundle) (ok idOk : Bool) (bad : Nats), s.alive = true → s.rst.stage = 1 → s.thimbleStage b ok = (u, false) →
    exec (.stageRelease b ok idOk bad) s = .next u) ∧
  (∀ (s u : State) (b : Bundle) (ok : Bool) (bad : Nats), s.alive = true → s.rst.stage = 1 → s.thimbleStage b ok = (u, true) →
    ∃ t : State, exec (.stageRelease b ok true bad) s = .next t ∧ t.rst = { u.rst with stage := 2, imagesVoid := false, bundleReady := false } ∧
      t.thimble = { u.thimble with idLost := false } ∧ { t with rst := u.rst, thimble := u.thimble } = u) ∧
  (∀ (s : State) (b : Bundle) (ok idOk : Bool) (bad : Nats), s.alive = true → s.rst.stage = 2 → s.rst.warm = false →
    ∃ t : State, exec (.stageRelease b ok idOk bad) s = .next t ∧ t.rst = { s.rst with stage := 3 } ∧ t.devMem = s.devMem ∧ t.host = s.host) ∧
  (∀ (s : State) (b : Bundle) (idOk : Bool) (bad : Nats), s.alive = true → s.rst.stage = 3 →
    (s.rst.warm = false → ∃ t : State, exec (.stageRelease b false idOk bad) s = .next t ∧ t.rst.stage = 4 ∧ t.rst.hubFailed = true) ∧
    exec (.stageRelease b true idOk bad) s = .next (s.fabricRelease bad)) ∧
  (∀ (s : State) (b : Bundle) (ok idOk : Bool) (bad : Nats), s.alive = true → s.rst.stage = 4 →
    (s.rst.hubFailed = true → exec (.stageRelease b ok idOk bad) s = .next s) ∧
    (s.rst.hubFailed = false → ∃ t : State, exec (.stageRelease b ok idOk bad) s = .next t ∧ t.rst = { s.rst with stage := 5, perstHold := !s.pins.perstN } ∧
      t.host = { s.host with rrs := if s.pins.perstN then false else s.host.rrs } ∧ { t with rst := s.rst, host := s.host } = s)) ∧
  (∀ (s : State) (b : Bundle) (ok idOk : Bool) (bad : Nats), s.alive = true → s.rst.stage = 5 →
    exec (.stageRelease b ok idOk bad) s = .next s.partsRelease) ∧
  (∀ (s : State), s.rst.heldParts = [] → s.rst.heldBlocks = [] → ∃ t : State, s.partsRelease = t ∧ t.rst.stage = 6 ∧ t.rst.warm = false ∧ (t.part 0).st = 2) ∧
  (∀ (s : State) (b : Bundle) (ok idOk : Bool) (bad : Nats), s.alive = false ∨ 6 ≤ s.rst.stage.toNat → exec (.stageRelease b ok idOk bad) s = .next s)

/-- Power and temperature (R231, R475, R495-R498): a low WAKE_N of 1 µs or a matching WAKE_FRAME wakes DORMANT by a cold reset, WAKE_N leaves SLUMBER; IDLE_ENTRY enters IDLE when nothing is at work; QUEUE_DRAIN_LIMIT takes what was waited for out of service; POWER_TRANSITION_END
reaches the state headed for; POWER_SAMPLE shows the input and acts on the tenth sample over the cap or under it; TEMP_SAMPLE reads every sensor, and a critical one triggers a warm reset with the cause THERMAL.
Where the spec leaves a point open, the model's own choice stands here: assumption log entries 78, 90. -/
def Obligations.PowerActs : Prop :=
  (∀ (s : State) (ns : Nat), s.pins.powered = true → 1000 ≤ ns → (s.rst.dormant = true → exec (.wakeN ns) s = .next (s.coldTrigger 7)) ∧
    (s.rst.dormant = false → s.power.state = 2 → exec (.wakeN ns) s = .next { s with power := { s.power with state := 3, target := some 0, issue := none } })) ∧
  (∀ (s : State) (bs : Bytes), s.rst.dormant = true → s.mgmt.wakes.any (fun w => w.2.hits bs) = true → exec (.wakeFrame bs true) s = .next (s.coldTrigger 7)) ∧
  (∀ (s : State), s.rst.stage = 6 → s.power.state = 0 → s.runs = [] → s.xfers = [] → s.launches = [] → (∀ e ∈ s.queues, e.2.work = []) →
    exec .idleEntry s = .next { s with power := { s.power with state := 1 } }) ∧
  (∀ (s : State) (ports : Nats), exec (.queueDrainLimit ports) s = .next (if s.power.state = 3 ∧ s.power.target ≠ some 0
    then (s.elsDrainLimit ports).sleepPorts ports else s.elsDrainLimit ports)) ∧
  (∀ (s : State), s.power.state = 3 → s.power.issue = none →
    (s.power.target = some 3 → exec .powerTransitionEnd s = .next s.goDormant) ∧
    (s.power.target = some 2 → exec .powerTransitionEnd s = .next (({ s with power := { s.power with target := none, issue := none } }).slumber)) ∧
    (s.power.target = some 0 → exec .powerTransitionEnd s = .next (({ s with power := { s.power with target := none, issue := none } }).awake))) ∧
  (∀ (s : State), (s.slumber).power.state = 2 ∧ (s.slumber).power.scrubPaused = true ∧ (s.awake).power.state = 0 ∧ (s.awake).power.scrubPaused = false ∧
    s.goDormant.rst.dormant = true ∧ s.goDormant.devMem = []) ∧
  (∀ (s : State) (w a v : Nat), s.alive = true → 2 ≤ s.rst.stage.toNat → a ≤ s.power.capW.toNat → s.power.capW.toNat ≤ a + 20 → a ≤ 1150 → v ≤ 255 →
    ∃ t : State, exec (.powerSample w a v) s = .next t ∧ t.power = { s.power with
      inputW := BitVec.ofNat 16 (min a 65535), inputV := BitVec.ofNat 8 v, overNs := 0, under := 0, hiNs := 0 } ∧ { t with power := s.power } = s) ∧
  (∀ (s : State) (w a v : Nat), s.alive = true → 2 ≤ s.rst.stage.toNat → s.power.capW.toNat < a → 9 ≤ s.power.overNs → a ≤ 1150 → v ≤ 255 →
    exec (.powerSample w a v) s = .next ((s.updPower (fun p => { p with
      inputW := BitVec.ofNat 16 (min a 65535), inputV := BitVec.ofNat 8 v, overNs := 10, under := 0, hiNs := 0 })).powerAct)) ∧
  (∀ (s : State) (ts : Nats) (k t : Nat), s.alive = true → 2 ≤ s.rst.stage.toNat →
    let is := List.zip (List.range 7) ts
    let u := (((s.updPower (fun p => { p with hotC := BitVec.ofNat 8 (min 255 (ts.foldl max 0)) })).eachOf is (fun e t => t.tempOne e.1 e.2)).tempMem ts).clkView
    ((∀ e ∈ is, tempLevel e.1 e.2 ≠ 3) → exec (.tempSample ts) s = .next u) ∧
    (is.find? (fun e => tempLevel e.1 e.2 == 3) = some (k, t) → exec (.tempSample ts) s = .next
      ((u.powerRec 4 t k (if u.warmRefused then 5 else 4)).warmTrigger 5 (u.faults.nextSeq.toNat, 13, 4))))

/-! ### Faults, test access and registers -/

/-- The reset ladder (R491, R492, R509, R517-R524): ENGINE_WATCHDOG, CP_WATCHDOG and BLOCK_RESET bring a fault of their block into the ladder: handled at once while no recovery is in progress, held before partitions are released, waiting behind the recovery
of another domain; BLOCK_RESET_END opens the block's selvedge again; PENDING_FAULT_TURN takes up the oldest that waits; HOST_DOMAIN_RESET resets the partitions and lets host requests go on; RECOVERY_WINDOW_CLOSE closes its window and nothing else;
ADAPTER_WATCHDOG records itself and triggers a warm reset with the cause WATCHDOG; RESET_FORCED ends the partition's reset and faults the unit it waited for.
Where the spec leaves a point open, the model's own choice stands here: assumption log entries 20, 80, 81, 82. -/
def Obligations.FaultLadderActs : Prop :=
  (∀ (s : State) (k i : Nat), blockOk k i = true → exec (.blockReset k i) s = .next (s.fault (s.blockFault k i false)) ∧
    (k = 1 ∨ k = 2 ∨ k = 5 ∨ k = 6 ∨ k = 8 → exec (.engineWatchdog k i false) s = .next (s.fault (s.blockFault k i false))) ∧
    exec (.engineWatchdog k i true) s = .next (s.fault (s.blockFault k i true))) ∧
  (∀ (s : State) (i : Nat), i < 4 → exec (.cpWatchdog i) s = .next (s.fault { s.blockFault 9 i false with reason := 2 })) ∧
  (∀ (s : State) (f : FPend), (s.alive = false → s.fault f = s) ∧
    (s.alive = true → s.rst.stage ≠ 6 → s.fault f = { s with rst := { s.rst with heldBlocks := s.rst.heldBlocks ++ [f] } }) ∧
    (s.alive = true → s.rst.stage = 6 → s.recovery = none → s.fault f = s.handleFault f) ∧
    (∀ r, s.alive = true → s.rst.stage = 6 → s.recovery = some r → s.domainHas r.rung r.dom f.kind f.idx = false → s.ladder f.kind f.idx ≤ 3 →
      s.faults.pending.any (fun x => x.kind == f.kind && x.idx == f.idx && x.cls == f.cls) = false → s.faults.pending.length < 32 →
      s.fault f = (s.ladderRec f 6 (s.ladder f.kind f.idx)).updFaults (fun x => { x with pending := x.pending ++ [f] }))) ∧
  (∀ (s : State) (f : FPend), s.ladder f.kind f.idx = 1 → s.handleFault f =
    ((s.ladderRec f 1 1).recoveryStart 1 (blockWord f.kind f.idx) f.kind f.idx s.faults.nextSeq).closeBlock f.kind f.idx) ∧
  (∀ (s : State) (k i : Nat), s.isolated k i = true → ∃ t u : State, exec (.blockResetEnd k i) s = .next t ∧ t = u.openBlock k i ∧
    { u with faults := s.faults } = s ∧ (u.faults.cur = s.faults.cur ∨ u.faults.cur = none)) ∧
  (∀ (s : State) (f : FPend) (fs : List FPend), s.recovery = none → s.faults.pending = f :: fs → s.alive = true → s.rst.stage = 6 →
    exec .pendingFaultTurn s = .next ((s.updFaults (fun x => { x with cur := none, pending := fs })).handleFault f)) ∧
  (∀ (s : State), s.serving = true → ∃ t : State, exec .hostDomainReset s = .next t ∧ t.host.stopped = ((t.func 0).adminState == 3) ∧
    (∀ r, t.faults.cur = some r → r.rung ≠ 3)) ∧
  (∀ (s : State) (g d : Nat), ∃ t : State, exec (.recoveryWindowClose g d) s = .next t ∧
    t.faults = { s.faults with windows := s.faults.windows.filter (fun w => !(w.rung == g && w.dom == d)) } ∧ { t with faults := s.faults } = s) ∧
  (∀ (s : State), s.alive = true → exec .adapterWatchdog s = .next ((s.postRec { cls := 15, reason := 2, d0 := 15, act := if s.warmRefused then 5 else 4, logOnly := true }).warmTrigger
    4 (s.faults.nextSeq.toNat, 15, 2))) ∧
  (∀ (s : State) (p : Nat), (s.part p).resetStep ≠ 0 → ∃ (fresh : Nat) (f : FPend), exec (.resetForced p) s = .next (({ s with fresh }.resetRest p).fault f) ∧
    f.kind = (stepBlock (s.part p).resetStep).1 ∧ f.idx < (stepBlock (s.part p).resetStep).2 ∧ f.cls = 10 ∧ f.reason = 1 ∧ f.part = some p)

/-- Test access and host writes to registers (R4-R9, R352, R386, R394, R408, R500, R526-R533, R551-R558): LOOPBACK_END shows ERRORS and UNITS, and PASSED where UNITS is not 0 and ERRORS is, FAILED otherwise; BIST_DONE ends the test with its failure mask; a TAP_INSTRUCTION is held, EXTEST and HIGHZ only while RESET_N is low and a
private one only in manufacturing; REGISTER_WRITE of a doorbell, of SYNC_DB and of RESET_CTL is the command of that name, of BAR0 words it has the register's effect, MARK_THRESH, a mailbox's DATA and the basting ADMIN_CFG read as last written with refused values, locked words and reserved bits left, and every misaligned or oddly sized write is discarded.
Where the spec leaves a point open, the model's own choice stands here: assumption log entries 21, 83, 88. -/
def Obligations.TestAndRegisterWritesAct : Prop :=
  (∀ (s : State) (j errors units : Nat), (AMap.get s.lb j {}).st = 1 → AMap.get? s.lbPrior j = none → (AMap.get s.lb j {}).depth ≠ 4 →
    ∃ t : State, exec (.loopbackEnd j errors units) s = .next t ∧ { t with lb := s.lb } = s ∧
      (AMap.get t.lb j {}).st = (if errors = 0 ∧ 1024 ≤ units then 2 else 3) ∧ (AMap.get t.lb j {}).errors = BitVec.ofNat 16 (min 65535 errors) ∧
      (AMap.get t.lb j {}).units = min (2 ^ 32 - 1) (units / 1024)) ∧
  (∀ (s : State) (id i : Nat) (h : Issue), AMap.get? s.bist id = some (1, i, h) →
    let u := { s with bist := AMap.erase s.bist id }
    exec (.bistDone id 0) s = .next ((u.longEnd h 0x0B31 (Ans.ok u [blkItem 8 0])).createRetry)) ∧
  (∀ (s : State) (id i m : Nat) (h : Issue), AMap.get? s.bist id = some (0, i, h) → i < 64 → m % 256 = 0 →
    ∃ t : State, exec (.bistDone id m) s = .next t ∧ AMap.get? t.bist id = none ∧ (t.clu i).bist = false ∧ (t.clu i).present = (s.clu i).present) ∧
  (∀ (s : State) (ir : Nat), ∃ t : State, exec (.tapInstruction ir) s = .next t ∧ { t with tapIr := s.tapIr } = s ∧
    (ir = 1 ∨ ir = 2 ∨ ir = 4 → t.tapIr = ir) ∧ (ir = 3 ∨ ir = 5 → t.tapIr = if s.pins.resetN then 0 else ir) ∧
    (6 ≤ ir → t.tapIr = if s.thimble.manufacturing then ir else 0)) ∧
  (∀ (s : State) (p q v : Nat), q < 65536 → v < 2 ^ 64 →
    exec (.registerWrite p (0x100000 + 8 * q) 8 v) s = exec (.doorbellWrite p q (BitVec.ofNat 64 v)) s) ∧
  (∀ (s : State) (p i v : Nat), i < 2 ^ 14 → v < 2 ^ 48 →
    exec (.registerWrite p 0x120 8 (0 * 2 ^ 62 + i * 2 ^ 48 + v)) s = exec (.syncDbAdd p i v) s ∧
    exec (.registerWrite p 0x120 8 (1 * 2 ^ 62 + i * 2 ^ 48 + v)) s = exec (.syncDbSet p i v) s ∧
    exec (.registerWrite p 0x120 8 (2 * 2 ^ 62 + i * 2 ^ 48 + v)) s = exec (.syncDbArm p i v) s) ∧
  (∀ (s : State) (p v : Nat), v < 2 ^ 64 → exec (.registerWrite p 0x880000 8 v) s = exec (.resetCtlCold p v) s) ∧
  (∀ (s : State) (p v : Nat), v < 2 ^ 32 → exec (.registerWrite p 0x100 4 v) s = exec (.dbH2aSet p (BitVec.ofNat 32 v)) s ∧
    exec (.registerWrite p 0x108 4 v) s = exec (.dbA2hClear p (BitVec.ofNat 32 v)) s ∧
    exec (.registerWrite p 0x110 4 v) s = exec (.dbA2hMaskWrite p (BitVec.ofNat 32 v)) s) ∧
  (∀ (s : State) (x : Nat), s.barOpen 0 = true → s.rst.halted = false →
    ∃ t : State, exec (.registerWrite 0 0x812000 4 x) s = .next t ∧ { t with tp := s.tp } = s ∧
      t.barRead 0 0x812000 4 = (if 4 ≤ x % 2 ^ 11 ∧ x % 2 ^ 11 ≤ 1024 then x % 2 ^ 11 else s.barRead 0 0x812000 4) ∧
      t.barRead 0 0x812004 4 = s.barRead 0 0x812004 4) ∧
  (∀ (s : State) (p i v : Nat), s.barOpen p = true → s.rst.halted = false → i < 16 → v < 2 ^ 32 →
    ∃ t : State, exec (.registerWrite p (0x1000 + 4 * i) 4 v) s = .next t ∧ { t with funcs := s.funcs } = s ∧
      t.barRead p (0x1000 + 4 * i) 4 = (if (s.func p).mbox.go = true then s.barRead p (0x1000 + 4 * i) 4 else v)) ∧
  (∀ (s : State) (p v : Nat), s.barOpen p = true → s.rst.halted = false → v < 2 ^ 64 →
    ∃ t : State, exec (.registerWrite p 0x218 8 v) s = .next t ∧ { t with funcs := s.funcs } = s ∧ (t.func p).adminAct = (s.func p).adminAct ∧
      t.barRead p 0x218 8 = v / 2 ^ 16 % 2 ^ 11 * 2 ^ 16 + v / 2 ^ 8 % 2 ^ 5 * 2 ^ 8 + v % 2 ^ 5) ∧
  (∀ (s : State) (p off w v : Nat), off < 2 ^ 32 → (off < 0x100000 ∨ 0x180000 ≤ off) → (w ≠ 4 ∧ w ≠ 8) ∨ off % w ≠ 0 →
    exec (.registerWrite p off w v) s = .next s) ∧
  (∀ (s : State) (p off w v : Nat), off < 2 ^ 32 → (off < 0x100000 ∨ 0x180000 ≤ off) → off ≠ 0x880000 → s.barOpen p = false →
    off ≠ 0x120 → exec (.registerWrite p off w v) s = .next s)

/-! ### The whole machine -/

/-- A step with a command at the front of the queue is that command on the state with the queue's rest. -/
def Obligations.StepRunsTheFrontCommand : Prop :=
  ∀ (s : State) (c : Instr) (rest : List Instr), step { s with pending := c :: rest } = exec c { s with pending := rest }

/-- An idle block (the model's own clock, assumption log 2): with nothing pending one nanosecond passes on its clock and on the running tape, and no memory, register or object changes.
Where the spec leaves a point open, the model's own choice stands here: assumption log entry 2. -/
def Obligations.IdleStepsPassTime : Prop :=
  ∀ (s : State), s.pending = [] → ∃ t : State, step s = .next t ∧ t.clockNs = s.clockNs + 1 ∧
    { t with clockNs := s.clockNs, tape := s.tape, mgmt := s.mgmt } = s ∧
    (s.tape.running = false → t.tape = s.tape)

/-- A reply reaches the sender of its command (R361, R366, R426, R428): over the mailbox, DATA0 to DATA7 hold the reply packet, GO is clear and bit 31 of DB_A2H is set; out of band, a datagram leaves; over ADMIN, the entry goes to the admin completion
ring. A result of up to 8 bytes is wholly in DATA. No memory, register or object beyond the host's side changes. -/
def Obligations.RepliesReachTheirSender : Prop :=
  (∀ (s : State) (h : Issue) (op : Nat) (a : Ans) (final : Bool), h.path = .mailbox → a.items = [] →
    ∃ t : State, s.answer h op a final = t ∧
      (t.func h.part).mbox.reply = replyBits op h.tag a.status a.index a.reason a.permille a.position 0 final ∧ (t.func h.part).mbox.go = false ∧
      bitAt (t.func h.part).dbA2H 31 = true ∧ (∀ p, p ≠ h.part → t.func p = s.func p) ∧ t.beyond = s.beyond) ∧
  (∀ (s : State) (h : Issue) (op seq : Nat) (a : Ans) (final : Bool), h.path = .oob seq → ∃ t : State, s.answer h op a final = t ∧
    t.mgmt.txq.length = s.mgmt.txq.length + 1 ∧ t.beyond = s.beyond) ∧
  (∀ (s : State) (h : Issue) (op : Nat) (a : Ans) (final : Bool), h.path = .admin → a.items = [] →
    s.answer h op a final = ((s.complete (qkey h.part 1) (setFld (replyBits op h.tag a.status a.index a.reason a.permille a.position 0 final) 11 8 6) .none none).paid h)) ∧
  (∀ (h : Issue) (res : Bytes), res.length ≤ 8 → replyData h res = (natLE res, [])) ∧
  (∀ (h : Issue) (res : Bytes), 8 < res.length → h.indirect = true → replyData h res = (res.length, res.take h.resultLen))

/-- The state after reset (R30, R41, R148, R379, R389, R442, R449, R465, R489): every memory reads zero and is in its canonical form, nothing is pending, no command runs, no port is in service, no partition holds anything, no connection, window, run or
transfer exists, the device ID is not valid, the tape does not count, no thimble fuse is blown and no counter has counted.
Where the spec leaves a point open, the model's own choice stands here: assumption log entries 5, 6, 8. -/
def Obligations.ResetStateIsEmpty : Prop :=
  let s := State.reset
  s.pending = [] ∧ s.memoriesOk = true ∧ (∀ a, Memory.rd s.devMem a = 0 ∧ Memory.rd s.shared a = 0 ∧ Memory.rd s.localM a = 0 ∧ Memory.rd s.imem a = 0) ∧
  s.devidValid = false ∧ s.tape.running = false ∧ s.tape.ns = 0 ∧ s.rst.stage = 0 ∧ s.rst.halted = false ∧
  s.fusesAtLeast 0 0 false ∧ s.thimble.svnFuse = 0 ∧ s.thimble.kekEpoch = 0 ∧ s.thimble.slot0Revoked = false ∧
  (∀ n, (s.port n).state = 0 ∧ (s.port n).replay = [] ∧ (s.port n).words = []) ∧ (∀ p, (s.part p).long = [] ∧ (s.part p).units = [] ∧ (s.part p).resetStep = 0) ∧
  (∀ c, (s.conn c).st = 0) ∧ (∀ k, (s.coll k).st = 0) ∧ (∀ n, (s.needle n).st = 0) ∧ (∀ o, (s.obj o).val = 0 ∧ (s.obj o).armed = false) ∧
  s.runs = [] ∧ s.xfers = [] ∧ s.launches = [] ∧ s.queues = [] ∧ (∀ i, AMap.get s.host.cnt i 0 = 0 ∧ AMap.get s.tp.tpCnt i 0 = 0)

/-- The memories of needles and clusters are their own (R237, R238): bytes that a needle stores within its data space are read back there, change no byte of another needle's local memory and, in shared memory, of another cluster, and leave instruction memory and
device memory as they are. -/
def Obligations.NeedleMemoriesAreSeparate : Prop :=
  ∀ (s : State) (n m a b len : Nat) (bs : Bytes), n < 512 → m < 512 → (isLocal a = true ∧ isLocal (a + bs.length - 1) = true) ∨
      (isShared a = true ∧ isShared (a + bs.length - 1) = true) → bs ≠ [] → (isLocal b = true ∧ isLocal (b + len - 1) = true) ∨ (isShared b = true ∧ isShared (b + len - 1) = true) → 0 < len →
    let t := s.dataWrite n a bs
    t.dataRead n a bs.length = bs ∧
    ((isLocal a = true ∧ isLocal b = true ∧ n ≠ m) ∨ (isLocal a ≠ isLocal b) ∨ (isLocal a = false ∧ isLocal b = false ∧ clusterOf n ≠ clusterOf m) ∨
      (a + bs.length ≤ b ∨ b + len ≤ a) → t.dataRead m b len = s.dataRead m b len) ∧
    t.imem = s.imem ∧ t.devMem = s.devMem ∧ (s.memoriesOk = true → t.memoriesOk = true)

/-- The immediate instructions (R275): ADDI, ANDI, ORI, XORI, SLLI, SRLI, SRAI and SLTI compute s[D] from s[S1] and IMM14 with the operations that SARITH has under FN 0, 2, 3, 4, 5, 6, 7 and 8; the shifts need IMM14[13:6] zero; LUI sets s[D] to IMM19 × 2^13,
sign-extended; LUI and then ADDI builds any 32-bit signed constant; ADDI s0, s0, 0 changes nothing but the PC. -/
def Obligations.ImmediateInstructionsCompute : Prop :=
  (∀ e ∈ ([(.addi, 0x02, 0), (.andi, 0x03, 2), (.ori, 0x04, 3), (.xori, 0x05, 4), (.slti, 0x09, 8)] : List ((Nat → Upset → Instr) × Nat × Nat)),
    ∀ (s : State) (n : Nat) (x : Upset) (i : Ins), s.stands n e.2.1 x i → ∃ t : State, exec (e.1 n x) s = .next t ∧
      s.onlyNeedle t n (((s.needle n).ws i.d (sarithOp e.2.2 ((s.needle n).rs i.s1) (low64 i.imm14))).past 0)) ∧
  (∀ e ∈ ([(.slli, 0x06, 5), (.srli, 0x07, 6), (.srai, 0x08, 7)] : List ((Nat → Upset → Instr) × Nat × Nat)),
    ∀ (s : State) (n : Nat) (x : Upset) (i : Ins), s.stands n e.2.1 x i →
      (i.f 31 24 = 0 → ∃ t : State, exec (e.1 n x) s = .next t ∧
        s.onlyNeedle t n (((s.needle n).ws i.d (sarithOp e.2.2 ((s.needle n).rs i.s1) (low64 i.imm14))).past 0)) ∧
      (i.f 31 24 ≠ 0 → exec (e.1 n x) s = .next (s.trap n 1 (i.w % 2 ^ 32)))) ∧
  (∀ (s : State) (n : Nat) (x : Upset) (i : Ins), s.stands n 0x0A x i → ∃ t : State, exec (.lui n x) s = .next t ∧
    s.onlyNeedle t n (((s.needle n).ws i.d (BitVec.ofInt 64 (toSigned 19 (i.f 31 13) * 2 ^ 13))).past 0)) ∧
  (∀ c : Int, -(2 ^ 31) ≤ c → c < 2 ^ 31 → ∃ h l : Nat, h < 2 ^ 19 ∧ l < 2 ^ 14 ∧
    BitVec.ofInt 64 (toSigned 19 h * 2 ^ 13) + low64 (toSigned 14 l) = BitVec.ofInt 64 c) ∧
  (∀ (s : State) (n : Nat) (x : Upset) (i : Ins), s.stands n 0x02 x i → i.d = 0 → i.s1 = 0 → i.f 31 18 = 0 →
    ∃ t : State, exec (.addi n x) s = .next t ∧ s.onlyNeedle t n ((s.needle n).past 0))

/-- Every launch starts from zero (R245): a needle that begins a run reads zero in every register but those its arguments name, its flags and PC are the program's, and no memory changes. -/
def Obligations.LaunchesStartFromZero : Prop :=
  ∀ (s : State) (n run pc : Nat) (args : List (Nat × Nat)), n < 512 → (args.map Prod.fst).Nodup → (∀ a ∈ args, 1 ≤ a.1) →
    let t := s.startNeedle n run pc args
    (∀ k, (t.needle n).rv k = 0 ∧ (t.needle n).ra k = 0 ∧ (k ≠ 0 → (t.needle n).rp k = 0)) ∧
    (∀ a ∈ args, (t.needle n).rs a.1 = BitVec.ofNat 64 a.2) ∧ (∀ k, k ∉ args.map Prod.fst → (t.needle n).rs k = 0) ∧
    (t.needle n).nstat = 0 ∧ (t.needle n).cpyst = 0 ∧ (t.needle n).pc = BitVec.ofNat 32 pc ∧ (t.needle n).run = some run ∧
    t.localM = s.localM ∧ t.shared = s.shared ∧ t.imem = s.imem ∧ ∀ m, m ≠ n → t.needle m = s.needle m

/-- PPS_OUT (R370): high for 100 ms from each whole second of the tape in LOCKED and HOLDOVER, low in every other state. -/
def Obligations.PpsOutFollowsTheTape : Prop :=
  ∀ (s : State), ∃ t : State, exec .ppsOut s = .next t ∧ { t with pins := s.pins } = s ∧
    (s.tape.running = true → (s.tape.state = 2 ∨ s.tape.state = 3) → (t.pins.ppsOut = true ↔ s.now.toNat % 1000000000 < 100000000)) ∧
    (¬(s.tape.state = 2 ∨ s.tape.state = 3) → t.pins.ppsOut = false)

/-- No command touches the queue of those that wait: one step takes exactly the front command off it. -/
def Obligations.StepsTakeOneCommand : Prop :=
  ∀ (s t : State), step s = .next t → t.pending = s.pending.tail

/-- Fuses are only ever blown (R449, R455, R464): no step, and so no command and no reset, lowers the anti-rollback counter or the key epoch, or takes back slot 0's revocation. -/
def Obligations.FusesAreOnlyBlown : Prop :=
  ∀ (s t : State) (n e : Nat) (r : Bool), s.fusesAtLeast n e r → step s = .next t → t.fusesAtLeast n e r
end

