-- ==== Sys2Proof/Laws/Memory.lean ====
section
/-!
SUPPORT. What the sparse lists and memories do: a read after a write, and the canonical form that every memory operation keeps.
-/

namespace Sys2Proof

/-! ### Sparse lists -/

variable {α : Type}

/-- Reading a key just set. -/
@[simp] theorem AMap.get?_set_same (m : AMap α) (k : Nat) (a : α) : AMap.get? (AMap.set m k a) k = some a := by
  induction m with
  | nil => simp [AMap.set, AMap.get?]
  | cons e m ih =>
    obtain ⟨j, b⟩ := e
    unfold AMap.set
    split
    · simp [AMap.get?]
    · split
      · simp [AMap.get?]
      · rename_i h
        simp [AMap.get?, ih, Ne.symm h]

/-- Setting one key leaves the others. -/
theorem AMap.get?_set_other (m : AMap α) {k i : Nat} (a : α) (h : i ≠ k) : AMap.get? (AMap.set m k a) i = AMap.get? m i := by
  induction m with
  | nil => simp [AMap.set, AMap.get?, Ne.symm h]
  | cons e m ih =>
    obtain ⟨j, b⟩ := e
    unfold AMap.set
    split
    · simp [AMap.get?, Ne.symm h]
    · split
      · rename_i hk
        subst hk
        simp [AMap.get?, Ne.symm h]
      · simp [AMap.get?, ih]

/-- A set key reads as set, any other as before. -/
theorem AMap.get?_set (m : AMap α) (k i : Nat) (a : α) : AMap.get? (AMap.set m k a) i = if i = k then some a else AMap.get? m i := by
  split
  · simp_all
  · exact AMap.get?_set_other m a ‹_›

/-- The same with a default. -/
theorem AMap.get_set (m : AMap α) (k i : Nat) (a d : α) : AMap.get (AMap.set m k a) i d = if i = k then a else AMap.get m i d := by
  unfold AMap.get
  rw [AMap.get?_set]
  split <;> rfl

@[simp] theorem AMap.get_set_same (m : AMap α) (k : Nat) (a d : α) : AMap.get (AMap.set m k a) k d = a := by simp [AMap.get_set]

/-- A changed key reads as changed, any other as before. -/
theorem AMap.get_upd (m : AMap α) (k i : Nat) (d : α) (f : α → α) :
    AMap.get (AMap.upd m k d f) i d = if i = k then f (AMap.get m k d) else AMap.get m i d := AMap.get_set m k i _ d

@[simp] theorem AMap.get_upd_same (m : AMap α) (k : Nat) (d : α) (f : α → α) : AMap.get (AMap.upd m k d f) k d = f (AMap.get m k d) := by
  simp [AMap.get_upd]

/-- An erased key reads as absent, any other as before. -/
theorem AMap.get?_erase (m : AMap α) (k i : Nat) : AMap.get? (AMap.erase m k) i = if i = k then none else AMap.get? m i := by
  induction m with
  | nil => simp [AMap.erase, AMap.get?]
  | cons e m ih =>
    obtain ⟨j, b⟩ := e
    simp only [AMap.erase] at ih
    by_cases hj : j = k
    · subst hj
      by_cases hi : i = j
      · subst hi; simp [AMap.erase, ih]
      · simp [AMap.erase, ih, hi, AMap.get?, Ne.symm hi]
    · by_cases hi : i = k
      · subst hi; simp [AMap.erase, hj, AMap.get?, ih]
      · simp [AMap.erase, hj, AMap.get?, ih, hi]

/-- What a map that lists no zero reads after an entry is set. -/
theorem AMap.get_put {w : Nat} (m : AMap (BitVec w)) (k i : Nat) (v : BitVec w) :
    AMap.get (AMap.put m k v) i 0 = if i = k then v else AMap.get m i 0 := by
  unfold AMap.put
  split
  · rename_i h
    simp only [AMap.get, AMap.get?_erase]
    split
    · simp [h]
    · rfl
  · exact AMap.get_set m k i v 0

/-- Of two entries set under one key the later stands. -/
theorem AMap.set_set (m : AMap α) (k : Nat) (a b : α) : AMap.set (AMap.set m k a) k b = AMap.set m k b := by
  induction m with
  | nil => simp [AMap.set]
  | cons e m ih =>
    obtain ⟨j, c⟩ := e
    simp only [AMap.set]
    split
    · simp [AMap.set]
    · split
      · simp [AMap.set]
      · simp [AMap.set, *]

@[simp] theorem AMap.get_nil (k : Nat) (d : α) : AMap.get [] k d = d := rfl
@[simp] theorem AMap.get?_nil (k : Nat) : AMap.get? ([] : AMap α) k = none := rfl

/-! ### Rising keys -/

/-- Every key lies above `b`. -/
theorem risingB_iff (m : AMap α) : risingB m = true ↔ (m.map Prod.fst).Pairwise (· < ·) := by
  induction m with
  | nil => simp [risingB]
  | cons e m ih =>
    obtain ⟨j, b⟩ := e
    cases m with
    | nil => simp [risingB]
    | cons e' m' =>
      obtain ⟨k, c⟩ := e'
      simp only [risingB, Bool.and_eq_true, decide_eq_true_eq, ih, List.map_cons, List.pairwise_cons]
      constructor
      · rintro ⟨hjk, hk, hm⟩
        refine ⟨?_, hk, hm⟩
        intro x hx
        rcases List.mem_cons.mp hx with rfl | hx
        · exact hjk
        · exact Nat.lt_trans hjk (hk x hx)
      · rintro ⟨hj, hk, hm⟩
        exact ⟨hj k (by simp), hk, hm⟩

/-- Keys of a set list: the old ones and the one set. -/
theorem AMap.mem_keys_set (m : AMap α) (k : Nat) (a : α) (x : Nat) (h : x ∈ (AMap.set m k a).map Prod.fst) : x = k ∨ x ∈ m.map Prod.fst := by
  induction m with
  | nil => simpa [AMap.set] using h
  | cons e m ih =>
    obtain ⟨j, b⟩ := e
    unfold AMap.set at h
    split at h
    · simpa using h
    · split at h
      · rename_i hk; subst hk; simp at h ⊢; tauto
      · simp only [List.map_cons, List.mem_cons] at h ⊢
        rcases h with h | h
        · exact Or.inr (Or.inl h)
        · rcases ih h with h | h
          · exact Or.inl h
          · exact Or.inr (Or.inr h)

/-- Setting a key keeps the order. -/
theorem AMap.rising_set (m : AMap α) (k : Nat) (a : α) (h : risingB m = true) : risingB (AMap.set m k a) = true := by
  rw [risingB_iff] at h ⊢
  induction m with
  | nil => simp [AMap.set]
  | cons e m ih =>
    obtain ⟨j, b⟩ := e
    simp only [List.map_cons, List.pairwise_cons] at h
    unfold AMap.set
    split
    · rename_i hk
      simp only [List.map_cons, List.pairwise_cons, List.mem_cons]
      refine ⟨?_, h⟩
      rintro x (rfl | hx)
      · exact hk
      · exact Nat.lt_trans hk (h.1 x hx)
    · split
      · rename_i hk; subst hk; simpa using h
      · rename_i h1 h2
        simp only [List.map_cons, List.pairwise_cons]
        refine ⟨?_, ih h.2⟩
        intro x hx
        rcases AMap.mem_keys_set m k a x hx with rfl | hx
        · omega
        · exact h.1 x hx

/-- Leaving out entries keeps the order. -/
theorem AMap.rising_filter (m : AMap α) (p : Nat × α → Bool) (h : risingB m = true) : risingB (m.filter p) = true := by
  rw [risingB_iff] at h ⊢
  exact h.sublist (List.filter_sublist.map _)

/-- Entries of a set list: the old ones and the one set. -/
theorem AMap.mem_set (m : AMap α) (k : Nat) (a : α) (e : Nat × α) (h : e ∈ AMap.set m k a) : e = (k, a) ∨ e ∈ m := by
  induction m with
  | nil => simpa [AMap.set] using h
  | cons x m ih =>
    obtain ⟨j, b⟩ := x
    unfold AMap.set at h
    split at h
    · simpa using h
    · split at h
      · rcases List.mem_cons.mp h with h | h
        · exact Or.inl h
        · exact Or.inr (List.mem_cons_of_mem _ h)
      · rcases List.mem_cons.mp h with h | h
        · exact Or.inr (h ▸ List.mem_cons_self)
        · exact (ih h).imp id (List.mem_cons_of_mem _)

/-! ### Memories -/

/-- Writing a byte keeps the canonical form. -/
theorem Memory.wf_wr (m : Memory) (a : Nat) (b : Byte) (h : m.wf = true) : (Memory.wr m a b).wf = true := by
  simp only [Memory.wf, Bool.and_eq_true, List.all_eq_true] at h ⊢
  unfold Memory.wr
  split
  · exact ⟨AMap.rising_filter m _ h.1, fun e he => h.2 e (List.mem_filter.mp he).1⟩
  · rename_i hb
    refine ⟨AMap.rising_set m a b h.1, fun e he => ?_⟩
    rcases AMap.mem_set m a b e he with rfl | he
    · simpa using hb
    · exact h.2 e he

/-- Writing bytes keeps the canonical form. -/
theorem Memory.wf_wrs (bs : Bytes) (m : Memory) (a : Nat) (h : m.wf = true) : (Memory.wrs m a bs).wf = true := by
  induction bs generalizing m a with
  | nil => exact h
  | cons b bs ih => exact ih _ _ (Memory.wf_wr m a b h)

/-- Zeroing keeps the canonical form. -/
theorem Memory.wf_zero (m : Memory) (a n : Nat) (h : m.wf = true) : (Memory.zero m a n).wf = true := by
  simp only [Memory.wf, Bool.and_eq_true, List.all_eq_true] at h ⊢
  exact ⟨AMap.rising_filter m _ h.1, fun e he => h.2 e (List.mem_filter.mp he).1⟩

/-- A byte written reads back, and every other byte reads as before. -/
theorem Memory.rd_wr (m : Memory) (a i : Nat) (b : Byte) : Memory.rd (Memory.wr m a b) i = if i = a then b else Memory.rd m i := by
  unfold Memory.rd Memory.wr
  split
  · rename_i hb
    unfold AMap.get
    rw [AMap.get?_erase]
    split <;> simp_all
  · rw [AMap.get_set]

/-- Bytes written read back, and every byte outside them reads as before. -/
theorem Memory.rd_wrs (bs : Bytes) (m : Memory) (a i : Nat) :
    Memory.rd (Memory.wrs m a bs) i = if a ≤ i ∧ i < a + bs.length then bs.getD (i - a) 0 else Memory.rd m i := by
  induction bs generalizing m a with
  | nil => simp [Memory.wrs]
  | cons b bs ih =>
    rw [Memory.wrs, ih, Memory.rd_wr]
    simp only [List.length_cons]
    by_cases h1 : a + 1 ≤ i ∧ i < a + 1 + bs.length
    · rw [if_pos h1, if_pos (by omega)]
      have : i - a = (i - (a + 1)) + 1 := by omega
      rw [this, List.getD_cons_succ]
    · rw [if_neg h1]
      by_cases h2 : i = a
      · subst h2; simp
      · rw [if_neg h2, if_neg (by omega)]

/-- Zeroed bytes read zero, every other byte as before. -/
theorem Memory.rd_zero (m : Memory) (a n i : Nat) : Memory.rd (Memory.zero m a n) i = if a ≤ i ∧ i < a + n then 0 else Memory.rd m i := by
  unfold Memory.rd Memory.zero AMap.get
  induction m with
  | nil => simp [AMap.get?]
  | cons e m ih =>
    obtain ⟨j, b⟩ := e
    by_cases hj : j < a ∨ a + n ≤ j
    · by_cases hi : j = i
      · subst hi
        have h2 : ¬(a ≤ j ∧ j < a + n) := by omega
        simp [hj, AMap.get?, h2]
      · simpa [hj, AMap.get?, hi] using ih
    · by_cases hi : j = i
      · subst hi
        have h2 : a ≤ j ∧ j < a + n := by omega
        have := ih
        simp [hj, h2] at this ⊢
        exact this
      · simpa [hj, AMap.get?, hi] using ih

/-- Bytes read after they are written there. -/
theorem Memory.rds_wrs (bs : Bytes) (m : Memory) (a : Nat) : Memory.rds (Memory.wrs m a bs) a bs.length = bs := by
  have key : ∀ (n k : Nat), k + n = bs.length → Memory.rds (Memory.wrs m a bs) (a + k) n = bs.drop k := by
    intro n
    induction n with
    | zero => intro k hk; simp [Memory.rds]; omega
    | succ n ih =>
      intro k hk
      rw [Memory.rds, Memory.rd_wrs, if_pos (by omega), show a + k + 1 = a + (k + 1) by omega, ih (k + 1) (by omega)]
      rw [show a + k - a = k by omega, List.drop_eq_getElem_cons (by omega : k < bs.length), List.getD_eq_getElem _ _ (by omega)]
  simpa using key bs.length 0 (by omega)

end Sys2Proof
end

