-- ==== Sys2Proof/Laws/State.lean ====
section
/-!
SUPPORT. What each update of the state leaves alone, field by field, and what the unconditional ones write: cited in place of unfolding a
record.
-/

namespace Sys2Proof.Machine

variable (s : State)

@[simp] theorem State.updPart_pending (p : Nat) (f : PartS → PartS) : (s.updPart p f).pending = s.pending := rfl
@[simp] theorem State.updPart_fresh (p : Nat) (f : PartS → PartS) : (s.updPart p f).fresh = s.fresh := rfl
@[simp] theorem State.updPart_clockNs (p : Nat) (f : PartS → PartS) : (s.updPart p f).clockNs = s.clockNs := rfl
@[simp] theorem State.updPart_nextId (p : Nat) (f : PartS → PartS) : (s.updPart p f).nextId = s.nextId := rfl
@[simp] theorem State.updPart_devidValid (p : Nat) (f : PartS → PartS) : (s.updPart p f).devidValid = s.devidValid := rfl
@[simp] theorem State.updPart_devid (p : Nat) (f : PartS → PartS) : (s.updPart p f).devid = s.devid := rfl
@[simp] theorem State.updPart_straps (p : Nat) (f : PartS → PartS) : (s.updPart p f).straps = s.straps := rfl
@[simp] theorem State.updPart_pins (p : Nat) (f : PartS → PartS) : (s.updPart p f).pins = s.pins := rfl
@[simp] theorem State.updPart_rst (p : Nat) (f : PartS → PartS) : (s.updPart p f).rst = s.rst := rfl
@[simp] theorem State.updPart_power (p : Nat) (f : PartS → PartS) : (s.updPart p f).power = s.power := rfl
@[simp] theorem State.updPart_tape (p : Nat) (f : PartS → PartS) : (s.updPart p f).tape = s.tape := rfl
@[simp] theorem State.updPart_thimble (p : Nat) (f : PartS → PartS) : (s.updPart p f).thimble = s.thimble := rfl
@[simp] theorem State.updPart_secMbox (p : Nat) (f : PartS → PartS) : (s.updPart p f).secMbox = s.secMbox := rfl
@[simp] theorem State.updPart_keys (p : Nat) (f : PartS → PartS) : (s.updPart p f).keys = s.keys := rfl
@[simp] theorem State.updPart_mgmt (p : Nat) (f : PartS → PartS) : (s.updPart p f).mgmt = s.mgmt := rfl
@[simp] theorem State.updPart_faults (p : Nat) (f : PartS → PartS) : (s.updPart p f).faults = s.faults := rfl
@[simp] theorem State.updPart_mem (p : Nat) (f : PartS → PartS) : (s.updPart p f).mem = s.mem := rfl
@[simp] theorem State.updPart_units (p : Nat) (f : PartS → PartS) : (s.updPart p f).units = s.units := rfl
@[simp] theorem State.updPart_devMem (p : Nat) (f : PartS → PartS) : (s.updPart p f).devMem = s.devMem := rfl
@[simp] theorem State.updPart_shared (p : Nat) (f : PartS → PartS) : (s.updPart p f).shared = s.shared := rfl
@[simp] theorem State.updPart_localM (p : Nat) (f : PartS → PartS) : (s.updPart p f).localM = s.localM := rfl
@[simp] theorem State.updPart_imem (p : Nat) (f : PartS → PartS) : (s.updPart p f).imem = s.imem := rfl
@[simp] theorem State.updPart_host (p : Nat) (f : PartS → PartS) : (s.updPart p f).host = s.host := rfl
@[simp] theorem State.updPart_funcs (p : Nat) (f : PartS → PartS) : (s.updPart p f).funcs = s.funcs := rfl
@[simp] theorem State.updPart_parts (p : Nat) (f : PartS → PartS) : (s.updPart p f).parts = AMap.upd s.parts p {} f := rfl
@[simp] theorem State.updPart_queues (p : Nat) (f : PartS → PartS) : (s.updPart p f).queues = s.queues := rfl
@[simp] theorem State.updPart_ctxs (p : Nat) (f : PartS → PartS) : (s.updPart p f).ctxs = s.ctxs := rfl
@[simp] theorem State.updPart_segCache (p : Nat) (f : PartS → PartS) : (s.updPart p f).segCache = s.segCache := rfl
@[simp] theorem State.updPart_segMiss (p : Nat) (f : PartS → PartS) : (s.updPart p f).segMiss = s.segMiss := rfl
@[simp] theorem State.updPart_hot (p : Nat) (f : PartS → PartS) : (s.updPart p f).hot = s.hot := rfl
@[simp] theorem State.updPart_xfers (p : Nat) (f : PartS → PartS) : (s.updPart p f).xfers = s.xfers := rfl
@[simp] theorem State.updPart_conns (p : Nat) (f : PartS → PartS) : (s.updPart p f).conns = s.conns := rfl
@[simp] theorem State.updPart_rbufs (p : Nat) (f : PartS → PartS) : (s.updPart p f).rbufs = s.rbufs := rfl
@[simp] theorem State.updPart_wins (p : Nat) (f : PartS → PartS) : (s.updPart p f).wins = s.wins := rfl
@[simp] theorem State.updPart_tp (p : Nat) (f : PartS → PartS) : (s.updPart p f).tp = s.tp := rfl
@[simp] theorem State.updPart_shps (p : Nat) (f : PartS → PartS) : (s.updPart p f).shps = s.shps := rfl
@[simp] theorem State.updPart_ports (p : Nat) (f : PartS → PartS) : (s.updPart p f).ports = s.ports := rfl
@[simp] theorem State.updPart_route (p : Nat) (f : PartS → PartS) : (s.updPart p f).route = s.route := rfl
@[simp] theorem State.updPart_els (p : Nat) (f : PartS → PartS) : (s.updPart p f).els = s.els := rfl
@[simp] theorem State.updPart_optAlarm (p : Nat) (f : PartS → PartS) : (s.updPart p f).optAlarm = s.optAlarm := rfl
@[simp] theorem State.updPart_clus (p : Nat) (f : PartS → PartS) : (s.updPart p f).clus = s.clus := rfl
@[simp] theorem State.updPart_dies (p : Nat) (f : PartS → PartS) : (s.updPart p f).dies = s.dies := rfl
@[simp] theorem State.updPart_needles (p : Nat) (f : PartS → PartS) : (s.updPart p f).needles = s.needles := rfl
@[simp] theorem State.updPart_binds (p : Nat) (f : PartS → PartS) : (s.updPart p f).binds = s.binds := rfl
@[simp] theorem State.updPart_runs (p : Nat) (f : PartS → PartS) : (s.updPart p f).runs = s.runs := rfl
@[simp] theorem State.updPart_launches (p : Nat) (f : PartS → PartS) : (s.updPart p f).launches = s.launches := rfl
@[simp] theorem State.updPart_colls (p : Nat) (f : PartS → PartS) : (s.updPart p f).colls = s.colls := rfl
@[simp] theorem State.updPart_sync (p : Nat) (f : PartS → PartS) : (s.updPart p f).sync = s.sync := rfl
@[simp] theorem State.updPart_lb (p : Nat) (f : PartS → PartS) : (s.updPart p f).lb = s.lb := rfl
@[simp] theorem State.updPart_lbPrior (p : Nat) (f : PartS → PartS) : (s.updPart p f).lbPrior = s.lbPrior := rfl
@[simp] theorem State.updPart_bist (p : Nat) (f : PartS → PartS) : (s.updPart p f).bist = s.bist := rfl
@[simp] theorem State.updPart_tapIr (p : Nat) (f : PartS → PartS) : (s.updPart p f).tapIr = s.tapIr := rfl
@[simp] theorem State.updPart_i3c (p : Nat) (f : PartS → PartS) : (s.updPart p f).i3c = s.i3c := rfl
@[simp] theorem State.updFunc_pending (p : Nat) (f : FuncS → FuncS) : (s.updFunc p f).pending = s.pending := rfl
@[simp] theorem State.updFunc_fresh (p : Nat) (f : FuncS → FuncS) : (s.updFunc p f).fresh = s.fresh := rfl
@[simp] theorem State.updFunc_clockNs (p : Nat) (f : FuncS → FuncS) : (s.updFunc p f).clockNs = s.clockNs := rfl
@[simp] theorem State.updFunc_nextId (p : Nat) (f : FuncS → FuncS) : (s.updFunc p f).nextId = s.nextId := rfl
@[simp] theorem State.updFunc_devidValid (p : Nat) (f : FuncS → FuncS) : (s.updFunc p f).devidValid = s.devidValid := rfl
@[simp] theorem State.updFunc_devid (p : Nat) (f : FuncS → FuncS) : (s.updFunc p f).devid = s.devid := rfl
@[simp] theorem State.updFunc_straps (p : Nat) (f : FuncS → FuncS) : (s.updFunc p f).straps = s.straps := rfl
@[simp] theorem State.updFunc_pins (p : Nat) (f : FuncS → FuncS) : (s.updFunc p f).pins = s.pins := rfl
@[simp] theorem State.updFunc_rst (p : Nat) (f : FuncS → FuncS) : (s.updFunc p f).rst = s.rst := rfl
@[simp] theorem State.updFunc_power (p : Nat) (f : FuncS → FuncS) : (s.updFunc p f).power = s.power := rfl
@[simp] theorem State.updFunc_tape (p : Nat) (f : FuncS → FuncS) : (s.updFunc p f).tape = s.tape := rfl
@[simp] theorem State.updFunc_thimble (p : Nat) (f : FuncS → FuncS) : (s.updFunc p f).thimble = s.thimble := rfl
@[simp] theorem State.updFunc_secMbox (p : Nat) (f : FuncS → FuncS) : (s.updFunc p f).secMbox = s.secMbox := rfl
@[simp] theorem State.updFunc_keys (p : Nat) (f : FuncS → FuncS) : (s.updFunc p f).keys = s.keys := rfl
@[simp] theorem State.updFunc_mgmt (p : Nat) (f : FuncS → FuncS) : (s.updFunc p f).mgmt = s.mgmt := rfl
@[simp] theorem State.updFunc_faults (p : Nat) (f : FuncS → FuncS) : (s.updFunc p f).faults = s.faults := rfl
@[simp] theorem State.updFunc_mem (p : Nat) (f : FuncS → FuncS) : (s.updFunc p f).mem = s.mem := rfl
@[simp] theorem State.updFunc_units (p : Nat) (f : FuncS → FuncS) : (s.updFunc p f).units = s.units := rfl
@[simp] theorem State.updFunc_devMem (p : Nat) (f : FuncS → FuncS) : (s.updFunc p f).devMem = s.devMem := rfl
@[simp] theorem State.updFunc_shared (p : Nat) (f : FuncS → FuncS) : (s.updFunc p f).shared = s.shared := rfl
@[simp] theorem State.updFunc_localM (p : Nat) (f : FuncS → FuncS) : (s.updFunc p f).localM = s.localM := rfl
@[simp] theorem State.updFunc_imem (p : Nat) (f : FuncS → FuncS) : (s.updFunc p f).imem = s.imem := rfl
@[simp] theorem State.updFunc_host (p : Nat) (f : FuncS → FuncS) : (s.updFunc p f).host = s.host := rfl
@[simp] theorem State.updFunc_funcs (p : Nat) (f : FuncS → FuncS) : (s.updFunc p f).funcs = AMap.upd s.funcs p {} f := rfl
@[simp] theorem State.updFunc_parts (p : Nat) (f : FuncS → FuncS) : (s.updFunc p f).parts = s.parts := rfl
@[simp] theorem State.updFunc_queues (p : Nat) (f : FuncS → FuncS) : (s.updFunc p f).queues = s.queues := rfl
@[simp] theorem State.updFunc_ctxs (p : Nat) (f : FuncS → FuncS) : (s.updFunc p f).ctxs = s.ctxs := rfl
@[simp] theorem State.updFunc_segCache (p : Nat) (f : FuncS → FuncS) : (s.updFunc p f).segCache = s.segCache := rfl
@[simp] theorem State.updFunc_segMiss (p : Nat) (f : FuncS → FuncS) : (s.updFunc p f).segMiss = s.segMiss := rfl
@[simp] theorem State.updFunc_hot (p : Nat) (f : FuncS → FuncS) : (s.updFunc p f).hot = s.hot := rfl
@[simp] theorem State.updFunc_xfers (p : Nat) (f : FuncS → FuncS) : (s.updFunc p f).xfers = s.xfers := rfl
@[simp] theorem State.updFunc_conns (p : Nat) (f : FuncS → FuncS) : (s.updFunc p f).conns = s.conns := rfl
@[simp] theorem State.updFunc_rbufs (p : Nat) (f : FuncS → FuncS) : (s.updFunc p f).rbufs = s.rbufs := rfl
@[simp] theorem State.updFunc_wins (p : Nat) (f : FuncS → FuncS) : (s.updFunc p f).wins = s.wins := rfl
@[simp] theorem State.updFunc_tp (p : Nat) (f : FuncS → FuncS) : (s.updFunc p f).tp = s.tp := rfl
@[simp] theorem State.updFunc_shps (p : Nat) (f : FuncS → FuncS) : (s.updFunc p f).shps = s.shps := rfl
@[simp] theorem State.updFunc_ports (p : Nat) (f : FuncS → FuncS) : (s.updFunc p f).ports = s.ports := rfl
@[simp] theorem State.updFunc_route (p : Nat) (f : FuncS → FuncS) : (s.updFunc p f).route = s.route := rfl
@[simp] theorem State.updFunc_els (p : Nat) (f : FuncS → FuncS) : (s.updFunc p f).els = s.els := rfl
@[simp] theorem State.updFunc_optAlarm (p : Nat) (f : FuncS → FuncS) : (s.updFunc p f).optAlarm = s.optAlarm := rfl
@[simp] theorem State.updFunc_clus (p : Nat) (f : FuncS → FuncS) : (s.updFunc p f).clus = s.clus := rfl
@[simp] theorem State.updFunc_dies (p : Nat) (f : FuncS → FuncS) : (s.updFunc p f).dies = s.dies := rfl
@[simp] theorem State.updFunc_needles (p : Nat) (f : FuncS → FuncS) : (s.updFunc p f).needles = s.needles := rfl
@[simp] theorem State.updFunc_binds (p : Nat) (f : FuncS → FuncS) : (s.updFunc p f).binds = s.binds := rfl
@[simp] theorem State.updFunc_runs (p : Nat) (f : FuncS → FuncS) : (s.updFunc p f).runs = s.runs := rfl
@[simp] theorem State.updFunc_launches (p : Nat) (f : FuncS → FuncS) : (s.updFunc p f).launches = s.launches := rfl
@[simp] theorem State.updFunc_colls (p : Nat) (f : FuncS → FuncS) : (s.updFunc p f).colls = s.colls := rfl
@[simp] theorem State.updFunc_sync (p : Nat) (f : FuncS → FuncS) : (s.updFunc p f).sync = s.sync := rfl
@[simp] theorem State.updFunc_lb (p : Nat) (f : FuncS → FuncS) : (s.updFunc p f).lb = s.lb := rfl
@[simp] theorem State.updFunc_lbPrior (p : Nat) (f : FuncS → FuncS) : (s.updFunc p f).lbPrior = s.lbPrior := rfl
@[simp] theorem State.updFunc_bist (p : Nat) (f : FuncS → FuncS) : (s.updFunc p f).bist = s.bist := rfl
@[simp] theorem State.updFunc_tapIr (p : Nat) (f : FuncS → FuncS) : (s.updFunc p f).tapIr = s.tapIr := rfl
@[simp] theorem State.updFunc_i3c (p : Nat) (f : FuncS → FuncS) : (s.updFunc p f).i3c = s.i3c := rfl
@[simp] theorem State.updCtx_pending (p : Nat) (f : CtxS → CtxS) : (s.updCtx p f).pending = s.pending := rfl
@[simp] theorem State.updCtx_fresh (p : Nat) (f : CtxS → CtxS) : (s.updCtx p f).fresh = s.fresh := rfl
@[simp] theorem State.updCtx_clockNs (p : Nat) (f : CtxS → CtxS) : (s.updCtx p f).clockNs = s.clockNs := rfl
@[simp] theorem State.updCtx_nextId (p : Nat) (f : CtxS → CtxS) : (s.updCtx p f).nextId = s.nextId := rfl
@[simp] theorem State.updCtx_devidValid (p : Nat) (f : CtxS → CtxS) : (s.updCtx p f).devidValid = s.devidValid := rfl
@[simp] theorem State.updCtx_devid (p : Nat) (f : CtxS → CtxS) : (s.updCtx p f).devid = s.devid := rfl
@[simp] theorem State.updCtx_straps (p : Nat) (f : CtxS → CtxS) : (s.updCtx p f).straps = s.straps := rfl
@[simp] theorem State.updCtx_pins (p : Nat) (f : CtxS → CtxS) : (s.updCtx p f).pins = s.pins := rfl
@[simp] theorem State.updCtx_rst (p : Nat) (f : CtxS → CtxS) : (s.updCtx p f).rst = s.rst := rfl
@[simp] theorem State.updCtx_power (p : Nat) (f : CtxS → CtxS) : (s.updCtx p f).power = s.power := rfl
@[simp] theorem State.updCtx_tape (p : Nat) (f : CtxS → CtxS) : (s.updCtx p f).tape = s.tape := rfl
@[simp] theorem State.updCtx_thimble (p : Nat) (f : CtxS → CtxS) : (s.updCtx p f).thimble = s.thimble := rfl
@[simp] theorem State.updCtx_secMbox (p : Nat) (f : CtxS → CtxS) : (s.updCtx p f).secMbox = s.secMbox := rfl
@[simp] theorem State.updCtx_keys (p : Nat) (f : CtxS → CtxS) : (s.updCtx p f).keys = s.keys := rfl
@[simp] theorem State.updCtx_mgmt (p : Nat) (f : CtxS → CtxS) : (s.updCtx p f).mgmt = s.mgmt := rfl
@[simp] theorem State.updCtx_faults (p : Nat) (f : CtxS → CtxS) : (s.updCtx p f).faults = s.faults := rfl
@[simp] theorem State.updCtx_mem (p : Nat) (f : CtxS → CtxS) : (s.updCtx p f).mem = s.mem := rfl
@[simp] theorem State.updCtx_units (p : Nat) (f : CtxS → CtxS) : (s.updCtx p f).units = s.units := rfl
@[simp] theorem State.updCtx_devMem (p : Nat) (f : CtxS → CtxS) : (s.updCtx p f).devMem = s.devMem := rfl
@[simp] theorem State.updCtx_shared (p : Nat) (f : CtxS → CtxS) : (s.updCtx p f).shared = s.shared := rfl
@[simp] theorem State.updCtx_localM (p : Nat) (f : CtxS → CtxS) : (s.updCtx p f).localM = s.localM := rfl
@[simp] theorem State.updCtx_imem (p : Nat) (f : CtxS → CtxS) : (s.updCtx p f).imem = s.imem := rfl
@[simp] theorem State.updCtx_host (p : Nat) (f : CtxS → CtxS) : (s.updCtx p f).host = s.host := rfl
@[simp] theorem State.updCtx_funcs (p : Nat) (f : CtxS → CtxS) : (s.updCtx p f).funcs = s.funcs := rfl
@[simp] theorem State.updCtx_parts (p : Nat) (f : CtxS → CtxS) : (s.updCtx p f).parts = s.parts := rfl
@[simp] theorem State.updCtx_queues (p : Nat) (f : CtxS → CtxS) : (s.updCtx p f).queues = s.queues := rfl
@[simp] theorem State.updCtx_ctxs (p : Nat) (f : CtxS → CtxS) : (s.updCtx p f).ctxs = AMap.upd s.ctxs p {} f := rfl
@[simp] theorem State.updCtx_segCache (p : Nat) (f : CtxS → CtxS) : (s.updCtx p f).segCache = s.segCache := rfl
@[simp] theorem State.updCtx_segMiss (p : Nat) (f : CtxS → CtxS) : (s.updCtx p f).segMiss = s.segMiss := rfl
@[simp] theorem State.updCtx_hot (p : Nat) (f : CtxS → CtxS) : (s.updCtx p f).hot = s.hot := rfl
@[simp] theorem State.updCtx_xfers (p : Nat) (f : CtxS → CtxS) : (s.updCtx p f).xfers = s.xfers := rfl
@[simp] theorem State.updCtx_conns (p : Nat) (f : CtxS → CtxS) : (s.updCtx p f).conns = s.conns := rfl
@[simp] theorem State.updCtx_rbufs (p : Nat) (f : CtxS → CtxS) : (s.updCtx p f).rbufs = s.rbufs := rfl
@[simp] theorem State.updCtx_wins (p : Nat) (f : CtxS → CtxS) : (s.updCtx p f).wins = s.wins := rfl
@[simp] theorem State.updCtx_tp (p : Nat) (f : CtxS → CtxS) : (s.updCtx p f).tp = s.tp := rfl
@[simp] theorem State.updCtx_shps (p : Nat) (f : CtxS → CtxS) : (s.updCtx p f).shps = s.shps := rfl
@[simp] theorem State.updCtx_ports (p : Nat) (f : CtxS → CtxS) : (s.updCtx p f).ports = s.ports := rfl
@[simp] theorem State.updCtx_route (p : Nat) (f : CtxS → CtxS) : (s.updCtx p f).route = s.route := rfl
@[simp] theorem State.updCtx_els (p : Nat) (f : CtxS → CtxS) : (s.updCtx p f).els = s.els := rfl
@[simp] theorem State.updCtx_optAlarm (p : Nat) (f : CtxS → CtxS) : (s.updCtx p f).optAlarm = s.optAlarm := rfl
@[simp] theorem State.updCtx_clus (p : Nat) (f : CtxS → CtxS) : (s.updCtx p f).clus = s.clus := rfl
@[simp] theorem State.updCtx_dies (p : Nat) (f : CtxS → CtxS) : (s.updCtx p f).dies = s.dies := rfl
@[simp] theorem State.updCtx_needles (p : Nat) (f : CtxS → CtxS) : (s.updCtx p f).needles = s.needles := rfl
@[simp] theorem State.updCtx_binds (p : Nat) (f : CtxS → CtxS) : (s.updCtx p f).binds = s.binds := rfl
@[simp] theorem State.updCtx_runs (p : Nat) (f : CtxS → CtxS) : (s.updCtx p f).runs = s.runs := rfl
@[simp] theorem State.updCtx_launches (p : Nat) (f : CtxS → CtxS) : (s.updCtx p f).launches = s.launches := rfl
@[simp] theorem State.updCtx_colls (p : Nat) (f : CtxS → CtxS) : (s.updCtx p f).colls = s.colls := rfl
@[simp] theorem State.updCtx_sync (p : Nat) (f : CtxS → CtxS) : (s.updCtx p f).sync = s.sync := rfl
@[simp] theorem State.updCtx_lb (p : Nat) (f : CtxS → CtxS) : (s.updCtx p f).lb = s.lb := rfl
@[simp] theorem State.updCtx_lbPrior (p : Nat) (f : CtxS → CtxS) : (s.updCtx p f).lbPrior = s.lbPrior := rfl
@[simp] theorem State.updCtx_bist (p : Nat) (f : CtxS → CtxS) : (s.updCtx p f).bist = s.bist := rfl
@[simp] theorem State.updCtx_tapIr (p : Nat) (f : CtxS → CtxS) : (s.updCtx p f).tapIr = s.tapIr := rfl
@[simp] theorem State.updCtx_i3c (p : Nat) (f : CtxS → CtxS) : (s.updCtx p f).i3c = s.i3c := rfl
@[simp] theorem State.updConn_pending (p : Nat) (f : ConnS → ConnS) : (s.updConn p f).pending = s.pending := rfl
@[simp] theorem State.updConn_fresh (p : Nat) (f : ConnS → ConnS) : (s.updConn p f).fresh = s.fresh := rfl
@[simp] theorem State.updConn_clockNs (p : Nat) (f : ConnS → ConnS) : (s.updConn p f).clockNs = s.clockNs := rfl
@[simp] theorem State.updConn_nextId (p : Nat) (f : ConnS → ConnS) : (s.updConn p f).nextId = s.nextId := rfl
@[simp] theorem State.updConn_devidValid (p : Nat) (f : ConnS → ConnS) : (s.updConn p f).devidValid = s.devidValid := rfl
@[simp] theorem State.updConn_devid (p : Nat) (f : ConnS → ConnS) : (s.updConn p f).devid = s.devid := rfl
@[simp] theorem State.updConn_straps (p : Nat) (f : ConnS → ConnS) : (s.updConn p f).straps = s.straps := rfl
@[simp] theorem State.updConn_pins (p : Nat) (f : ConnS → ConnS) : (s.updConn p f).pins = s.pins := rfl
@[simp] theorem State.updConn_rst (p : Nat) (f : ConnS → ConnS) : (s.updConn p f).rst = s.rst := rfl
@[simp] theorem State.updConn_power (p : Nat) (f : ConnS → ConnS) : (s.updConn p f).power = s.power := rfl
@[simp] theorem State.updConn_tape (p : Nat) (f : ConnS → ConnS) : (s.updConn p f).tape = s.tape := rfl
@[simp] theorem State.updConn_thimble (p : Nat) (f : ConnS → ConnS) : (s.updConn p f).thimble = s.thimble := rfl
@[simp] theorem State.updConn_secMbox (p : Nat) (f : ConnS → ConnS) : (s.updConn p f).secMbox = s.secMbox := rfl
@[simp] theorem State.updConn_keys (p : Nat) (f : ConnS → ConnS) : (s.updConn p f).keys = s.keys := rfl
@[simp] theorem State.updConn_mgmt (p : Nat) (f : ConnS → ConnS) : (s.updConn p f).mgmt = s.mgmt := rfl
@[simp] theorem State.updConn_faults (p : Nat) (f : ConnS → ConnS) : (s.updConn p f).faults = s.faults := rfl
@[simp] theorem State.updConn_mem (p : Nat) (f : ConnS → ConnS) : (s.updConn p f).mem = s.mem := rfl
@[simp] theorem State.updConn_units (p : Nat) (f : ConnS → ConnS) : (s.updConn p f).units = s.units := rfl
@[simp] theorem State.updConn_devMem (p : Nat) (f : ConnS → ConnS) : (s.updConn p f).devMem = s.devMem := rfl
@[simp] theorem State.updConn_shared (p : Nat) (f : ConnS → ConnS) : (s.updConn p f).shared = s.shared := rfl
@[simp] theorem State.updConn_localM (p : Nat) (f : ConnS → ConnS) : (s.updConn p f).localM = s.localM := rfl
@[simp] theorem State.updConn_imem (p : Nat) (f : ConnS → ConnS) : (s.updConn p f).imem = s.imem := rfl
@[simp] theorem State.updConn_host (p : Nat) (f : ConnS → ConnS) : (s.updConn p f).host = s.host := rfl
@[simp] theorem State.updConn_funcs (p : Nat) (f : ConnS → ConnS) : (s.updConn p f).funcs = s.funcs := rfl
@[simp] theorem State.updConn_parts (p : Nat) (f : ConnS → ConnS) : (s.updConn p f).parts = s.parts := rfl
@[simp] theorem State.updConn_queues (p : Nat) (f : ConnS → ConnS) : (s.updConn p f).queues = s.queues := rfl
@[simp] theorem State.updConn_ctxs (p : Nat) (f : ConnS → ConnS) : (s.updConn p f).ctxs = s.ctxs := rfl
@[simp] theorem State.updConn_segCache (p : Nat) (f : ConnS → ConnS) : (s.updConn p f).segCache = s.segCache := rfl
@[simp] theorem State.updConn_segMiss (p : Nat) (f : ConnS → ConnS) : (s.updConn p f).segMiss = s.segMiss := rfl
@[simp] theorem State.updConn_hot (p : Nat) (f : ConnS → ConnS) : (s.updConn p f).hot = s.hot := rfl
@[simp] theorem State.updConn_xfers (p : Nat) (f : ConnS → ConnS) : (s.updConn p f).xfers = s.xfers := rfl
@[simp] theorem State.updConn_conns (p : Nat) (f : ConnS → ConnS) : (s.updConn p f).conns = AMap.upd s.conns p {} f := rfl
@[simp] theorem State.updConn_rbufs (p : Nat) (f : ConnS → ConnS) : (s.updConn p f).rbufs = s.rbufs := rfl
@[simp] theorem State.updConn_wins (p : Nat) (f : ConnS → ConnS) : (s.updConn p f).wins = s.wins := rfl
@[simp] theorem State.updConn_tp (p : Nat) (f : ConnS → ConnS) : (s.updConn p f).tp = s.tp := rfl
@[simp] theorem State.updConn_shps (p : Nat) (f : ConnS → ConnS) : (s.updConn p f).shps = s.shps := rfl
@[simp] theorem State.updConn_ports (p : Nat) (f : ConnS → ConnS) : (s.updConn p f).ports = s.ports := rfl
@[simp] theorem State.updConn_route (p : Nat) (f : ConnS → ConnS) : (s.updConn p f).route = s.route := rfl
@[simp] theorem State.updConn_els (p : Nat) (f : ConnS → ConnS) : (s.updConn p f).els = s.els := rfl
@[simp] theorem State.updConn_optAlarm (p : Nat) (f : ConnS → ConnS) : (s.updConn p f).optAlarm = s.optAlarm := rfl
@[simp] theorem State.updConn_clus (p : Nat) (f : ConnS → ConnS) : (s.updConn p f).clus = s.clus := rfl
@[simp] theorem State.updConn_dies (p : Nat) (f : ConnS → ConnS) : (s.updConn p f).dies = s.dies := rfl
@[simp] theorem State.updConn_needles (p : Nat) (f : ConnS → ConnS) : (s.updConn p f).needles = s.needles := rfl
@[simp] theorem State.updConn_binds (p : Nat) (f : ConnS → ConnS) : (s.updConn p f).binds = s.binds := rfl
@[simp] theorem State.updConn_runs (p : Nat) (f : ConnS → ConnS) : (s.updConn p f).runs = s.runs := rfl
@[simp] theorem State.updConn_launches (p : Nat) (f : ConnS → ConnS) : (s.updConn p f).launches = s.launches := rfl
@[simp] theorem State.updConn_colls (p : Nat) (f : ConnS → ConnS) : (s.updConn p f).colls = s.colls := rfl
@[simp] theorem State.updConn_sync (p : Nat) (f : ConnS → ConnS) : (s.updConn p f).sync = s.sync := rfl
@[simp] theorem State.updConn_lb (p : Nat) (f : ConnS → ConnS) : (s.updConn p f).lb = s.lb := rfl
@[simp] theorem State.updConn_lbPrior (p : Nat) (f : ConnS → ConnS) : (s.updConn p f).lbPrior = s.lbPrior := rfl
@[simp] theorem State.updConn_bist (p : Nat) (f : ConnS → ConnS) : (s.updConn p f).bist = s.bist := rfl
@[simp] theorem State.updConn_tapIr (p : Nat) (f : ConnS → ConnS) : (s.updConn p f).tapIr = s.tapIr := rfl
@[simp] theorem State.updConn_i3c (p : Nat) (f : ConnS → ConnS) : (s.updConn p f).i3c = s.i3c := rfl
@[simp] theorem State.updWin_pending (p : Nat) (f : WinS → WinS) : (s.updWin p f).pending = s.pending := rfl
@[simp] theorem State.updWin_fresh (p : Nat) (f : WinS → WinS) : (s.updWin p f).fresh = s.fresh := rfl
@[simp] theorem State.updWin_clockNs (p : Nat) (f : WinS → WinS) : (s.updWin p f).clockNs = s.clockNs := rfl
@[simp] theorem State.updWin_nextId (p : Nat) (f : WinS → WinS) : (s.updWin p f).nextId = s.nextId := rfl
@[simp] theorem State.updWin_devidValid (p : Nat) (f : WinS → WinS) : (s.updWin p f).devidValid = s.devidValid := rfl
@[simp] theorem State.updWin_devid (p : Nat) (f : WinS → WinS) : (s.updWin p f).devid = s.devid := rfl
@[simp] theorem State.updWin_straps (p : Nat) (f : WinS → WinS) : (s.updWin p f).straps = s.straps := rfl
@[simp] theorem State.updWin_pins (p : Nat) (f : WinS → WinS) : (s.updWin p f).pins = s.pins := rfl
@[simp] theorem State.updWin_rst (p : Nat) (f : WinS → WinS) : (s.updWin p f).rst = s.rst := rfl
@[simp] theorem State.updWin_power (p : Nat) (f : WinS → WinS) : (s.updWin p f).power = s.power := rfl
@[simp] theorem State.updWin_tape (p : Nat) (f : WinS → WinS) : (s.updWin p f).tape = s.tape := rfl
@[simp] theorem State.updWin_thimble (p : Nat) (f : WinS → WinS) : (s.updWin p f).thimble = s.thimble := rfl
@[simp] theorem State.updWin_secMbox (p : Nat) (f : WinS → WinS) : (s.updWin p f).secMbox = s.secMbox := rfl
@[simp] theorem State.updWin_keys (p : Nat) (f : WinS → WinS) : (s.updWin p f).keys = s.keys := rfl
@[simp] theorem State.updWin_mgmt (p : Nat) (f : WinS → WinS) : (s.updWin p f).mgmt = s.mgmt := rfl
@[simp] theorem State.updWin_faults (p : Nat) (f : WinS → WinS) : (s.updWin p f).faults = s.faults := rfl
@[simp] theorem State.updWin_mem (p : Nat) (f : WinS → WinS) : (s.updWin p f).mem = s.mem := rfl
@[simp] theorem State.updWin_units (p : Nat) (f : WinS → WinS) : (s.updWin p f).units = s.units := rfl
@[simp] theorem State.updWin_devMem (p : Nat) (f : WinS → WinS) : (s.updWin p f).devMem = s.devMem := rfl
@[simp] theorem State.updWin_shared (p : Nat) (f : WinS → WinS) : (s.updWin p f).shared = s.shared := rfl
@[simp] theorem State.updWin_localM (p : Nat) (f : WinS → WinS) : (s.updWin p f).localM = s.localM := rfl
@[simp] theorem State.updWin_imem (p : Nat) (f : WinS → WinS) : (s.updWin p f).imem = s.imem := rfl
@[simp] theorem State.updWin_host (p : Nat) (f : WinS → WinS) : (s.updWin p f).host = s.host := rfl
@[simp] theorem State.updWin_funcs (p : Nat) (f : WinS → WinS) : (s.updWin p f).funcs = s.funcs := rfl
@[simp] theorem State.updWin_parts (p : Nat) (f : WinS → WinS) : (s.updWin p f).parts = s.parts := rfl
@[simp] theorem State.updWin_queues (p : Nat) (f : WinS → WinS) : (s.updWin p f).queues = s.queues := rfl
@[simp] theorem State.updWin_ctxs (p : Nat) (f : WinS → WinS) : (s.updWin p f).ctxs = s.ctxs := rfl
@[simp] theorem State.updWin_segCache (p : Nat) (f : WinS → WinS) : (s.updWin p f).segCache = s.segCache := rfl
@[simp] theorem State.updWin_segMiss (p : Nat) (f : WinS → WinS) : (s.updWin p f).segMiss = s.segMiss := rfl
@[simp] theorem State.updWin_hot (p : Nat) (f : WinS → WinS) : (s.updWin p f).hot = s.hot := rfl
@[simp] theorem State.updWin_xfers (p : Nat) (f : WinS → WinS) : (s.updWin p f).xfers = s.xfers := rfl
@[simp] theorem State.updWin_conns (p : Nat) (f : WinS → WinS) : (s.updWin p f).conns = s.conns := rfl
@[simp] theorem State.updWin_rbufs (p : Nat) (f : WinS → WinS) : (s.updWin p f).rbufs = s.rbufs := rfl
@[simp] theorem State.updWin_wins (p : Nat) (f : WinS → WinS) : (s.updWin p f).wins = AMap.upd s.wins p {} f := rfl
@[simp] theorem State.updWin_tp (p : Nat) (f : WinS → WinS) : (s.updWin p f).tp = s.tp := rfl
@[simp] theorem State.updWin_shps (p : Nat) (f : WinS → WinS) : (s.updWin p f).shps = s.shps := rfl
@[simp] theorem State.updWin_ports (p : Nat) (f : WinS → WinS) : (s.updWin p f).ports = s.ports := rfl
@[simp] theorem State.updWin_route (p : Nat) (f : WinS → WinS) : (s.updWin p f).route = s.route := rfl
@[simp] theorem State.updWin_els (p : Nat) (f : WinS → WinS) : (s.updWin p f).els = s.els := rfl
@[simp] theorem State.updWin_optAlarm (p : Nat) (f : WinS → WinS) : (s.updWin p f).optAlarm = s.optAlarm := rfl
@[simp] theorem State.updWin_clus (p : Nat) (f : WinS → WinS) : (s.updWin p f).clus = s.clus := rfl
@[simp] theorem State.updWin_dies (p : Nat) (f : WinS → WinS) : (s.updWin p f).dies = s.dies := rfl
@[simp] theorem State.updWin_needles (p : Nat) (f : WinS → WinS) : (s.updWin p f).needles = s.needles := rfl
@[simp] theorem State.updWin_binds (p : Nat) (f : WinS → WinS) : (s.updWin p f).binds = s.binds := rfl
@[simp] theorem State.updWin_runs (p : Nat) (f : WinS → WinS) : (s.updWin p f).runs = s.runs := rfl
@[simp] theorem State.updWin_launches (p : Nat) (f : WinS → WinS) : (s.updWin p f).launches = s.launches := rfl
@[simp] theorem State.updWin_colls (p : Nat) (f : WinS → WinS) : (s.updWin p f).colls = s.colls := rfl
@[simp] theorem State.updWin_sync (p : Nat) (f : WinS → WinS) : (s.updWin p f).sync = s.sync := rfl
@[simp] theorem State.updWin_lb (p : Nat) (f : WinS → WinS) : (s.updWin p f).lb = s.lb := rfl
@[simp] theorem State.updWin_lbPrior (p : Nat) (f : WinS → WinS) : (s.updWin p f).lbPrior = s.lbPrior := rfl
@[simp] theorem State.updWin_bist (p : Nat) (f : WinS → WinS) : (s.updWin p f).bist = s.bist := rfl
@[simp] theorem State.updWin_tapIr (p : Nat) (f : WinS → WinS) : (s.updWin p f).tapIr = s.tapIr := rfl
@[simp] theorem State.updWin_i3c (p : Nat) (f : WinS → WinS) : (s.updWin p f).i3c = s.i3c := rfl
@[simp] theorem State.updShp_pending (p : Nat) (f : ShpS → ShpS) : (s.updShp p f).pending = s.pending := rfl
@[simp] theorem State.updShp_fresh (p : Nat) (f : ShpS → ShpS) : (s.updShp p f).fresh = s.fresh := rfl
@[simp] theorem State.updShp_clockNs (p : Nat) (f : ShpS → ShpS) : (s.updShp p f).clockNs = s.clockNs := rfl
@[simp] theorem State.updShp_nextId (p : Nat) (f : ShpS → ShpS) : (s.updShp p f).nextId = s.nextId := rfl
@[simp] theorem State.updShp_devidValid (p : Nat) (f : ShpS → ShpS) : (s.updShp p f).devidValid = s.devidValid := rfl
@[simp] theorem State.updShp_devid (p : Nat) (f : ShpS → ShpS) : (s.updShp p f).devid = s.devid := rfl
@[simp] theorem State.updShp_straps (p : Nat) (f : ShpS → ShpS) : (s.updShp p f).straps = s.straps := rfl
@[simp] theorem State.updShp_pins (p : Nat) (f : ShpS → ShpS) : (s.updShp p f).pins = s.pins := rfl
@[simp] theorem State.updShp_rst (p : Nat) (f : ShpS → ShpS) : (s.updShp p f).rst = s.rst := rfl
@[simp] theorem State.updShp_power (p : Nat) (f : ShpS → ShpS) : (s.updShp p f).power = s.power := rfl
@[simp] theorem State.updShp_tape (p : Nat) (f : ShpS → ShpS) : (s.updShp p f).tape = s.tape := rfl
@[simp] theorem State.updShp_thimble (p : Nat) (f : ShpS → ShpS) : (s.updShp p f).thimble = s.thimble := rfl
@[simp] theorem State.updShp_secMbox (p : Nat) (f : ShpS → ShpS) : (s.updShp p f).secMbox = s.secMbox := rfl
@[simp] theorem State.updShp_keys (p : Nat) (f : ShpS → ShpS) : (s.updShp p f).keys = s.keys := rfl
@[simp] theorem State.updShp_mgmt (p : Nat) (f : ShpS → ShpS) : (s.updShp p f).mgmt = s.mgmt := rfl
@[simp] theorem State.updShp_faults (p : Nat) (f : ShpS → ShpS) : (s.updShp p f).faults = s.faults := rfl
@[simp] theorem State.updShp_mem (p : Nat) (f : ShpS → ShpS) : (s.updShp p f).mem = s.mem := rfl
@[simp] theorem State.updShp_units (p : Nat) (f : ShpS → ShpS) : (s.updShp p f).units = s.units := rfl
@[simp] theorem State.updShp_devMem (p : Nat) (f : ShpS → ShpS) : (s.updShp p f).devMem = s.devMem := rfl
@[simp] theorem State.updShp_shared (p : Nat) (f : ShpS → ShpS) : (s.updShp p f).shared = s.shared := rfl
@[simp] theorem State.updShp_localM (p : Nat) (f : ShpS → ShpS) : (s.updShp p f).localM = s.localM := rfl
@[simp] theorem State.updShp_imem (p : Nat) (f : ShpS → ShpS) : (s.updShp p f).imem = s.imem := rfl
@[simp] theorem State.updShp_host (p : Nat) (f : ShpS → ShpS) : (s.updShp p f).host = s.host := rfl
@[simp] theorem State.updShp_funcs (p : Nat) (f : ShpS → ShpS) : (s.updShp p f).funcs = s.funcs := rfl
@[simp] theorem State.updShp_parts (p : Nat) (f : ShpS → ShpS) : (s.updShp p f).parts = s.parts := rfl
@[simp] theorem State.updShp_queues (p : Nat) (f : ShpS → ShpS) : (s.updShp p f).queues = s.queues := rfl
@[simp] theorem State.updShp_ctxs (p : Nat) (f : ShpS → ShpS) : (s.updShp p f).ctxs = s.ctxs := rfl
@[simp] theorem State.updShp_segCache (p : Nat) (f : ShpS → ShpS) : (s.updShp p f).segCache = s.segCache := rfl
@[simp] theorem State.updShp_segMiss (p : Nat) (f : ShpS → ShpS) : (s.updShp p f).segMiss = s.segMiss := rfl
@[simp] theorem State.updShp_hot (p : Nat) (f : ShpS → ShpS) : (s.updShp p f).hot = s.hot := rfl
@[simp] theorem State.updShp_xfers (p : Nat) (f : ShpS → ShpS) : (s.updShp p f).xfers = s.xfers := rfl
@[simp] theorem State.updShp_conns (p : Nat) (f : ShpS → ShpS) : (s.updShp p f).conns = s.conns := rfl
@[simp] theorem State.updShp_rbufs (p : Nat) (f : ShpS → ShpS) : (s.updShp p f).rbufs = s.rbufs := rfl
@[simp] theorem State.updShp_wins (p : Nat) (f : ShpS → ShpS) : (s.updShp p f).wins = s.wins := rfl
@[simp] theorem State.updShp_tp (p : Nat) (f : ShpS → ShpS) : (s.updShp p f).tp = s.tp := rfl
@[simp] theorem State.updShp_shps (p : Nat) (f : ShpS → ShpS) : (s.updShp p f).shps = AMap.upd s.shps p {} f := rfl
@[simp] theorem State.updShp_ports (p : Nat) (f : ShpS → ShpS) : (s.updShp p f).ports = s.ports := rfl
@[simp] theorem State.updShp_route (p : Nat) (f : ShpS → ShpS) : (s.updShp p f).route = s.route := rfl
@[simp] theorem State.updShp_els (p : Nat) (f : ShpS → ShpS) : (s.updShp p f).els = s.els := rfl
@[simp] theorem State.updShp_optAlarm (p : Nat) (f : ShpS → ShpS) : (s.updShp p f).optAlarm = s.optAlarm := rfl
@[simp] theorem State.updShp_clus (p : Nat) (f : ShpS → ShpS) : (s.updShp p f).clus = s.clus := rfl
@[simp] theorem State.updShp_dies (p : Nat) (f : ShpS → ShpS) : (s.updShp p f).dies = s.dies := rfl
@[simp] theorem State.updShp_needles (p : Nat) (f : ShpS → ShpS) : (s.updShp p f).needles = s.needles := rfl
@[simp] theorem State.updShp_binds (p : Nat) (f : ShpS → ShpS) : (s.updShp p f).binds = s.binds := rfl
@[simp] theorem State.updShp_runs (p : Nat) (f : ShpS → ShpS) : (s.updShp p f).runs = s.runs := rfl
@[simp] theorem State.updShp_launches (p : Nat) (f : ShpS → ShpS) : (s.updShp p f).launches = s.launches := rfl
@[simp] theorem State.updShp_colls (p : Nat) (f : ShpS → ShpS) : (s.updShp p f).colls = s.colls := rfl
@[simp] theorem State.updShp_sync (p : Nat) (f : ShpS → ShpS) : (s.updShp p f).sync = s.sync := rfl
@[simp] theorem State.updShp_lb (p : Nat) (f : ShpS → ShpS) : (s.updShp p f).lb = s.lb := rfl
@[simp] theorem State.updShp_lbPrior (p : Nat) (f : ShpS → ShpS) : (s.updShp p f).lbPrior = s.lbPrior := rfl
@[simp] theorem State.updShp_bist (p : Nat) (f : ShpS → ShpS) : (s.updShp p f).bist = s.bist := rfl
@[simp] theorem State.updShp_tapIr (p : Nat) (f : ShpS → ShpS) : (s.updShp p f).tapIr = s.tapIr := rfl
@[simp] theorem State.updShp_i3c (p : Nat) (f : ShpS → ShpS) : (s.updShp p f).i3c = s.i3c := rfl
@[simp] theorem State.updObj_pending (p : Nat) (f : SyncS → SyncS) : (s.updObj p f).pending = s.pending := rfl
@[simp] theorem State.updObj_fresh (p : Nat) (f : SyncS → SyncS) : (s.updObj p f).fresh = s.fresh := rfl
@[simp] theorem State.updObj_clockNs (p : Nat) (f : SyncS → SyncS) : (s.updObj p f).clockNs = s.clockNs := rfl
@[simp] theorem State.updObj_nextId (p : Nat) (f : SyncS → SyncS) : (s.updObj p f).nextId = s.nextId := rfl
@[simp] theorem State.updObj_devidValid (p : Nat) (f : SyncS → SyncS) : (s.updObj p f).devidValid = s.devidValid := rfl
@[simp] theorem State.updObj_devid (p : Nat) (f : SyncS → SyncS) : (s.updObj p f).devid = s.devid := rfl
@[simp] theorem State.updObj_straps (p : Nat) (f : SyncS → SyncS) : (s.updObj p f).straps = s.straps := rfl
@[simp] theorem State.updObj_pins (p : Nat) (f : SyncS → SyncS) : (s.updObj p f).pins = s.pins := rfl
@[simp] theorem State.updObj_rst (p : Nat) (f : SyncS → SyncS) : (s.updObj p f).rst = s.rst := rfl
@[simp] theorem State.updObj_power (p : Nat) (f : SyncS → SyncS) : (s.updObj p f).power = s.power := rfl
@[simp] theorem State.updObj_tape (p : Nat) (f : SyncS → SyncS) : (s.updObj p f).tape = s.tape := rfl
@[simp] theorem State.updObj_thimble (p : Nat) (f : SyncS → SyncS) : (s.updObj p f).thimble = s.thimble := rfl
@[simp] theorem State.updObj_secMbox (p : Nat) (f : SyncS → SyncS) : (s.updObj p f).secMbox = s.secMbox := rfl
@[simp] theorem State.updObj_keys (p : Nat) (f : SyncS → SyncS) : (s.updObj p f).keys = s.keys := rfl
@[simp] theorem State.updObj_mgmt (p : Nat) (f : SyncS → SyncS) : (s.updObj p f).mgmt = s.mgmt := rfl
@[simp] theorem State.updObj_faults (p : Nat) (f : SyncS → SyncS) : (s.updObj p f).faults = s.faults := rfl
@[simp] theorem State.updObj_mem (p : Nat) (f : SyncS → SyncS) : (s.updObj p f).mem = s.mem := rfl
@[simp] theorem State.updObj_units (p : Nat) (f : SyncS → SyncS) : (s.updObj p f).units = s.units := rfl
@[simp] theorem State.updObj_devMem (p : Nat) (f : SyncS → SyncS) : (s.updObj p f).devMem = s.devMem := rfl
@[simp] theorem State.updObj_shared (p : Nat) (f : SyncS → SyncS) : (s.updObj p f).shared = s.shared := rfl
@[simp] theorem State.updObj_localM (p : Nat) (f : SyncS → SyncS) : (s.updObj p f).localM = s.localM := rfl
@[simp] theorem State.updObj_imem (p : Nat) (f : SyncS → SyncS) : (s.updObj p f).imem = s.imem := rfl
@[simp] theorem State.updObj_host (p : Nat) (f : SyncS → SyncS) : (s.updObj p f).host = s.host := rfl
@[simp] theorem State.updObj_funcs (p : Nat) (f : SyncS → SyncS) : (s.updObj p f).funcs = s.funcs := rfl
@[simp] theorem State.updObj_parts (p : Nat) (f : SyncS → SyncS) : (s.updObj p f).parts = s.parts := rfl
@[simp] theorem State.updObj_queues (p : Nat) (f : SyncS → SyncS) : (s.updObj p f).queues = s.queues := rfl
@[simp] theorem State.updObj_ctxs (p : Nat) (f : SyncS → SyncS) : (s.updObj p f).ctxs = s.ctxs := rfl
@[simp] theorem State.updObj_segCache (p : Nat) (f : SyncS → SyncS) : (s.updObj p f).segCache = s.segCache := rfl
@[simp] theorem State.updObj_segMiss (p : Nat) (f : SyncS → SyncS) : (s.updObj p f).segMiss = s.segMiss := rfl
@[simp] theorem State.updObj_hot (p : Nat) (f : SyncS → SyncS) : (s.updObj p f).hot = s.hot := rfl
@[simp] theorem State.updObj_xfers (p : Nat) (f : SyncS → SyncS) : (s.updObj p f).xfers = s.xfers := rfl
@[simp] theorem State.updObj_conns (p : Nat) (f : SyncS → SyncS) : (s.updObj p f).conns = s.conns := rfl
@[simp] theorem State.updObj_rbufs (p : Nat) (f : SyncS → SyncS) : (s.updObj p f).rbufs = s.rbufs := rfl
@[simp] theorem State.updObj_wins (p : Nat) (f : SyncS → SyncS) : (s.updObj p f).wins = s.wins := rfl
@[simp] theorem State.updObj_tp (p : Nat) (f : SyncS → SyncS) : (s.updObj p f).tp = s.tp := rfl
@[simp] theorem State.updObj_shps (p : Nat) (f : SyncS → SyncS) : (s.updObj p f).shps = s.shps := rfl
@[simp] theorem State.updObj_ports (p : Nat) (f : SyncS → SyncS) : (s.updObj p f).ports = s.ports := rfl
@[simp] theorem State.updObj_route (p : Nat) (f : SyncS → SyncS) : (s.updObj p f).route = s.route := rfl
@[simp] theorem State.updObj_els (p : Nat) (f : SyncS → SyncS) : (s.updObj p f).els = s.els := rfl
@[simp] theorem State.updObj_optAlarm (p : Nat) (f : SyncS → SyncS) : (s.updObj p f).optAlarm = s.optAlarm := rfl
@[simp] theorem State.updObj_clus (p : Nat) (f : SyncS → SyncS) : (s.updObj p f).clus = s.clus := rfl
@[simp] theorem State.updObj_dies (p : Nat) (f : SyncS → SyncS) : (s.updObj p f).dies = s.dies := rfl
@[simp] theorem State.updObj_needles (p : Nat) (f : SyncS → SyncS) : (s.updObj p f).needles = s.needles := rfl
@[simp] theorem State.updObj_binds (p : Nat) (f : SyncS → SyncS) : (s.updObj p f).binds = s.binds := rfl
@[simp] theorem State.updObj_runs (p : Nat) (f : SyncS → SyncS) : (s.updObj p f).runs = s.runs := rfl
@[simp] theorem State.updObj_launches (p : Nat) (f : SyncS → SyncS) : (s.updObj p f).launches = s.launches := rfl
@[simp] theorem State.updObj_colls (p : Nat) (f : SyncS → SyncS) : (s.updObj p f).colls = s.colls := rfl
@[simp] theorem State.updObj_sync (p : Nat) (f : SyncS → SyncS) : (s.updObj p f).sync = AMap.upd s.sync p {} f := rfl
@[simp] theorem State.updObj_lb (p : Nat) (f : SyncS → SyncS) : (s.updObj p f).lb = s.lb := rfl
@[simp] theorem State.updObj_lbPrior (p : Nat) (f : SyncS → SyncS) : (s.updObj p f).lbPrior = s.lbPrior := rfl
@[simp] theorem State.updObj_bist (p : Nat) (f : SyncS → SyncS) : (s.updObj p f).bist = s.bist := rfl
@[simp] theorem State.updObj_tapIr (p : Nat) (f : SyncS → SyncS) : (s.updObj p f).tapIr = s.tapIr := rfl
@[simp] theorem State.updObj_i3c (p : Nat) (f : SyncS → SyncS) : (s.updObj p f).i3c = s.i3c := rfl
@[simp] theorem State.updUnit_pending (p : Nat) (f : UnitS → UnitS) : (s.updUnit p f).pending = s.pending := rfl
@[simp] theorem State.updUnit_fresh (p : Nat) (f : UnitS → UnitS) : (s.updUnit p f).fresh = s.fresh := rfl
@[simp] theorem State.updUnit_clockNs (p : Nat) (f : UnitS → UnitS) : (s.updUnit p f).clockNs = s.clockNs := rfl
@[simp] theorem State.updUnit_nextId (p : Nat) (f : UnitS → UnitS) : (s.updUnit p f).nextId = s.nextId := rfl
@[simp] theorem State.updUnit_devidValid (p : Nat) (f : UnitS → UnitS) : (s.updUnit p f).devidValid = s.devidValid := rfl
@[simp] theorem State.updUnit_devid (p : Nat) (f : UnitS → UnitS) : (s.updUnit p f).devid = s.devid := rfl
@[simp] theorem State.updUnit_straps (p : Nat) (f : UnitS → UnitS) : (s.updUnit p f).straps = s.straps := rfl
@[simp] theorem State.updUnit_pins (p : Nat) (f : UnitS → UnitS) : (s.updUnit p f).pins = s.pins := rfl
@[simp] theorem State.updUnit_rst (p : Nat) (f : UnitS → UnitS) : (s.updUnit p f).rst = s.rst := rfl
@[simp] theorem State.updUnit_power (p : Nat) (f : UnitS → UnitS) : (s.updUnit p f).power = s.power := rfl
@[simp] theorem State.updUnit_tape (p : Nat) (f : UnitS → UnitS) : (s.updUnit p f).tape = s.tape := rfl
@[simp] theorem State.updUnit_thimble (p : Nat) (f : UnitS → UnitS) : (s.updUnit p f).thimble = s.thimble := rfl
@[simp] theorem State.updUnit_secMbox (p : Nat) (f : UnitS → UnitS) : (s.updUnit p f).secMbox = s.secMbox := rfl
@[simp] theorem State.updUnit_keys (p : Nat) (f : UnitS → UnitS) : (s.updUnit p f).keys = s.keys := rfl
@[simp] theorem State.updUnit_mgmt (p : Nat) (f : UnitS → UnitS) : (s.updUnit p f).mgmt = s.mgmt := rfl
@[simp] theorem State.updUnit_faults (p : Nat) (f : UnitS → UnitS) : (s.updUnit p f).faults = s.faults := rfl
@[simp] theorem State.updUnit_mem (p : Nat) (f : UnitS → UnitS) : (s.updUnit p f).mem = s.mem := rfl
@[simp] theorem State.updUnit_units (p : Nat) (f : UnitS → UnitS) : (s.updUnit p f).units = AMap.upd s.units p {} f := rfl
@[simp] theorem State.updUnit_devMem (p : Nat) (f : UnitS → UnitS) : (s.updUnit p f).devMem = s.devMem := rfl
@[simp] theorem State.updUnit_shared (p : Nat) (f : UnitS → UnitS) : (s.updUnit p f).shared = s.shared := rfl
@[simp] theorem State.updUnit_localM (p : Nat) (f : UnitS → UnitS) : (s.updUnit p f).localM = s.localM := rfl
@[simp] theorem State.updUnit_imem (p : Nat) (f : UnitS → UnitS) : (s.updUnit p f).imem = s.imem := rfl
@[simp] theorem State.updUnit_host (p : Nat) (f : UnitS → UnitS) : (s.updUnit p f).host = s.host := rfl
@[simp] theorem State.updUnit_funcs (p : Nat) (f : UnitS → UnitS) : (s.updUnit p f).funcs = s.funcs := rfl
@[simp] theorem State.updUnit_parts (p : Nat) (f : UnitS → UnitS) : (s.updUnit p f).parts = s.parts := rfl
@[simp] theorem State.updUnit_queues (p : Nat) (f : UnitS → UnitS) : (s.updUnit p f).queues = s.queues := rfl
@[simp] theorem State.updUnit_ctxs (p : Nat) (f : UnitS → UnitS) : (s.updUnit p f).ctxs = s.ctxs := rfl
@[simp] theorem State.updUnit_segCache (p : Nat) (f : UnitS → UnitS) : (s.updUnit p f).segCache = s.segCache := rfl
@[simp] theorem State.updUnit_segMiss (p : Nat) (f : UnitS → UnitS) : (s.updUnit p f).segMiss = s.segMiss := rfl
@[simp] theorem State.updUnit_hot (p : Nat) (f : UnitS → UnitS) : (s.updUnit p f).hot = s.hot := rfl
@[simp] theorem State.updUnit_xfers (p : Nat) (f : UnitS → UnitS) : (s.updUnit p f).xfers = s.xfers := rfl
@[simp] theorem State.updUnit_conns (p : Nat) (f : UnitS → UnitS) : (s.updUnit p f).conns = s.conns := rfl
@[simp] theorem State.updUnit_rbufs (p : Nat) (f : UnitS → UnitS) : (s.updUnit p f).rbufs = s.rbufs := rfl
@[simp] theorem State.updUnit_wins (p : Nat) (f : UnitS → UnitS) : (s.updUnit p f).wins = s.wins := rfl
@[simp] theorem State.updUnit_tp (p : Nat) (f : UnitS → UnitS) : (s.updUnit p f).tp = s.tp := rfl
@[simp] theorem State.updUnit_shps (p : Nat) (f : UnitS → UnitS) : (s.updUnit p f).shps = s.shps := rfl
@[simp] theorem State.updUnit_ports (p : Nat) (f : UnitS → UnitS) : (s.updUnit p f).ports = s.ports := rfl
@[simp] theorem State.updUnit_route (p : Nat) (f : UnitS → UnitS) : (s.updUnit p f).route = s.route := rfl
@[simp] theorem State.updUnit_els (p : Nat) (f : UnitS → UnitS) : (s.updUnit p f).els = s.els := rfl
@[simp] theorem State.updUnit_optAlarm (p : Nat) (f : UnitS → UnitS) : (s.updUnit p f).optAlarm = s.optAlarm := rfl
@[simp] theorem State.updUnit_clus (p : Nat) (f : UnitS → UnitS) : (s.updUnit p f).clus = s.clus := rfl
@[simp] theorem State.updUnit_dies (p : Nat) (f : UnitS → UnitS) : (s.updUnit p f).dies = s.dies := rfl
@[simp] theorem State.updUnit_needles (p : Nat) (f : UnitS → UnitS) : (s.updUnit p f).needles = s.needles := rfl
@[simp] theorem State.updUnit_binds (p : Nat) (f : UnitS → UnitS) : (s.updUnit p f).binds = s.binds := rfl
@[simp] theorem State.updUnit_runs (p : Nat) (f : UnitS → UnitS) : (s.updUnit p f).runs = s.runs := rfl
@[simp] theorem State.updUnit_launches (p : Nat) (f : UnitS → UnitS) : (s.updUnit p f).launches = s.launches := rfl
@[simp] theorem State.updUnit_colls (p : Nat) (f : UnitS → UnitS) : (s.updUnit p f).colls = s.colls := rfl
@[simp] theorem State.updUnit_sync (p : Nat) (f : UnitS → UnitS) : (s.updUnit p f).sync = s.sync := rfl
@[simp] theorem State.updUnit_lb (p : Nat) (f : UnitS → UnitS) : (s.updUnit p f).lb = s.lb := rfl
@[simp] theorem State.updUnit_lbPrior (p : Nat) (f : UnitS → UnitS) : (s.updUnit p f).lbPrior = s.lbPrior := rfl
@[simp] theorem State.updUnit_bist (p : Nat) (f : UnitS → UnitS) : (s.updUnit p f).bist = s.bist := rfl
@[simp] theorem State.updUnit_tapIr (p : Nat) (f : UnitS → UnitS) : (s.updUnit p f).tapIr = s.tapIr := rfl
@[simp] theorem State.updUnit_i3c (p : Nat) (f : UnitS → UnitS) : (s.updUnit p f).i3c = s.i3c := rfl
@[simp] theorem State.updTp_pending (f : TpS → TpS) : (s.updTp f).pending = s.pending := rfl
@[simp] theorem State.updTp_fresh (f : TpS → TpS) : (s.updTp f).fresh = s.fresh := rfl
@[simp] theorem State.updTp_clockNs (f : TpS → TpS) : (s.updTp f).clockNs = s.clockNs := rfl
@[simp] theorem State.updTp_nextId (f : TpS → TpS) : (s.updTp f).nextId = s.nextId := rfl
@[simp] theorem State.updTp_devidValid (f : TpS → TpS) : (s.updTp f).devidValid = s.devidValid := rfl
@[simp] theorem State.updTp_devid (f : TpS → TpS) : (s.updTp f).devid = s.devid := rfl
@[simp] theorem State.updTp_straps (f : TpS → TpS) : (s.updTp f).straps = s.straps := rfl
@[simp] theorem State.updTp_pins (f : TpS → TpS) : (s.updTp f).pins = s.pins := rfl
@[simp] theorem State.updTp_rst (f : TpS → TpS) : (s.updTp f).rst = s.rst := rfl
@[simp] theorem State.updTp_power (f : TpS → TpS) : (s.updTp f).power = s.power := rfl
@[simp] theorem State.updTp_tape (f : TpS → TpS) : (s.updTp f).tape = s.tape := rfl
@[simp] theorem State.updTp_thimble (f : TpS → TpS) : (s.updTp f).thimble = s.thimble := rfl
@[simp] theorem State.updTp_secMbox (f : TpS → TpS) : (s.updTp f).secMbox = s.secMbox := rfl
@[simp] theorem State.updTp_keys (f : TpS → TpS) : (s.updTp f).keys = s.keys := rfl
@[simp] theorem State.updTp_mgmt (f : TpS → TpS) : (s.updTp f).mgmt = s.mgmt := rfl
@[simp] theorem State.updTp_faults (f : TpS → TpS) : (s.updTp f).faults = s.faults := rfl
@[simp] theorem State.updTp_mem (f : TpS → TpS) : (s.updTp f).mem = s.mem := rfl
@[simp] theorem State.updTp_units (f : TpS → TpS) : (s.updTp f).units = s.units := rfl
@[simp] theorem State.updTp_devMem (f : TpS → TpS) : (s.updTp f).devMem = s.devMem := rfl
@[simp] theorem State.updTp_shared (f : TpS → TpS) : (s.updTp f).shared = s.shared := rfl
@[simp] theorem State.updTp_localM (f : TpS → TpS) : (s.updTp f).localM = s.localM := rfl
@[simp] theorem State.updTp_imem (f : TpS → TpS) : (s.updTp f).imem = s.imem := rfl
@[simp] theorem State.updTp_host (f : TpS → TpS) : (s.updTp f).host = s.host := rfl
@[simp] theorem State.updTp_funcs (f : TpS → TpS) : (s.updTp f).funcs = s.funcs := rfl
@[simp] theorem State.updTp_parts (f : TpS → TpS) : (s.updTp f).parts = s.parts := rfl
@[simp] theorem State.updTp_queues (f : TpS → TpS) : (s.updTp f).queues = s.queues := rfl
@[simp] theorem State.updTp_ctxs (f : TpS → TpS) : (s.updTp f).ctxs = s.ctxs := rfl
@[simp] theorem State.updTp_segCache (f : TpS → TpS) : (s.updTp f).segCache = s.segCache := rfl
@[simp] theorem State.updTp_segMiss (f : TpS → TpS) : (s.updTp f).segMiss = s.segMiss := rfl
@[simp] theorem State.updTp_hot (f : TpS → TpS) : (s.updTp f).hot = s.hot := rfl
@[simp] theorem State.updTp_xfers (f : TpS → TpS) : (s.updTp f).xfers = s.xfers := rfl
@[simp] theorem State.updTp_conns (f : TpS → TpS) : (s.updTp f).conns = s.conns := rfl
@[simp] theorem State.updTp_rbufs (f : TpS → TpS) : (s.updTp f).rbufs = s.rbufs := rfl
@[simp] theorem State.updTp_wins (f : TpS → TpS) : (s.updTp f).wins = s.wins := rfl
@[simp] theorem State.updTp_tp (f : TpS → TpS) : (s.updTp f).tp = f s.tp := rfl
@[simp] theorem State.updTp_shps (f : TpS → TpS) : (s.updTp f).shps = s.shps := rfl
@[simp] theorem State.updTp_ports (f : TpS → TpS) : (s.updTp f).ports = s.ports := rfl
@[simp] theorem State.updTp_route (f : TpS → TpS) : (s.updTp f).route = s.route := rfl
@[simp] theorem State.updTp_els (f : TpS → TpS) : (s.updTp f).els = s.els := rfl
@[simp] theorem State.updTp_optAlarm (f : TpS → TpS) : (s.updTp f).optAlarm = s.optAlarm := rfl
@[simp] theorem State.updTp_clus (f : TpS → TpS) : (s.updTp f).clus = s.clus := rfl
@[simp] theorem State.updTp_dies (f : TpS → TpS) : (s.updTp f).dies = s.dies := rfl
@[simp] theorem State.updTp_needles (f : TpS → TpS) : (s.updTp f).needles = s.needles := rfl
@[simp] theorem State.updTp_binds (f : TpS → TpS) : (s.updTp f).binds = s.binds := rfl
@[simp] theorem State.updTp_runs (f : TpS → TpS) : (s.updTp f).runs = s.runs := rfl
@[simp] theorem State.updTp_launches (f : TpS → TpS) : (s.updTp f).launches = s.launches := rfl
@[simp] theorem State.updTp_colls (f : TpS → TpS) : (s.updTp f).colls = s.colls := rfl
@[simp] theorem State.updTp_sync (f : TpS → TpS) : (s.updTp f).sync = s.sync := rfl
@[simp] theorem State.updTp_lb (f : TpS → TpS) : (s.updTp f).lb = s.lb := rfl
@[simp] theorem State.updTp_lbPrior (f : TpS → TpS) : (s.updTp f).lbPrior = s.lbPrior := rfl
@[simp] theorem State.updTp_bist (f : TpS → TpS) : (s.updTp f).bist = s.bist := rfl
@[simp] theorem State.updTp_tapIr (f : TpS → TpS) : (s.updTp f).tapIr = s.tapIr := rfl
@[simp] theorem State.updTp_i3c (f : TpS → TpS) : (s.updTp f).i3c = s.i3c := rfl
@[simp] theorem State.updMem_pending (f : MemS → MemS) : (s.updMem f).pending = s.pending := rfl
@[simp] theorem State.updMem_fresh (f : MemS → MemS) : (s.updMem f).fresh = s.fresh := rfl
@[simp] theorem State.updMem_clockNs (f : MemS → MemS) : (s.updMem f).clockNs = s.clockNs := rfl
@[simp] theorem State.updMem_nextId (f : MemS → MemS) : (s.updMem f).nextId = s.nextId := rfl
@[simp] theorem State.updMem_devidValid (f : MemS → MemS) : (s.updMem f).devidValid = s.devidValid := rfl
@[simp] theorem State.updMem_devid (f : MemS → MemS) : (s.updMem f).devid = s.devid := rfl
@[simp] theorem State.updMem_straps (f : MemS → MemS) : (s.updMem f).straps = s.straps := rfl
@[simp] theorem State.updMem_pins (f : MemS → MemS) : (s.updMem f).pins = s.pins := rfl
@[simp] theorem State.updMem_rst (f : MemS → MemS) : (s.updMem f).rst = s.rst := rfl
@[simp] theorem State.updMem_power (f : MemS → MemS) : (s.updMem f).power = s.power := rfl
@[simp] theorem State.updMem_tape (f : MemS → MemS) : (s.updMem f).tape = s.tape := rfl
@[simp] theorem State.updMem_thimble (f : MemS → MemS) : (s.updMem f).thimble = s.thimble := rfl
@[simp] theorem State.updMem_secMbox (f : MemS → MemS) : (s.updMem f).secMbox = s.secMbox := rfl
@[simp] theorem State.updMem_keys (f : MemS → MemS) : (s.updMem f).keys = s.keys := rfl
@[simp] theorem State.updMem_mgmt (f : MemS → MemS) : (s.updMem f).mgmt = s.mgmt := rfl
@[simp] theorem State.updMem_faults (f : MemS → MemS) : (s.updMem f).faults = s.faults := rfl
@[simp] theorem State.updMem_mem (f : MemS → MemS) : (s.updMem f).mem = f s.mem := rfl
@[simp] theorem State.updMem_units (f : MemS → MemS) : (s.updMem f).units = s.units := rfl
@[simp] theorem State.updMem_devMem (f : MemS → MemS) : (s.updMem f).devMem = s.devMem := rfl
@[simp] theorem State.updMem_shared (f : MemS → MemS) : (s.updMem f).shared = s.shared := rfl
@[simp] theorem State.updMem_localM (f : MemS → MemS) : (s.updMem f).localM = s.localM := rfl
@[simp] theorem State.updMem_imem (f : MemS → MemS) : (s.updMem f).imem = s.imem := rfl
@[simp] theorem State.updMem_host (f : MemS → MemS) : (s.updMem f).host = s.host := rfl
@[simp] theorem State.updMem_funcs (f : MemS → MemS) : (s.updMem f).funcs = s.funcs := rfl
@[simp] theorem State.updMem_parts (f : MemS → MemS) : (s.updMem f).parts = s.parts := rfl
@[simp] theorem State.updMem_queues (f : MemS → MemS) : (s.updMem f).queues = s.queues := rfl
@[simp] theorem State.updMem_ctxs (f : MemS → MemS) : (s.updMem f).ctxs = s.ctxs := rfl
@[simp] theorem State.updMem_segCache (f : MemS → MemS) : (s.updMem f).segCache = s.segCache := rfl
@[simp] theorem State.updMem_segMiss (f : MemS → MemS) : (s.updMem f).segMiss = s.segMiss := rfl
@[simp] theorem State.updMem_hot (f : MemS → MemS) : (s.updMem f).hot = s.hot := rfl
@[simp] theorem State.updMem_xfers (f : MemS → MemS) : (s.updMem f).xfers = s.xfers := rfl
@[simp] theorem State.updMem_conns (f : MemS → MemS) : (s.updMem f).conns = s.conns := rfl
@[simp] theorem State.updMem_rbufs (f : MemS → MemS) : (s.updMem f).rbufs = s.rbufs := rfl
@[simp] theorem State.updMem_wins (f : MemS → MemS) : (s.updMem f).wins = s.wins := rfl
@[simp] theorem State.updMem_tp (f : MemS → MemS) : (s.updMem f).tp = s.tp := rfl
@[simp] theorem State.updMem_shps (f : MemS → MemS) : (s.updMem f).shps = s.shps := rfl
@[simp] theorem State.updMem_ports (f : MemS → MemS) : (s.updMem f).ports = s.ports := rfl
@[simp] theorem State.updMem_route (f : MemS → MemS) : (s.updMem f).route = s.route := rfl
@[simp] theorem State.updMem_els (f : MemS → MemS) : (s.updMem f).els = s.els := rfl
@[simp] theorem State.updMem_optAlarm (f : MemS → MemS) : (s.updMem f).optAlarm = s.optAlarm := rfl
@[simp] theorem State.updMem_clus (f : MemS → MemS) : (s.updMem f).clus = s.clus := rfl
@[simp] theorem State.updMem_dies (f : MemS → MemS) : (s.updMem f).dies = s.dies := rfl
@[simp] theorem State.updMem_needles (f : MemS → MemS) : (s.updMem f).needles = s.needles := rfl
@[simp] theorem State.updMem_binds (f : MemS → MemS) : (s.updMem f).binds = s.binds := rfl
@[simp] theorem State.updMem_runs (f : MemS → MemS) : (s.updMem f).runs = s.runs := rfl
@[simp] theorem State.updMem_launches (f : MemS → MemS) : (s.updMem f).launches = s.launches := rfl
@[simp] theorem State.updMem_colls (f : MemS → MemS) : (s.updMem f).colls = s.colls := rfl
@[simp] theorem State.updMem_sync (f : MemS → MemS) : (s.updMem f).sync = s.sync := rfl
@[simp] theorem State.updMem_lb (f : MemS → MemS) : (s.updMem f).lb = s.lb := rfl
@[simp] theorem State.updMem_lbPrior (f : MemS → MemS) : (s.updMem f).lbPrior = s.lbPrior := rfl
@[simp] theorem State.updMem_bist (f : MemS → MemS) : (s.updMem f).bist = s.bist := rfl
@[simp] theorem State.updMem_tapIr (f : MemS → MemS) : (s.updMem f).tapIr = s.tapIr := rfl
@[simp] theorem State.updMem_i3c (f : MemS → MemS) : (s.updMem f).i3c = s.i3c := rfl
@[simp] theorem State.updHost_pending (f : HostS → HostS) : (s.updHost f).pending = s.pending := rfl
@[simp] theorem State.updHost_fresh (f : HostS → HostS) : (s.updHost f).fresh = s.fresh := rfl
@[simp] theorem State.updHost_clockNs (f : HostS → HostS) : (s.updHost f).clockNs = s.clockNs := rfl
@[simp] theorem State.updHost_nextId (f : HostS → HostS) : (s.updHost f).nextId = s.nextId := rfl
@[simp] theorem State.updHost_devidValid (f : HostS → HostS) : (s.updHost f).devidValid = s.devidValid := rfl
@[simp] theorem State.updHost_devid (f : HostS → HostS) : (s.updHost f).devid = s.devid := rfl
@[simp] theorem State.updHost_straps (f : HostS → HostS) : (s.updHost f).straps = s.straps := rfl
@[simp] theorem State.updHost_pins (f : HostS → HostS) : (s.updHost f).pins = s.pins := rfl
@[simp] theorem State.updHost_rst (f : HostS → HostS) : (s.updHost f).rst = s.rst := rfl
@[simp] theorem State.updHost_power (f : HostS → HostS) : (s.updHost f).power = s.power := rfl
@[simp] theorem State.updHost_tape (f : HostS → HostS) : (s.updHost f).tape = s.tape := rfl
@[simp] theorem State.updHost_thimble (f : HostS → HostS) : (s.updHost f).thimble = s.thimble := rfl
@[simp] theorem State.updHost_secMbox (f : HostS → HostS) : (s.updHost f).secMbox = s.secMbox := rfl
@[simp] theorem State.updHost_keys (f : HostS → HostS) : (s.updHost f).keys = s.keys := rfl
@[simp] theorem State.updHost_mgmt (f : HostS → HostS) : (s.updHost f).mgmt = s.mgmt := rfl
@[simp] theorem State.updHost_faults (f : HostS → HostS) : (s.updHost f).faults = s.faults := rfl
@[simp] theorem State.updHost_mem (f : HostS → HostS) : (s.updHost f).mem = s.mem := rfl
@[simp] theorem State.updHost_units (f : HostS → HostS) : (s.updHost f).units = s.units := rfl
@[simp] theorem State.updHost_devMem (f : HostS → HostS) : (s.updHost f).devMem = s.devMem := rfl
@[simp] theorem State.updHost_shared (f : HostS → HostS) : (s.updHost f).shared = s.shared := rfl
@[simp] theorem State.updHost_localM (f : HostS → HostS) : (s.updHost f).localM = s.localM := rfl
@[simp] theorem State.updHost_imem (f : HostS → HostS) : (s.updHost f).imem = s.imem := rfl
@[simp] theorem State.updHost_host (f : HostS → HostS) : (s.updHost f).host = f s.host := rfl
@[simp] theorem State.updHost_funcs (f : HostS → HostS) : (s.updHost f).funcs = s.funcs := rfl
@[simp] theorem State.updHost_parts (f : HostS → HostS) : (s.updHost f).parts = s.parts := rfl
@[simp] theorem State.updHost_queues (f : HostS → HostS) : (s.updHost f).queues = s.queues := rfl
@[simp] theorem State.updHost_ctxs (f : HostS → HostS) : (s.updHost f).ctxs = s.ctxs := rfl
@[simp] theorem State.updHost_segCache (f : HostS → HostS) : (s.updHost f).segCache = s.segCache := rfl
@[simp] theorem State.updHost_segMiss (f : HostS → HostS) : (s.updHost f).segMiss = s.segMiss := rfl
@[simp] theorem State.updHost_hot (f : HostS → HostS) : (s.updHost f).hot = s.hot := rfl
@[simp] theorem State.updHost_xfers (f : HostS → HostS) : (s.updHost f).xfers = s.xfers := rfl
@[simp] theorem State.updHost_conns (f : HostS → HostS) : (s.updHost f).conns = s.conns := rfl
@[simp] theorem State.updHost_rbufs (f : HostS → HostS) : (s.updHost f).rbufs = s.rbufs := rfl
@[simp] theorem State.updHost_wins (f : HostS → HostS) : (s.updHost f).wins = s.wins := rfl
@[simp] theorem State.updHost_tp (f : HostS → HostS) : (s.updHost f).tp = s.tp := rfl
@[simp] theorem State.updHost_shps (f : HostS → HostS) : (s.updHost f).shps = s.shps := rfl
@[simp] theorem State.updHost_ports (f : HostS → HostS) : (s.updHost f).ports = s.ports := rfl
@[simp] theorem State.updHost_route (f : HostS → HostS) : (s.updHost f).route = s.route := rfl
@[simp] theorem State.updHost_els (f : HostS → HostS) : (s.updHost f).els = s.els := rfl
@[simp] theorem State.updHost_optAlarm (f : HostS → HostS) : (s.updHost f).optAlarm = s.optAlarm := rfl
@[simp] theorem State.updHost_clus (f : HostS → HostS) : (s.updHost f).clus = s.clus := rfl
@[simp] theorem State.updHost_dies (f : HostS → HostS) : (s.updHost f).dies = s.dies := rfl
@[simp] theorem State.updHost_needles (f : HostS → HostS) : (s.updHost f).needles = s.needles := rfl
@[simp] theorem State.updHost_binds (f : HostS → HostS) : (s.updHost f).binds = s.binds := rfl
@[simp] theorem State.updHost_runs (f : HostS → HostS) : (s.updHost f).runs = s.runs := rfl
@[simp] theorem State.updHost_launches (f : HostS → HostS) : (s.updHost f).launches = s.launches := rfl
@[simp] theorem State.updHost_colls (f : HostS → HostS) : (s.updHost f).colls = s.colls := rfl
@[simp] theorem State.updHost_sync (f : HostS → HostS) : (s.updHost f).sync = s.sync := rfl
@[simp] theorem State.updHost_lb (f : HostS → HostS) : (s.updHost f).lb = s.lb := rfl
@[simp] theorem State.updHost_lbPrior (f : HostS → HostS) : (s.updHost f).lbPrior = s.lbPrior := rfl
@[simp] theorem State.updHost_bist (f : HostS → HostS) : (s.updHost f).bist = s.bist := rfl
@[simp] theorem State.updHost_tapIr (f : HostS → HostS) : (s.updHost f).tapIr = s.tapIr := rfl
@[simp] theorem State.updHost_i3c (f : HostS → HostS) : (s.updHost f).i3c = s.i3c := rfl
@[simp] theorem State.updRst_pending (f : ResetS → ResetS) : (s.updRst f).pending = s.pending := rfl
@[simp] theorem State.updRst_fresh (f : ResetS → ResetS) : (s.updRst f).fresh = s.fresh := rfl
@[simp] theorem State.updRst_clockNs (f : ResetS → ResetS) : (s.updRst f).clockNs = s.clockNs := rfl
@[simp] theorem State.updRst_nextId (f : ResetS → ResetS) : (s.updRst f).nextId = s.nextId := rfl
@[simp] theorem State.updRst_devidValid (f : ResetS → ResetS) : (s.updRst f).devidValid = s.devidValid := rfl
@[simp] theorem State.updRst_devid (f : ResetS → ResetS) : (s.updRst f).devid = s.devid := rfl
@[simp] theorem State.updRst_straps (f : ResetS → ResetS) : (s.updRst f).straps = s.straps := rfl
@[simp] theorem State.updRst_pins (f : ResetS → ResetS) : (s.updRst f).pins = s.pins := rfl
@[simp] theorem State.updRst_rst (f : ResetS → ResetS) : (s.updRst f).rst = f s.rst := rfl
@[simp] theorem State.updRst_power (f : ResetS → ResetS) : (s.updRst f).power = s.power := rfl
@[simp] theorem State.updRst_tape (f : ResetS → ResetS) : (s.updRst f).tape = s.tape := rfl
@[simp] theorem State.updRst_thimble (f : ResetS → ResetS) : (s.updRst f).thimble = s.thimble := rfl
@[simp] theorem State.updRst_secMbox (f : ResetS → ResetS) : (s.updRst f).secMbox = s.secMbox := rfl
@[simp] theorem State.updRst_keys (f : ResetS → ResetS) : (s.updRst f).keys = s.keys := rfl
@[simp] theorem State.updRst_mgmt (f : ResetS → ResetS) : (s.updRst f).mgmt = s.mgmt := rfl
@[simp] theorem State.updRst_faults (f : ResetS → ResetS) : (s.updRst f).faults = s.faults := rfl
@[simp] theorem State.updRst_mem (f : ResetS → ResetS) : (s.updRst f).mem = s.mem := rfl
@[simp] theorem State.updRst_units (f : ResetS → ResetS) : (s.updRst f).units = s.units := rfl
@[simp] theorem State.updRst_devMem (f : ResetS → ResetS) : (s.updRst f).devMem = s.devMem := rfl
@[simp] theorem State.updRst_shared (f : ResetS → ResetS) : (s.updRst f).shared = s.shared := rfl
@[simp] theorem State.updRst_localM (f : ResetS → ResetS) : (s.updRst f).localM = s.localM := rfl
@[simp] theorem State.updRst_imem (f : ResetS → ResetS) : (s.updRst f).imem = s.imem := rfl
@[simp] theorem State.updRst_host (f : ResetS → ResetS) : (s.updRst f).host = s.host := rfl
@[simp] theorem State.updRst_funcs (f : ResetS → ResetS) : (s.updRst f).funcs = s.funcs := rfl
@[simp] theorem State.updRst_parts (f : ResetS → ResetS) : (s.updRst f).parts = s.parts := rfl
@[simp] theorem State.updRst_queues (f : ResetS → ResetS) : (s.updRst f).queues = s.queues := rfl
@[simp] theorem State.updRst_ctxs (f : ResetS → ResetS) : (s.updRst f).ctxs = s.ctxs := rfl
@[simp] theorem State.updRst_segCache (f : ResetS → ResetS) : (s.updRst f).segCache = s.segCache := rfl
@[simp] theorem State.updRst_segMiss (f : ResetS → ResetS) : (s.updRst f).segMiss = s.segMiss := rfl
@[simp] theorem State.updRst_hot (f : ResetS → ResetS) : (s.updRst f).hot = s.hot := rfl
@[simp] theorem State.updRst_xfers (f : ResetS → ResetS) : (s.updRst f).xfers = s.xfers := rfl
@[simp] theorem State.updRst_conns (f : ResetS → ResetS) : (s.updRst f).conns = s.conns := rfl
@[simp] theorem State.updRst_rbufs (f : ResetS → ResetS) : (s.updRst f).rbufs = s.rbufs := rfl
@[simp] theorem State.updRst_wins (f : ResetS → ResetS) : (s.updRst f).wins = s.wins := rfl
@[simp] theorem State.updRst_tp (f : ResetS → ResetS) : (s.updRst f).tp = s.tp := rfl
@[simp] theorem State.updRst_shps (f : ResetS → ResetS) : (s.updRst f).shps = s.shps := rfl
@[simp] theorem State.updRst_ports (f : ResetS → ResetS) : (s.updRst f).ports = s.ports := rfl
@[simp] theorem State.updRst_route (f : ResetS → ResetS) : (s.updRst f).route = s.route := rfl
@[simp] theorem State.updRst_els (f : ResetS → ResetS) : (s.updRst f).els = s.els := rfl
@[simp] theorem State.updRst_optAlarm (f : ResetS → ResetS) : (s.updRst f).optAlarm = s.optAlarm := rfl
@[simp] theorem State.updRst_clus (f : ResetS → ResetS) : (s.updRst f).clus = s.clus := rfl
@[simp] theorem State.updRst_dies (f : ResetS → ResetS) : (s.updRst f).dies = s.dies := rfl
@[simp] theorem State.updRst_needles (f : ResetS → ResetS) : (s.updRst f).needles = s.needles := rfl
@[simp] theorem State.updRst_binds (f : ResetS → ResetS) : (s.updRst f).binds = s.binds := rfl
@[simp] theorem State.updRst_runs (f : ResetS → ResetS) : (s.updRst f).runs = s.runs := rfl
@[simp] theorem State.updRst_launches (f : ResetS → ResetS) : (s.updRst f).launches = s.launches := rfl
@[simp] theorem State.updRst_colls (f : ResetS → ResetS) : (s.updRst f).colls = s.colls := rfl
@[simp] theorem State.updRst_sync (f : ResetS → ResetS) : (s.updRst f).sync = s.sync := rfl
@[simp] theorem State.updRst_lb (f : ResetS → ResetS) : (s.updRst f).lb = s.lb := rfl
@[simp] theorem State.updRst_lbPrior (f : ResetS → ResetS) : (s.updRst f).lbPrior = s.lbPrior := rfl
@[simp] theorem State.updRst_bist (f : ResetS → ResetS) : (s.updRst f).bist = s.bist := rfl
@[simp] theorem State.updRst_tapIr (f : ResetS → ResetS) : (s.updRst f).tapIr = s.tapIr := rfl
@[simp] theorem State.updRst_i3c (f : ResetS → ResetS) : (s.updRst f).i3c = s.i3c := rfl
@[simp] theorem State.updPower_pending (f : PowerS → PowerS) : (s.updPower f).pending = s.pending := rfl
@[simp] theorem State.updPower_fresh (f : PowerS → PowerS) : (s.updPower f).fresh = s.fresh := rfl
@[simp] theorem State.updPower_clockNs (f : PowerS → PowerS) : (s.updPower f).clockNs = s.clockNs := rfl
@[simp] theorem State.updPower_nextId (f : PowerS → PowerS) : (s.updPower f).nextId = s.nextId := rfl
@[simp] theorem State.updPower_devidValid (f : PowerS → PowerS) : (s.updPower f).devidValid = s.devidValid := rfl
@[simp] theorem State.updPower_devid (f : PowerS → PowerS) : (s.updPower f).devid = s.devid := rfl
@[simp] theorem State.updPower_straps (f : PowerS → PowerS) : (s.updPower f).straps = s.straps := rfl
@[simp] theorem State.updPower_pins (f : PowerS → PowerS) : (s.updPower f).pins = s.pins := rfl
@[simp] theorem State.updPower_rst (f : PowerS → PowerS) : (s.updPower f).rst = s.rst := rfl
@[simp] theorem State.updPower_power (f : PowerS → PowerS) : (s.updPower f).power = f s.power := rfl
@[simp] theorem State.updPower_tape (f : PowerS → PowerS) : (s.updPower f).tape = s.tape := rfl
@[simp] theorem State.updPower_thimble (f : PowerS → PowerS) : (s.updPower f).thimble = s.thimble := rfl
@[simp] theorem State.updPower_secMbox (f : PowerS → PowerS) : (s.updPower f).secMbox = s.secMbox := rfl
@[simp] theorem State.updPower_keys (f : PowerS → PowerS) : (s.updPower f).keys = s.keys := rfl
@[simp] theorem State.updPower_mgmt (f : PowerS → PowerS) : (s.updPower f).mgmt = s.mgmt := rfl
@[simp] theorem State.updPower_faults (f : PowerS → PowerS) : (s.updPower f).faults = s.faults := rfl
@[simp] theorem State.updPower_mem (f : PowerS → PowerS) : (s.updPower f).mem = s.mem := rfl
@[simp] theorem State.updPower_units (f : PowerS → PowerS) : (s.updPower f).units = s.units := rfl
@[simp] theorem State.updPower_devMem (f : PowerS → PowerS) : (s.updPower f).devMem = s.devMem := rfl
@[simp] theorem State.updPower_shared (f : PowerS → PowerS) : (s.updPower f).shared = s.shared := rfl
@[simp] theorem State.updPower_localM (f : PowerS → PowerS) : (s.updPower f).localM = s.localM := rfl
@[simp] theorem State.updPower_imem (f : PowerS → PowerS) : (s.updPower f).imem = s.imem := rfl
@[simp] theorem State.updPower_host (f : PowerS → PowerS) : (s.updPower f).host = s.host := rfl
@[simp] theorem State.updPower_funcs (f : PowerS → PowerS) : (s.updPower f).funcs = s.funcs := rfl
@[simp] theorem State.updPower_parts (f : PowerS → PowerS) : (s.updPower f).parts = s.parts := rfl
@[simp] theorem State.updPower_queues (f : PowerS → PowerS) : (s.updPower f).queues = s.queues := rfl
@[simp] theorem State.updPower_ctxs (f : PowerS → PowerS) : (s.updPower f).ctxs = s.ctxs := rfl
@[simp] theorem State.updPower_segCache (f : PowerS → PowerS) : (s.updPower f).segCache = s.segCache := rfl
@[simp] theorem State.updPower_segMiss (f : PowerS → PowerS) : (s.updPower f).segMiss = s.segMiss := rfl
@[simp] theorem State.updPower_hot (f : PowerS → PowerS) : (s.updPower f).hot = s.hot := rfl
@[simp] theorem State.updPower_xfers (f : PowerS → PowerS) : (s.updPower f).xfers = s.xfers := rfl
@[simp] theorem State.updPower_conns (f : PowerS → PowerS) : (s.updPower f).conns = s.conns := rfl
@[simp] theorem State.updPower_rbufs (f : PowerS → PowerS) : (s.updPower f).rbufs = s.rbufs := rfl
@[simp] theorem State.updPower_wins (f : PowerS → PowerS) : (s.updPower f).wins = s.wins := rfl
@[simp] theorem State.updPower_tp (f : PowerS → PowerS) : (s.updPower f).tp = s.tp := rfl
@[simp] theorem State.updPower_shps (f : PowerS → PowerS) : (s.updPower f).shps = s.shps := rfl
@[simp] theorem State.updPower_ports (f : PowerS → PowerS) : (s.updPower f).ports = s.ports := rfl
@[simp] theorem State.updPower_route (f : PowerS → PowerS) : (s.updPower f).route = s.route := rfl
@[simp] theorem State.updPower_els (f : PowerS → PowerS) : (s.updPower f).els = s.els := rfl
@[simp] theorem State.updPower_optAlarm (f : PowerS → PowerS) : (s.updPower f).optAlarm = s.optAlarm := rfl
@[simp] theorem State.updPower_clus (f : PowerS → PowerS) : (s.updPower f).clus = s.clus := rfl
@[simp] theorem State.updPower_dies (f : PowerS → PowerS) : (s.updPower f).dies = s.dies := rfl
@[simp] theorem State.updPower_needles (f : PowerS → PowerS) : (s.updPower f).needles = s.needles := rfl
@[simp] theorem State.updPower_binds (f : PowerS → PowerS) : (s.updPower f).binds = s.binds := rfl
@[simp] theorem State.updPower_runs (f : PowerS → PowerS) : (s.updPower f).runs = s.runs := rfl
@[simp] theorem State.updPower_launches (f : PowerS → PowerS) : (s.updPower f).launches = s.launches := rfl
@[simp] theorem State.updPower_colls (f : PowerS → PowerS) : (s.updPower f).colls = s.colls := rfl
@[simp] theorem State.updPower_sync (f : PowerS → PowerS) : (s.updPower f).sync = s.sync := rfl
@[simp] theorem State.updPower_lb (f : PowerS → PowerS) : (s.updPower f).lb = s.lb := rfl
@[simp] theorem State.updPower_lbPrior (f : PowerS → PowerS) : (s.updPower f).lbPrior = s.lbPrior := rfl
@[simp] theorem State.updPower_bist (f : PowerS → PowerS) : (s.updPower f).bist = s.bist := rfl
@[simp] theorem State.updPower_tapIr (f : PowerS → PowerS) : (s.updPower f).tapIr = s.tapIr := rfl
@[simp] theorem State.updPower_i3c (f : PowerS → PowerS) : (s.updPower f).i3c = s.i3c := rfl
@[simp] theorem State.updTape_pending (f : TapeS → TapeS) : (s.updTape f).pending = s.pending := rfl
@[simp] theorem State.updTape_fresh (f : TapeS → TapeS) : (s.updTape f).fresh = s.fresh := rfl
@[simp] theorem State.updTape_clockNs (f : TapeS → TapeS) : (s.updTape f).clockNs = s.clockNs := rfl
@[simp] theorem State.updTape_nextId (f : TapeS → TapeS) : (s.updTape f).nextId = s.nextId := rfl
@[simp] theorem State.updTape_devidValid (f : TapeS → TapeS) : (s.updTape f).devidValid = s.devidValid := rfl
@[simp] theorem State.updTape_devid (f : TapeS → TapeS) : (s.updTape f).devid = s.devid := rfl
@[simp] theorem State.updTape_straps (f : TapeS → TapeS) : (s.updTape f).straps = s.straps := rfl
@[simp] theorem State.updTape_pins (f : TapeS → TapeS) : (s.updTape f).pins = s.pins := rfl
@[simp] theorem State.updTape_rst (f : TapeS → TapeS) : (s.updTape f).rst = s.rst := rfl
@[simp] theorem State.updTape_power (f : TapeS → TapeS) : (s.updTape f).power = s.power := rfl
@[simp] theorem State.updTape_tape (f : TapeS → TapeS) : (s.updTape f).tape = f s.tape := rfl
@[simp] theorem State.updTape_thimble (f : TapeS → TapeS) : (s.updTape f).thimble = s.thimble := rfl
@[simp] theorem State.updTape_secMbox (f : TapeS → TapeS) : (s.updTape f).secMbox = s.secMbox := rfl
@[simp] theorem State.updTape_keys (f : TapeS → TapeS) : (s.updTape f).keys = s.keys := rfl
@[simp] theorem State.updTape_mgmt (f : TapeS → TapeS) : (s.updTape f).mgmt = s.mgmt := rfl
@[simp] theorem State.updTape_faults (f : TapeS → TapeS) : (s.updTape f).faults = s.faults := rfl
@[simp] theorem State.updTape_mem (f : TapeS → TapeS) : (s.updTape f).mem = s.mem := rfl
@[simp] theorem State.updTape_units (f : TapeS → TapeS) : (s.updTape f).units = s.units := rfl
@[simp] theorem State.updTape_devMem (f : TapeS → TapeS) : (s.updTape f).devMem = s.devMem := rfl
@[simp] theorem State.updTape_shared (f : TapeS → TapeS) : (s.updTape f).shared = s.shared := rfl
@[simp] theorem State.updTape_localM (f : TapeS → TapeS) : (s.updTape f).localM = s.localM := rfl
@[simp] theorem State.updTape_imem (f : TapeS → TapeS) : (s.updTape f).imem = s.imem := rfl
@[simp] theorem State.updTape_host (f : TapeS → TapeS) : (s.updTape f).host = s.host := rfl
@[simp] theorem State.updTape_funcs (f : TapeS → TapeS) : (s.updTape f).funcs = s.funcs := rfl
@[simp] theorem State.updTape_parts (f : TapeS → TapeS) : (s.updTape f).parts = s.parts := rfl
@[simp] theorem State.updTape_queues (f : TapeS → TapeS) : (s.updTape f).queues = s.queues := rfl
@[simp] theorem State.updTape_ctxs (f : TapeS → TapeS) : (s.updTape f).ctxs = s.ctxs := rfl
@[simp] theorem State.updTape_segCache (f : TapeS → TapeS) : (s.updTape f).segCache = s.segCache := rfl
@[simp] theorem State.updTape_segMiss (f : TapeS → TapeS) : (s.updTape f).segMiss = s.segMiss := rfl
@[simp] theorem State.updTape_hot (f : TapeS → TapeS) : (s.updTape f).hot = s.hot := rfl
@[simp] theorem State.updTape_xfers (f : TapeS → TapeS) : (s.updTape f).xfers = s.xfers := rfl
@[simp] theorem State.updTape_conns (f : TapeS → TapeS) : (s.updTape f).conns = s.conns := rfl
@[simp] theorem State.updTape_rbufs (f : TapeS → TapeS) : (s.updTape f).rbufs = s.rbufs := rfl
@[simp] theorem State.updTape_wins (f : TapeS → TapeS) : (s.updTape f).wins = s.wins := rfl
@[simp] theorem State.updTape_tp (f : TapeS → TapeS) : (s.updTape f).tp = s.tp := rfl
@[simp] theorem State.updTape_shps (f : TapeS → TapeS) : (s.updTape f).shps = s.shps := rfl
@[simp] theorem State.updTape_ports (f : TapeS → TapeS) : (s.updTape f).ports = s.ports := rfl
@[simp] theorem State.updTape_route (f : TapeS → TapeS) : (s.updTape f).route = s.route := rfl
@[simp] theorem State.updTape_els (f : TapeS → TapeS) : (s.updTape f).els = s.els := rfl
@[simp] theorem State.updTape_optAlarm (f : TapeS → TapeS) : (s.updTape f).optAlarm = s.optAlarm := rfl
@[simp] theorem State.updTape_clus (f : TapeS → TapeS) : (s.updTape f).clus = s.clus := rfl
@[simp] theorem State.updTape_dies (f : TapeS → TapeS) : (s.updTape f).dies = s.dies := rfl
@[simp] theorem State.updTape_needles (f : TapeS → TapeS) : (s.updTape f).needles = s.needles := rfl
@[simp] theorem State.updTape_binds (f : TapeS → TapeS) : (s.updTape f).binds = s.binds := rfl
@[simp] theorem State.updTape_runs (f : TapeS → TapeS) : (s.updTape f).runs = s.runs := rfl
@[simp] theorem State.updTape_launches (f : TapeS → TapeS) : (s.updTape f).launches = s.launches := rfl
@[simp] theorem State.updTape_colls (f : TapeS → TapeS) : (s.updTape f).colls = s.colls := rfl
@[simp] theorem State.updTape_sync (f : TapeS → TapeS) : (s.updTape f).sync = s.sync := rfl
@[simp] theorem State.updTape_lb (f : TapeS → TapeS) : (s.updTape f).lb = s.lb := rfl
@[simp] theorem State.updTape_lbPrior (f : TapeS → TapeS) : (s.updTape f).lbPrior = s.lbPrior := rfl
@[simp] theorem State.updTape_bist (f : TapeS → TapeS) : (s.updTape f).bist = s.bist := rfl
@[simp] theorem State.updTape_tapIr (f : TapeS → TapeS) : (s.updTape f).tapIr = s.tapIr := rfl
@[simp] theorem State.updTape_i3c (f : TapeS → TapeS) : (s.updTape f).i3c = s.i3c := rfl
@[simp] theorem State.updThimble_pending (f : ThimbleS → ThimbleS) : (s.updThimble f).pending = s.pending := rfl
@[simp] theorem State.updThimble_fresh (f : ThimbleS → ThimbleS) : (s.updThimble f).fresh = s.fresh := rfl
@[simp] theorem State.updThimble_clockNs (f : ThimbleS → ThimbleS) : (s.updThimble f).clockNs = s.clockNs := rfl
@[simp] theorem State.updThimble_nextId (f : ThimbleS → ThimbleS) : (s.updThimble f).nextId = s.nextId := rfl
@[simp] theorem State.updThimble_devidValid (f : ThimbleS → ThimbleS) : (s.updThimble f).devidValid = s.devidValid := rfl
@[simp] theorem State.updThimble_devid (f : ThimbleS → ThimbleS) : (s.updThimble f).devid = s.devid := rfl
@[simp] theorem State.updThimble_straps (f : ThimbleS → ThimbleS) : (s.updThimble f).straps = s.straps := rfl
@[simp] theorem State.updThimble_pins (f : ThimbleS → ThimbleS) : (s.updThimble f).pins = s.pins := rfl
@[simp] theorem State.updThimble_rst (f : ThimbleS → ThimbleS) : (s.updThimble f).rst = s.rst := rfl
@[simp] theorem State.updThimble_power (f : ThimbleS → ThimbleS) : (s.updThimble f).power = s.power := rfl
@[simp] theorem State.updThimble_tape (f : ThimbleS → ThimbleS) : (s.updThimble f).tape = s.tape := rfl
@[simp] theorem State.updThimble_thimble (f : ThimbleS → ThimbleS) : (s.updThimble f).thimble = f s.thimble := rfl
@[simp] theorem State.updThimble_secMbox (f : ThimbleS → ThimbleS) : (s.updThimble f).secMbox = s.secMbox := rfl
@[simp] theorem State.updThimble_keys (f : ThimbleS → ThimbleS) : (s.updThimble f).keys = s.keys := rfl
@[simp] theorem State.updThimble_mgmt (f : ThimbleS → ThimbleS) : (s.updThimble f).mgmt = s.mgmt := rfl
@[simp] theorem State.updThimble_faults (f : ThimbleS → ThimbleS) : (s.updThimble f).faults = s.faults := rfl
@[simp] theorem State.updThimble_mem (f : ThimbleS → ThimbleS) : (s.updThimble f).mem = s.mem := rfl
@[simp] theorem State.updThimble_units (f : ThimbleS → ThimbleS) : (s.updThimble f).units = s.units := rfl
@[simp] theorem State.updThimble_devMem (f : ThimbleS → ThimbleS) : (s.updThimble f).devMem = s.devMem := rfl
@[simp] theorem State.updThimble_shared (f : ThimbleS → ThimbleS) : (s.updThimble f).shared = s.shared := rfl
@[simp] theorem State.updThimble_localM (f : ThimbleS → ThimbleS) : (s.updThimble f).localM = s.localM := rfl
@[simp] theorem State.updThimble_imem (f : ThimbleS → ThimbleS) : (s.updThimble f).imem = s.imem := rfl
@[simp] theorem State.updThimble_host (f : ThimbleS → ThimbleS) : (s.updThimble f).host = s.host := rfl
@[simp] theorem State.updThimble_funcs (f : ThimbleS → ThimbleS) : (s.updThimble f).funcs = s.funcs := rfl
@[simp] theorem State.updThimble_parts (f : ThimbleS → ThimbleS) : (s.updThimble f).parts = s.parts := rfl
@[simp] theorem State.updThimble_queues (f : ThimbleS → ThimbleS) : (s.updThimble f).queues = s.queues := rfl
@[simp] theorem State.updThimble_ctxs (f : ThimbleS → ThimbleS) : (s.updThimble f).ctxs = s.ctxs := rfl
@[simp] theorem State.updThimble_segCache (f : ThimbleS → ThimbleS) : (s.updThimble f).segCache = s.segCache := rfl
@[simp] theorem State.updThimble_segMiss (f : ThimbleS → ThimbleS) : (s.updThimble f).segMiss = s.segMiss := rfl
@[simp] theorem State.updThimble_hot (f : ThimbleS → ThimbleS) : (s.updThimble f).hot = s.hot := rfl
@[simp] theorem State.updThimble_xfers (f : ThimbleS → ThimbleS) : (s.updThimble f).xfers = s.xfers := rfl
@[simp] theorem State.updThimble_conns (f : ThimbleS → ThimbleS) : (s.updThimble f).conns = s.conns := rfl
@[simp] theorem State.updThimble_rbufs (f : ThimbleS → ThimbleS) : (s.updThimble f).rbufs = s.rbufs := rfl
@[simp] theorem State.updThimble_wins (f : ThimbleS → ThimbleS) : (s.updThimble f).wins = s.wins := rfl
@[simp] theorem State.updThimble_tp (f : ThimbleS → ThimbleS) : (s.updThimble f).tp = s.tp := rfl
@[simp] theorem State.updThimble_shps (f : ThimbleS → ThimbleS) : (s.updThimble f).shps = s.shps := rfl
@[simp] theorem State.updThimble_ports (f : ThimbleS → ThimbleS) : (s.updThimble f).ports = s.ports := rfl
@[simp] theorem State.updThimble_route (f : ThimbleS → ThimbleS) : (s.updThimble f).route = s.route := rfl
@[simp] theorem State.updThimble_els (f : ThimbleS → ThimbleS) : (s.updThimble f).els = s.els := rfl
@[simp] theorem State.updThimble_optAlarm (f : ThimbleS → ThimbleS) : (s.updThimble f).optAlarm = s.optAlarm := rfl
@[simp] theorem State.updThimble_clus (f : ThimbleS → ThimbleS) : (s.updThimble f).clus = s.clus := rfl
@[simp] theorem State.updThimble_dies (f : ThimbleS → ThimbleS) : (s.updThimble f).dies = s.dies := rfl
@[simp] theorem State.updThimble_needles (f : ThimbleS → ThimbleS) : (s.updThimble f).needles = s.needles := rfl
@[simp] theorem State.updThimble_binds (f : ThimbleS → ThimbleS) : (s.updThimble f).binds = s.binds := rfl
@[simp] theorem State.updThimble_runs (f : ThimbleS → ThimbleS) : (s.updThimble f).runs = s.runs := rfl
@[simp] theorem State.updThimble_launches (f : ThimbleS → ThimbleS) : (s.updThimble f).launches = s.launches := rfl
@[simp] theorem State.updThimble_colls (f : ThimbleS → ThimbleS) : (s.updThimble f).colls = s.colls := rfl
@[simp] theorem State.updThimble_sync (f : ThimbleS → ThimbleS) : (s.updThimble f).sync = s.sync := rfl
@[simp] theorem State.updThimble_lb (f : ThimbleS → ThimbleS) : (s.updThimble f).lb = s.lb := rfl
@[simp] theorem State.updThimble_lbPrior (f : ThimbleS → ThimbleS) : (s.updThimble f).lbPrior = s.lbPrior := rfl
@[simp] theorem State.updThimble_bist (f : ThimbleS → ThimbleS) : (s.updThimble f).bist = s.bist := rfl
@[simp] theorem State.updThimble_tapIr (f : ThimbleS → ThimbleS) : (s.updThimble f).tapIr = s.tapIr := rfl
@[simp] theorem State.updThimble_i3c (f : ThimbleS → ThimbleS) : (s.updThimble f).i3c = s.i3c := rfl
@[simp] theorem State.updMgmt_pending (f : MgmtS → MgmtS) : (s.updMgmt f).pending = s.pending := rfl
@[simp] theorem State.updMgmt_fresh (f : MgmtS → MgmtS) : (s.updMgmt f).fresh = s.fresh := rfl
@[simp] theorem State.updMgmt_clockNs (f : MgmtS → MgmtS) : (s.updMgmt f).clockNs = s.clockNs := rfl
@[simp] theorem State.updMgmt_nextId (f : MgmtS → MgmtS) : (s.updMgmt f).nextId = s.nextId := rfl
@[simp] theorem State.updMgmt_devidValid (f : MgmtS → MgmtS) : (s.updMgmt f).devidValid = s.devidValid := rfl
@[simp] theorem State.updMgmt_devid (f : MgmtS → MgmtS) : (s.updMgmt f).devid = s.devid := rfl
@[simp] theorem State.updMgmt_straps (f : MgmtS → MgmtS) : (s.updMgmt f).straps = s.straps := rfl
@[simp] theorem State.updMgmt_pins (f : MgmtS → MgmtS) : (s.updMgmt f).pins = s.pins := rfl
@[simp] theorem State.updMgmt_rst (f : MgmtS → MgmtS) : (s.updMgmt f).rst = s.rst := rfl
@[simp] theorem State.updMgmt_power (f : MgmtS → MgmtS) : (s.updMgmt f).power = s.power := rfl
@[simp] theorem State.updMgmt_tape (f : MgmtS → MgmtS) : (s.updMgmt f).tape = s.tape := rfl
@[simp] theorem State.updMgmt_thimble (f : MgmtS → MgmtS) : (s.updMgmt f).thimble = s.thimble := rfl
@[simp] theorem State.updMgmt_secMbox (f : MgmtS → MgmtS) : (s.updMgmt f).secMbox = s.secMbox := rfl
@[simp] theorem State.updMgmt_keys (f : MgmtS → MgmtS) : (s.updMgmt f).keys = s.keys := rfl
@[simp] theorem State.updMgmt_mgmt (f : MgmtS → MgmtS) : (s.updMgmt f).mgmt = f s.mgmt := rfl
@[simp] theorem State.updMgmt_faults (f : MgmtS → MgmtS) : (s.updMgmt f).faults = s.faults := rfl
@[simp] theorem State.updMgmt_mem (f : MgmtS → MgmtS) : (s.updMgmt f).mem = s.mem := rfl
@[simp] theorem State.updMgmt_units (f : MgmtS → MgmtS) : (s.updMgmt f).units = s.units := rfl
@[simp] theorem State.updMgmt_devMem (f : MgmtS → MgmtS) : (s.updMgmt f).devMem = s.devMem := rfl
@[simp] theorem State.updMgmt_shared (f : MgmtS → MgmtS) : (s.updMgmt f).shared = s.shared := rfl
@[simp] theorem State.updMgmt_localM (f : MgmtS → MgmtS) : (s.updMgmt f).localM = s.localM := rfl
@[simp] theorem State.updMgmt_imem (f : MgmtS → MgmtS) : (s.updMgmt f).imem = s.imem := rfl
@[simp] theorem State.updMgmt_host (f : MgmtS → MgmtS) : (s.updMgmt f).host = s.host := rfl
@[simp] theorem State.updMgmt_funcs (f : MgmtS → MgmtS) : (s.updMgmt f).funcs = s.funcs := rfl
@[simp] theorem State.updMgmt_parts (f : MgmtS → MgmtS) : (s.updMgmt f).parts = s.parts := rfl
@[simp] theorem State.updMgmt_queues (f : MgmtS → MgmtS) : (s.updMgmt f).queues = s.queues := rfl
@[simp] theorem State.updMgmt_ctxs (f : MgmtS → MgmtS) : (s.updMgmt f).ctxs = s.ctxs := rfl
@[simp] theorem State.updMgmt_segCache (f : MgmtS → MgmtS) : (s.updMgmt f).segCache = s.segCache := rfl
@[simp] theorem State.updMgmt_segMiss (f : MgmtS → MgmtS) : (s.updMgmt f).segMiss = s.segMiss := rfl
@[simp] theorem State.updMgmt_hot (f : MgmtS → MgmtS) : (s.updMgmt f).hot = s.hot := rfl
@[simp] theorem State.updMgmt_xfers (f : MgmtS → MgmtS) : (s.updMgmt f).xfers = s.xfers := rfl
@[simp] theorem State.updMgmt_conns (f : MgmtS → MgmtS) : (s.updMgmt f).conns = s.conns := rfl
@[simp] theorem State.updMgmt_rbufs (f : MgmtS → MgmtS) : (s.updMgmt f).rbufs = s.rbufs := rfl
@[simp] theorem State.updMgmt_wins (f : MgmtS → MgmtS) : (s.updMgmt f).wins = s.wins := rfl
@[simp] theorem State.updMgmt_tp (f : MgmtS → MgmtS) : (s.updMgmt f).tp = s.tp := rfl
@[simp] theorem State.updMgmt_shps (f : MgmtS → MgmtS) : (s.updMgmt f).shps = s.shps := rfl
@[simp] theorem State.updMgmt_ports (f : MgmtS → MgmtS) : (s.updMgmt f).ports = s.ports := rfl
@[simp] theorem State.updMgmt_route (f : MgmtS → MgmtS) : (s.updMgmt f).route = s.route := rfl
@[simp] theorem State.updMgmt_els (f : MgmtS → MgmtS) : (s.updMgmt f).els = s.els := rfl
@[simp] theorem State.updMgmt_optAlarm (f : MgmtS → MgmtS) : (s.updMgmt f).optAlarm = s.optAlarm := rfl
@[simp] theorem State.updMgmt_clus (f : MgmtS → MgmtS) : (s.updMgmt f).clus = s.clus := rfl
@[simp] theorem State.updMgmt_dies (f : MgmtS → MgmtS) : (s.updMgmt f).dies = s.dies := rfl
@[simp] theorem State.updMgmt_needles (f : MgmtS → MgmtS) : (s.updMgmt f).needles = s.needles := rfl
@[simp] theorem State.updMgmt_binds (f : MgmtS → MgmtS) : (s.updMgmt f).binds = s.binds := rfl
@[simp] theorem State.updMgmt_runs (f : MgmtS → MgmtS) : (s.updMgmt f).runs = s.runs := rfl
@[simp] theorem State.updMgmt_launches (f : MgmtS → MgmtS) : (s.updMgmt f).launches = s.launches := rfl
@[simp] theorem State.updMgmt_colls (f : MgmtS → MgmtS) : (s.updMgmt f).colls = s.colls := rfl
@[simp] theorem State.updMgmt_sync (f : MgmtS → MgmtS) : (s.updMgmt f).sync = s.sync := rfl
@[simp] theorem State.updMgmt_lb (f : MgmtS → MgmtS) : (s.updMgmt f).lb = s.lb := rfl
@[simp] theorem State.updMgmt_lbPrior (f : MgmtS → MgmtS) : (s.updMgmt f).lbPrior = s.lbPrior := rfl
@[simp] theorem State.updMgmt_bist (f : MgmtS → MgmtS) : (s.updMgmt f).bist = s.bist := rfl
@[simp] theorem State.updMgmt_tapIr (f : MgmtS → MgmtS) : (s.updMgmt f).tapIr = s.tapIr := rfl
@[simp] theorem State.updMgmt_i3c (f : MgmtS → MgmtS) : (s.updMgmt f).i3c = s.i3c := rfl
@[simp] theorem State.updFaults_pending (f : FaultS → FaultS) : (s.updFaults f).pending = s.pending := rfl
@[simp] theorem State.updFaults_fresh (f : FaultS → FaultS) : (s.updFaults f).fresh = s.fresh := rfl
@[simp] theorem State.updFaults_clockNs (f : FaultS → FaultS) : (s.updFaults f).clockNs = s.clockNs := rfl
@[simp] theorem State.updFaults_nextId (f : FaultS → FaultS) : (s.updFaults f).nextId = s.nextId := rfl
@[simp] theorem State.updFaults_devidValid (f : FaultS → FaultS) : (s.updFaults f).devidValid = s.devidValid := rfl
@[simp] theorem State.updFaults_devid (f : FaultS → FaultS) : (s.updFaults f).devid = s.devid := rfl
@[simp] theorem State.updFaults_straps (f : FaultS → FaultS) : (s.updFaults f).straps = s.straps := rfl
@[simp] theorem State.updFaults_pins (f : FaultS → FaultS) : (s.updFaults f).pins = s.pins := rfl
@[simp] theorem State.updFaults_rst (f : FaultS → FaultS) : (s.updFaults f).rst = s.rst := rfl
@[simp] theorem State.updFaults_power (f : FaultS → FaultS) : (s.updFaults f).power = s.power := rfl
@[simp] theorem State.updFaults_tape (f : FaultS → FaultS) : (s.updFaults f).tape = s.tape := rfl
@[simp] theorem State.updFaults_thimble (f : FaultS → FaultS) : (s.updFaults f).thimble = s.thimble := rfl
@[simp] theorem State.updFaults_secMbox (f : FaultS → FaultS) : (s.updFaults f).secMbox = s.secMbox := rfl
@[simp] theorem State.updFaults_keys (f : FaultS → FaultS) : (s.updFaults f).keys = s.keys := rfl
@[simp] theorem State.updFaults_mgmt (f : FaultS → FaultS) : (s.updFaults f).mgmt = s.mgmt := rfl
@[simp] theorem State.updFaults_faults (f : FaultS → FaultS) : (s.updFaults f).faults = f s.faults := rfl
@[simp] theorem State.updFaults_mem (f : FaultS → FaultS) : (s.updFaults f).mem = s.mem := rfl
@[simp] theorem State.updFaults_units (f : FaultS → FaultS) : (s.updFaults f).units = s.units := rfl
@[simp] theorem State.updFaults_devMem (f : FaultS → FaultS) : (s.updFaults f).devMem = s.devMem := rfl
@[simp] theorem State.updFaults_shared (f : FaultS → FaultS) : (s.updFaults f).shared = s.shared := rfl
@[simp] theorem State.updFaults_localM (f : FaultS → FaultS) : (s.updFaults f).localM = s.localM := rfl
@[simp] theorem State.updFaults_imem (f : FaultS → FaultS) : (s.updFaults f).imem = s.imem := rfl
@[simp] theorem State.updFaults_host (f : FaultS → FaultS) : (s.updFaults f).host = s.host := rfl
@[simp] theorem State.updFaults_funcs (f : FaultS → FaultS) : (s.updFaults f).funcs = s.funcs := rfl
@[simp] theorem State.updFaults_parts (f : FaultS → FaultS) : (s.updFaults f).parts = s.parts := rfl
@[simp] theorem State.updFaults_queues (f : FaultS → FaultS) : (s.updFaults f).queues = s.queues := rfl
@[simp] theorem State.updFaults_ctxs (f : FaultS → FaultS) : (s.updFaults f).ctxs = s.ctxs := rfl
@[simp] theorem State.updFaults_segCache (f : FaultS → FaultS) : (s.updFaults f).segCache = s.segCache := rfl
@[simp] theorem State.updFaults_segMiss (f : FaultS → FaultS) : (s.updFaults f).segMiss = s.segMiss := rfl
@[simp] theorem State.updFaults_hot (f : FaultS → FaultS) : (s.updFaults f).hot = s.hot := rfl
@[simp] theorem State.updFaults_xfers (f : FaultS → FaultS) : (s.updFaults f).xfers = s.xfers := rfl
@[simp] theorem State.updFaults_conns (f : FaultS → FaultS) : (s.updFaults f).conns = s.conns := rfl
@[simp] theorem State.updFaults_rbufs (f : FaultS → FaultS) : (s.updFaults f).rbufs = s.rbufs := rfl
@[simp] theorem State.updFaults_wins (f : FaultS → FaultS) : (s.updFaults f).wins = s.wins := rfl
@[simp] theorem State.updFaults_tp (f : FaultS → FaultS) : (s.updFaults f).tp = s.tp := rfl
@[simp] theorem State.updFaults_shps (f : FaultS → FaultS) : (s.updFaults f).shps = s.shps := rfl
@[simp] theorem State.updFaults_ports (f : FaultS → FaultS) : (s.updFaults f).ports = s.ports := rfl
@[simp] theorem State.updFaults_route (f : FaultS → FaultS) : (s.updFaults f).route = s.route := rfl
@[simp] theorem State.updFaults_els (f : FaultS → FaultS) : (s.updFaults f).els = s.els := rfl
@[simp] theorem State.updFaults_optAlarm (f : FaultS → FaultS) : (s.updFaults f).optAlarm = s.optAlarm := rfl
@[simp] theorem State.updFaults_clus (f : FaultS → FaultS) : (s.updFaults f).clus = s.clus := rfl
@[simp] theorem State.updFaults_dies (f : FaultS → FaultS) : (s.updFaults f).dies = s.dies := rfl
@[simp] theorem State.updFaults_needles (f : FaultS → FaultS) : (s.updFaults f).needles = s.needles := rfl
@[simp] theorem State.updFaults_binds (f : FaultS → FaultS) : (s.updFaults f).binds = s.binds := rfl
@[simp] theorem State.updFaults_runs (f : FaultS → FaultS) : (s.updFaults f).runs = s.runs := rfl
@[simp] theorem State.updFaults_launches (f : FaultS → FaultS) : (s.updFaults f).launches = s.launches := rfl
@[simp] theorem State.updFaults_colls (f : FaultS → FaultS) : (s.updFaults f).colls = s.colls := rfl
@[simp] theorem State.updFaults_sync (f : FaultS → FaultS) : (s.updFaults f).sync = s.sync := rfl
@[simp] theorem State.updFaults_lb (f : FaultS → FaultS) : (s.updFaults f).lb = s.lb := rfl
@[simp] theorem State.updFaults_lbPrior (f : FaultS → FaultS) : (s.updFaults f).lbPrior = s.lbPrior := rfl
@[simp] theorem State.updFaults_bist (f : FaultS → FaultS) : (s.updFaults f).bist = s.bist := rfl
@[simp] theorem State.updFaults_tapIr (f : FaultS → FaultS) : (s.updFaults f).tapIr = s.tapIr := rfl
@[simp] theorem State.updFaults_i3c (f : FaultS → FaultS) : (s.updFaults f).i3c = s.i3c := rfl
@[simp] theorem State.updRoute_pending (f : RouteS → RouteS) : (s.updRoute f).pending = s.pending := rfl
@[simp] theorem State.updRoute_fresh (f : RouteS → RouteS) : (s.updRoute f).fresh = s.fresh := rfl
@[simp] theorem State.updRoute_clockNs (f : RouteS → RouteS) : (s.updRoute f).clockNs = s.clockNs := rfl
@[simp] theorem State.updRoute_nextId (f : RouteS → RouteS) : (s.updRoute f).nextId = s.nextId := rfl
@[simp] theorem State.updRoute_devidValid (f : RouteS → RouteS) : (s.updRoute f).devidValid = s.devidValid := rfl
@[simp] theorem State.updRoute_devid (f : RouteS → RouteS) : (s.updRoute f).devid = s.devid := rfl
@[simp] theorem State.updRoute_straps (f : RouteS → RouteS) : (s.updRoute f).straps = s.straps := rfl
@[simp] theorem State.updRoute_pins (f : RouteS → RouteS) : (s.updRoute f).pins = s.pins := rfl
@[simp] theorem State.updRoute_rst (f : RouteS → RouteS) : (s.updRoute f).rst = s.rst := rfl
@[simp] theorem State.updRoute_power (f : RouteS → RouteS) : (s.updRoute f).power = s.power := rfl
@[simp] theorem State.updRoute_tape (f : RouteS → RouteS) : (s.updRoute f).tape = s.tape := rfl
@[simp] theorem State.updRoute_thimble (f : RouteS → RouteS) : (s.updRoute f).thimble = s.thimble := rfl
@[simp] theorem State.updRoute_secMbox (f : RouteS → RouteS) : (s.updRoute f).secMbox = s.secMbox := rfl
@[simp] theorem State.updRoute_keys (f : RouteS → RouteS) : (s.updRoute f).keys = s.keys := rfl
@[simp] theorem State.updRoute_mgmt (f : RouteS → RouteS) : (s.updRoute f).mgmt = s.mgmt := rfl
@[simp] theorem State.updRoute_faults (f : RouteS → RouteS) : (s.updRoute f).faults = s.faults := rfl
@[simp] theorem State.updRoute_mem (f : RouteS → RouteS) : (s.updRoute f).mem = s.mem := rfl
@[simp] theorem State.updRoute_units (f : RouteS → RouteS) : (s.updRoute f).units = s.units := rfl
@[simp] theorem State.updRoute_devMem (f : RouteS → RouteS) : (s.updRoute f).devMem = s.devMem := rfl
@[simp] theorem State.updRoute_shared (f : RouteS → RouteS) : (s.updRoute f).shared = s.shared := rfl
@[simp] theorem State.updRoute_localM (f : RouteS → RouteS) : (s.updRoute f).localM = s.localM := rfl
@[simp] theorem State.updRoute_imem (f : RouteS → RouteS) : (s.updRoute f).imem = s.imem := rfl
@[simp] theorem State.updRoute_host (f : RouteS → RouteS) : (s.updRoute f).host = s.host := rfl
@[simp] theorem State.updRoute_funcs (f : RouteS → RouteS) : (s.updRoute f).funcs = s.funcs := rfl
@[simp] theorem State.updRoute_parts (f : RouteS → RouteS) : (s.updRoute f).parts = s.parts := rfl
@[simp] theorem State.updRoute_queues (f : RouteS → RouteS) : (s.updRoute f).queues = s.queues := rfl
@[simp] theorem State.updRoute_ctxs (f : RouteS → RouteS) : (s.updRoute f).ctxs = s.ctxs := rfl
@[simp] theorem State.updRoute_segCache (f : RouteS → RouteS) : (s.updRoute f).segCache = s.segCache := rfl
@[simp] theorem State.updRoute_segMiss (f : RouteS → RouteS) : (s.updRoute f).segMiss = s.segMiss := rfl
@[simp] theorem State.updRoute_hot (f : RouteS → RouteS) : (s.updRoute f).hot = s.hot := rfl
@[simp] theorem State.updRoute_xfers (f : RouteS → RouteS) : (s.updRoute f).xfers = s.xfers := rfl
@[simp] theorem State.updRoute_conns (f : RouteS → RouteS) : (s.updRoute f).conns = s.conns := rfl
@[simp] theorem State.updRoute_rbufs (f : RouteS → RouteS) : (s.updRoute f).rbufs = s.rbufs := rfl
@[simp] theorem State.updRoute_wins (f : RouteS → RouteS) : (s.updRoute f).wins = s.wins := rfl
@[simp] theorem State.updRoute_tp (f : RouteS → RouteS) : (s.updRoute f).tp = s.tp := rfl
@[simp] theorem State.updRoute_shps (f : RouteS → RouteS) : (s.updRoute f).shps = s.shps := rfl
@[simp] theorem State.updRoute_ports (f : RouteS → RouteS) : (s.updRoute f).ports = s.ports := rfl
@[simp] theorem State.updRoute_route (f : RouteS → RouteS) : (s.updRoute f).route = f s.route := rfl
@[simp] theorem State.updRoute_els (f : RouteS → RouteS) : (s.updRoute f).els = s.els := rfl
@[simp] theorem State.updRoute_optAlarm (f : RouteS → RouteS) : (s.updRoute f).optAlarm = s.optAlarm := rfl
@[simp] theorem State.updRoute_clus (f : RouteS → RouteS) : (s.updRoute f).clus = s.clus := rfl
@[simp] theorem State.updRoute_dies (f : RouteS → RouteS) : (s.updRoute f).dies = s.dies := rfl
@[simp] theorem State.updRoute_needles (f : RouteS → RouteS) : (s.updRoute f).needles = s.needles := rfl
@[simp] theorem State.updRoute_binds (f : RouteS → RouteS) : (s.updRoute f).binds = s.binds := rfl
@[simp] theorem State.updRoute_runs (f : RouteS → RouteS) : (s.updRoute f).runs = s.runs := rfl
@[simp] theorem State.updRoute_launches (f : RouteS → RouteS) : (s.updRoute f).launches = s.launches := rfl
@[simp] theorem State.updRoute_colls (f : RouteS → RouteS) : (s.updRoute f).colls = s.colls := rfl
@[simp] theorem State.updRoute_sync (f : RouteS → RouteS) : (s.updRoute f).sync = s.sync := rfl
@[simp] theorem State.updRoute_lb (f : RouteS → RouteS) : (s.updRoute f).lb = s.lb := rfl
@[simp] theorem State.updRoute_lbPrior (f : RouteS → RouteS) : (s.updRoute f).lbPrior = s.lbPrior := rfl
@[simp] theorem State.updRoute_bist (f : RouteS → RouteS) : (s.updRoute f).bist = s.bist := rfl
@[simp] theorem State.updRoute_tapIr (f : RouteS → RouteS) : (s.updRoute f).tapIr = s.tapIr := rfl
@[simp] theorem State.updRoute_i3c (f : RouteS → RouteS) : (s.updRoute f).i3c = s.i3c := rfl
@[simp] theorem State.updQueue_pending (p : Nat) (f : QueueS → QueueS) : (s.updQueue p f).pending = s.pending := by unfold State.updQueue; split <;> rfl
@[simp] theorem State.updQueue_fresh (p : Nat) (f : QueueS → QueueS) : (s.updQueue p f).fresh = s.fresh := by unfold State.updQueue; split <;> rfl
@[simp] theorem State.updQueue_clockNs (p : Nat) (f : QueueS → QueueS) : (s.updQueue p f).clockNs = s.clockNs := by unfold State.updQueue; split <;> rfl
@[simp] theorem State.updQueue_nextId (p : Nat) (f : QueueS → QueueS) : (s.updQueue p f).nextId = s.nextId := by unfold State.updQueue; split <;> rfl
@[simp] theorem State.updQueue_devidValid (p : Nat) (f : QueueS → QueueS) : (s.updQueue p f).devidValid = s.devidValid := by unfold State.updQueue; split <;> rfl
@[simp] theorem State.updQueue_devid (p : Nat) (f : QueueS → QueueS) : (s.updQueue p f).devid = s.devid := by unfold State.updQueue; split <;> rfl
@[simp] theorem State.updQueue_straps (p : Nat) (f : QueueS → QueueS) : (s.updQueue p f).straps = s.straps := by unfold State.updQueue; split <;> rfl
@[simp] theorem State.updQueue_pins (p : Nat) (f : QueueS → QueueS) : (s.updQueue p f).pins = s.pins := by unfold State.updQueue; split <;> rfl
@[simp] theorem State.updQueue_rst (p : Nat) (f : QueueS → QueueS) : (s.updQueue p f).rst = s.rst := by unfold State.updQueue; split <;> rfl
@[simp] theorem State.updQueue_power (p : Nat) (f : QueueS → QueueS) : (s.updQueue p f).power = s.power := by unfold State.updQueue; split <;> rfl
@[simp] theorem State.updQueue_tape (p : Nat) (f : QueueS → QueueS) : (s.updQueue p f).tape = s.tape := by unfold State.updQueue; split <;> rfl
@[simp] theorem State.updQueue_thimble (p : Nat) (f : QueueS → QueueS) : (s.updQueue p f).thimble = s.thimble := by unfold State.updQueue; split <;> rfl
@[simp] theorem State.updQueue_secMbox (p : Nat) (f : QueueS → QueueS) : (s.updQueue p f).secMbox = s.secMbox := by unfold State.updQueue; split <;> rfl
@[simp] theorem State.updQueue_keys (p : Nat) (f : QueueS → QueueS) : (s.updQueue p f).keys = s.keys := by unfold State.updQueue; split <;> rfl
@[simp] theorem State.updQueue_mgmt (p : Nat) (f : QueueS → QueueS) : (s.updQueue p f).mgmt = s.mgmt := by unfold State.updQueue; split <;> rfl
@[simp] theorem State.updQueue_faults (p : Nat) (f : QueueS → QueueS) : (s.updQueue p f).faults = s.faults := by unfold State.updQueue; split <;> rfl
@[simp] theorem State.updQueue_mem (p : Nat) (f : QueueS → QueueS) : (s.updQueue p f).mem = s.mem := by unfold State.updQueue; split <;> rfl
@[simp] theorem State.updQueue_units (p : Nat) (f : QueueS → QueueS) : (s.updQueue p f).units = s.units := by unfold State.updQueue; split <;> rfl
@[simp] theorem State.updQueue_devMem (p : Nat) (f : QueueS → QueueS) : (s.updQueue p f).devMem = s.devMem := by unfold State.updQueue; split <;> rfl
@[simp] theorem State.updQueue_shared (p : Nat) (f : QueueS → QueueS) : (s.updQueue p f).shared = s.shared := by unfold State.updQueue; split <;> rfl
@[simp] theorem State.updQueue_localM (p : Nat) (f : QueueS → QueueS) : (s.updQueue p f).localM = s.localM := by unfold State.updQueue; split <;> rfl
@[simp] theorem State.updQueue_imem (p : Nat) (f : QueueS → QueueS) : (s.updQueue p f).imem = s.imem := by unfold State.updQueue; split <;> rfl
@[simp] theorem State.updQueue_host (p : Nat) (f : QueueS → QueueS) : (s.updQueue p f).host = s.host := by unfold State.updQueue; split <;> rfl
@[simp] theorem State.updQueue_funcs (p : Nat) (f : QueueS → QueueS) : (s.updQueue p f).funcs = s.funcs := by unfold State.updQueue; split <;> rfl
@[simp] theorem State.updQueue_parts (p : Nat) (f : QueueS → QueueS) : (s.updQueue p f).parts = s.parts := by unfold State.updQueue; split <;> rfl
@[simp] theorem State.updQueue_ctxs (p : Nat) (f : QueueS → QueueS) : (s.updQueue p f).ctxs = s.ctxs := by unfold State.updQueue; split <;> rfl
@[simp] theorem State.updQueue_segCache (p : Nat) (f : QueueS → QueueS) : (s.updQueue p f).segCache = s.segCache := by unfold State.updQueue; split <;> rfl
@[simp] theorem State.updQueue_segMiss (p : Nat) (f : QueueS → QueueS) : (s.updQueue p f).segMiss = s.segMiss := by unfold State.updQueue; split <;> rfl
@[simp] theorem State.updQueue_hot (p : Nat) (f : QueueS → QueueS) : (s.updQueue p f).hot = s.hot := by unfold State.updQueue; split <;> rfl
@[simp] theorem State.updQueue_xfers (p : Nat) (f : QueueS → QueueS) : (s.updQueue p f).xfers = s.xfers := by unfold State.updQueue; split <;> rfl
@[simp] theorem State.updQueue_conns (p : Nat) (f : QueueS → QueueS) : (s.updQueue p f).conns = s.conns := by unfold State.updQueue; split <;> rfl
@[simp] theorem State.updQueue_rbufs (p : Nat) (f : QueueS → QueueS) : (s.updQueue p f).rbufs = s.rbufs := by unfold State.updQueue; split <;> rfl
@[simp] theorem State.updQueue_wins (p : Nat) (f : QueueS → QueueS) : (s.updQueue p f).wins = s.wins := by unfold State.updQueue; split <;> rfl
@[simp] theorem State.updQueue_tp (p : Nat) (f : QueueS → QueueS) : (s.updQueue p f).tp = s.tp := by unfold State.updQueue; split <;> rfl
@[simp] theorem State.updQueue_shps (p : Nat) (f : QueueS → QueueS) : (s.updQueue p f).shps = s.shps := by unfold State.updQueue; split <;> rfl
@[simp] theorem State.updQueue_ports (p : Nat) (f : QueueS → QueueS) : (s.updQueue p f).ports = s.ports := by unfold State.updQueue; split <;> rfl
@[simp] theorem State.updQueue_route (p : Nat) (f : QueueS → QueueS) : (s.updQueue p f).route = s.route := by unfold State.updQueue; split <;> rfl
@[simp] theorem State.updQueue_els (p : Nat) (f : QueueS → QueueS) : (s.updQueue p f).els = s.els := by unfold State.updQueue; split <;> rfl
@[simp] theorem State.updQueue_optAlarm (p : Nat) (f : QueueS → QueueS) : (s.updQueue p f).optAlarm = s.optAlarm := by unfold State.updQueue; split <;> rfl
@[simp] theorem State.updQueue_clus (p : Nat) (f : QueueS → QueueS) : (s.updQueue p f).clus = s.clus := by unfold State.updQueue; split <;> rfl
@[simp] theorem State.updQueue_dies (p : Nat) (f : QueueS → QueueS) : (s.updQueue p f).dies = s.dies := by unfold State.updQueue; split <;> rfl
@[simp] theorem State.updQueue_needles (p : Nat) (f : QueueS → QueueS) : (s.updQueue p f).needles = s.needles := by unfold State.updQueue; split <;> rfl
@[simp] theorem State.updQueue_binds (p : Nat) (f : QueueS → QueueS) : (s.updQueue p f).binds = s.binds := by unfold State.updQueue; split <;> rfl
@[simp] theorem State.updQueue_runs (p : Nat) (f : QueueS → QueueS) : (s.updQueue p f).runs = s.runs := by unfold State.updQueue; split <;> rfl
@[simp] theorem State.updQueue_launches (p : Nat) (f : QueueS → QueueS) : (s.updQueue p f).launches = s.launches := by unfold State.updQueue; split <;> rfl
@[simp] theorem State.updQueue_colls (p : Nat) (f : QueueS → QueueS) : (s.updQueue p f).colls = s.colls := by unfold State.updQueue; split <;> rfl
@[simp] theorem State.updQueue_sync (p : Nat) (f : QueueS → QueueS) : (s.updQueue p f).sync = s.sync := by unfold State.updQueue; split <;> rfl
@[simp] theorem State.updQueue_lb (p : Nat) (f : QueueS → QueueS) : (s.updQueue p f).lb = s.lb := by unfold State.updQueue; split <;> rfl
@[simp] theorem State.updQueue_lbPrior (p : Nat) (f : QueueS → QueueS) : (s.updQueue p f).lbPrior = s.lbPrior := by unfold State.updQueue; split <;> rfl
@[simp] theorem State.updQueue_bist (p : Nat) (f : QueueS → QueueS) : (s.updQueue p f).bist = s.bist := by unfold State.updQueue; split <;> rfl
@[simp] theorem State.updQueue_tapIr (p : Nat) (f : QueueS → QueueS) : (s.updQueue p f).tapIr = s.tapIr := by unfold State.updQueue; split <;> rfl
@[simp] theorem State.updQueue_i3c (p : Nat) (f : QueueS → QueueS) : (s.updQueue p f).i3c = s.i3c := by unfold State.updQueue; split <;> rfl
@[simp] theorem State.updPort_pending (p : Nat) (f : PortS → PortS) : (s.updPort p f).pending = s.pending := by unfold State.updPort; split <;> rfl
@[simp] theorem State.updPort_fresh (p : Nat) (f : PortS → PortS) : (s.updPort p f).fresh = s.fresh := by unfold State.updPort; split <;> rfl
@[simp] theorem State.updPort_clockNs (p : Nat) (f : PortS → PortS) : (s.updPort p f).clockNs = s.clockNs := by unfold State.updPort; split <;> rfl
@[simp] theorem State.updPort_nextId (p : Nat) (f : PortS → PortS) : (s.updPort p f).nextId = s.nextId := by unfold State.updPort; split <;> rfl
@[simp] theorem State.updPort_devidValid (p : Nat) (f : PortS → PortS) : (s.updPort p f).devidValid = s.devidValid := by unfold State.updPort; split <;> rfl
@[simp] theorem State.updPort_devid (p : Nat) (f : PortS → PortS) : (s.updPort p f).devid = s.devid := by unfold State.updPort; split <;> rfl
@[simp] theorem State.updPort_straps (p : Nat) (f : PortS → PortS) : (s.updPort p f).straps = s.straps := by unfold State.updPort; split <;> rfl
@[simp] theorem State.updPort_pins (p : Nat) (f : PortS → PortS) : (s.updPort p f).pins = s.pins := by unfold State.updPort; split <;> rfl
@[simp] theorem State.updPort_rst (p : Nat) (f : PortS → PortS) : (s.updPort p f).rst = s.rst := by unfold State.updPort; split <;> rfl
@[simp] theorem State.updPort_power (p : Nat) (f : PortS → PortS) : (s.updPort p f).power = s.power := by unfold State.updPort; split <;> rfl
@[simp] theorem State.updPort_tape (p : Nat) (f : PortS → PortS) : (s.updPort p f).tape = s.tape := by unfold State.updPort; split <;> rfl
@[simp] theorem State.updPort_thimble (p : Nat) (f : PortS → PortS) : (s.updPort p f).thimble = s.thimble := by unfold State.updPort; split <;> rfl
@[simp] theorem State.updPort_secMbox (p : Nat) (f : PortS → PortS) : (s.updPort p f).secMbox = s.secMbox := by unfold State.updPort; split <;> rfl
@[simp] theorem State.updPort_keys (p : Nat) (f : PortS → PortS) : (s.updPort p f).keys = s.keys := by unfold State.updPort; split <;> rfl
@[simp] theorem State.updPort_mgmt (p : Nat) (f : PortS → PortS) : (s.updPort p f).mgmt = s.mgmt := by unfold State.updPort; split <;> rfl
@[simp] theorem State.updPort_faults (p : Nat) (f : PortS → PortS) : (s.updPort p f).faults = s.faults := by unfold State.updPort; split <;> rfl
@[simp] theorem State.updPort_mem (p : Nat) (f : PortS → PortS) : (s.updPort p f).mem = s.mem := by unfold State.updPort; split <;> rfl
@[simp] theorem State.updPort_units (p : Nat) (f : PortS → PortS) : (s.updPort p f).units = s.units := by unfold State.updPort; split <;> rfl
@[simp] theorem State.updPort_devMem (p : Nat) (f : PortS → PortS) : (s.updPort p f).devMem = s.devMem := by unfold State.updPort; split <;> rfl
@[simp] theorem State.updPort_shared (p : Nat) (f : PortS → PortS) : (s.updPort p f).shared = s.shared := by unfold State.updPort; split <;> rfl
@[simp] theorem State.updPort_localM (p : Nat) (f : PortS → PortS) : (s.updPort p f).localM = s.localM := by unfold State.updPort; split <;> rfl
@[simp] theorem State.updPort_imem (p : Nat) (f : PortS → PortS) : (s.updPort p f).imem = s.imem := by unfold State.updPort; split <;> rfl
@[simp] theorem State.updPort_host (p : Nat) (f : PortS → PortS) : (s.updPort p f).host = s.host := by unfold State.updPort; split <;> rfl
@[simp] theorem State.updPort_funcs (p : Nat) (f : PortS → PortS) : (s.updPort p f).funcs = s.funcs := by unfold State.updPort; split <;> rfl
@[simp] theorem State.updPort_parts (p : Nat) (f : PortS → PortS) : (s.updPort p f).parts = s.parts := by unfold State.updPort; split <;> rfl
@[simp] theorem State.updPort_queues (p : Nat) (f : PortS → PortS) : (s.updPort p f).queues = s.queues := by unfold State.updPort; split <;> rfl
@[simp] theorem State.updPort_ctxs (p : Nat) (f : PortS → PortS) : (s.updPort p f).ctxs = s.ctxs := by unfold State.updPort; split <;> rfl
@[simp] theorem State.updPort_segCache (p : Nat) (f : PortS → PortS) : (s.updPort p f).segCache = s.segCache := by unfold State.updPort; split <;> rfl
@[simp] theorem State.updPort_segMiss (p : Nat) (f : PortS → PortS) : (s.updPort p f).segMiss = s.segMiss := by unfold State.updPort; split <;> rfl
@[simp] theorem State.updPort_hot (p : Nat) (f : PortS → PortS) : (s.updPort p f).hot = s.hot := by unfold State.updPort; split <;> rfl
@[simp] theorem State.updPort_xfers (p : Nat) (f : PortS → PortS) : (s.updPort p f).xfers = s.xfers := by unfold State.updPort; split <;> rfl
@[simp] theorem State.updPort_conns (p : Nat) (f : PortS → PortS) : (s.updPort p f).conns = s.conns := by unfold State.updPort; split <;> rfl
@[simp] theorem State.updPort_rbufs (p : Nat) (f : PortS → PortS) : (s.updPort p f).rbufs = s.rbufs := by unfold State.updPort; split <;> rfl
@[simp] theorem State.updPort_wins (p : Nat) (f : PortS → PortS) : (s.updPort p f).wins = s.wins := by unfold State.updPort; split <;> rfl
@[simp] theorem State.updPort_tp (p : Nat) (f : PortS → PortS) : (s.updPort p f).tp = s.tp := by unfold State.updPort; split <;> rfl
@[simp] theorem State.updPort_shps (p : Nat) (f : PortS → PortS) : (s.updPort p f).shps = s.shps := by unfold State.updPort; split <;> rfl
@[simp] theorem State.updPort_route (p : Nat) (f : PortS → PortS) : (s.updPort p f).route = s.route := by unfold State.updPort; split <;> rfl
@[simp] theorem State.updPort_els (p : Nat) (f : PortS → PortS) : (s.updPort p f).els = s.els := by unfold State.updPort; split <;> rfl
@[simp] theorem State.updPort_optAlarm (p : Nat) (f : PortS → PortS) : (s.updPort p f).optAlarm = s.optAlarm := by unfold State.updPort; split <;> rfl
@[simp] theorem State.updPort_clus (p : Nat) (f : PortS → PortS) : (s.updPort p f).clus = s.clus := by unfold State.updPort; split <;> rfl
@[simp] theorem State.updPort_dies (p : Nat) (f : PortS → PortS) : (s.updPort p f).dies = s.dies := by unfold State.updPort; split <;> rfl
@[simp] theorem State.updPort_needles (p : Nat) (f : PortS → PortS) : (s.updPort p f).needles = s.needles := by unfold State.updPort; split <;> rfl
@[simp] theorem State.updPort_binds (p : Nat) (f : PortS → PortS) : (s.updPort p f).binds = s.binds := by unfold State.updPort; split <;> rfl
@[simp] theorem State.updPort_runs (p : Nat) (f : PortS → PortS) : (s.updPort p f).runs = s.runs := by unfold State.updPort; split <;> rfl
@[simp] theorem State.updPort_launches (p : Nat) (f : PortS → PortS) : (s.updPort p f).launches = s.launches := by unfold State.updPort; split <;> rfl
@[simp] theorem State.updPort_colls (p : Nat) (f : PortS → PortS) : (s.updPort p f).colls = s.colls := by unfold State.updPort; split <;> rfl
@[simp] theorem State.updPort_sync (p : Nat) (f : PortS → PortS) : (s.updPort p f).sync = s.sync := by unfold State.updPort; split <;> rfl
@[simp] theorem State.updPort_lb (p : Nat) (f : PortS → PortS) : (s.updPort p f).lb = s.lb := by unfold State.updPort; split <;> rfl
@[simp] theorem State.updPort_lbPrior (p : Nat) (f : PortS → PortS) : (s.updPort p f).lbPrior = s.lbPrior := by unfold State.updPort; split <;> rfl
@[simp] theorem State.updPort_bist (p : Nat) (f : PortS → PortS) : (s.updPort p f).bist = s.bist := by unfold State.updPort; split <;> rfl
@[simp] theorem State.updPort_tapIr (p : Nat) (f : PortS → PortS) : (s.updPort p f).tapIr = s.tapIr := by unfold State.updPort; split <;> rfl
@[simp] theorem State.updPort_i3c (p : Nat) (f : PortS → PortS) : (s.updPort p f).i3c = s.i3c := by unfold State.updPort; split <;> rfl
@[simp] theorem State.updEls_pending (p : Nat) (f : ElsS → ElsS) : (s.updEls p f).pending = s.pending := by unfold State.updEls; split <;> rfl
@[simp] theorem State.updEls_fresh (p : Nat) (f : ElsS → ElsS) : (s.updEls p f).fresh = s.fresh := by unfold State.updEls; split <;> rfl
@[simp] theorem State.updEls_clockNs (p : Nat) (f : ElsS → ElsS) : (s.updEls p f).clockNs = s.clockNs := by unfold State.updEls; split <;> rfl
@[simp] theorem State.updEls_nextId (p : Nat) (f : ElsS → ElsS) : (s.updEls p f).nextId = s.nextId := by unfold State.updEls; split <;> rfl
@[simp] theorem State.updEls_devidValid (p : Nat) (f : ElsS → ElsS) : (s.updEls p f).devidValid = s.devidValid := by unfold State.updEls; split <;> rfl
@[simp] theorem State.updEls_devid (p : Nat) (f : ElsS → ElsS) : (s.updEls p f).devid = s.devid := by unfold State.updEls; split <;> rfl
@[simp] theorem State.updEls_straps (p : Nat) (f : ElsS → ElsS) : (s.updEls p f).straps = s.straps := by unfold State.updEls; split <;> rfl
@[simp] theorem State.updEls_pins (p : Nat) (f : ElsS → ElsS) : (s.updEls p f).pins = s.pins := by unfold State.updEls; split <;> rfl
@[simp] theorem State.updEls_rst (p : Nat) (f : ElsS → ElsS) : (s.updEls p f).rst = s.rst := by unfold State.updEls; split <;> rfl
@[simp] theorem State.updEls_power (p : Nat) (f : ElsS → ElsS) : (s.updEls p f).power = s.power := by unfold State.updEls; split <;> rfl
@[simp] theorem State.updEls_tape (p : Nat) (f : ElsS → ElsS) : (s.updEls p f).tape = s.tape := by unfold State.updEls; split <;> rfl
@[simp] theorem State.updEls_thimble (p : Nat) (f : ElsS → ElsS) : (s.updEls p f).thimble = s.thimble := by unfold State.updEls; split <;> rfl
@[simp] theorem State.updEls_secMbox (p : Nat) (f : ElsS → ElsS) : (s.updEls p f).secMbox = s.secMbox := by unfold State.updEls; split <;> rfl
@[simp] theorem State.updEls_keys (p : Nat) (f : ElsS → ElsS) : (s.updEls p f).keys = s.keys := by unfold State.updEls; split <;> rfl
@[simp] theorem State.updEls_mgmt (p : Nat) (f : ElsS → ElsS) : (s.updEls p f).mgmt = s.mgmt := by unfold State.updEls; split <;> rfl
@[simp] theorem State.updEls_faults (p : Nat) (f : ElsS → ElsS) : (s.updEls p f).faults = s.faults := by unfold State.updEls; split <;> rfl
@[simp] theorem State.updEls_mem (p : Nat) (f : ElsS → ElsS) : (s.updEls p f).mem = s.mem := by unfold State.updEls; split <;> rfl
@[simp] theorem State.updEls_units (p : Nat) (f : ElsS → ElsS) : (s.updEls p f).units = s.units := by unfold State.updEls; split <;> rfl
@[simp] theorem State.updEls_devMem (p : Nat) (f : ElsS → ElsS) : (s.updEls p f).devMem = s.devMem := by unfold State.updEls; split <;> rfl
@[simp] theorem State.updEls_shared (p : Nat) (f : ElsS → ElsS) : (s.updEls p f).shared = s.shared := by unfold State.updEls; split <;> rfl
@[simp] theorem State.updEls_localM (p : Nat) (f : ElsS → ElsS) : (s.updEls p f).localM = s.localM := by unfold State.updEls; split <;> rfl
@[simp] theorem State.updEls_imem (p : Nat) (f : ElsS → ElsS) : (s.updEls p f).imem = s.imem := by unfold State.updEls; split <;> rfl
@[simp] theorem State.updEls_host (p : Nat) (f : ElsS → ElsS) : (s.updEls p f).host = s.host := by unfold State.updEls; split <;> rfl
@[simp] theorem State.updEls_funcs (p : Nat) (f : ElsS → ElsS) : (s.updEls p f).funcs = s.funcs := by unfold State.updEls; split <;> rfl
@[simp] theorem State.updEls_parts (p : Nat) (f : ElsS → ElsS) : (s.updEls p f).parts = s.parts := by unfold State.updEls; split <;> rfl
@[simp] theorem State.updEls_queues (p : Nat) (f : ElsS → ElsS) : (s.updEls p f).queues = s.queues := by unfold State.updEls; split <;> rfl
@[simp] theorem State.updEls_ctxs (p : Nat) (f : ElsS → ElsS) : (s.updEls p f).ctxs = s.ctxs := by unfold State.updEls; split <;> rfl
@[simp] theorem State.updEls_segCache (p : Nat) (f : ElsS → ElsS) : (s.updEls p f).segCache = s.segCache := by unfold State.updEls; split <;> rfl
@[simp] theorem State.updEls_segMiss (p : Nat) (f : ElsS → ElsS) : (s.updEls p f).segMiss = s.segMiss := by unfold State.updEls; split <;> rfl
@[simp] theorem State.updEls_hot (p : Nat) (f : ElsS → ElsS) : (s.updEls p f).hot = s.hot := by unfold State.updEls; split <;> rfl
@[simp] theorem State.updEls_xfers (p : Nat) (f : ElsS → ElsS) : (s.updEls p f).xfers = s.xfers := by unfold State.updEls; split <;> rfl
@[simp] theorem State.updEls_conns (p : Nat) (f : ElsS → ElsS) : (s.updEls p f).conns = s.conns := by unfold State.updEls; split <;> rfl
@[simp] theorem State.updEls_rbufs (p : Nat) (f : ElsS → ElsS) : (s.updEls p f).rbufs = s.rbufs := by unfold State.updEls; split <;> rfl
@[simp] theorem State.updEls_wins (p : Nat) (f : ElsS → ElsS) : (s.updEls p f).wins = s.wins := by unfold State.updEls; split <;> rfl
@[simp] theorem State.updEls_tp (p : Nat) (f : ElsS → ElsS) : (s.updEls p f).tp = s.tp := by unfold State.updEls; split <;> rfl
@[simp] theorem State.updEls_shps (p : Nat) (f : ElsS → ElsS) : (s.updEls p f).shps = s.shps := by unfold State.updEls; split <;> rfl
@[simp] theorem State.updEls_ports (p : Nat) (f : ElsS → ElsS) : (s.updEls p f).ports = s.ports := by unfold State.updEls; split <;> rfl
@[simp] theorem State.updEls_route (p : Nat) (f : ElsS → ElsS) : (s.updEls p f).route = s.route := by unfold State.updEls; split <;> rfl
@[simp] theorem State.updEls_optAlarm (p : Nat) (f : ElsS → ElsS) : (s.updEls p f).optAlarm = s.optAlarm := by unfold State.updEls; split <;> rfl
@[simp] theorem State.updEls_clus (p : Nat) (f : ElsS → ElsS) : (s.updEls p f).clus = s.clus := by unfold State.updEls; split <;> rfl
@[simp] theorem State.updEls_dies (p : Nat) (f : ElsS → ElsS) : (s.updEls p f).dies = s.dies := by unfold State.updEls; split <;> rfl
@[simp] theorem State.updEls_needles (p : Nat) (f : ElsS → ElsS) : (s.updEls p f).needles = s.needles := by unfold State.updEls; split <;> rfl
@[simp] theorem State.updEls_binds (p : Nat) (f : ElsS → ElsS) : (s.updEls p f).binds = s.binds := by unfold State.updEls; split <;> rfl
@[simp] theorem State.updEls_runs (p : Nat) (f : ElsS → ElsS) : (s.updEls p f).runs = s.runs := by unfold State.updEls; split <;> rfl
@[simp] theorem State.updEls_launches (p : Nat) (f : ElsS → ElsS) : (s.updEls p f).launches = s.launches := by unfold State.updEls; split <;> rfl
@[simp] theorem State.updEls_colls (p : Nat) (f : ElsS → ElsS) : (s.updEls p f).colls = s.colls := by unfold State.updEls; split <;> rfl
@[simp] theorem State.updEls_sync (p : Nat) (f : ElsS → ElsS) : (s.updEls p f).sync = s.sync := by unfold State.updEls; split <;> rfl
@[simp] theorem State.updEls_lb (p : Nat) (f : ElsS → ElsS) : (s.updEls p f).lb = s.lb := by unfold State.updEls; split <;> rfl
@[simp] theorem State.updEls_lbPrior (p : Nat) (f : ElsS → ElsS) : (s.updEls p f).lbPrior = s.lbPrior := by unfold State.updEls; split <;> rfl
@[simp] theorem State.updEls_bist (p : Nat) (f : ElsS → ElsS) : (s.updEls p f).bist = s.bist := by unfold State.updEls; split <;> rfl
@[simp] theorem State.updEls_tapIr (p : Nat) (f : ElsS → ElsS) : (s.updEls p f).tapIr = s.tapIr := by unfold State.updEls; split <;> rfl
@[simp] theorem State.updEls_i3c (p : Nat) (f : ElsS → ElsS) : (s.updEls p f).i3c = s.i3c := by unfold State.updEls; split <;> rfl
@[simp] theorem State.updClu_pending (p : Nat) (f : ClusS → ClusS) : (s.updClu p f).pending = s.pending := by unfold State.updClu; split <;> rfl
@[simp] theorem State.updClu_fresh (p : Nat) (f : ClusS → ClusS) : (s.updClu p f).fresh = s.fresh := by unfold State.updClu; split <;> rfl
@[simp] theorem State.updClu_clockNs (p : Nat) (f : ClusS → ClusS) : (s.updClu p f).clockNs = s.clockNs := by unfold State.updClu; split <;> rfl
@[simp] theorem State.updClu_nextId (p : Nat) (f : ClusS → ClusS) : (s.updClu p f).nextId = s.nextId := by unfold State.updClu; split <;> rfl
@[simp] theorem State.updClu_devidValid (p : Nat) (f : ClusS → ClusS) : (s.updClu p f).devidValid = s.devidValid := by unfold State.updClu; split <;> rfl
@[simp] theorem State.updClu_devid (p : Nat) (f : ClusS → ClusS) : (s.updClu p f).devid = s.devid := by unfold State.updClu; split <;> rfl
@[simp] theorem State.updClu_straps (p : Nat) (f : ClusS → ClusS) : (s.updClu p f).straps = s.straps := by unfold State.updClu; split <;> rfl
@[simp] theorem State.updClu_pins (p : Nat) (f : ClusS → ClusS) : (s.updClu p f).pins = s.pins := by unfold State.updClu; split <;> rfl
@[simp] theorem State.updClu_rst (p : Nat) (f : ClusS → ClusS) : (s.updClu p f).rst = s.rst := by unfold State.updClu; split <;> rfl
@[simp] theorem State.updClu_power (p : Nat) (f : ClusS → ClusS) : (s.updClu p f).power = s.power := by unfold State.updClu; split <;> rfl
@[simp] theorem State.updClu_tape (p : Nat) (f : ClusS → ClusS) : (s.updClu p f).tape = s.tape := by unfold State.updClu; split <;> rfl
@[simp] theorem State.updClu_thimble (p : Nat) (f : ClusS → ClusS) : (s.updClu p f).thimble = s.thimble := by unfold State.updClu; split <;> rfl
@[simp] theorem State.updClu_secMbox (p : Nat) (f : ClusS → ClusS) : (s.updClu p f).secMbox = s.secMbox := by unfold State.updClu; split <;> rfl
@[simp] theorem State.updClu_keys (p : Nat) (f : ClusS → ClusS) : (s.updClu p f).keys = s.keys := by unfold State.updClu; split <;> rfl
@[simp] theorem State.updClu_mgmt (p : Nat) (f : ClusS → ClusS) : (s.updClu p f).mgmt = s.mgmt := by unfold State.updClu; split <;> rfl
@[simp] theorem State.updClu_faults (p : Nat) (f : ClusS → ClusS) : (s.updClu p f).faults = s.faults := by unfold State.updClu; split <;> rfl
@[simp] theorem State.updClu_mem (p : Nat) (f : ClusS → ClusS) : (s.updClu p f).mem = s.mem := by unfold State.updClu; split <;> rfl
@[simp] theorem State.updClu_units (p : Nat) (f : ClusS → ClusS) : (s.updClu p f).units = s.units := by unfold State.updClu; split <;> rfl
@[simp] theorem State.updClu_devMem (p : Nat) (f : ClusS → ClusS) : (s.updClu p f).devMem = s.devMem := by unfold State.updClu; split <;> rfl
@[simp] theorem State.updClu_shared (p : Nat) (f : ClusS → ClusS) : (s.updClu p f).shared = s.shared := by unfold State.updClu; split <;> rfl
@[simp] theorem State.updClu_localM (p : Nat) (f : ClusS → ClusS) : (s.updClu p f).localM = s.localM := by unfold State.updClu; split <;> rfl
@[simp] theorem State.updClu_imem (p : Nat) (f : ClusS → ClusS) : (s.updClu p f).imem = s.imem := by unfold State.updClu; split <;> rfl
@[simp] theorem State.updClu_host (p : Nat) (f : ClusS → ClusS) : (s.updClu p f).host = s.host := by unfold State.updClu; split <;> rfl
@[simp] theorem State.updClu_funcs (p : Nat) (f : ClusS → ClusS) : (s.updClu p f).funcs = s.funcs := by unfold State.updClu; split <;> rfl
@[simp] theorem State.updClu_parts (p : Nat) (f : ClusS → ClusS) : (s.updClu p f).parts = s.parts := by unfold State.updClu; split <;> rfl
@[simp] theorem State.updClu_queues (p : Nat) (f : ClusS → ClusS) : (s.updClu p f).queues = s.queues := by unfold State.updClu; split <;> rfl
@[simp] theorem State.updClu_ctxs (p : Nat) (f : ClusS → ClusS) : (s.updClu p f).ctxs = s.ctxs := by unfold State.updClu; split <;> rfl
@[simp] theorem State.updClu_segCache (p : Nat) (f : ClusS → ClusS) : (s.updClu p f).segCache = s.segCache := by unfold State.updClu; split <;> rfl
@[simp] theorem State.updClu_segMiss (p : Nat) (f : ClusS → ClusS) : (s.updClu p f).segMiss = s.segMiss := by unfold State.updClu; split <;> rfl
@[simp] theorem State.updClu_hot (p : Nat) (f : ClusS → ClusS) : (s.updClu p f).hot = s.hot := by unfold State.updClu; split <;> rfl
@[simp] theorem State.updClu_xfers (p : Nat) (f : ClusS → ClusS) : (s.updClu p f).xfers = s.xfers := by unfold State.updClu; split <;> rfl
@[simp] theorem State.updClu_conns (p : Nat) (f : ClusS → ClusS) : (s.updClu p f).conns = s.conns := by unfold State.updClu; split <;> rfl
@[simp] theorem State.updClu_rbufs (p : Nat) (f : ClusS → ClusS) : (s.updClu p f).rbufs = s.rbufs := by unfold State.updClu; split <;> rfl
@[simp] theorem State.updClu_wins (p : Nat) (f : ClusS → ClusS) : (s.updClu p f).wins = s.wins := by unfold State.updClu; split <;> rfl
@[simp] theorem State.updClu_tp (p : Nat) (f : ClusS → ClusS) : (s.updClu p f).tp = s.tp := by unfold State.updClu; split <;> rfl
@[simp] theorem State.updClu_shps (p : Nat) (f : ClusS → ClusS) : (s.updClu p f).shps = s.shps := by unfold State.updClu; split <;> rfl
@[simp] theorem State.updClu_ports (p : Nat) (f : ClusS → ClusS) : (s.updClu p f).ports = s.ports := by unfold State.updClu; split <;> rfl
@[simp] theorem State.updClu_route (p : Nat) (f : ClusS → ClusS) : (s.updClu p f).route = s.route := by unfold State.updClu; split <;> rfl
@[simp] theorem State.updClu_els (p : Nat) (f : ClusS → ClusS) : (s.updClu p f).els = s.els := by unfold State.updClu; split <;> rfl
@[simp] theorem State.updClu_optAlarm (p : Nat) (f : ClusS → ClusS) : (s.updClu p f).optAlarm = s.optAlarm := by unfold State.updClu; split <;> rfl
@[simp] theorem State.updClu_dies (p : Nat) (f : ClusS → ClusS) : (s.updClu p f).dies = s.dies := by unfold State.updClu; split <;> rfl
@[simp] theorem State.updClu_needles (p : Nat) (f : ClusS → ClusS) : (s.updClu p f).needles = s.needles := by unfold State.updClu; split <;> rfl
@[simp] theorem State.updClu_binds (p : Nat) (f : ClusS → ClusS) : (s.updClu p f).binds = s.binds := by unfold State.updClu; split <;> rfl
@[simp] theorem State.updClu_runs (p : Nat) (f : ClusS → ClusS) : (s.updClu p f).runs = s.runs := by unfold State.updClu; split <;> rfl
@[simp] theorem State.updClu_launches (p : Nat) (f : ClusS → ClusS) : (s.updClu p f).launches = s.launches := by unfold State.updClu; split <;> rfl
@[simp] theorem State.updClu_colls (p : Nat) (f : ClusS → ClusS) : (s.updClu p f).colls = s.colls := by unfold State.updClu; split <;> rfl
@[simp] theorem State.updClu_sync (p : Nat) (f : ClusS → ClusS) : (s.updClu p f).sync = s.sync := by unfold State.updClu; split <;> rfl
@[simp] theorem State.updClu_lb (p : Nat) (f : ClusS → ClusS) : (s.updClu p f).lb = s.lb := by unfold State.updClu; split <;> rfl
@[simp] theorem State.updClu_lbPrior (p : Nat) (f : ClusS → ClusS) : (s.updClu p f).lbPrior = s.lbPrior := by unfold State.updClu; split <;> rfl
@[simp] theorem State.updClu_bist (p : Nat) (f : ClusS → ClusS) : (s.updClu p f).bist = s.bist := by unfold State.updClu; split <;> rfl
@[simp] theorem State.updClu_tapIr (p : Nat) (f : ClusS → ClusS) : (s.updClu p f).tapIr = s.tapIr := by unfold State.updClu; split <;> rfl
@[simp] theorem State.updClu_i3c (p : Nat) (f : ClusS → ClusS) : (s.updClu p f).i3c = s.i3c := by unfold State.updClu; split <;> rfl
@[simp] theorem State.updDie_pending (p : Nat) (f : DieS → DieS) : (s.updDie p f).pending = s.pending := by unfold State.updDie; split <;> rfl
@[simp] theorem State.updDie_fresh (p : Nat) (f : DieS → DieS) : (s.updDie p f).fresh = s.fresh := by unfold State.updDie; split <;> rfl
@[simp] theorem State.updDie_clockNs (p : Nat) (f : DieS → DieS) : (s.updDie p f).clockNs = s.clockNs := by unfold State.updDie; split <;> rfl
@[simp] theorem State.updDie_nextId (p : Nat) (f : DieS → DieS) : (s.updDie p f).nextId = s.nextId := by unfold State.updDie; split <;> rfl
@[simp] theorem State.updDie_devidValid (p : Nat) (f : DieS → DieS) : (s.updDie p f).devidValid = s.devidValid := by unfold State.updDie; split <;> rfl
@[simp] theorem State.updDie_devid (p : Nat) (f : DieS → DieS) : (s.updDie p f).devid = s.devid := by unfold State.updDie; split <;> rfl
@[simp] theorem State.updDie_straps (p : Nat) (f : DieS → DieS) : (s.updDie p f).straps = s.straps := by unfold State.updDie; split <;> rfl
@[simp] theorem State.updDie_pins (p : Nat) (f : DieS → DieS) : (s.updDie p f).pins = s.pins := by unfold State.updDie; split <;> rfl
@[simp] theorem State.updDie_rst (p : Nat) (f : DieS → DieS) : (s.updDie p f).rst = s.rst := by unfold State.updDie; split <;> rfl
@[simp] theorem State.updDie_power (p : Nat) (f : DieS → DieS) : (s.updDie p f).power = s.power := by unfold State.updDie; split <;> rfl
@[simp] theorem State.updDie_tape (p : Nat) (f : DieS → DieS) : (s.updDie p f).tape = s.tape := by unfold State.updDie; split <;> rfl
@[simp] theorem State.updDie_thimble (p : Nat) (f : DieS → DieS) : (s.updDie p f).thimble = s.thimble := by unfold State.updDie; split <;> rfl
@[simp] theorem State.updDie_secMbox (p : Nat) (f : DieS → DieS) : (s.updDie p f).secMbox = s.secMbox := by unfold State.updDie; split <;> rfl
@[simp] theorem State.updDie_keys (p : Nat) (f : DieS → DieS) : (s.updDie p f).keys = s.keys := by unfold State.updDie; split <;> rfl
@[simp] theorem State.updDie_mgmt (p : Nat) (f : DieS → DieS) : (s.updDie p f).mgmt = s.mgmt := by unfold State.updDie; split <;> rfl
@[simp] theorem State.updDie_faults (p : Nat) (f : DieS → DieS) : (s.updDie p f).faults = s.faults := by unfold State.updDie; split <;> rfl
@[simp] theorem State.updDie_mem (p : Nat) (f : DieS → DieS) : (s.updDie p f).mem = s.mem := by unfold State.updDie; split <;> rfl
@[simp] theorem State.updDie_units (p : Nat) (f : DieS → DieS) : (s.updDie p f).units = s.units := by unfold State.updDie; split <;> rfl
@[simp] theorem State.updDie_devMem (p : Nat) (f : DieS → DieS) : (s.updDie p f).devMem = s.devMem := by unfold State.updDie; split <;> rfl
@[simp] theorem State.updDie_shared (p : Nat) (f : DieS → DieS) : (s.updDie p f).shared = s.shared := by unfold State.updDie; split <;> rfl
@[simp] theorem State.updDie_localM (p : Nat) (f : DieS → DieS) : (s.updDie p f).localM = s.localM := by unfold State.updDie; split <;> rfl
@[simp] theorem State.updDie_imem (p : Nat) (f : DieS → DieS) : (s.updDie p f).imem = s.imem := by unfold State.updDie; split <;> rfl
@[simp] theorem State.updDie_host (p : Nat) (f : DieS → DieS) : (s.updDie p f).host = s.host := by unfold State.updDie; split <;> rfl
@[simp] theorem State.updDie_funcs (p : Nat) (f : DieS → DieS) : (s.updDie p f).funcs = s.funcs := by unfold State.updDie; split <;> rfl
@[simp] theorem State.updDie_parts (p : Nat) (f : DieS → DieS) : (s.updDie p f).parts = s.parts := by unfold State.updDie; split <;> rfl
@[simp] theorem State.updDie_queues (p : Nat) (f : DieS → DieS) : (s.updDie p f).queues = s.queues := by unfold State.updDie; split <;> rfl
@[simp] theorem State.updDie_ctxs (p : Nat) (f : DieS → DieS) : (s.updDie p f).ctxs = s.ctxs := by unfold State.updDie; split <;> rfl
@[simp] theorem State.updDie_segCache (p : Nat) (f : DieS → DieS) : (s.updDie p f).segCache = s.segCache := by unfold State.updDie; split <;> rfl
@[simp] theorem State.updDie_segMiss (p : Nat) (f : DieS → DieS) : (s.updDie p f).segMiss = s.segMiss := by unfold State.updDie; split <;> rfl
@[simp] theorem State.updDie_hot (p : Nat) (f : DieS → DieS) : (s.updDie p f).hot = s.hot := by unfold State.updDie; split <;> rfl
@[simp] theorem State.updDie_xfers (p : Nat) (f : DieS → DieS) : (s.updDie p f).xfers = s.xfers := by unfold State.updDie; split <;> rfl
@[simp] theorem State.updDie_conns (p : Nat) (f : DieS → DieS) : (s.updDie p f).conns = s.conns := by unfold State.updDie; split <;> rfl
@[simp] theorem State.updDie_rbufs (p : Nat) (f : DieS → DieS) : (s.updDie p f).rbufs = s.rbufs := by unfold State.updDie; split <;> rfl
@[simp] theorem State.updDie_wins (p : Nat) (f : DieS → DieS) : (s.updDie p f).wins = s.wins := by unfold State.updDie; split <;> rfl
@[simp] theorem State.updDie_tp (p : Nat) (f : DieS → DieS) : (s.updDie p f).tp = s.tp := by unfold State.updDie; split <;> rfl
@[simp] theorem State.updDie_shps (p : Nat) (f : DieS → DieS) : (s.updDie p f).shps = s.shps := by unfold State.updDie; split <;> rfl
@[simp] theorem State.updDie_ports (p : Nat) (f : DieS → DieS) : (s.updDie p f).ports = s.ports := by unfold State.updDie; split <;> rfl
@[simp] theorem State.updDie_route (p : Nat) (f : DieS → DieS) : (s.updDie p f).route = s.route := by unfold State.updDie; split <;> rfl
@[simp] theorem State.updDie_els (p : Nat) (f : DieS → DieS) : (s.updDie p f).els = s.els := by unfold State.updDie; split <;> rfl
@[simp] theorem State.updDie_optAlarm (p : Nat) (f : DieS → DieS) : (s.updDie p f).optAlarm = s.optAlarm := by unfold State.updDie; split <;> rfl
@[simp] theorem State.updDie_clus (p : Nat) (f : DieS → DieS) : (s.updDie p f).clus = s.clus := by unfold State.updDie; split <;> rfl
@[simp] theorem State.updDie_needles (p : Nat) (f : DieS → DieS) : (s.updDie p f).needles = s.needles := by unfold State.updDie; split <;> rfl
@[simp] theorem State.updDie_binds (p : Nat) (f : DieS → DieS) : (s.updDie p f).binds = s.binds := by unfold State.updDie; split <;> rfl
@[simp] theorem State.updDie_runs (p : Nat) (f : DieS → DieS) : (s.updDie p f).runs = s.runs := by unfold State.updDie; split <;> rfl
@[simp] theorem State.updDie_launches (p : Nat) (f : DieS → DieS) : (s.updDie p f).launches = s.launches := by unfold State.updDie; split <;> rfl
@[simp] theorem State.updDie_colls (p : Nat) (f : DieS → DieS) : (s.updDie p f).colls = s.colls := by unfold State.updDie; split <;> rfl
@[simp] theorem State.updDie_sync (p : Nat) (f : DieS → DieS) : (s.updDie p f).sync = s.sync := by unfold State.updDie; split <;> rfl
@[simp] theorem State.updDie_lb (p : Nat) (f : DieS → DieS) : (s.updDie p f).lb = s.lb := by unfold State.updDie; split <;> rfl
@[simp] theorem State.updDie_lbPrior (p : Nat) (f : DieS → DieS) : (s.updDie p f).lbPrior = s.lbPrior := by unfold State.updDie; split <;> rfl
@[simp] theorem State.updDie_bist (p : Nat) (f : DieS → DieS) : (s.updDie p f).bist = s.bist := by unfold State.updDie; split <;> rfl
@[simp] theorem State.updDie_tapIr (p : Nat) (f : DieS → DieS) : (s.updDie p f).tapIr = s.tapIr := by unfold State.updDie; split <;> rfl
@[simp] theorem State.updDie_i3c (p : Nat) (f : DieS → DieS) : (s.updDie p f).i3c = s.i3c := by unfold State.updDie; split <;> rfl
@[simp] theorem State.updNeedle_pending (p : Nat) (f : NeedleS → NeedleS) : (s.updNeedle p f).pending = s.pending := by unfold State.updNeedle; split <;> rfl
@[simp] theorem State.updNeedle_fresh (p : Nat) (f : NeedleS → NeedleS) : (s.updNeedle p f).fresh = s.fresh := by unfold State.updNeedle; split <;> rfl
@[simp] theorem State.updNeedle_clockNs (p : Nat) (f : NeedleS → NeedleS) : (s.updNeedle p f).clockNs = s.clockNs := by unfold State.updNeedle; split <;> rfl
@[simp] theorem State.updNeedle_nextId (p : Nat) (f : NeedleS → NeedleS) : (s.updNeedle p f).nextId = s.nextId := by unfold State.updNeedle; split <;> rfl
@[simp] theorem State.updNeedle_devidValid (p : Nat) (f : NeedleS → NeedleS) : (s.updNeedle p f).devidValid = s.devidValid := by unfold State.updNeedle; split <;> rfl
@[simp] theorem State.updNeedle_devid (p : Nat) (f : NeedleS → NeedleS) : (s.updNeedle p f).devid = s.devid := by unfold State.updNeedle; split <;> rfl
@[simp] theorem State.updNeedle_straps (p : Nat) (f : NeedleS → NeedleS) : (s.updNeedle p f).straps = s.straps := by unfold State.updNeedle; split <;> rfl
@[simp] theorem State.updNeedle_pins (p : Nat) (f : NeedleS → NeedleS) : (s.updNeedle p f).pins = s.pins := by unfold State.updNeedle; split <;> rfl
@[simp] theorem State.updNeedle_rst (p : Nat) (f : NeedleS → NeedleS) : (s.updNeedle p f).rst = s.rst := by unfold State.updNeedle; split <;> rfl
@[simp] theorem State.updNeedle_power (p : Nat) (f : NeedleS → NeedleS) : (s.updNeedle p f).power = s.power := by unfold State.updNeedle; split <;> rfl
@[simp] theorem State.updNeedle_tape (p : Nat) (f : NeedleS → NeedleS) : (s.updNeedle p f).tape = s.tape := by unfold State.updNeedle; split <;> rfl
@[simp] theorem State.updNeedle_thimble (p : Nat) (f : NeedleS → NeedleS) : (s.updNeedle p f).thimble = s.thimble := by unfold State.updNeedle; split <;> rfl
@[simp] theorem State.updNeedle_secMbox (p : Nat) (f : NeedleS → NeedleS) : (s.updNeedle p f).secMbox = s.secMbox := by unfold State.updNeedle; split <;> rfl
@[simp] theorem State.updNeedle_keys (p : Nat) (f : NeedleS → NeedleS) : (s.updNeedle p f).keys = s.keys := by unfold State.updNeedle; split <;> rfl
@[simp] theorem State.updNeedle_mgmt (p : Nat) (f : NeedleS → NeedleS) : (s.updNeedle p f).mgmt = s.mgmt := by unfold State.updNeedle; split <;> rfl
@[simp] theorem State.updNeedle_faults (p : Nat) (f : NeedleS → NeedleS) : (s.updNeedle p f).faults = s.faults := by unfold State.updNeedle; split <;> rfl
@[simp] theorem State.updNeedle_mem (p : Nat) (f : NeedleS → NeedleS) : (s.updNeedle p f).mem = s.mem := by unfold State.updNeedle; split <;> rfl
@[simp] theorem State.updNeedle_units (p : Nat) (f : NeedleS → NeedleS) : (s.updNeedle p f).units = s.units := by unfold State.updNeedle; split <;> rfl
@[simp] theorem State.updNeedle_devMem (p : Nat) (f : NeedleS → NeedleS) : (s.updNeedle p f).devMem = s.devMem := by unfold State.updNeedle; split <;> rfl
@[simp] theorem State.updNeedle_shared (p : Nat) (f : NeedleS → NeedleS) : (s.updNeedle p f).shared = s.shared := by unfold State.updNeedle; split <;> rfl
@[simp] theorem State.updNeedle_localM (p : Nat) (f : NeedleS → NeedleS) : (s.updNeedle p f).localM = s.localM := by unfold State.updNeedle; split <;> rfl
@[simp] theorem State.updNeedle_imem (p : Nat) (f : NeedleS → NeedleS) : (s.updNeedle p f).imem = s.imem := by unfold State.updNeedle; split <;> rfl
@[simp] theorem State.updNeedle_host (p : Nat) (f : NeedleS → NeedleS) : (s.updNeedle p f).host = s.host := by unfold State.updNeedle; split <;> rfl
@[simp] theorem State.updNeedle_funcs (p : Nat) (f : NeedleS → NeedleS) : (s.updNeedle p f).funcs = s.funcs := by unfold State.updNeedle; split <;> rfl
@[simp] theorem State.updNeedle_parts (p : Nat) (f : NeedleS → NeedleS) : (s.updNeedle p f).parts = s.parts := by unfold State.updNeedle; split <;> rfl
@[simp] theorem State.updNeedle_queues (p : Nat) (f : NeedleS → NeedleS) : (s.updNeedle p f).queues = s.queues := by unfold State.updNeedle; split <;> rfl
@[simp] theorem State.updNeedle_ctxs (p : Nat) (f : NeedleS → NeedleS) : (s.updNeedle p f).ctxs = s.ctxs := by unfold State.updNeedle; split <;> rfl
@[simp] theorem State.updNeedle_segCache (p : Nat) (f : NeedleS → NeedleS) : (s.updNeedle p f).segCache = s.segCache := by unfold State.updNeedle; split <;> rfl
@[simp] theorem State.updNeedle_segMiss (p : Nat) (f : NeedleS → NeedleS) : (s.updNeedle p f).segMiss = s.segMiss := by unfold State.updNeedle; split <;> rfl
@[simp] theorem State.updNeedle_hot (p : Nat) (f : NeedleS → NeedleS) : (s.updNeedle p f).hot = s.hot := by unfold State.updNeedle; split <;> rfl
@[simp] theorem State.updNeedle_xfers (p : Nat) (f : NeedleS → NeedleS) : (s.updNeedle p f).xfers = s.xfers := by unfold State.updNeedle; split <;> rfl
@[simp] theorem State.updNeedle_conns (p : Nat) (f : NeedleS → NeedleS) : (s.updNeedle p f).conns = s.conns := by unfold State.updNeedle; split <;> rfl
@[simp] theorem State.updNeedle_rbufs (p : Nat) (f : NeedleS → NeedleS) : (s.updNeedle p f).rbufs = s.rbufs := by unfold State.updNeedle; split <;> rfl
@[simp] theorem State.updNeedle_wins (p : Nat) (f : NeedleS → NeedleS) : (s.updNeedle p f).wins = s.wins := by unfold State.updNeedle; split <;> rfl
@[simp] theorem State.updNeedle_tp (p : Nat) (f : NeedleS → NeedleS) : (s.updNeedle p f).tp = s.tp := by unfold State.updNeedle; split <;> rfl
@[simp] theorem State.updNeedle_shps (p : Nat) (f : NeedleS → NeedleS) : (s.updNeedle p f).shps = s.shps := by unfold State.updNeedle; split <;> rfl
@[simp] theorem State.updNeedle_ports (p : Nat) (f : NeedleS → NeedleS) : (s.updNeedle p f).ports = s.ports := by unfold State.updNeedle; split <;> rfl
@[simp] theorem State.updNeedle_route (p : Nat) (f : NeedleS → NeedleS) : (s.updNeedle p f).route = s.route := by unfold State.updNeedle; split <;> rfl
@[simp] theorem State.updNeedle_els (p : Nat) (f : NeedleS → NeedleS) : (s.updNeedle p f).els = s.els := by unfold State.updNeedle; split <;> rfl
@[simp] theorem State.updNeedle_optAlarm (p : Nat) (f : NeedleS → NeedleS) : (s.updNeedle p f).optAlarm = s.optAlarm := by unfold State.updNeedle; split <;> rfl
@[simp] theorem State.updNeedle_clus (p : Nat) (f : NeedleS → NeedleS) : (s.updNeedle p f).clus = s.clus := by unfold State.updNeedle; split <;> rfl
@[simp] theorem State.updNeedle_dies (p : Nat) (f : NeedleS → NeedleS) : (s.updNeedle p f).dies = s.dies := by unfold State.updNeedle; split <;> rfl
@[simp] theorem State.updNeedle_binds (p : Nat) (f : NeedleS → NeedleS) : (s.updNeedle p f).binds = s.binds := by unfold State.updNeedle; split <;> rfl
@[simp] theorem State.updNeedle_runs (p : Nat) (f : NeedleS → NeedleS) : (s.updNeedle p f).runs = s.runs := by unfold State.updNeedle; split <;> rfl
@[simp] theorem State.updNeedle_launches (p : Nat) (f : NeedleS → NeedleS) : (s.updNeedle p f).launches = s.launches := by unfold State.updNeedle; split <;> rfl
@[simp] theorem State.updNeedle_colls (p : Nat) (f : NeedleS → NeedleS) : (s.updNeedle p f).colls = s.colls := by unfold State.updNeedle; split <;> rfl
@[simp] theorem State.updNeedle_sync (p : Nat) (f : NeedleS → NeedleS) : (s.updNeedle p f).sync = s.sync := by unfold State.updNeedle; split <;> rfl
@[simp] theorem State.updNeedle_lb (p : Nat) (f : NeedleS → NeedleS) : (s.updNeedle p f).lb = s.lb := by unfold State.updNeedle; split <;> rfl
@[simp] theorem State.updNeedle_lbPrior (p : Nat) (f : NeedleS → NeedleS) : (s.updNeedle p f).lbPrior = s.lbPrior := by unfold State.updNeedle; split <;> rfl
@[simp] theorem State.updNeedle_bist (p : Nat) (f : NeedleS → NeedleS) : (s.updNeedle p f).bist = s.bist := by unfold State.updNeedle; split <;> rfl
@[simp] theorem State.updNeedle_tapIr (p : Nat) (f : NeedleS → NeedleS) : (s.updNeedle p f).tapIr = s.tapIr := by unfold State.updNeedle; split <;> rfl
@[simp] theorem State.updNeedle_i3c (p : Nat) (f : NeedleS → NeedleS) : (s.updNeedle p f).i3c = s.i3c := by unfold State.updNeedle; split <;> rfl
@[simp] theorem State.updRun_pending (p : Nat) (f : RunS → RunS) : (s.updRun p f).pending = s.pending := by unfold State.updRun; split <;> rfl
@[simp] theorem State.updRun_fresh (p : Nat) (f : RunS → RunS) : (s.updRun p f).fresh = s.fresh := by unfold State.updRun; split <;> rfl
@[simp] theorem State.updRun_clockNs (p : Nat) (f : RunS → RunS) : (s.updRun p f).clockNs = s.clockNs := by unfold State.updRun; split <;> rfl
@[simp] theorem State.updRun_nextId (p : Nat) (f : RunS → RunS) : (s.updRun p f).nextId = s.nextId := by unfold State.updRun; split <;> rfl
@[simp] theorem State.updRun_devidValid (p : Nat) (f : RunS → RunS) : (s.updRun p f).devidValid = s.devidValid := by unfold State.updRun; split <;> rfl
@[simp] theorem State.updRun_devid (p : Nat) (f : RunS → RunS) : (s.updRun p f).devid = s.devid := by unfold State.updRun; split <;> rfl
@[simp] theorem State.updRun_straps (p : Nat) (f : RunS → RunS) : (s.updRun p f).straps = s.straps := by unfold State.updRun; split <;> rfl
@[simp] theorem State.updRun_pins (p : Nat) (f : RunS → RunS) : (s.updRun p f).pins = s.pins := by unfold State.updRun; split <;> rfl
@[simp] theorem State.updRun_rst (p : Nat) (f : RunS → RunS) : (s.updRun p f).rst = s.rst := by unfold State.updRun; split <;> rfl
@[simp] theorem State.updRun_power (p : Nat) (f : RunS → RunS) : (s.updRun p f).power = s.power := by unfold State.updRun; split <;> rfl
@[simp] theorem State.updRun_tape (p : Nat) (f : RunS → RunS) : (s.updRun p f).tape = s.tape := by unfold State.updRun; split <;> rfl
@[simp] theorem State.updRun_thimble (p : Nat) (f : RunS → RunS) : (s.updRun p f).thimble = s.thimble := by unfold State.updRun; split <;> rfl
@[simp] theorem State.updRun_secMbox (p : Nat) (f : RunS → RunS) : (s.updRun p f).secMbox = s.secMbox := by unfold State.updRun; split <;> rfl
@[simp] theorem State.updRun_keys (p : Nat) (f : RunS → RunS) : (s.updRun p f).keys = s.keys := by unfold State.updRun; split <;> rfl
@[simp] theorem State.updRun_mgmt (p : Nat) (f : RunS → RunS) : (s.updRun p f).mgmt = s.mgmt := by unfold State.updRun; split <;> rfl
@[simp] theorem State.updRun_faults (p : Nat) (f : RunS → RunS) : (s.updRun p f).faults = s.faults := by unfold State.updRun; split <;> rfl
@[simp] theorem State.updRun_mem (p : Nat) (f : RunS → RunS) : (s.updRun p f).mem = s.mem := by unfold State.updRun; split <;> rfl
@[simp] theorem State.updRun_units (p : Nat) (f : RunS → RunS) : (s.updRun p f).units = s.units := by unfold State.updRun; split <;> rfl
@[simp] theorem State.updRun_devMem (p : Nat) (f : RunS → RunS) : (s.updRun p f).devMem = s.devMem := by unfold State.updRun; split <;> rfl
@[simp] theorem State.updRun_shared (p : Nat) (f : RunS → RunS) : (s.updRun p f).shared = s.shared := by unfold State.updRun; split <;> rfl
@[simp] theorem State.updRun_localM (p : Nat) (f : RunS → RunS) : (s.updRun p f).localM = s.localM := by unfold State.updRun; split <;> rfl
@[simp] theorem State.updRun_imem (p : Nat) (f : RunS → RunS) : (s.updRun p f).imem = s.imem := by unfold State.updRun; split <;> rfl
@[simp] theorem State.updRun_host (p : Nat) (f : RunS → RunS) : (s.updRun p f).host = s.host := by unfold State.updRun; split <;> rfl
@[simp] theorem State.updRun_funcs (p : Nat) (f : RunS → RunS) : (s.updRun p f).funcs = s.funcs := by unfold State.updRun; split <;> rfl
@[simp] theorem State.updRun_parts (p : Nat) (f : RunS → RunS) : (s.updRun p f).parts = s.parts := by unfold State.updRun; split <;> rfl
@[simp] theorem State.updRun_queues (p : Nat) (f : RunS → RunS) : (s.updRun p f).queues = s.queues := by unfold State.updRun; split <;> rfl
@[simp] theorem State.updRun_ctxs (p : Nat) (f : RunS → RunS) : (s.updRun p f).ctxs = s.ctxs := by unfold State.updRun; split <;> rfl
@[simp] theorem State.updRun_segCache (p : Nat) (f : RunS → RunS) : (s.updRun p f).segCache = s.segCache := by unfold State.updRun; split <;> rfl
@[simp] theorem State.updRun_segMiss (p : Nat) (f : RunS → RunS) : (s.updRun p f).segMiss = s.segMiss := by unfold State.updRun; split <;> rfl
@[simp] theorem State.updRun_hot (p : Nat) (f : RunS → RunS) : (s.updRun p f).hot = s.hot := by unfold State.updRun; split <;> rfl
@[simp] theorem State.updRun_xfers (p : Nat) (f : RunS → RunS) : (s.updRun p f).xfers = s.xfers := by unfold State.updRun; split <;> rfl
@[simp] theorem State.updRun_conns (p : Nat) (f : RunS → RunS) : (s.updRun p f).conns = s.conns := by unfold State.updRun; split <;> rfl
@[simp] theorem State.updRun_rbufs (p : Nat) (f : RunS → RunS) : (s.updRun p f).rbufs = s.rbufs := by unfold State.updRun; split <;> rfl
@[simp] theorem State.updRun_wins (p : Nat) (f : RunS → RunS) : (s.updRun p f).wins = s.wins := by unfold State.updRun; split <;> rfl
@[simp] theorem State.updRun_tp (p : Nat) (f : RunS → RunS) : (s.updRun p f).tp = s.tp := by unfold State.updRun; split <;> rfl
@[simp] theorem State.updRun_shps (p : Nat) (f : RunS → RunS) : (s.updRun p f).shps = s.shps := by unfold State.updRun; split <;> rfl
@[simp] theorem State.updRun_ports (p : Nat) (f : RunS → RunS) : (s.updRun p f).ports = s.ports := by unfold State.updRun; split <;> rfl
@[simp] theorem State.updRun_route (p : Nat) (f : RunS → RunS) : (s.updRun p f).route = s.route := by unfold State.updRun; split <;> rfl
@[simp] theorem State.updRun_els (p : Nat) (f : RunS → RunS) : (s.updRun p f).els = s.els := by unfold State.updRun; split <;> rfl
@[simp] theorem State.updRun_optAlarm (p : Nat) (f : RunS → RunS) : (s.updRun p f).optAlarm = s.optAlarm := by unfold State.updRun; split <;> rfl
@[simp] theorem State.updRun_clus (p : Nat) (f : RunS → RunS) : (s.updRun p f).clus = s.clus := by unfold State.updRun; split <;> rfl
@[simp] theorem State.updRun_dies (p : Nat) (f : RunS → RunS) : (s.updRun p f).dies = s.dies := by unfold State.updRun; split <;> rfl
@[simp] theorem State.updRun_needles (p : Nat) (f : RunS → RunS) : (s.updRun p f).needles = s.needles := by unfold State.updRun; split <;> rfl
@[simp] theorem State.updRun_binds (p : Nat) (f : RunS → RunS) : (s.updRun p f).binds = s.binds := by unfold State.updRun; split <;> rfl
@[simp] theorem State.updRun_launches (p : Nat) (f : RunS → RunS) : (s.updRun p f).launches = s.launches := by unfold State.updRun; split <;> rfl
@[simp] theorem State.updRun_colls (p : Nat) (f : RunS → RunS) : (s.updRun p f).colls = s.colls := by unfold State.updRun; split <;> rfl
@[simp] theorem State.updRun_sync (p : Nat) (f : RunS → RunS) : (s.updRun p f).sync = s.sync := by unfold State.updRun; split <;> rfl
@[simp] theorem State.updRun_lb (p : Nat) (f : RunS → RunS) : (s.updRun p f).lb = s.lb := by unfold State.updRun; split <;> rfl
@[simp] theorem State.updRun_lbPrior (p : Nat) (f : RunS → RunS) : (s.updRun p f).lbPrior = s.lbPrior := by unfold State.updRun; split <;> rfl
@[simp] theorem State.updRun_bist (p : Nat) (f : RunS → RunS) : (s.updRun p f).bist = s.bist := by unfold State.updRun; split <;> rfl
@[simp] theorem State.updRun_tapIr (p : Nat) (f : RunS → RunS) : (s.updRun p f).tapIr = s.tapIr := by unfold State.updRun; split <;> rfl
@[simp] theorem State.updRun_i3c (p : Nat) (f : RunS → RunS) : (s.updRun p f).i3c = s.i3c := by unfold State.updRun; split <;> rfl
@[simp] theorem State.updColl_pending (p : Nat) (f : CollS → CollS) : (s.updColl p f).pending = s.pending := by unfold State.updColl; split <;> rfl
@[simp] theorem State.updColl_fresh (p : Nat) (f : CollS → CollS) : (s.updColl p f).fresh = s.fresh := by unfold State.updColl; split <;> rfl
@[simp] theorem State.updColl_clockNs (p : Nat) (f : CollS → CollS) : (s.updColl p f).clockNs = s.clockNs := by unfold State.updColl; split <;> rfl
@[simp] theorem State.updColl_nextId (p : Nat) (f : CollS → CollS) : (s.updColl p f).nextId = s.nextId := by unfold State.updColl; split <;> rfl
@[simp] theorem State.updColl_devidValid (p : Nat) (f : CollS → CollS) : (s.updColl p f).devidValid = s.devidValid := by unfold State.updColl; split <;> rfl
@[simp] theorem State.updColl_devid (p : Nat) (f : CollS → CollS) : (s.updColl p f).devid = s.devid := by unfold State.updColl; split <;> rfl
@[simp] theorem State.updColl_straps (p : Nat) (f : CollS → CollS) : (s.updColl p f).straps = s.straps := by unfold State.updColl; split <;> rfl
@[simp] theorem State.updColl_pins (p : Nat) (f : CollS → CollS) : (s.updColl p f).pins = s.pins := by unfold State.updColl; split <;> rfl
@[simp] theorem State.updColl_rst (p : Nat) (f : CollS → CollS) : (s.updColl p f).rst = s.rst := by unfold State.updColl; split <;> rfl
@[simp] theorem State.updColl_power (p : Nat) (f : CollS → CollS) : (s.updColl p f).power = s.power := by unfold State.updColl; split <;> rfl
@[simp] theorem State.updColl_tape (p : Nat) (f : CollS → CollS) : (s.updColl p f).tape = s.tape := by unfold State.updColl; split <;> rfl
@[simp] theorem State.updColl_thimble (p : Nat) (f : CollS → CollS) : (s.updColl p f).thimble = s.thimble := by unfold State.updColl; split <;> rfl
@[simp] theorem State.updColl_secMbox (p : Nat) (f : CollS → CollS) : (s.updColl p f).secMbox = s.secMbox := by unfold State.updColl; split <;> rfl
@[simp] theorem State.updColl_keys (p : Nat) (f : CollS → CollS) : (s.updColl p f).keys = s.keys := by unfold State.updColl; split <;> rfl
@[simp] theorem State.updColl_mgmt (p : Nat) (f : CollS → CollS) : (s.updColl p f).mgmt = s.mgmt := by unfold State.updColl; split <;> rfl
@[simp] theorem State.updColl_faults (p : Nat) (f : CollS → CollS) : (s.updColl p f).faults = s.faults := by unfold State.updColl; split <;> rfl
@[simp] theorem State.updColl_mem (p : Nat) (f : CollS → CollS) : (s.updColl p f).mem = s.mem := by unfold State.updColl; split <;> rfl
@[simp] theorem State.updColl_units (p : Nat) (f : CollS → CollS) : (s.updColl p f).units = s.units := by unfold State.updColl; split <;> rfl
@[simp] theorem State.updColl_devMem (p : Nat) (f : CollS → CollS) : (s.updColl p f).devMem = s.devMem := by unfold State.updColl; split <;> rfl
@[simp] theorem State.updColl_shared (p : Nat) (f : CollS → CollS) : (s.updColl p f).shared = s.shared := by unfold State.updColl; split <;> rfl
@[simp] theorem State.updColl_localM (p : Nat) (f : CollS → CollS) : (s.updColl p f).localM = s.localM := by unfold State.updColl; split <;> rfl
@[simp] theorem State.updColl_imem (p : Nat) (f : CollS → CollS) : (s.updColl p f).imem = s.imem := by unfold State.updColl; split <;> rfl
@[simp] theorem State.updColl_host (p : Nat) (f : CollS → CollS) : (s.updColl p f).host = s.host := by unfold State.updColl; split <;> rfl
@[simp] theorem State.updColl_funcs (p : Nat) (f : CollS → CollS) : (s.updColl p f).funcs = s.funcs := by unfold State.updColl; split <;> rfl
@[simp] theorem State.updColl_parts (p : Nat) (f : CollS → CollS) : (s.updColl p f).parts = s.parts := by unfold State.updColl; split <;> rfl
@[simp] theorem State.updColl_queues (p : Nat) (f : CollS → CollS) : (s.updColl p f).queues = s.queues := by unfold State.updColl; split <;> rfl
@[simp] theorem State.updColl_ctxs (p : Nat) (f : CollS → CollS) : (s.updColl p f).ctxs = s.ctxs := by unfold State.updColl; split <;> rfl
@[simp] theorem State.updColl_segCache (p : Nat) (f : CollS → CollS) : (s.updColl p f).segCache = s.segCache := by unfold State.updColl; split <;> rfl
@[simp] theorem State.updColl_segMiss (p : Nat) (f : CollS → CollS) : (s.updColl p f).segMiss = s.segMiss := by unfold State.updColl; split <;> rfl
@[simp] theorem State.updColl_hot (p : Nat) (f : CollS → CollS) : (s.updColl p f).hot = s.hot := by unfold State.updColl; split <;> rfl
@[simp] theorem State.updColl_xfers (p : Nat) (f : CollS → CollS) : (s.updColl p f).xfers = s.xfers := by unfold State.updColl; split <;> rfl
@[simp] theorem State.updColl_conns (p : Nat) (f : CollS → CollS) : (s.updColl p f).conns = s.conns := by unfold State.updColl; split <;> rfl
@[simp] theorem State.updColl_rbufs (p : Nat) (f : CollS → CollS) : (s.updColl p f).rbufs = s.rbufs := by unfold State.updColl; split <;> rfl
@[simp] theorem State.updColl_wins (p : Nat) (f : CollS → CollS) : (s.updColl p f).wins = s.wins := by unfold State.updColl; split <;> rfl
@[simp] theorem State.updColl_tp (p : Nat) (f : CollS → CollS) : (s.updColl p f).tp = s.tp := by unfold State.updColl; split <;> rfl
@[simp] theorem State.updColl_shps (p : Nat) (f : CollS → CollS) : (s.updColl p f).shps = s.shps := by unfold State.updColl; split <;> rfl
@[simp] theorem State.updColl_ports (p : Nat) (f : CollS → CollS) : (s.updColl p f).ports = s.ports := by unfold State.updColl; split <;> rfl
@[simp] theorem State.updColl_route (p : Nat) (f : CollS → CollS) : (s.updColl p f).route = s.route := by unfold State.updColl; split <;> rfl
@[simp] theorem State.updColl_els (p : Nat) (f : CollS → CollS) : (s.updColl p f).els = s.els := by unfold State.updColl; split <;> rfl
@[simp] theorem State.updColl_optAlarm (p : Nat) (f : CollS → CollS) : (s.updColl p f).optAlarm = s.optAlarm := by unfold State.updColl; split <;> rfl
@[simp] theorem State.updColl_clus (p : Nat) (f : CollS → CollS) : (s.updColl p f).clus = s.clus := by unfold State.updColl; split <;> rfl
@[simp] theorem State.updColl_dies (p : Nat) (f : CollS → CollS) : (s.updColl p f).dies = s.dies := by unfold State.updColl; split <;> rfl
@[simp] theorem State.updColl_needles (p : Nat) (f : CollS → CollS) : (s.updColl p f).needles = s.needles := by unfold State.updColl; split <;> rfl
@[simp] theorem State.updColl_binds (p : Nat) (f : CollS → CollS) : (s.updColl p f).binds = s.binds := by unfold State.updColl; split <;> rfl
@[simp] theorem State.updColl_runs (p : Nat) (f : CollS → CollS) : (s.updColl p f).runs = s.runs := by unfold State.updColl; split <;> rfl
@[simp] theorem State.updColl_launches (p : Nat) (f : CollS → CollS) : (s.updColl p f).launches = s.launches := by unfold State.updColl; split <;> rfl
@[simp] theorem State.updColl_sync (p : Nat) (f : CollS → CollS) : (s.updColl p f).sync = s.sync := by unfold State.updColl; split <;> rfl
@[simp] theorem State.updColl_lb (p : Nat) (f : CollS → CollS) : (s.updColl p f).lb = s.lb := by unfold State.updColl; split <;> rfl
@[simp] theorem State.updColl_lbPrior (p : Nat) (f : CollS → CollS) : (s.updColl p f).lbPrior = s.lbPrior := by unfold State.updColl; split <;> rfl
@[simp] theorem State.updColl_bist (p : Nat) (f : CollS → CollS) : (s.updColl p f).bist = s.bist := by unfold State.updColl; split <;> rfl
@[simp] theorem State.updColl_tapIr (p : Nat) (f : CollS → CollS) : (s.updColl p f).tapIr = s.tapIr := by unfold State.updColl; split <;> rfl
@[simp] theorem State.updColl_i3c (p : Nat) (f : CollS → CollS) : (s.updColl p f).i3c = s.i3c := by unfold State.updColl; split <;> rfl
@[simp] theorem State.updXfer_pending (p : Nat) (f : Xfer → Xfer) : (s.updXfer p f).pending = s.pending := by unfold State.updXfer; split <;> rfl
@[simp] theorem State.updXfer_fresh (p : Nat) (f : Xfer → Xfer) : (s.updXfer p f).fresh = s.fresh := by unfold State.updXfer; split <;> rfl
@[simp] theorem State.updXfer_clockNs (p : Nat) (f : Xfer → Xfer) : (s.updXfer p f).clockNs = s.clockNs := by unfold State.updXfer; split <;> rfl
@[simp] theorem State.updXfer_nextId (p : Nat) (f : Xfer → Xfer) : (s.updXfer p f).nextId = s.nextId := by unfold State.updXfer; split <;> rfl
@[simp] theorem State.updXfer_devidValid (p : Nat) (f : Xfer → Xfer) : (s.updXfer p f).devidValid = s.devidValid := by unfold State.updXfer; split <;> rfl
@[simp] theorem State.updXfer_devid (p : Nat) (f : Xfer → Xfer) : (s.updXfer p f).devid = s.devid := by unfold State.updXfer; split <;> rfl
@[simp] theorem State.updXfer_straps (p : Nat) (f : Xfer → Xfer) : (s.updXfer p f).straps = s.straps := by unfold State.updXfer; split <;> rfl
@[simp] theorem State.updXfer_pins (p : Nat) (f : Xfer → Xfer) : (s.updXfer p f).pins = s.pins := by unfold State.updXfer; split <;> rfl
@[simp] theorem State.updXfer_rst (p : Nat) (f : Xfer → Xfer) : (s.updXfer p f).rst = s.rst := by unfold State.updXfer; split <;> rfl
@[simp] theorem State.updXfer_power (p : Nat) (f : Xfer → Xfer) : (s.updXfer p f).power = s.power := by unfold State.updXfer; split <;> rfl
@[simp] theorem State.updXfer_tape (p : Nat) (f : Xfer → Xfer) : (s.updXfer p f).tape = s.tape := by unfold State.updXfer; split <;> rfl
@[simp] theorem State.updXfer_thimble (p : Nat) (f : Xfer → Xfer) : (s.updXfer p f).thimble = s.thimble := by unfold State.updXfer; split <;> rfl
@[simp] theorem State.updXfer_secMbox (p : Nat) (f : Xfer → Xfer) : (s.updXfer p f).secMbox = s.secMbox := by unfold State.updXfer; split <;> rfl
@[simp] theorem State.updXfer_keys (p : Nat) (f : Xfer → Xfer) : (s.updXfer p f).keys = s.keys := by unfold State.updXfer; split <;> rfl
@[simp] theorem State.updXfer_mgmt (p : Nat) (f : Xfer → Xfer) : (s.updXfer p f).mgmt = s.mgmt := by unfold State.updXfer; split <;> rfl
@[simp] theorem State.updXfer_faults (p : Nat) (f : Xfer → Xfer) : (s.updXfer p f).faults = s.faults := by unfold State.updXfer; split <;> rfl
@[simp] theorem State.updXfer_mem (p : Nat) (f : Xfer → Xfer) : (s.updXfer p f).mem = s.mem := by unfold State.updXfer; split <;> rfl
@[simp] theorem State.updXfer_units (p : Nat) (f : Xfer → Xfer) : (s.updXfer p f).units = s.units := by unfold State.updXfer; split <;> rfl
@[simp] theorem State.updXfer_devMem (p : Nat) (f : Xfer → Xfer) : (s.updXfer p f).devMem = s.devMem := by unfold State.updXfer; split <;> rfl
@[simp] theorem State.updXfer_shared (p : Nat) (f : Xfer → Xfer) : (s.updXfer p f).shared = s.shared := by unfold State.updXfer; split <;> rfl
@[simp] theorem State.updXfer_localM (p : Nat) (f : Xfer → Xfer) : (s.updXfer p f).localM = s.localM := by unfold State.updXfer; split <;> rfl
@[simp] theorem State.updXfer_imem (p : Nat) (f : Xfer → Xfer) : (s.updXfer p f).imem = s.imem := by unfold State.updXfer; split <;> rfl
@[simp] theorem State.updXfer_host (p : Nat) (f : Xfer → Xfer) : (s.updXfer p f).host = s.host := by unfold State.updXfer; split <;> rfl
@[simp] theorem State.updXfer_funcs (p : Nat) (f : Xfer → Xfer) : (s.updXfer p f).funcs = s.funcs := by unfold State.updXfer; split <;> rfl
@[simp] theorem State.updXfer_parts (p : Nat) (f : Xfer → Xfer) : (s.updXfer p f).parts = s.parts := by unfold State.updXfer; split <;> rfl
@[simp] theorem State.updXfer_queues (p : Nat) (f : Xfer → Xfer) : (s.updXfer p f).queues = s.queues := by unfold State.updXfer; split <;> rfl
@[simp] theorem State.updXfer_ctxs (p : Nat) (f : Xfer → Xfer) : (s.updXfer p f).ctxs = s.ctxs := by unfold State.updXfer; split <;> rfl
@[simp] theorem State.updXfer_segCache (p : Nat) (f : Xfer → Xfer) : (s.updXfer p f).segCache = s.segCache := by unfold State.updXfer; split <;> rfl
@[simp] theorem State.updXfer_segMiss (p : Nat) (f : Xfer → Xfer) : (s.updXfer p f).segMiss = s.segMiss := by unfold State.updXfer; split <;> rfl
@[simp] theorem State.updXfer_hot (p : Nat) (f : Xfer → Xfer) : (s.updXfer p f).hot = s.hot := by unfold State.updXfer; split <;> rfl
@[simp] theorem State.updXfer_conns (p : Nat) (f : Xfer → Xfer) : (s.updXfer p f).conns = s.conns := by unfold State.updXfer; split <;> rfl
@[simp] theorem State.updXfer_rbufs (p : Nat) (f : Xfer → Xfer) : (s.updXfer p f).rbufs = s.rbufs := by unfold State.updXfer; split <;> rfl
@[simp] theorem State.updXfer_wins (p : Nat) (f : Xfer → Xfer) : (s.updXfer p f).wins = s.wins := by unfold State.updXfer; split <;> rfl
@[simp] theorem State.updXfer_tp (p : Nat) (f : Xfer → Xfer) : (s.updXfer p f).tp = s.tp := by unfold State.updXfer; split <;> rfl
@[simp] theorem State.updXfer_shps (p : Nat) (f : Xfer → Xfer) : (s.updXfer p f).shps = s.shps := by unfold State.updXfer; split <;> rfl
@[simp] theorem State.updXfer_ports (p : Nat) (f : Xfer → Xfer) : (s.updXfer p f).ports = s.ports := by unfold State.updXfer; split <;> rfl
@[simp] theorem State.updXfer_route (p : Nat) (f : Xfer → Xfer) : (s.updXfer p f).route = s.route := by unfold State.updXfer; split <;> rfl
@[simp] theorem State.updXfer_els (p : Nat) (f : Xfer → Xfer) : (s.updXfer p f).els = s.els := by unfold State.updXfer; split <;> rfl
@[simp] theorem State.updXfer_optAlarm (p : Nat) (f : Xfer → Xfer) : (s.updXfer p f).optAlarm = s.optAlarm := by unfold State.updXfer; split <;> rfl
@[simp] theorem State.updXfer_clus (p : Nat) (f : Xfer → Xfer) : (s.updXfer p f).clus = s.clus := by unfold State.updXfer; split <;> rfl
@[simp] theorem State.updXfer_dies (p : Nat) (f : Xfer → Xfer) : (s.updXfer p f).dies = s.dies := by unfold State.updXfer; split <;> rfl
@[simp] theorem State.updXfer_needles (p : Nat) (f : Xfer → Xfer) : (s.updXfer p f).needles = s.needles := by unfold State.updXfer; split <;> rfl
@[simp] theorem State.updXfer_binds (p : Nat) (f : Xfer → Xfer) : (s.updXfer p f).binds = s.binds := by unfold State.updXfer; split <;> rfl
@[simp] theorem State.updXfer_runs (p : Nat) (f : Xfer → Xfer) : (s.updXfer p f).runs = s.runs := by unfold State.updXfer; split <;> rfl
@[simp] theorem State.updXfer_launches (p : Nat) (f : Xfer → Xfer) : (s.updXfer p f).launches = s.launches := by unfold State.updXfer; split <;> rfl
@[simp] theorem State.updXfer_colls (p : Nat) (f : Xfer → Xfer) : (s.updXfer p f).colls = s.colls := by unfold State.updXfer; split <;> rfl
@[simp] theorem State.updXfer_sync (p : Nat) (f : Xfer → Xfer) : (s.updXfer p f).sync = s.sync := by unfold State.updXfer; split <;> rfl
@[simp] theorem State.updXfer_lb (p : Nat) (f : Xfer → Xfer) : (s.updXfer p f).lb = s.lb := by unfold State.updXfer; split <;> rfl
@[simp] theorem State.updXfer_lbPrior (p : Nat) (f : Xfer → Xfer) : (s.updXfer p f).lbPrior = s.lbPrior := by unfold State.updXfer; split <;> rfl
@[simp] theorem State.updXfer_bist (p : Nat) (f : Xfer → Xfer) : (s.updXfer p f).bist = s.bist := by unfold State.updXfer; split <;> rfl
@[simp] theorem State.updXfer_tapIr (p : Nat) (f : Xfer → Xfer) : (s.updXfer p f).tapIr = s.tapIr := by unfold State.updXfer; split <;> rfl
@[simp] theorem State.updXfer_i3c (p : Nat) (f : Xfer → Xfer) : (s.updXfer p f).i3c = s.i3c := by unfold State.updXfer; split <;> rfl

end Sys2Proof.Machine
end

