-- ==== Sys2Proof/Laws/Host.lean ====
section
/-!
SUPPORT. What tells the host something changes nothing else: host requests, messages, ring entries, fault records and replies leave
everything beyond the host's side, and what every partition holds, as it was. One lemma for each shared operation.
-/

namespace Sys2Proof.Machine

variable {s t u : State}

/-! ### The relation -/

theorem Aside.refl (s : State) : Aside s s := ⟨rfl, fun _ => rfl⟩

theorem Aside.trans (h : Aside s t) (g : Aside t u) : Aside s u := ⟨g.1.trans h.1, fun p => (g.2 p).trans (h.2 p)⟩

/-- Same partitions, and the same beyond the host's side. -/
theorem Aside.of_eq (h : t.beyond = s.beyond) (g : t.parts = s.parts) : Aside s t := ⟨h, fun p => by unfold State.part; rw [g]⟩

theorem Aside.onIf {b : Bool} {f : State → State} (h : Aside s t) (g : ∀ x, Aside x (f x)) : Aside s (t.onIf b f) := by
  unfold State.onIf; split
  · exact h.trans (g _)
  · exact h

theorem Aside.each {ks : Nats} {f : Nat → State → State} (h : Aside s t) (g : ∀ k x, Aside x (f k x)) : Aside s (t.each ks f) := by
  unfold State.each
  induction ks generalizing t with
  | nil => exact h
  | cons k ks ih => exact ih (h.trans (g k t))

theorem Aside.eachOf {α : Type} {xs : List α} {f : α → State → State} (h : Aside s t) (g : ∀ k x, Aside x (f k x)) :
    Aside s (t.eachOf xs f) := by
  unfold State.eachOf
  induction xs generalizing t with
  | nil => exact h
  | cons k ks ih => exact ih (h.trans (g k t))

/-! ### Updates of the host's side -/

theorem Aside.updHost (f) (h : Aside s t) : Aside s (t.updHost f) := h.trans (.of_eq rfl rfl)
theorem Aside.updFunc (p f) (h : Aside s t) : Aside s (t.updFunc p f) := h.trans (.of_eq rfl rfl)
theorem Aside.updFaults (f) (h : Aside s t) : Aside s (t.updFaults f) := h.trans (.of_eq rfl rfl)
theorem Aside.updMgmt (f) (h : Aside s t) : Aside s (t.updMgmt f) := h.trans (.of_eq rfl rfl)
theorem Aside.updQueue (k f) (h : Aside s t) : Aside s (t.updQueue k f) := h.trans (by unfold State.updQueue; split <;> exact .of_eq rfl rfl)
theorem Aside.cntHost (i n) (h : Aside s t) : Aside s (t.cntHost i n) := h.updHost _
theorem Aside.cntMgmt (i n) (h : Aside s t) : Aside s (t.cntMgmt i n) := h.updMgmt _

/-- A partition's list of commands changed. -/
theorem Aside.updPart (p f) (k : ∀ x, (f x).kept = x.kept) (h : Aside s t) : Aside s (t.updPart p f) :=
  h.trans ⟨rfl, fun q => by
    simp only [State.part, State.updPart, AMap.get_upd]
    split
    · rename_i e; subst e; exact k _
    · rfl⟩

/-! ### Host requests and rings -/

theorem Aside.issueReq (r) (h : Aside s t) : Aside s (t.issueReq r) := by
  unfold State.issueReq
  exact ((((((h.updHost _).onIf fun _ => (Aside.refl _).cntHost _ _).onIf fun _ => (Aside.refl _).cntHost _ _).onIf
    fun _ => (Aside.refl _).cntHost _ _).onIf fun _ => (Aside.refl _).cntHost _ _).onIf fun _ => (Aside.refl _).cntHost _ _)

theorem Aside.hostReq (r) (h : Aside s t) : Aside s (t.hostReq r) := by
  unfold State.hostReq
  repeat' split
  · exact h
  · exact h.updHost _
  · exact h.issueReq _
  · exact (h.updHost _).onIf fun _ => (Aside.refl _).cntHost _ _
  · exact h.updHost _

theorem Aside.hostWrite (f a d) (h : Aside s t) : Aside s (t.hostWrite f a d) := by
  unfold State.hostWrite; split
  · exact h
  · exact h.hostReq _

theorem Aside.hostFlush (f a) (h : Aside s t) : Aside s (t.hostFlush f a) := h.hostReq _

theorem Aside.msix (f v) (h : Aside s t) : Aside s (t.msix f v) := by
  unfold State.msix
  dsimp only
  repeat' split
  · exact h
  · exact h.updFunc _ _
  · exact h.hostReq _

theorem Aside.ringNotify (k) (h : Aside s t) : Aside s (t.ringNotify k) := by
  unfold State.ringNotify
  dsimp only
  split
  · exact (h.updQueue _ _).msix _ _
  · exact h

theorem Aside.ringPi (k p) (h : Aside s t) : Aside s (t.ringPi k p) := (h.hostWrite _ _ _).ringNotify _

theorem Aside.ringPutNow (k e) (h : Aside s t) : Aside s (t.ringPutNow k e) := by
  unfold State.ringPutNow
  dsimp only
  split
  · exact ((h.hostWrite _ _ _).updQueue _ _).ringPi _ _
  · exact (((h.hostWrite _ _ _).updQueue _ _).hostFlush _ _).updHost _

theorem Aside.putEvent (k e) (h : Aside s t) : Aside s (t.putEvent k e).1 := by
  unfold State.putEvent
  split
  · exact h
  · split
    · exact h
    · exact h.ringPutNow _ _

/-! ### Fault records -/

theorem Aside.faultLost (p c q) (h : Aside s t) : Aside s (t.faultLost p c q) := h.updFunc _ _

theorem Aside.postSummary (p) (h : Aside s t) : Aside s (t.postSummary p) := by
  unfold State.postSummary
  split
  · exact h
  · split
    · exact (h.putEvent _ _).onIf fun _ => (Aside.refl _).updFunc _ _
    · exact h

theorem Aside.recTo (p c q r) (h : Aside s t) : Aside s (t.recTo p c q r).1 := by
  unfold State.recTo
  dsimp only
  split
  · exact (h.postSummary _).faultLost _ _ _
  · split
    · exact (h.postSummary _).faultLost _ _ _
    · split
      · exact (h.postSummary _).putEvent _ _
      · exact ((h.postSummary _).putEvent _ _).faultLost _ _ _

theorem Aside.recToManager (r q n l c) (h : Aside s t) : Aside s (t.recToManager r q n l c) :=
  (h.recTo _ _ _ _).onIf fun _ => (Aside.refl _).updFaults _

/-- A fault record changes nothing beyond the host's side. -/
theorem Aside.postRec (r) (h : Aside s t) : Aside s (t.postRec r) := by
  have h0 : ∀ b : Bool, ∀ f : State → State, (∀ x, Aside x (f x)) → Aside s ((t.updFaults (fun f => { f with nextSeq := f.nextSeq + 1 })).onIf b f) :=
    fun b f g => (h.updFaults _).onIf g
  unfold State.postRec
  dsimp only
  split
  · exact h0 _ _ fun _ => (Aside.refl _).updFaults _
  · split
    · refine (h0 _ _ fun _ => (Aside.refl _).updFaults _).each fun k x => ?_
      split
      · exact (Aside.refl _).recToManager _ _ _ _ _
      · exact (Aside.refl _).recTo _ _ _ _
    · split
      · exact (h0 _ _ fun _ => (Aside.refl _).updFaults _).recToManager _ _ _ _ _
      · exact (h0 _ _ fun _ => (Aside.refl _).updFaults _).recToManager _ _ _ _ _
      · exact ((h0 _ _ fun _ => (Aside.refl _).updFaults _).recTo _ _ _ _).onIf fun _ => (Aside.refl _).recToManager _ _ _ _ _

theorem Aside.secRec (r d) (h : Aside s t) : Aside s (t.secRec r d) := h.postRec _

/-! ### Completions and replies -/

theorem Aside.ringPut (k e) (h : Aside s t) : Aside s (t.ringPut k e) := by
  unfold State.ringPut
  split
  · exact h
  · dsimp only
    split
    · exact (h.updQueue _ _).onIf fun _ => (Aside.refl _).postRec _
    · exact h.ringPutNow _ _

/-- A completion that raises no sync object. -/
theorem Aside.complete (k e d) (h : Aside s t) : Aside s (t.complete k e d none) := by
  unfold State.complete
  dsimp only
  split
  · split
    · exact h.updHost _
    · exact h.ringPut _ _
  · exact (h.hostFlush _ _).updHost _
  · split
    · exact h.ringPut _ _
    · exact h.updHost _

theorem Aside.setA2H (f b) (h : Aside s t) : Aside s (t.setA2H f b) := by
  unfold State.setA2H
  dsimp only
  exact (h.updFunc _ _).onIf fun _ => (Aside.refl _).msix _ _

theorem Aside.replyMbox (f r) (h : Aside s t) : Aside s (t.replyMbox f r) := by
  unfold State.replyMbox
  dsimp only
  exact Aside.setA2H _ _ (h.updFunc _ _)

theorem Aside.replyOob (q r b) (h : Aside s t) : Aside s (t.replyOob q r b) := by
  unfold State.replyOob
  dsimp only
  exact h.updMgmt _

theorem Aside.sendReply (i r b f) (h : Aside s t) : Aside s (t.sendReply i r b f) := by
  have h0 : Aside s (match i.path with | .oob _ => t | _ => t.hostWrite i.part i.resultVa b) := by
    split
    · exact h
    · exact h.hostWrite _ _ _
  unfold State.sendReply
  generalize e : (match i.path with | .oob _ => t | _ => t.hostWrite i.part i.resultVa b) = u at h0
  cases hp : i.path <;> simp only [hp] at e ⊢ <;> subst e
  · exact h0.complete _ _ _
  · split
    · exact h0.replyMbox _ _
    · exact h0.complete _ _ _
  · exact h0.replyOob _ _ _

theorem Aside.adminSettle (p) (h : Aside s t) : Aside s (t.adminSettle p) := by
  unfold State.adminSettle
  dsimp only
  split
  · exact h.trans (.of_eq rfl rfl)
  · exact h

theorem Aside.owe (i) (h : Aside s t) : Aside s (t.owe i) := by
  unfold State.owe; split
  · exact h.updPart _ _ fun _ => rfl
  · exact h

theorem Aside.paid (i) (h : Aside s t) : Aside s (t.paid i) := by
  unfold State.paid; split
  · refine h.onIf fun x => ?_
    exact Aside.adminSettle _ (Aside.updPart _ _ (fun _ => rfl) (Aside.refl x))
  · exact h

/-- A reply changes nothing beyond the host's side. -/
theorem Aside.answer (i o a f) (h : Aside s t) : Aside s (t.answer i o a f) := by
  unfold State.answer
  dsimp only
  exact Aside.paid _ (Aside.sendReply _ _ _ _ h)

theorem Aside.longStart (i o) (h : Aside s t) : Aside s (t.longStart i o) := h.updPart _ _ fun _ => rfl

theorem Aside.longEnd (i o a) (h : Aside s t) : Aside s (t.longEnd i o a) := by
  unfold State.longEnd
  dsimp only
  split
  · exact h
  · exact Aside.adminSettle _ (Aside.sendReply _ _ _ _ (h.updPart _ _ fun _ => rfl))

/-! ### A Vuino command -/

/-- An admitted command replies from its own meaning, or starts and replies later. -/
theorem vuino_eq {h : Issue} {op : Nat} {vals : Nats} {body : State → Ans} (ok : s.admits h op vals = true) :
    ∃ i, opInfo op = some i ∧ vuino h op vals body s =
      if (body s).later then
        if !i.long then (body s).st.owe h
        else if 8 ≤ (s.part h.part).running.length then s.answer h op (Ans.busy s) true
        else ((body s).st.longStart h op).answer h op { body s with status := 21 } false
      else (body s).st.answer h op (body s) true := by
  unfold State.admits at ok
  split at ok
  · cases ok
  · rename_i i hi
    refine ⟨i, hi, ?_⟩
    simp only [Bool.and_eq_true, Bool.or_eq_true, decide_eq_true_eq, Bool.not_eq_true', beq_iff_eq, Option.isNone_iff_eq_none] at ok
    obtain ⟨⟨⟨⟨⟨h1, h2⟩, h3⟩, h4⟩, h5⟩, h6⟩ := ok
    unfold vuino
    simp only [hi, h1, Bool.not_true, Bool.false_eq_true, if_false, h3, h4, h6]
    have g2 : (decide (s.power.state.toNat ≥ 2) && !i.slumber) = false := by
      rcases h2 with h | h
      · simp; omega
      · simp [h]
    have g5 : (i.zeroOnly && h.part != 0) = false := by
      rcases h5 with h | h <;> simp [h]
    simp only [g2, g5, Bool.false_eq_true, if_false]

/-- An admitted command whose meaning replies at once leaves what its meaning leaves, beside the host's side. -/
theorem vuino_now {h : Issue} {op : Nat} {vals : Nats} {body : State → Ans} (ok : s.admits h op vals = true) (now : (body s).later = false) :
    vuino h op vals body s = (body s).st.answer h op (body s) true := by
  obtain ⟨i, _, e⟩ := vuino_eq (body := body) ok
  rw [e, now]; rfl

theorem vuino_aside {h : Issue} {op : Nat} {vals : Nats} {body : State → Ans} (ok : s.admits h op vals = true) (now : (body s).later = false) :
    Aside (body s).st (vuino h op vals body s) := by
  rw [vuino_now ok now]; exact (Aside.refl _).answer _ _ _ _

/-- An admitted command whose meaning answers `a` at once leaves `a.st` and replies `a`. -/
theorem vuino_replies {h : Issue} {op : Nat} {vals : Nats} {body : State → Ans} {a : Ans} (ok : s.admits h op vals = true)
    (e : body s = a) (now : a.later = false) : vuino h op vals body s = a.st.answer h op a true := by
  subst e; exact vuino_now ok now

/-- An admitted command that is not long, and whose reply comes later, owes it. -/
theorem vuino_owes {h : Issue} {op : Nat} {vals : Nats} {body : State → Ans} {a : Ans} (ok : s.admits h op vals = true)
    (e : body s = a) (now : a.later = true) (nl : ∀ i, opInfo op = some i → i.long = false) :
    vuino h op vals body s = a.st.owe h := by
  obtain ⟨i, e0, e1⟩ := vuino_eq (body := body) ok
  rw [e1, e, now]; simp [nl i e0]

/-- An admitted long command that is not done at once begins, and replies IN_PROGRESS. -/
theorem vuino_begins {h : Issue} {op : Nat} {vals : Nats} {body : State → Ans} {a : Ans} (ok : s.admits h op vals = true)
    (e : body s = a) (now : a.later = true) (nl : ∀ i, opInfo op = some i → i.long = true) (r : (s.part h.part).running.length < 8) :
    vuino h op vals body s = (a.st.longStart h op).answer h op { a with status := 21 } false := by
  obtain ⟨i, e0, e1⟩ := vuino_eq (body := body) ok
  rw [e1, e, if_pos now, nl i e0, if_neg (by decide), if_neg (by omega)]

end Sys2Proof.Machine
end

