-- ==== Sys2Proof/Laws/Links.lean ====
section
/-!
SUPPORT. What a change of one port leaves alone.
-/

namespace Sys2Proof.Machine

/-- Changing one port changes that port only. -/
theorem State.onlyPort_upd {s : State} {n : Nat} {f : PortS → PortS} (h : n < 32) {p} (e : f (s.port n) = p) : s.onlyPort (s.updPort n f) n p := by
  unfold State.onlyPort State.updPort State.port
  simp only [h, if_true, AMap.get_upd]
  refine ⟨e, ?_, trivial⟩
  intro m hm; simp [hm]

end Sys2Proof.Machine
end

