-- ==== Sys2Proof/Laws/Needles.lean ====
section
/-!
SUPPORT. What every needle instruction has in common: from a needle that stands at it, its own effect and the PC's.
-/

namespace Sys2Proof.Machine

/-- What a named instruction does from which the needle stands: its own effect, then the PC moves on, jumps, traps, stays or fails (R269). -/
theorem State.issue_stands {s : State} {n op : Nat} {x : Upset} {i : Ins} {f : Ins → State → Did} (h : s.stands n op x i) (nm : opNamed op = true) :
    s.issue n op x f = match f i s with
      | .ok t => t.updNeedle n (fun d => { d with pc := d.pc + (if 128 ≤ op then 8 else 4) })
      | .jump t p => t.updNeedle n (fun d => { d with pc := BitVec.ofNat 32 p })
      | .trap code info => s.trap n code info
      | .stay t => t
      | .lost a =>
        let s := (s.needleRec 4 (clusterOf n) (needleSlot n) a).trap n 3 a
        if isLocal a then s.failNeedle n else s := by
  obtain ⟨h1, h2, h3, h4, h5, h6, h7, h8, h9, h10, h11, h12, h13⟩ := h
  obtain ⟨i1, i2, i3, i4, i5, i6⟩ := i
  dsimp only at *
  subst h2
  unfold State.issue
  simp only [h4, h5, Option.bind_some, Option.map_some]
  rw [← h6, ← h7]
  rw [if_neg (by simp [h3]), if_neg (by simp [h8]), if_neg (by simp [h9]), if_neg (by simpa using h10), h11, if_neg (by simp [nm]), if_neg (by simp)]
  rw [if_neg]
  · by_cases ho : 128 ≤ op
    · simp only [ho, decide_true, if_true] at *
      rw [← h13] <;> rfl
    · simp only [ho, decide_false, if_false, Nat.add_zero, Bool.false_eq_true] at *
      rw [← h13] <;> rfl
  · by_cases ho : 128 ≤ op
    · simp [h12 ho]
    · simp [ho]

/-- Changing one needle changes that needle only. -/
theorem State.onlyNeedle_upd {s : State} {n : Nat} {f : NeedleS → NeedleS} (h : n < 512) {p} (e : f (s.needle n) = p) : s.onlyNeedle (s.updNeedle n f) n p := by
  unfold State.onlyNeedle State.updNeedle State.needle
  simp only [h, if_true, AMap.get_upd]
  refine ⟨e, ?_, trivial⟩
  intro m hm; simp [hm]

/-- The same of two changes of it. -/
theorem State.onlyNeedle_upd2 {s : State} {n : Nat} {f g : NeedleS → NeedleS} (h : n < 512) {p} (e : g (f (s.needle n)) = p) : s.onlyNeedle ((s.updNeedle n f).updNeedle n g) n p := by
  unfold State.onlyNeedle State.updNeedle State.needle
  simp only [h, if_true, AMap.get_upd]
  refine ⟨e, ?_, trivial⟩
  intro m hm; simp [hm]

/-- An instruction that only writes its needle's registers leaves them so, with the PC moved on. -/
theorem State.row_ok {s : State} {n op : Nat} {x : Upset} {i : Ins} {f : Ins → State → Did} {g : NeedleS → NeedleS} {d} (h : s.stands n op x i) (nm : opNamed op = true)
   (e : f i s = .ok (s.updNeedle i.n g)) (hd : g (s.needle n) = d) : s.onlyNeedle (s.issue n op x f) n (d.past op) := by
  rw [State.issue_stands h nm, e]
  have := h.2.1
  dsimp only
  rw [this]
  subst hd
  exact State.onlyNeedle_upd2 h.1 rfl

/-- An instruction whose fields are not as its format says traps ILLEGAL_INSN with its first word. -/
theorem State.row_bad {s : State} {n op : Nat} {x : Upset} {i : Ins} {f : Ins → State → Did} (h : s.stands n op x i) (nm : opNamed op = true)
   (e : f i s = .trap 1 (i.w % 2 ^ 32)) : s.issue n op x f = s.trap n 1 (i.w % 2 ^ 32) := by
  rw [State.issue_stands h nm, e]

end Sys2Proof.Machine
end

