-- ==== Sys2Proof/Laws/Sync.lean ====
section
/-!
SUPPORT. What the operations over sync objects, needles and cluster queues leave as it was.
-/

set_option linter.unusedSimpArgs false
set_option linter.unusedVariables false

namespace Sys2Proof.Machine

/-- A part of the state that `beyond` shows is as before. -/
theorem Aside.fld {α} {s t : State} (h : Aside s t) (f : State → α) (g : ∀ x : State, f x.beyond = f x) : f t = f s := by
  rw [← g t, ← g s, h.1]

/-- What a partition waits for is as before. -/
theorem Aside.part_events {s t : State} (h : Aside s t) (p : Nat) : (t.part p).events = (s.part p).events := by
  have := congrArg PartS.events (h.2 p); exact this

/-- What a sync object reads after one is changed. -/
theorem State.updObj_obj (s : State) (k j : Nat) (f) : (s.updObj k f).obj j = if j = k then f (s.obj k) else s.obj j := by
  simp only [State.updObj, State.obj, AMap.get_upd]

/-- A host waiter that fires disarms its object and changes no value. -/
theorem State.hostWaiter_obj (s : State) (k : Nat) (v) : ∃ u : State, (u = s ∨ u = s.updObj k (fun o => { o with armed := false })) ∧
    (∀ j, (s.hostWaiter k v).obj j = u.obj j) ∧ (∀ p, ((s.hostWaiter k v).part p).events = (u.part p).events) := by
  unfold State.hostWaiter
  dsimp only
  split
  · refine ⟨_, .inr rfl, ?_⟩
    split
    · exact ⟨fun _ => rfl, fun _ => rfl⟩
    · rename_i p i _
      have H : ∀ r : State × Bool, Aside (s.updObj k (fun o => { o with armed := false })) r.1 →
         (∀ j, (r.1.onIf (!r.2) (fun t => t.updPart p (fun x => { x with syncLost := satAdd x.syncLost 1 }))).obj j = (s.updObj k (fun o => { o with armed := false })).obj j) ∧
         (∀ q, ((r.1.onIf (!r.2) (fun t => t.updPart p (fun x => { x with syncLost := satAdd x.syncLost 1 }))).part q).events = ((s.updObj k (fun o => { o with armed := false })).part q).events) := by
        intro r A
        refine ⟨fun j => ?_, fun q => ?_⟩
        · rw [← A.fld (fun x => x.obj j) (fun _ => rfl)]
          unfold State.onIf; split <;> rfl
        · rw [← A.part_events q]
          unfold State.onIf; split
          · simp only [State.part, State.updPart, AMap.get_upd]; split <;> simp_all
          · rfl
      apply H
      split
      · exact (Aside.refl _).putEvent _ _
      · exact Aside.refl _
  · exact ⟨_, .inl rfl, fun _ => rfl, fun _ => rfl⟩

/-- A value put into a sync object changes that object alone. -/
theorem State.syncPut_obj (s : State) (o : Nat) (v : BitVec 64) : (((s.syncPut o v).obj o).val = v) ∧ (∀ q, q ≠ o → (s.syncPut o v).obj q = s.obj q) := by
  unfold State.syncPut
  obtain ⟨u, hu, A, B⟩ := State.hostWaiter_obj ((s.updObj o (fun x => { x with val := v })).needleWaiters o v) o v
  have base : ∀ q, (((s.updObj o (fun x => { x with val := v })).needleWaiters o v)).obj q = if q = o then { (s.obj o) with val := v } else s.obj q := by
    intro q
    have : (((s.updObj o (fun x => { x with val := v })).needleWaiters o v)).obj q = (s.updObj o (fun x => { x with val := v })).obj q := rfl
    rw [this, State.updObj_obj]
  have uo : ∀ q, u.obj q = (((s.updObj o (fun x => { x with val := v })).needleWaiters o v)).obj q ∨ (q = o ∧ (u.obj q).val = v) := by
    intro q
    rcases hu with hu | hu
    · left; rw [hu]
    · rw [hu, State.updObj_obj]
      split
      · right; rename_i h; subst h; refine ⟨rfl, ?_⟩; dsimp only; rw [base, if_pos rfl]
      · left; rfl
  refine ⟨?_, fun q hq => ?_⟩
  · rw [A]; rcases uo o with h | h
    · rw [h, base, if_pos rfl]
    · exact h.2
  · rw [A]; rcases uo q with h | h
    · rw [h, base, if_neg hq]
    · exact absurd h.1 hq

/-- A host waiter that fires leaves everything but sync objects and what it tells the host. -/
theorem State.hostWaiter_beyond (s : State) (k : Nat) (v) : { (s.hostWaiter k v).beyond with sync := [] } = { s.beyond with sync := [] } := by
  unfold State.hostWaiter
  dsimp only
  split
  · split
    · rfl
    · rename_i p i _
      have H : ∀ r : State × Bool, r.1.beyond = (s.updObj k (fun o => { o with armed := false })).beyond →
         { (r.1.onIf (!r.2) (fun t => t.updPart p (fun x => { x with syncLost := satAdd x.syncLost 1 }))).beyond with sync := [] } = { s.beyond with sync := [] } := by
        intro r A
        have : (r.1.onIf (!r.2) (fun t => t.updPart p (fun x => { x with syncLost := satAdd x.syncLost 1 }))).beyond = r.1.beyond := by
          unfold State.onIf; split <;> rfl
        rw [this, A]; rfl
      apply H
      split
      · exact ((Aside.refl _).putEvent _ _).1
      · rfl
  · rfl

/-- What a map reads after every entry is changed. -/
theorem AMap.get?_mapAll {α} (m : AMap α) (k : Nat) (f : Nat → α → α) : AMap.get? (AMap.mapAll m f) k = (AMap.get? m k).map (f k) := by
  induction m with
  | nil => rfl
  | cons e m ih => 
    simp only [AMap.get?, AMap.mapAll, List.map_cons, List.find?_cons] at *
    by_cases c : e.1 = k
    · simp [c]
    · simp [c, ih]

/-- A value put into a sync object leaves a needle that waits for none. -/
theorem State.syncPut_needle (s : State) (o : Nat) (v : BitVec 64) (n : Nat) (h : (s.needle n).st ≠ 3) : (s.syncPut o v).needle n = s.needle n := by
  have := congrArg State.needles (State.hostWaiter_beyond ((s.updObj o (fun x => { x with val := v })).needleWaiters o v) o v)
  have e : (s.syncPut o v).needles = AMap.mapAll s.needles (fun _ n =>
      if n.st == 3 && n.waitObj == o && n.waitOk.isNone && decide (n.waitT.toNat ≤ v.toNat)
      then { n with waitOk := some v } else n) := this
  unfold State.needle AMap.get at h ⊢
  rw [e, AMap.get?_mapAll]
  cases hc : AMap.get? s.needles n with
  | none => rfl
  | some d => rw [hc] at h; simp at h; simp [h]

/-- A part of the state beyond sync objects, needles and what the host is told is as before. -/
theorem State.syncPut_fld {α} (s : State) (o : Nat) (v : BitVec 64) (f : State → α) (g : ∀ x : State, f { x.beyond with sync := [], needles := [] } = f x) : f (s.syncPut o v) = f s := by
  unfold State.syncPut
  generalize ht : (s.updObj o (fun x => { x with val := v })).needleWaiters o v = t
  have h1 : f (t.hostWaiter o v) = f t := by
    rw [← g (t.hostWaiter o v), ← g t]
    have := congrArg (fun x : State => f { x with needles := [] }) (State.hostWaiter_beyond t o v)
    exact this
  rw [h1, ← ht, ← g s, ← g]
  rfl

/-- What a queue of a cluster reads after one is changed. -/
theorem State.updSq_sq (s : State) (c q c' k : Nat) (f) (h : c < 64) : (s.updSq c q f).sq c' k = if c' = c ∧ k = q then f (s.sq c q) else s.sq c' k := by
  unfold State.updSq State.updClu State.sq State.clu
  simp only [h, if_true, AMap.get_upd]
  by_cases a : c' = c
  · subst a; simp only [if_true, AMap.get_upd]; by_cases b : k = q <;> simp [b]
  · simp [a]

/-- A needle belongs to one of the 64 clusters. -/
theorem clusterOf_lt {n} (h : n < 512) : clusterOf n < 64 := by unfold clusterOf; omega

/-- An instruction that completes, at a needle that stands at it. -/
theorem State.issue_ok {s t : State} {n op : Nat} {x : Upset} {i : Ins} {f : Ins → State → Did} (h : s.stands n op x i) (nm : opNamed op = true)
   (e : f i s = .ok t) : s.issue n op x f = t.updNeedle n (fun d => d.past op) := by
  rw [State.issue_stands h nm, e]; rfl

/-- An instruction that waits, at a needle that stands at it. -/
theorem State.issue_stay {s t : State} {n op : Nat} {x : Upset} {i : Ins} {f : Ins → State → Did} (h : s.stands n op x i) (nm : opNamed op = true)
   (e : f i s = .stay t) : s.issue n op x f = t := by
  rw [State.issue_stands h nm, e]

/-- The needle that is changed. -/
theorem State.updNeedle_self {s : State} {n : Nat} {f} (h : n < 512) : (s.updNeedle n f).needle n = f (s.needle n) := by
  unfold State.updNeedle State.needle; simp [h, AMap.get_upd]

/-- A changed needle leaves the queues of the clusters. -/
theorem State.updNeedle_sq {s : State} {n : Nat} {f} {c q} : (s.updNeedle n f).sq c q = s.sq c q := by unfold State.updNeedle; split <;> rfl

/-- A changed needle leaves the sync objects. -/
theorem State.updNeedle_obj {s : State} {n : Nat} {f} {o} : (s.updNeedle n f).obj o = s.obj o := by unfold State.updNeedle; split <;> rfl

/-- A changed needle leaves everything but the needles. -/
theorem State.updNeedle_frame {s : State} {n : Nat} {f} : { s.updNeedle n f with needles := s.needles } = s := by unfold State.updNeedle; split <;> rfl

/-- A changed queue of a cluster leaves the needles. -/
theorem State.updSq_needle {s : State} {c q f n} : (s.updSq c q f).needle n = s.needle n := by unfold State.updSq State.updClu; split <;> rfl

/-- A changed queue of a cluster leaves the list of needles. -/
theorem State.updSq_needles {s : State} {c q f} : (s.updSq c q f).needles = s.needles := by unfold State.updSq State.updClu; split <;> rfl

/-- A changed queue of a cluster leaves everything but the clusters. -/
theorem State.updSq_frame {s : State} {c q f} : { s.updSq c q f with clus := s.clus } = s := by unfold State.updSq State.updClu; split <;> rfl

/-- A changed queue of a cluster leaves the other clusters. -/
theorem State.updSq_clu {s : State} {c q f c'} (h : c' ≠ c) : (s.updSq c q f).clu c' = s.clu c' := by
  unfold State.updSq State.updClu State.clu; split
  · simp [AMap.get_upd, h]
  · rfl

/-- Two frames, one after the other. -/
theorem both_frame {s t u : State} (a : { u with needles := t.needles } = t) (b : { t with clus := s.clus } = s) : { u with clus := s.clus, needles := s.needles } = s := by
  have := congrArg (fun x : State => { x with clus := s.clus, needles := s.needles }) a
  refine this.trans ?_
  have := congrArg (fun x : State => { x with needles := s.needles }) b
  exact this

end Sys2Proof.Machine
end

