-- ==== Sys2Proof/Tests/Slice0.lean ====
section
/-!
SUPPORT. The model's own tests: ill-formed commands are refused, a state that meets the hypotheses of every clause of every obligation, and
small results worked out from the spec.
-/

open Sys2Proof Sys2Proof.Machine

set_option Elab.async false

/-! ### Small states -/

/-- A partition with a few of everything. -/
def labPart (base : Nat) : PartS := {
  st := 2, held := true, nq := 16, npins := 2, conns := [(base, 4)], wins := [(base, 4)], syncs := [(base, 4)], shps := [(base, 4)]
  colls := [(base, 4)], keys := [(base, 4)], ctxs := [(base, 4)], clusters := [base], units := [base] }

/-- A queue of a kind that completes into queue 3, in context 0. -/
def labQueue (kind : Nat) : QueueS := { kind, blk := pack 256 [(111, 96, 3), (12, 8, 6), (3, 0, kind)] }

/-- The adapter in service with device ID 0x0100: partitions 0 and 1 hold a few of everything, ports 0 and 30 are UP, memory is ready. -/
def lab : State := { State.reset with
  rst := { stage := 6 }
  devidValid := true, devid := 0x0100
  host := { up := true, rrs := false }
  tape := { running := true, state := 2, ns := 5000000000 }
  mem := { init := true, triples := [(0, [0, 1, 2]), (1, [3, 4, 5]), (64, [0, 1, 2]), (65, [3, 4, 5])]
           gmap := [(0, { far := false, triple := 0, frame := 0 }), (1, { far := true, triple := 0, frame := 0 })] }
  units := [(0, { st := 1, owner := 0, framed := true }), (8, { st := 1, owner := 1 })]
  parts := [(0, labPart 0), (1, labPart 8)]
  funcs := [(0, { busMaster := true, msixEn := true })]
  queues := [(qkey 0 2, labQueue 1), (qkey 0 3, labQueue 3), (qkey 0 4, labQueue 4), (qkey 0 5, labQueue 5), (qkey 0 6, labQueue 6),
    (qkey 0 7, labQueue 2)]
  ports := [(0, { state := 3, check := 2, onoff := some false, light := true }), (30, { state := 3, check := 2, light := true })] }

/-- A context whose basting copy has segment 0: 64 KiB of this adapter's unit 0. -/
def labCtx : CtxS := { hdrBast := pack 128 [(45, 32, 100), (5, 0, 20)], bast := [(0, pack 256 [(199, 199, 1), (153, 128, 1), (127, 112, 0x0100)])] }

/-- A command of partition 0. -/
def hd : Issue := {}

/-- A context whose active copy has segment 0: 64 KiB of the host's memory. -/
def labHost : CtxS := { labCtx with act := [(0, pack 256 [(199, 199, 1), (153, 128, 1), (127, 64, 0x0100_2000_0000_0000)])] }

/-- A connection of partition 0 that is READY, with no peer's packet yet. -/
def labConn : ConnS := { st := 2, blk := pack 256 [(191, 176, 0xFFFF), (175, 160, 3), (159, 144, 7), (143, 128, 2)], peerId := 0x0200 }

/-- A packet from 0x0200 to connection 0 of the adapter, the first and last of its message. -/
def labPkt (op wkey : Nat) (payload : Bytes) : Pkt :=
  ({ fab := pack 128 [(127, 112, 0x0100), (111, 96, 0x0200), (95, 94, 1), (63, 51, 32 + payload.length)]
     hdr := pack 512 [(255, 248, op), (247, 247, 1), (246, 246, 1), (95, 64, wkey), (63, 44, 1)], payload } : Pkt).withCrc

/-- An end-to-end return from 0x0200: its total and its incarnation. -/
def labRet (total inc : Nat) : Pkt :=
  ({ fab := pack 128 [(127, 112, 0x0100), (111, 96, 0x0200), (95, 94, 1), (83, 80, 2), (63, 51, 16)]
     hdr := pack 512 [(127, 120, 1), (95, 48, total), (47, 32, inc)] } : Pkt).withCrc

/-- A packet for another adapter, after some hops. -/
def labFwd (hops : Nat) : Pkt :=
  ({ fab := pack 128 [(127, 112, 0x0104), (111, 96, 0x0200), (95, 94, 1), (87, 84, hops), (63, 51, 32), (31, 0, 5000000000)], hdr := pack 512 [(255, 248, 4)] } : Pkt).withCrc

/-- A map push to the adapter. -/
def labMap : Pkt :=
  ({ fab := pack 128 [(127, 112, 0x0100), (111, 96, 0x0200), (95, 94, 1), (83, 80, 2), (63, 51, 64)], hdr := pack 512 [(511, 504, 2)] } : Pkt).withCrc

/-- An instruction's bits. -/
def w64 (fs : List Fld) : Nat := (pack 64 fs).toNat

/-- A program of 256 bytes at the start of instruction memory. -/
def labProg : Prog := { textLen := 256 }

/-- A launch of it on cluster 0. -/
def labRun : RunS := { prog := 0x105, clusters := [0], needles := [0, 1], left := [0, 1] }

/-- Needle 0 stands at an instruction. -/
def labN (w : Nat) (d : NeedleS := {}) : State := { lab with
  imem := Memory.wrs [] 0 (bytesLE (if w % 256 < 128 then 4 else 8) w)
  clus := [(0, { owner := some 0, st := 3 })]
  parts := [(0, { labPart 0 with progs := [(5, labProg)] }), (1, labPart 8)]
  runs := [(1, labRun)], needles := [(0, { d with st := 1, run := some 1 })] }

/-- That instruction. -/
def labI (w : Nat) : Ins := { n := 0, w, pc := 0, run := labRun, id := 1, prog := labProg }

/-- A block of a two-member ALLREDUCE of FP32, this adapter rank 0. -/
def labBlk : BitVec 512 := pack 512 [(511, 480, 1), (479, 464, 1), (239, 227, 1), (127, 124, 2), (110, 102, 1), (101, 97, 11)]

/-- A collective of two chunks in progress, the second of 1,028 elements. -/
def labColl : CollS := { act := labBlk, st := 3, table := [0x0100_0000, 0x0200_0000], run := some { d := pack 512 [(447, 408, 3076)] } }

/-- A collective packet of rank 1 to slot 0. -/
def labCol (op seq : Nat) (fs : List Fld := []) (payload : Bytes := []) : Pkt :=
  ({ fab := pack 128 [(127, 112, 0x0100), (111, 96, 0x0200), (95, 94, 1), (83, 80, 1), (63, 51, 32 + payload.length)]
     hdr := pack 512 ([(255, 248, op), (239, 208, 1), (207, 176, seq), (175, 163, 1)] ++ fs), payload } : Pkt).withCrc

/-- Its parameter digest. -/
def labDig : Nat := (paramDigest labBlk labColl.desc 0 labColl.table).toNat

theorem witness_PlainAndQueueCommandsReply_1 :
    (
     let s : State := lab
     let h : Issue := hd
     s.admits h 0x0001 [] = true) ∧
    (
     let s : State := lab
     let h : Issue := hd
     s.admits h 0x0002 [] = true) ∧
    (
     let s : State := { lab with parts := [(0, { labPart 0 with long := [{ tag := 7, opcode := 0x0202, done := true }] })] }
     let h : Issue := hd
     let tag : Nat := 7
     let l : LongC := { tag := 7, opcode := 0x0202, done := true }
     s.admits h 0x0003 [tag] = true ∧ (s.part h.part).long.find? (fun l => l.tag.toNat == tag && (!l.done || decide (s.clockNs ≤ l.endedAt + 10 * 10 ^ 9))) = some l) ∧
    (
     let s : State := { lab with queues := [] }
     let h : Issue := hd
     let blk : BitVec 256 := pack 256 [(127, 112, 8), (111, 96, 0xFFFF), (12, 8, 6), (6, 6, 1), (3, 0, 6)]
     s.admits h 0x0010 [blk.toNat] = true ∧ s.queueBad h.part blk = none) ∧
    (
     let s : State := lab
     let h : Issue := hd
     let q : Nat := 7
     let u : QueueS := labQueue 2
     s.admits h 0x0011 [q] = true ∧ s.queue? (qkey h.part q) = some u ∧ 2 ≤ q ∧ u.work = [] ∧ s.queueNamed h.part q = false) := by decide +kernel

theorem witness_PlainAndQueueCommandsReply_2 :
    (
     let s : State := lab
     let h : Issue := hd
     let q : Nat := 2
     let u : QueueS := labQueue 1
     s.admits h 0x0012 [q] = true ∧ s.queue? (qkey h.part q) = some u ∧ 2 ≤ q) ∧
    (
     let s : State := lab
     let h : Issue := hd
     let q : Nat := 1
     s.admits h 0x0012 [q] = true ∧ q < 2) := by decide +kernel

theorem witness_SegmentCommandsReply_1 :
    (
     let s : State := lab
     let h : Issue := hd
     let ctx : Nat := 0
     let seg : Nat := 3
     let e : BitVec 256 := 0
     s.admits h 0x0100 [ctx, seg, e.toNat] = true ∧ ((s.ctx ctx).drain = none ∧ s.ctxOwner ctx = some 0 ∧ h.part = 0) ∧ segReserved e = false) ∧
    (
     let s : State := lab
     let h : Issue := hd
     let ctx : Nat := 0
     let hd : BitVec 128 := 0
     s.admits h 0x0101 [ctx, hd.toNat] = true ∧ ((s.ctx ctx).drain = none ∧ s.ctxOwner ctx = some 0 ∧ h.part = 0) ∧ zeroFld hd 127 80 = true ∧ zeroFld hd 63 46 = true ∧ zeroFld hd 31 6 = true) ∧
    (
     let s : State := { lab with ctxs := [(0, labCtx)] }
     let h : Issue := hd
     let ctx : Nat := 0
     s.admits h 0x0102 [ctx] = true ∧ ((s.ctx ctx).drain = none ∧ s.ctxOwner ctx = some 0 ∧ h.part = 0) ∧ s.devidValid = true ∧ (∀ k < 16, segValid (AMap.get (s.ctx ctx).bast k 0) = true → s.segReason ((s.ctxOwner ctx).getD 64) ctx k = 0) ∧ headerBad (s.ctx ctx).hdrBast = false ∧
     let changed := (List.range 16).filter (fun k => AMap.get (s.ctx ctx).act k 0 != AMap.get (s.ctx ctx).bast k 0)
     let t := (s.updCtx ctx (fun c => { c with act := c.bast, hdrAct := c.hdrBast })).newEpochs ctx changed
     t.undrained ctx changed = []) := by decide +kernel

theorem witness_SegmentCommandsReply_2 :
    (
     let s : State := { lab with ctxs := [(0, labCtx)], xfers := [(1, { unacc := 1, src := .va 0 0 0 0 })] }
     let h : Issue := hd
     let ctx : Nat := 0
     s.admits h 0x0102 [ctx] = true ∧ ((s.ctx ctx).drain = none ∧ s.ctxOwner ctx = some 0 ∧ h.part = 0) ∧ s.devidValid = true ∧ (∀ k < 16, segValid (AMap.get (s.ctx ctx).bast k 0) = true → s.segReason ((s.ctxOwner ctx).getD 64) ctx k = 0) ∧ headerBad (s.ctx ctx).hdrBast = false ∧
     let changed := (List.range 16).filter (fun k => AMap.get (s.ctx ctx).act k 0 != AMap.get (s.ctx ctx).bast k 0)
     let t := (s.updCtx ctx (fun c => { c with act := c.bast, hdrAct := c.hdrBast })).newEpochs ctx changed
     t.undrained ctx changed ≠ []) ∧
    (
     let s : State := lab
     let h : Issue := hd
     let ctx : Nat := 0
     let seg : Nat := 15
     s.admits h 0x0103 [ctx, seg] = true ∧ ((s.ctx ctx).drain = none ∧ s.ctxOwner ctx = some 0 ∧ h.part = 0)) ∧
    (let s : State := { lab with ctxs := [(0, labCtx)], xfers := [(1, { unacc := 1, src := .va 0 0 0 0 })] }
     s.admits hd 0x0103 [0, 0] = true ∧ ((s.ctx 0).drain = none ∧ s.ctxOwner 0 = some 0) ∧ (s.newEpochs 0 [0]).undrained 0 [0] ≠ []) ∧
    (
     let s : State := lab
     let h : Issue := hd
     let ctx : Nat := 0
     let seg : Nat := 15
     seg < 16 ∧ ((s.ctx ctx).drain = none ∧ s.ctxOwner ctx = some 0 ∧ h.part = 0) ∧ s.admits h 0x0104 [ctx, seg, 0] = true) := by decide +kernel

theorem witness_SegmentCommandsReply_3 :
    (
     let s : State := lab
     let h : Issue := hd
     let ctx : Nat := 0
     let seg : Nat := 0
     seg < 16 ∧ ((s.ctx ctx).drain = none ∧ s.ctxOwner ctx = some 0 ∧ h.part = 0) ∧ s.admits h 0x0104 [ctx, seg, 1] = true) := by decide +kernel

theorem witness_MemoryCommandsReply_1 :
    (
     let s : State := lab
     let h : Issue := hd
     let blk : BitVec 64 := 0x1000_19_10_000A_00_00
     s.admits h 0x0200 [blk.toNat] = true ∧ 1 ≤ fld blk 47 40 ∧ fld blk 47 40 ≤ 200 ∧ 8 ≤ fld blk 39 32 ∧ fld blk 39 32 ≤ 64 ∧ 1 ≤ fld blk 31 16 ∧ fld blk 31 16 ≤ 1000 ∧ fld blk 15 8 = 0 ∧ fld blk 7 0 ≤ 1) ∧
    (
     let s : State := lab
     let h : Issue := hd
     let p : Nat := 0
     let lo : Nat := 0
     let hi : Nat := 1
     s.admits h 0x0201 [p, lo, hi] = true ∧ p < 64 ∧ lo ≤ hi ∧ hi ≤ (s.part p).units.length ∧ ((s.mem.bounds.filter (fun e => e.1 != p)).map (fun e => e.2.1)).sum + lo ≤ (32768 * (s.triplesOf false).length - (s.mem.retiredF.filter (fun f => f.1 == 0)).length) / 512) ∧
    (
     let s : State := lab
     let h : Issue := hd
     let offset : Nat := 0
     let count : Nat := 1
     s.granRangeOk h offset count = true ∧ s.admits h 0x0202 [offset, count, 0] = true) ∧
    (lab.granRangeOk hd (2 ^ 21) 1 = true ∧ lab.admits hd 0x0202 [2 ^ 21, 1, 2] = true ∧ AMap.get? lab.mem.gmap 1 = some { far := true, triple := 0, frame := 0 }) ∧
    (
     let s : State := { lab with mem := { lab.mem with damaged := [1] } }
     let h : Issue := hd
     let offset : Nat := 2 ^ 21
     let g : Nat := 1
     let f : Frame3 := { far := true, triple := 0, frame := 0 }
     s.admits h 0x0203 [offset, 1] = true ∧ s.granRangeOk h offset 1 = true ∧ g = offset / 2 ^ 21 ∧ s.mem.damaged.contains g = true ∧ AMap.get? s.mem.gmap g = some f) := by decide +kernel

theorem witness_MemoryCommandsReply_2 :
    (
     let s : State := lab
     let h : Issue := hd
     let hours : Nat := 168
     s.admits h 0x0204 [hours] = true ∧ 1 ≤ hours ∧ hours ≤ 168) ∧
    (
     let s : State := lab
     let h : Issue := hd
     let tier : Nat := 1
     let chan : Nat := 5
     let x : Nat × Nats := (1, [3, 4, 5])
     s.admits h 0x0205 [tier, chan] = true ∧ tier ≤ 1 ∧ chan ≤ 47 ∧ (AMap.get s.mem.chans (chanKey (tier == 1) chan) {}).st ≠ 2 ∧ s.tripleOf (tier == 1) chan = some x ∧ (s.part h.part).running.length < 8) ∧
    (
     let s : State := lab
     let h : Issue := hd
     let tier : Nat := 0
     let chan : Nat := 47
     s.admits h 0x0206 [tier, chan] = true ∧ tier ≤ 1 ∧ chan ≤ 47) := by decide +kernel

theorem witness_ConnectionAndWindowCommandsReply_1 :
    (
     let s : State := lab
     let h : Issue := hd
     let blk : BitVec 256 := pack 256 [(207, 192, 0), (191, 176, 0xFFFF), (175, 160, 3), (159, 144, 7), (143, 128, 2)]
     let cid : Nat := 0
     s.admits h 0x0300 [blk.toNat] = true ∧ fld blk 255 208 = 0 ∧ fld blk 127 12 = 0 ∧ fld blk 6 4 = 0 ∧ fld blk 3 0 ≤ 1 ∧ (fld blk 3 0 = 1 → bitAt blk 7 = false) ∧
     let c : ConnS := { part := h.part, blk }
     (c.encrypt = true → (Ranges.item (s.part h.part).keys c.keySlot).isSome = true) ∧ (c.shaper = 0xFFFF ∨ (Ranges.item (s.part h.part).shps c.shaper).isSome = true) ∧ s.queueKind h.part c.cq 3 = true ∧ (c.rq = 0xFFFF ∨ s.queueKind h.part c.rq 2 = true) ∧ s.queueKind h.part c.sq 1 = true ∧ s.freeConn h.part = some cid ∧ (bitAt blk 8 = true → s.pinRoom h.part = true)) ∧
    (
     let s : State := { lab with conns := [(0, { st := 1 })] }
     let h : Issue := hd
     let conn : Nat := 0
     let peerId : Nat := 0x0200
     let peerConn : Nat := 0
     let peerGen : Nat := 0
     let sendPsn : Nat := 0
     let recvPsn : Nat := 0
     s.admits h 0x0301 [conn, peerId, peerConn, peerGen, sendPsn, recvPsn] = true ∧ s.connOwned h.part conn = true ∧ (s.conn conn).st = 1 ∧ (s.conn conn).ud = false ∧ (s.conn conn).encrypt = false ∧ s.devidValid = true ∧ validId peerId = true ∧ (idSpine peerId = true → h.part = 0)) := by decide +kernel

theorem witness_ConnectionAndWindowCommandsReply_2 :
    (
     let s : State := { lab with conns := [(3, { st := 2 })] }
     let h : Issue := hd
     let conn : Nat := 3
     s.admits h 0x0302 [conn] = true ∧ s.connOwned h.part conn = true ∧ (s.conn conn).st ≠ 0) ∧
    (
     let s : State := { lab with conns := [(3, { st := 2 })] }
     let h : Issue := hd
     let conn : Nat := 3
     s.admits h 0x0303 [conn] = true ∧ s.connOwned h.part conn = true ∧ (s.conn conn).st ≠ 0) ∧
    (
     let s : State := { lab with conns := [(3, { st := 1 })] }
     let h : Issue := hd
     let conn : Nat := 3
     s.connOwned h.part conn = true ∧ (s.conn conn).st ≠ 0 ∧ s.admits h 0x0304 [conn, 0] = true) ∧
    (
     let s : State := { lab with conns := [(3, { st := 1 })] }
     let h : Issue := hd
     let conn : Nat := 3
     s.connOwned h.part conn = true ∧ (s.conn conn).st ≠ 0 ∧ s.admits h 0x0304 [conn, 1] = true ∧ (s.conn conn).pinned = false ∧ s.pinRoom (s.conn conn).part = true) ∧
    (
     let s : State := { lab with conns := [(3, { st := 3 })] }
     let h : Issue := hd
     let conn : Nat := 3
     s.admits h 0x0305 [conn] = true ∧ s.connOwned h.part conn = true ∧ (s.conn conn).st ≠ 0) := by decide +kernel

theorem witness_ConnectionAndWindowCommandsReply_3 :
    (
     let s : State := lab
     let h : Issue := hd
     let e : BitVec 256 := pack 256 [(255, 240, 0xFFFF), (227, 224, 1), (175, 128, 4096)]
     let w : Nat := 0
     s.admits h 0x0310 [e.toNat] = true ∧ s.spine = false ∧ s.winBad h.part e = none ∧ s.freeWin (winPart e) = some w) ∧
    (
     let s : State := { lab with wins := [(3, { st := true, gen := 0xFFF })] }
     let h : Issue := hd
     let wkey : Nat := 0x3FFF
     let w : Nat := 3
     s.admits h 0x0311 [wkey] = true ∧ w = wkey / 2 ^ 12 ∧ (s.win w).st = true ∧ (s.win w).gen.toNat = wkey % 2 ^ 12 ∧ Ranges.has (s.part (winPart (s.win w).entry)).wins w = true ∧ (h.part = 0 ∨ h.part = winPart (s.win w).entry) ∧
     s.winBusy w = false) ∧
    (
     let s : State := { lab with wins := [(3, { st := true, gen := 0xFFF })], conns := [(0, { st := 2, rx := [{ reqs := [({ hdr := 0x3FFF_0000_0000_0000_0000 }, [])] }] })] }
     let h : Issue := hd
     let wkey : Nat := 0x3FFF
     let w : Nat := 3
     s.admits h 0x0311 [wkey] = true ∧ w = wkey / 2 ^ 12 ∧ (s.win w).st = true ∧ (s.win w).gen.toNat = wkey % 2 ^ 12 ∧ Ranges.has (s.part (winPart (s.win w).entry)).wins w = true ∧ (h.part = 0 ∨ h.part = winPart (s.win w).entry) ∧
     s.winBusy w = true) := by decide +kernel

theorem witness_CongestionCommandsReply_1 :
    (
     let s : State := lab
     let h : Issue := hd
     let p : Nat := 1
     let blk : BitVec 128 := 0x0000_01F4_0010_40_80_0040_0004_2000_0003
     s.admits h 0x0400 [p, blk.toNat] = true ∧ s.created p = true ∧ ccBad blk = false) ∧
    (
     let s : State := lab
     let h : Issue := hd
     let p : Nat := 1
     s.admits h 0x0401 [p] = true ∧ s.created p = true) ∧
    (
     let s : State := { lab with conns := [(0, { st := 1 })] }
     let h : Issue := hd
     let conn : Nat := 0
     let mode : Nat := 1
     let lo : Nat := 4
     let hi : BitVec 64 := 8192
     let fixed : Nat := 0
     s.admits h 0x0402 [conn, mode, lo, hi.toNat, fixed] = true ∧ (s.conn conn).st ≠ 0 ∧ mode ≤ 2 ∧ (mode = 1 → 4 ≤ lo ∧ lo ≤ hi.toNat ∧ hi.toNat ≤ 8192) ∧ (mode = 2 → 4 ≤ fixed ∧ fixed ≤ 8192)) ∧
    (
     let s : State := lab
     let h : Issue := hd
     let k : Nat := 3
     let n : Nat := 3
     let e : BitVec 256 := pack 256 [(191, 160, 102400000), (159, 128, 102400000), (127, 96, 4176), (95, 64, 2 ^ 27)]
     s.admits h 0x0410 [k, e.toNat] = true ∧ Ranges.item (s.part h.part).shps k = some n ∧ shpBad e = false) ∧
    (
     let s : State := lab
     let h : Issue := hd
     let first : Nat := 0
     let count : Nat := 4
     s.admits h 0x0411 [first, count] = true ∧ 1 ≤ count ∧ count ≤ 4096 ∧ (∀ i ∈ List.range' first count, (Ranges.item (s.part h.part).shps i).isSome = true)) := by decide +kernel

theorem witness_CongestionCommandsReply_2 :
    (
     let s : State := lab
     let h : Issue := hd
     let k : Nat := 3
     let n : Nat := 3
     let copy : Nat := 1
     s.admits h 0x0412 [k, copy] = true ∧ Ranges.item (s.part h.part).shps k = some n ∧ copy ≤ 1) ∧
    (
     let s : State := lab
     let h : Issue := hd
     let p : Nat := 63
     let w : Nat := 1
     s.admits h 0x0420 [p, w] = true ∧ 1 ≤ w ∧ p < 64) ∧
    (
     let s : State := lab
     let h : Issue := hd
     s.admits h 0x0421 [] = true) ∧
    (
     let s : State := lab
     let h : Issue := hd
     let q : Nat := 191
     let c : Nat := 1
     s.admits h 0x0430 [q, c] = true ∧ q < 192 ∧ c ≤ 1) := by decide +kernel

theorem witness_RoutingCommandsReply_1 :
    (
     let s : State := lab
     let h : Issue := hd
     let bank : Nat := 1
     let kind : Nat := 2
     let first : Nat := 14
     let count : Nat := 2
     let es : Nats := [0, 0]
     s.admits h 0x0510 [bank, kind, first, count] = true ∧ bank ≤ 1 ∧ kind ≤ 2 ∧ 1 ≤ count ∧ count ≤ 32 ∧ first + count ≤ rtSize kind ∧ es.length = count ∧ decide (bank = 1) ≠ s.route.inj ∧ 200 ≤ s.sinceFlip) ∧
    (
     let s : State := { lab with route := { b := { st := 1 } } }
     let h : Issue := hd
     let bank : Nat := 1
     s.admits h 0x0511 [bank] = true ∧ bank ≤ 1 ∧ s.devidValid = true ∧ (s.route.bank (bank == 1)).st = 1 ∧ s.bankFault (s.route.bank (bank == 1)) = none) ∧
    (
     let s : State := lab
     let h : Issue := hd
     let bank : Nat := 1
     s.admits h 0x0512 [bank] = true ∧ bank ≤ 1 ∧ decide (bank = 1) ≠ s.route.inj ∧ 200 ≤ s.sinceFlip) ∧
    (
     let s : State := lab
     let h : Issue := hd
     let bank : Nat := 1
     s.admits h 0x0513 [bank] = true ∧ bank ≤ 1 ∧ (s.route.bank (bank == 1)).st ≠ 1 ∧ decide (bank = 1) ≠ s.route.inj) ∧
    (
     let s : State := lab
     let h : Issue := hd
     let bank : Nat := 1
     let kind : Nat := 2
     let first : Nat := 15
     let count : Nat := 1
     s.admits h 0x0514 [bank, kind, first, count] = true ∧ bank ≤ 1 ∧ kind ≤ 2 ∧ 1 ≤ count ∧ count ≤ 32 ∧ first + count ≤ rtSize kind) := by decide +kernel

theorem witness_RoutingCommandsReply_2 :
    (
     let s : State := lab
     let h : Issue := hd
     let group : Nat := 4095
     let e : BitVec 64 := 2 ^ 16
     s.admits h 0x0520 [group, e.toNat] = true ∧ s.spine = false ∧ group < 4096 ∧ fld e 15 0 = 0) ∧
    (
     let s : State := lab
     let h : Issue := hd
     let group : Nat := 4095
     s.admits h 0x0521 [group] = true ∧ s.spine = false ∧ group < 4096) := by decide +kernel

theorem witness_LinkLaserAndClockCommandsReply_1 :
    (
     let s : State := lab
     let h : Issue := hd
     let n : Nat := 30
     s.admits h 0x0500 [n, 1] = true ∧ n < 32 ∧ (s.port n).linkCmd = none ∧ (s.port n).state ≠ 6) ∧
    (
     let s : State := lab
     let h : Issue := hd
     let n : Nat := 31
     let a : Nat := 3
     s.admits h 0x0500 [n, a] = true ∧ n < 32 ∧ (a = 2 ∨ a = 3) ∧ (s.port n).linkCmd = none ∧ ((s.port n).state = 0 ∨ (s.port n).state = 6)) ∧
    (
     let s : State := lab
     let h : Issue := hd
     let n : Nat := 30
     let a : Nat := 2
     s.admits h 0x0500 [n, a] = true ∧ n < 32 ∧ (a = 2 ∨ a = 3) ∧ (s.port n).linkCmd = none ∧ (s.port n).state ≠ 0 ∧ (s.port n).state ≠ 6) ∧
    (
     let s : State := { lab with els := [(3, { st := 1 })] }
     let h : Issue := hd
     let k : Nat := 3
     s.admits h 0x0530 [k] = true ∧ k < 4 ∧ (s.elsm k).st ≠ 0 ∧ (s.elsm k).st ≠ 3 ∧ (s.elsm k).cmd = none ∧ (s.part h.part).running.length < 8 ∧
     let u := (s.elsLoopsEnd k).each (elsPorts k) (fun n t => t.updPort n (fun p => { p with els := true }))
     u.elsDrained k = true) ∧
    (
     let s : State := { lab with els := [(3, { st := 1 })], tp := { outq := [(97, [{}])] } }
     let h : Issue := hd
     let k : Nat := 3
     s.admits h 0x0530 [k] = true ∧ k < 4 ∧ (s.elsm k).st ≠ 0 ∧ (s.elsm k).st ≠ 3 ∧ (s.elsm k).cmd = none ∧ (s.part h.part).running.length < 8 ∧
     let u := (s.elsLoopsEnd k).each (elsPorts k) (fun n t => t.updPort n (fun p => { p with els := true }))
     u.elsDrained k = false) := by decide +kernel

theorem witness_LinkLaserAndClockCommandsReply_2 :
    (
     let s : State := { lab with els := [(3, { st := 5 })] }
     let h : Issue := hd
     let k : Nat := 3
     s.admits h 0x0531 [k] = true ∧ k < 4 ∧ ((s.elsm k).st = 3 ∨ (s.elsm k).st = 5) ∧ (s.elsm k).cmd = none ∧ (s.part h.part).running.length < 8) ∧
    (
     let s : State := lab
     let h : Issue := hd
     let kind : Nat := 1
     let k : Nat := 3
     s.admits h 0x0532 [kind, k] = true ∧ (kind = 0 ∧ k < 32 ∨ kind = 1 ∧ k < 4)) ∧
    (
     let s : State := lab
     let h : Issue := hd
     let die : Nat := 15
     let lo : Nat := 1200
     let hi : Nat := 4000
     s.admits h 0x0600 [die, lo, hi] = true ∧ (die < 4 ∨ die = 15) ∧ lo % 100 = 0 ∧ hi % 100 = 0 ∧ 1200 ≤ lo ∧ lo ≤ hi ∧ hi ≤ 4000) := by decide +kernel

theorem witness_ProgramCommandsReply_1 :
    (
     let s : State := { lab with ctxs := [(0, labHost)] }
     let u : State := { lab with ctxs := [(0, labHost)] }
     let h : Issue := hd
     let ctx : Nat := 0
     let va : Nat := 0
     let len : Nat := 256
     let i : Nat := 0
     let a : Nat := 0
     let o : Outside := {}
     let b : Bytes := List.replicate 256 0
     s.admits h 0x0610 [ctx, va, len] = true ∧ s.ctxOwner ctx = some h.part ∧ 256 ≤ len ∧ len ≤ 256 + 262144 ∧ s.ctxRead h.part ctx va len [] o.bytes o.rd = (u, .inl b) ∧ u.clearing h.part = false ∧ (List.range 256).find? (fun i => (AMap.get? (u.part h.part).progs i).isNone) = some i ∧ (u.part h.part).textRoom (imgNat b 8 4) = some a) ∧
    (
     let s : State := { lab with parts := [(0, { labPart 0 with progs := [(5, { kind := 2 })] })] }
     let h : Issue := hd
     let target : Nat := 2
     let k : Nat := qkey 0 2
     let blk : BitVec 256 := pack 256 [(15, 0, 0x105), (64, 64, 1), (191, 160, 0x0100_0000), (159, 128, 0x0100_1000)]
     s.admits h 0x0611 [target, blk.toNat] = true ∧ s.bindKey h.part (fld blk 17 16) target = some k ∧ s.bindReason h.part k blk = 0 ∧ AMap.get? s.binds k = none ∧ (∀ c ∈ s.bindClusters { blk, part := h.part }, ∀ r ∈ s.runs, r.2.kind = 1 → c ∉ r.2.clusters)) := by decide +kernel

theorem witness_ProgramCommandsReply_2 :
    (
     let s : State := { lab with binds := [(qkey 0 2, {})] }
     let h : Issue := hd
     let tk : Nat := 0
     let target : Nat := 2
     let force : Nat := 0
     let k : Nat := qkey 0 2
     let b : Bind := {}
     s.admits h 0x0612 [tk, target, force] = true ∧ force ≤ 1 ∧ s.bindKey h.part tk target = some k ∧ AMap.get? s.binds k = some b ∧ b.unbinding = none ∧ (tk = 2 → force = 0 → (s.coll (k % 2 ^ 32)).st < 2) ∧
     let u := s.unbindBegin k h
     u.bindInUse k = false) ∧
    (
     let s : State := { lab with binds := [(qkey 0 2, {})], runs := [(1, { bind := some (qkey 0 2) })] }
     let h : Issue := hd
     let tk : Nat := 0
     let target : Nat := 2
     let force : Nat := 0
     let k : Nat := qkey 0 2
     let b : Bind := {}
     s.admits h 0x0612 [tk, target, force] = true ∧ force ≤ 1 ∧ s.bindKey h.part tk target = some k ∧ AMap.get? s.binds k = some b ∧ b.unbinding = none ∧ (tk = 2 → force = 0 → (s.coll (k % 2 ^ 32)).st < 2) ∧
     let u := s.unbindBegin k h
     u.bindInUse k = true ∧ (s.part h.part).running.length < 8) ∧
    (
     let s : State := { lab with parts := [(0, { labPart 0 with progs := [(5, {})] })] }
     let h : Issue := hd
     let prog : Nat := 0x105
     let g : Prog := {}
     s.admits h 0x0613 [prog, 0] = true ∧ s.prog? h.part prog = some g ∧ g.unloading = none ∧ s.launches = [] ∧ h.part < 64 ∧ prog < 2 ^ 16 ∧ (∀ b ∈ s.binds, b.2.part = h.part → fld b.2.blk 15 0 ≠ prog) ∧ (∀ r ∈ s.runs, r.2.part = h.part → r.2.prog.toNat ≠ prog)) := by decide +kernel

theorem witness_ProgramCommandsReply_3 :
    (
     let s : State := { lab with parts := [(0, { labPart 0 with progs := [(5, {})] })], runs := [(1, { prog := 0x105 })] }
     let h : Issue := hd
     let prog : Nat := 0x105
     let g : Prog := {}
     s.admits h 0x0613 [prog, 0] = true ∧ s.prog? h.part prog = some g ∧ g.unloading = none ∧ s.launches = [] ∧ h.part < 64 ∧ prog < 2 ^ 16 ∧ ((∃ b ∈ s.binds, b.2.part = h.part ∧ fld b.2.blk 15 0 = prog) ∨ (∃ r ∈ s.runs, r.2.part = h.part ∧ r.2.prog.toNat = prog))) ∧
    (
     let s : State := { lab with parts := [(0, { labPart 0 with progs := [(5, {})] })] }
     let h : Issue := hd
     let prog : Nat := 0x105
     let g : Prog := {}
     s.admits h 0x0614 [prog] = true ∧ s.prog? h.part prog = some g) ∧
    (
     let s : State := lab
     let h : Issue := hd
     let p : Nat := 1
     let r : Nat := 1
     s.admits h 0x0615 [p, r] = true ∧ s.created p = true ∧ r ≤ 1) := by decide +kernel

theorem witness_CollectiveAndSyncCommandsReply_1 :
    (
     let s : State := lab
     let h : Issue := hd
     let slot : Nat := 3
     let k : Nat := 3
     let blk : BitVec 512 := 2 ^ 480
     s.admits h 0x0700 [slot, blk.toNat] = true ∧ s.spine = false ∧ Ranges.item (s.part h.part).colls slot = some k ∧ cbReserved blk = false) ∧
    (
     let s : State := { lab with ctxs := [(0, labHost)], binds := [(collKey 0, {})], colls := [(0, { bast := pack 512 [(511, 480, 1), (479, 464, 1), (239, 227, 1), (127, 124, 6), (110, 102, 1), (101, 97, 10)] })] }
     let u : State := { lab with ctxs := [(0, labHost)], binds := [(collKey 0, {})], colls := [(0, { bast := pack 512 [(511, 480, 1), (479, 464, 1), (239, 227, 1), (127, 124, 6), (110, 102, 1), (101, 97, 10)] })] }
     let h : Issue := hd
     let slot : Nat := 0
     let k : Nat := 0
     let o : Outside := { bytes := [0, 0, 0, 1, 0, 0, 0, 2] }
     let bs : Bytes := [0, 0, 0, 1, 0, 0, 0, 2]
     s.admits h 0x0701 [slot] = true ∧ u.spine = false ∧ Ranges.item (s.part h.part).colls slot = some k ∧
     let b := (s.coll k).bast
     let table := (readElems 4 (cbN b) bs).map (BitVec.ofNat 32)
     s.collRead k (cbMembers b) (4 * cbN b) [] o.bytes o.rd = (u, .inl bs) ∧ u.collReason k b (some table) = 0 ∧ ((((Ranges.items (s.part h.part).colls).filter (fun j => j != k)).map (fun j => (u.coll j).stage)).sum + cbStage b ≤ Ranges.count (s.part h.part).colls * 2 ^ 20) ∧ (u.coll k).st ≤ 1) := by decide +kernel

theorem witness_CollectiveAndSyncCommandsReply_2 :
    (
     let s : State := { lab with ctxs := [(0, labHost)], binds := [(collKey 0, {})], colls := [(0, { st := 2, bast := pack 512 [(511, 480, 1), (479, 464, 1), (239, 227, 1), (127, 124, 6), (110, 102, 1), (101, 97, 10)] })] }
     let u : State := { lab with ctxs := [(0, labHost)], binds := [(collKey 0, {})], colls := [(0, { st := 2, bast := pack 512 [(511, 480, 1), (479, 464, 1), (239, 227, 1), (127, 124, 6), (110, 102, 1), (101, 97, 10)] })] }
     let h : Issue := hd
     let slot : Nat := 0
     let k : Nat := 0
     let o : Outside := { bytes := [0, 0, 0, 1, 0, 0, 0, 2] }
     let bs : Bytes := [0, 0, 0, 1, 0, 0, 0, 2]
     s.admits h 0x0701 [slot] = true ∧ u.spine = false ∧ Ranges.item (s.part h.part).colls slot = some k ∧
     let b := (s.coll k).bast
     let table := (readElems 4 (cbN b) bs).map (BitVec.ofNat 32)
     s.collRead k (cbMembers b) (4 * cbN b) [] o.bytes o.rd = (u, .inl bs) ∧ u.collReason k b (some table) = 0 ∧ ((((Ranges.items (s.part h.part).colls).filter (fun j => j != k)).map (fun j => (u.coll j).stage)).sum + cbStage b ≤ Ranges.count (s.part h.part).colls * 2 ^ 20) ∧ 2 ≤ (u.coll k).st) ∧
    (
     let s : State := lab
     let h : Issue := hd
     let slot : Nat := 3
     let k : Nat := 3
     s.admits h 0x0702 [slot] = true ∧ Ranges.item (s.part h.part).colls slot = some k) := by decide +kernel

theorem witness_CollectiveAndSyncCommandsReply_3 :
    (
     let s : State := lab
     let h : Issue := hd
     let slot : Nat := 3
     let k : Nat := 3
     let copy : Nat := 1
     s.admits h 0x0703 [slot, copy] = true ∧ copy ≤ 1 ∧ Ranges.item (s.part h.part).colls slot = some k) ∧
    (
     let s : State := lab
     let h : Issue := hd
     let i : Nat := 3
     let k : Nat := 3
     let evq : Nat := 6
     let thresh : Nat := 7
     Ranges.item (s.part h.part).syncs i = some k ∧ s.evqOk h.part evq = true ∧ s.admits h 0x0800 [i, evq, 0, thresh] = true) ∧
    (
     let s : State := lab
     let h : Issue := hd
     let i : Nat := 3
     let k : Nat := 3
     let evq : Nat := 6
     let thresh : Nat := 7
     Ranges.item (s.part h.part).syncs i = some k ∧ s.evqOk h.part evq = true ∧ s.admits h 0x0800 [i, evq, 1, thresh] = true) ∧
    (lab.admits hd 0x0801 [3, 1, 5] = true ∧ Ranges.item (lab.part 0).syncs 3 = some 3) ∧
    (
     let s : State := lab
     let h : Issue := hd
     let first : Nat := 0
     let count : Nat := 4
     s.admits h 0x0802 [first, count] = true ∧ 1 ≤ count ∧ count ≤ 64 ∧ first + count ≤ Ranges.count (s.part h.part).syncs) := by decide +kernel

theorem witness_TapeAndBookingCommandsReply_1 :
    (
     let s : State := { lab with straps := { tapeSrc := 1 } }
     let h : Issue := hd
     let sec : Nat := 9
     s.admits h 0x0810 [sec] = true ∧ s.straps.tapeSrc = 1) ∧
    (
     let s : State := lab
     let h : Issue := hd
     let ev : Nat := 63
     let atNs : Nat := 0
     let period : Nat := 1000000
     let op : Nat := 1
     let index : Nat := 3
     let value : Nat := 0
     s.admits h 0x0811 [ev, atNs, period, op, index, value] = true ∧ ev < 64 ∧ period ≤ 1000000 ∧ op ≤ 1 ∧ (Ranges.item (s.part h.part).syncs index).isSome = true) ∧
    (lab.admits hd 0x0812 [63] = true) ∧
    (
     let s : State := lab
     let h : Issue := hd
     let port : Nat := 31
     let cycle : Nat := 4096
     let bits : BitVec 4096 := 1
     s.admits h 0x0820 [port, cycle, bits.toNat] = true ∧ port < 32 ∧ 1 ≤ cycle ∧ cycle ≤ 4096) ∧
    (
     let s : State := lab
     let h : Issue := hd
     let at_ : Nat := 9
     let mask : Nat := 0xFFFFFFFF
     s.admits h 0x0821 [at_, mask] = true ∧ mask ≠ 0 ∧ (∀ n ∈ portsOf mask, (s.port n).bookAt = none) ∧ (s.part h.part).running.length < 8) := by decide +kernel

theorem witness_TapeAndBookingCommandsReply_2 :
    (
     let s : State := lab
     let h : Issue := hd
     let port : Nat := 31
     let copy : Nat := 1
     s.admits h 0x0822 [port, copy] = true ∧ port < 32 ∧ copy ≤ 1) := by decide +kernel

theorem witness_PartitionCommandsReply_1 :
    (
     let s : State := { lab with host := { up := true, vfEnable := true } }
     let h : Issue := hd
     let p : Nat := 63
     let q : Nat := 2
     let c : Nat := 0
     let pc : Nat := 0
     let w : Nat := 0
     let sy : Nat := 0
     let sh : Nat := 0
     let co : Nat := 0
     let k : Nat := 0
     let cx : Nat := 0
     let mask : Nat := 0
     let map : Nat := 0
     s.admits h 0x0900 [p, q, c, pc, w, sy, sh, co, k, cx, mask, map] = true ∧ p < 64 ∧ s.funcOn p = true ∧ s.createWaits mask map = false ∧ s.countBad p [q, c, pc, w, sy, sh, co, k, cx, mask, map] = none ∧ (∀ c ∈ clustersOf mask, (s.clu c).st = 0 ∧ (s.clu c).owner = none) ∧ s.unitBad (unitsOf map) = none ∧ 1 ≤ p ∧ (s.part p).held = false) ∧
    (
     let s : State := lab
     let h : Issue := hd
     let p : Nat := 0
     let q : Nat := 256
     let c : Nat := 4096
     let pc : Nat := 64
     let w : Nat := 1024
     let sy : Nat := 256
     let sh : Nat := 64
     let co : Nat := 0
     let k : Nat := 256
     let cx : Nat := 16
     let mask : Nat := 0
     let map : Nat := 0
     s.admits h 0x0900 [p, q, c, pc, w, sy, sh, co, k, cx, mask, map] = true ∧ p < 64 ∧ s.funcOn p = true ∧ s.createWaits mask map = false ∧ s.countBad p [q, c, pc, w, sy, sh, co, k, cx, mask, map] = none ∧ (∀ c ∈ clustersOf mask, (s.clu c).st = 0 ∧ (s.clu c).owner = none) ∧ s.unitBad (unitsOf map) = none ∧ p = 0 ∧ (s.part 0).replaced = false) := by decide +kernel

theorem witness_PartitionCommandsReply_2 :
    (
     let s : State := lab
     let h : Issue := hd
     let p : Nat := 1
     let force : Nat := 1
     s.admits h 0x0901 [p, force] = true ∧ 1 ≤ p ∧ p < 64 ∧ force ≤ 1 ∧ s.rst.stage = 6 ∧ (s.part p).st ≠ 5 ∧ (s.part p).held = true ∧ (s.part p).resetStep = 0 ∧ (force = 0 → s.unquiesced p = none)) ∧
    (
     let s : State := lab
     let h : Issue := hd
     let p : Nat := 63
     s.admits h 0x0902 [p] = true ∧ 1 ≤ p ∧ p < 64 ∧ (s.part p).st ≠ 5 ∧ (s.part p).destroy = none ∧ (s.part p).held = false) ∧
    (
     let s : State := lab
     let h : Issue := hd
     let p : Nat := 1
     s.admits h 0x0902 [p] = true ∧ 1 ≤ p ∧ p < 64 ∧ (s.part p).st ≠ 5 ∧ (s.part p).destroy = none ∧ (s.part p).held = true ∧ (s.part p).st ≠ 4 ∧ (s.part h.part).running.length < 8) ∧
    (
     let s : State := lab
     let h : Issue := hd
     let p : Nat := 63
     s.admits h 0x0903 [p] = true ∧ p < 64) := by decide +kernel

theorem witness_KeyAndFirmwareCommandsReply :
    (
     let s : State := lab
     let h : Issue := hd
     let p : Nat := 1
     let slot : Nat := 3
     let k : Nat := 11
     let blob : BitVec 384 := 0
     s.admits h 0x0A00 [p, slot, blob.toNat] = true ∧ (h.part = 0 ∨ h.part = p) ∧ Ranges.item (s.part p).keys slot = some k ∧ 2 ≤ s.thimble.iterUp ∧ s.slotNamed k = false) ∧
    (
     let s : State := lab
     let h : Issue := hd
     let p : Nat := 1
     let slot : Nat := 3
     let k : Nat := 11
     s.admits h 0x0A01 [p, slot] = true ∧ (h.part = 0 ∨ h.part = p) ∧ Ranges.item (s.part p).keys slot = some k ∧ s.slotNamed k = false) ∧
    (
     let s : State := { lab with ctxs := [(0, labHost)] }
     let u : State := { lab with ctxs := [(0, labHost)] }
     let h : Issue := hd
     let ctx : Nat := 0
     let va : Nat := 0
     let len : Nat := 1
     let slot : Nat := 255
     let act : Nat := 1
     let o : Outside := {}
     let bs : Bytes := [0]
     s.admits h 0x0A10 [ctx, va, len, slot, act] = true ∧ 1 ≤ len ∧ len ≤ 2 ^ 25 ∧ (slot = 0 ∨ slot = 1 ∨ slot = 255) ∧ act ≤ 1 ∧ (s.ctxOwner ctx).isSome = true ∧ s.thimble.update = none ∧ s.ctxRead 0 ctx va len [] o.bytes o.rd = (u, .inl bs) ∧ (s.part h.part).running.length < 8) ∧
    (
     let s : State := lab
     let h : Issue := { indirect := true }
     let nonce : BitVec 256 := 0
     s.admits h 0x0A20 [nonce.toNat] = true ∧ h.indirect = true ∧ s.thimble.idLost = false ∧ s.thimble.reports.length < 5 ∧ (s.part h.part).running.length < 8) := by decide +kernel

theorem witness_ManagementAndResetCommandsReply_1 :
    (
     let s : State := lab
     let h : Issue := hd
     let mode : Nat := 1
     let ip : Nat := 0
     let mask : Nat := 0
     let gw : Nat := 0
     let port : Nat := 1
     let slot : Nat := 0xFFFF
     s.admits h 0x0B00 [0, mode, ip, mask, gw, port, slot] = true ∧ mode ≤ 1 ∧ port ≠ 0 ∧ (slot = 0xFFFF ∨ s.oobSlotOk slot = true)) ∧
    (
     let s : State := lab
     let h : Issue := hd
     let k : Nat := 7
     let en : Nat := 1
     let len : Nat := 128
     let mask : Nat := 0
     let pat : Nat := 0
     s.admits h 0x0B00 [2, k, en, len, mask, pat] = true ∧ k < 8 ∧ en ≤ 1 ∧ 1 ≤ len ∧ len ≤ 128) ∧
    (
     let s : State := lab
     let h : Issue := hd
     s.admits h 0x0B10 [] = true ∧ s.alive = true ∧ s.rst.held = none ∧ s.rst.stage = 6 ∧ s.rst.nvBusy = none ∧ s.warmRefused = false) ∧
    (
     let s : State := lab
     let h : Issue := hd
     s.admits h 0x0B11 [] = true ∧ s.pins.powered = true ∧ s.rst.nvBusy = none) ∧
    (
     let s : State := { lab with power := { state := 2 } }
     let h : Issue := hd
     s.admits h 0x0B12 [0] = true ∧ s.power.state = 2) := by decide +kernel

theorem witness_ManagementAndResetCommandsReply_2 :
    (let s : State := { lab with parts := [(0, labPart 0)] }
     s.admits hd 0x0B12 [3] = true ∧ s.power.state.toNat < 2 ∧ s.quiet = true) ∧
    (
     let s : State := lab
     let h : Issue := hd
     let w : Nat := 1100
     s.admits h 0x0B13 [w] = true ∧ 300 ≤ w ∧ w ≤ 1100) ∧
    (
     let s : State := lab
     let h : Issue := { indirect := true }
     let first : Nat := 255
     let count : Nat := 1
     let c : Nat := 1
     s.admits h 0x0B20 [first, count, c] = true ∧ h.indirect = true ∧ c ≤ 1 ∧ 1 ≤ count ∧ first + count ≤ 256) ∧
    (let s : State := { lab with ports := [(31, { state := 6 })], els := [(3, { st := 2 })] }
     s.admits hd 0x0B30 [1, 31, 4, 60000] = true ∧ lbIndex 1 31 = some 31 ∧ (AMap.get s.lb 31 {}).st ≠ 1 ∧ s.lbIdle 1 31 4 = true) ∧
    (
     let s : State := lab
     let h : Issue := hd
     let target : Nat := 1
     let index : Nat := 0
     s.admits h 0x0B31 [target, index] = true ∧ (target = 0 ∧ index < 64 ∨ target = 1 ∧ index < 1 ∨ target = 2 ∧ index < 96 ∨ target = 3 ∧ index < 4) ∧ s.bistIdle target index = true ∧ (s.part h.part).running.length < 8) := by decide +kernel

theorem witness_DrainAndTransferEventsAct_1 :
    (
     let s : State := { lab with ctxs := [(0, { labCtx with drain := some { issue := hd, segs := [0], isStitch := true } })] }
     let ctx : Nat := 0
     let d : Drain := { issue := hd, segs := [0], isStitch := true }
     (s.ctx ctx).drain = some d ∧ s.undrained ctx d.segs = []) ∧
    (
     let s : State := { lab with ctxs := [(0, { labCtx with drain := some { issue := hd, segs := [0], isStitch := false }, epoch := [(0, 1)] })], xfers := [(1, { unacc := 1, src := .va 0 0 0 0 })] }
     let ctx : Nat := 0
     let d : Drain := { issue := hd, segs := [0], isStitch := false }
     (s.ctx ctx).drain = some d ∧ s.undrained ctx d.segs ≠ []) ∧
    (
     let s : State := { lab with segMiss := [(5, 6, 7)] }
     let ctx : Nat := 5
     let seg : Nat := 6
     let x : Nat := 7
     (ctx, seg, x) ∈ s.segMiss.take 64) := by decide +kernel

theorem witness_DrainAndTransferEventsAct_2 :
    (
     let s : State := { lab with ctxs := [(0, { labCtx with act := labCtx.bast })], segCache := [(0, 0)], xfers := [(1, { len := 64, src := .va 0 0 0x0100_0000_0000_0000 0, dst := .va 0 4096 0x0100_0000_0000_1000 0 })] }
     let id : Nat := 1
     let x : Xfer := { len := 64, src := .va 0 0 0x0100_0000_0000_0000 0, dst := .va 0 4096 0x0100_0000_0000_1000 0 }
     let y : Xfer := { len := 64, src := .va 0 0 0x0100_0000_0000_0000 0, dst := .va 0 4096 0x0100_0000_0000_1000 0 }
     AMap.get? s.xfers id = some x ∧ x.stopped = false ∧ x.ended = false ∧ x.missing = false ∧ s.xferTurn id x = true ∧
     let u := (if x.xlate then s.xlateNow id x else s).nextRow id
     AMap.get? u.xfers id = some y ∧ y.stopped = false ∧ y.done < y.len ∧ u.xferCut y = false ∧ (∀ v ∈ y.vas, (y.ctx, v.1) ∈ u.segCache ∧ u.segEpoch y.ctx v.1 = v.2.2) ∧ u.hostHeld y = false ∧ (u.injHeld = false ∨ 128 ≤ y.eng)) ∧
    (
     let s : State := { lab with conns := [(3, { labConn with resident := false, refill := true })] }
     let conn : Nat := 3
     (s.conn conn).st ≠ 0 ∧ (s.conn conn).refill = true) ∧
    (
     let s : State := { lab with conns := [(3, { labConn with seg := true })] }
     let conn : Nat := 3
     (s.conn conn).seg = true ∧ (s.conn conn).st ≠ 0 ∧ (s.conn conn).tx = [] ∧ (s.conn conn).rx = []) := by decide +kernel

theorem witness_MemoryEventsAct_1 :
    (
     let s : State := lab
     let tier : Nat := 1
     let chan : Nat := 5
     tier < 2 ∧ chan < 48 ∧ s.power.scrubPaused = false ∧ s.power.migHalved = false ∧ (s.tripleOf (tier == 1) chan).isSome = true) ∧
    (
     let s : State := { lab with mem := { lab.mem with rows := [(2 ^ 19, { need := true })] } }
     let u : State := ({ lab with mem := { lab.mem with rows := [(2 ^ 19, { need := true })] } } : State)
     let row : Nat := 2 ^ 19
     (AMap.get s.mem.rows row {}).need = true ∧ s.spareLeft row = true ∧ s.power.scrubPaused = false ∧ s.clearRow row = (u, true)) ∧
    (
     let s : State := { lab with mem := { lab.mem with rows := [(2 ^ 19, { need := true })], spares := [(bankOfRow (2 ^ 19), 4)] } }
     let u : State := ({ lab with mem := { lab.mem with rows := [(2 ^ 19, { need := true })], spares := [(bankOfRow (2 ^ 19), 4)] } } : State).clearRow (2 ^ 19) |>.1
     let row : Nat := 2 ^ 19
     (AMap.get s.mem.rows row {}).need = true ∧ s.spareLeft row = false ∧ s.power.scrubPaused = false ∧ s.clearRow row = (u, true)) ∧
    (let s : State := { lab with mem := { lab.mem with waiting := [(1, 2)] } }
     s.mem.waiting = (1, 2) :: [] ∧ (s.freeFrame true).isSome = true) ∧
    (
     let s : State := lab
     let tier : Nat := 1
     let chan : Nat := 47
     tier < 2 ∧ chan < 48 ∧ (AMap.get s.mem.chans (chanKey (tier == 1) chan) {}).st ≠ 2) := by decide +kernel

theorem witness_MemoryEventsAct_2 :
    (
     let s : State := { lab with mem := { lab.mem with evacs := [{ far := true, triple := 0, chan := 3, left := [], total := 1, issue := none }] } }
     let tier : Nat := 1
     let e : Evac := { far := true, triple := 0, chan := 3, left := [], total := 1, issue := none }
     s.mem.evacs.find? (fun e => e.far == (tier == 1)) = some e ∧ s.power.scrubPaused = false) ∧
    (
     let s : State := { lab with mem := { lab.mem with migs := [(0, { dst := { far := true, triple := 1, frame := 5 }, swap := some 1 })] } }
     let g : Nat := 0
     let m : Mig := { dst := { far := true, triple := 1, frame := 5 }, swap := some 1 }
     let src : Frame3 := { far := false, triple := 0, frame := 0 }
     AMap.get? s.mem.migs g = some m ∧ AMap.get? s.mem.gmap g = some src ∧ s.hasBad g = false ∧ (∀ v, m.swap = some v → v ≠ g ∧ s.hasBad v = false)) ∧
    (
     let s : State := { lab with mem := {}, rst := { stage := 3 } }
     3 ≤ s.rst.stage.toNat ∧ s.rst.stage ≠ 7 ∧ s.mem.init = false) := by decide +kernel

theorem witness_DescriptorsAreTaken_1 :
    (
     let e := (1, ())
     let s : State := { lab with conns := [(0, labConn)] }
     let p : Nat := 0
     let q : Nat := 2
     let d : Desc := pack 512 [(15, 12, 1), (7, 0, 1)]
     s.queueKind p q 1 = true ∧ s.sendMalformed p q (withOp d e.1) = false ∧
     let w := withOp d e.1
     let cid := fld w 87 64
     (s.conn cid).st = 2 ∧ (s.conn cid).resident = true ∧ (s.conn cid).waitD = []) ∧
    (
     let e := (8, ())
     let s : State := { lab with conns := [(0, { labConn with st := 3 })] }
     let p : Nat := 0
     let q : Nat := 2
     let d : Desc := pack 512 [(15, 12, 1), (7, 0, 1)]
     s.queueKind p q 1 = true ∧ s.sendMalformed p q (withOp d e.1) = false ∧
     let w := withOp d e.1
     let cid := fld w 87 64
     (s.conn cid).st ≠ 2) ∧
    (
     let e := (3, ())
     let s : State := { lab with conns := [(0, { labConn with resident := false })] }
     let p : Nat := 0
     let q : Nat := 2
     let d : Desc := pack 512 [(15, 12, 1), (7, 0, 1)]
     s.queueKind p q 1 = true ∧ s.sendMalformed p q (withOp d e.1) = false ∧
     let w := withOp d e.1
     let cid := fld w 87 64
     (s.conn cid).st = 2 ∧ (s.conn cid).resident = false) ∧
    (
     let s : State := lab
     let p : Nat := 0
     let q : Nat := 7
     let d : Desc := pack 512 [(127, 96, 2 ^ 30), (15, 12, 2), (7, 0, 1)]
     s.queueKind p q 2 = true ∧ fld d 15 12 = 2 ∧ fld d 7 0 = 1 ∧ fld d 511 240 = 0 ∧ fld d 95 16 = 0 ∧ fld d 11 8 = 0 ∧ fld d 127 96 ≤ 2 ^ 30) := by decide +kernel

theorem witness_DescriptorsAreTaken_2 :
    (
     let s : State := { lab with xfers := [(0, { who := .copyQ 0 5 })], nextId := 1 }
     let p : Nat := 0
     let q : Nat := 5
     let d : Desc := pack 512 [(269, 256, 0x3FFF), (25, 25, 1), (15, 12, 5), (7, 0, 1)]
     s.queueKind p q 5 = true ∧
     let w := withOp d 1
     fld w 15 12 = 5 ∧ fld w 11 8 = 0 ∧ fld w 7 0 = 1 ∧ fld w 511 448 = 0 ∧ fld w 351 320 = 0 ∧ fld w 279 270 = 0 ∧ fld w 255 192 = 0 ∧ fld w 127 27 = 0 ∧ fld w 24 24 = 0 ∧ fld w 269 256 = 0x3FFF ∧
     let u := s.queue (qkey p q)
     let x : Xfer := {
      who := .copyQ p q, eng := s.copyEngine ((s.part p).clusters.getD u.cluster 0), part := p, ctx := u.ctx
      src := .va 0 (fld w 447 400) 0 0, dst := .va 0 (fld w 399 352) 0 0, len := fld w 319 280
      wrId := BitVec.ofNat 64 (fld w 191 128), noCqe := bitAt w 26, fence := bitAt w 25, work := s.nextId, xlate := true }
     let v : State := { s.taken (qkey p q) with nextId := s.nextId + 2, xfers := AMap.set s.xfers (s.nextId + 1) x }
     v.xferTurn (s.nextId + 1) x = false) := by decide +kernel

theorem witness_DescriptorsAreTaken_3 :
    (
     let s : State := lab
     let p : Nat := 0
     let q : Nat := 5
     let d : Desc := pack 512 [(319, 280, 4096), (269, 256, 0x3FFF), (15, 12, 5), (7, 0, 1)]
     s.queueKind p q 5 = true ∧
     let w := withOp d 1
     fld w 15 12 = 5 ∧ fld w 11 8 = 0 ∧ fld w 7 0 = 1 ∧ fld w 511 448 = 0 ∧ fld w 351 320 = 0 ∧ fld w 279 270 = 0 ∧ fld w 255 192 = 0 ∧ fld w 127 27 = 0 ∧ fld w 24 24 = 0 ∧ fld w 269 256 = 0x3FFF ∧
     let u := s.queue (qkey p q)
     let x : Xfer := {
      who := .copyQ p q, eng := s.copyEngine ((s.part p).clusters.getD u.cluster 0), part := p, ctx := u.ctx
      src := .va 0 (fld w 447 400) 0 0, dst := .va 0 (fld w 399 352) 0 0, len := fld w 319 280
      wrId := BitVec.ofNat 64 (fld w 191 128), noCqe := bitAt w 26, fence := bitAt w 25, work := s.nextId, xlate := true }
     let v : State := { s.taken (qkey p q) with nextId := s.nextId + 2, xfers := AMap.set s.xfers (s.nextId + 1) x }
     v.xferTurn (s.nextId + 1) x = true) ∧
    (
     let s : State := lab
     let p : Nat := 0
     let q : Nat := 4
     let d : Desc := pack 512 [(15, 12, 4), (7, 0, 1)]
     s.queueKind p q 4 = true ∧
     let w := withOp d 1
     fld w 15 12 = 4 ∧ fld w 11 8 = 0 ∧ fld w 7 0 = 1 ∧ fld w 103 95 = 0 ∧ fld w 71 24 = 0) := by decide +kernel

theorem witness_DescriptorsAreTaken_4 :
    (
     let s : State := lab
     let p : Nat := 0
     let q : Nat := 4
     let d : Desc := pack 512 [(69, 64, 3), (15, 12, 4), (7, 0, 1)]
     s.queueKind p q 4 = true ∧
     let w := withOp d 2
     fld w 15 12 = 4 ∧ fld w 11 8 = 0 ∧ fld w 7 0 = 1 ∧ fld w 407 400 = 0 ∧ fld w 303 192 = 0 ∧ fld w 127 70 = 0 ∧ fld w 63 24 = 0 ∧ (Ranges.item (s.part p).colls (fld w 69 64)).isSome = true) := by decide +kernel

theorem witness_MalformedEntryHaltsItsPartition :
    (
     let p : Nat := 1
     let q : Nat := 0
     ¬ (p = 0 ∧ q = 0)) := by decide +kernel

theorem witness_PacketsReachTheirConnection :
    (
     let e := ((0x44, ()) : Nat × Unit)
     let s : State := { lab with conns := [(0, labConn)] }
     let u : State := (({ lab with conns := [(0, labConn)] } : State).takeHere 0 (labPkt 0x44 0 [])).1
     let n : Nat := 0
     let p : Pkt := labPkt 0x44 0 []
     (p.proto = 0 ∧ p.op = e.1 ∧ s.takeHere n p = (u, true) ∧ u.isolated 2 (Config.engineOf p.conn) = false ∧ pktMalformed p = false ∧
      p.enc = false ∧ p.crcOk = true ∧ (e.1 = 0x43 → u.nakIsOwn p = true) ∧ (u.conn p.conn).st = 2 ∧ (u.conn p.conn).ud = false ∧
      (u.conn p.conn).encrypt = false ∧ (u.conn p.conn).resident = true ∧ (u.conn p.conn).staged = [] ∧ p.gen = (u.gen p.conn).toNat) ∧ u.host.gone = false) ∧
    (
     let s : State := { lab with conns := [(0, labConn)] }
     let u : State := (({ lab with conns := [(0, labConn)] } : State).takeHere 0 (labPkt 9 0 [1, 2])).1
     let n : Nat := 0
     let p : Pkt := labPkt 9 0 [1, 2]
     p.proto = 0 ∧ p.op = 9 ∧ s.takeHere n p = (u, true) ∧ u.isolated 2 (Config.engineOf p.conn) = false ∧ pktMalformed p = false ∧ p.enc = false ∧ p.crcOk = true ∧ (u.conn p.conn).resident = true ∧ (u.conn p.conn).staged = []) := by decide +kernel

theorem witness_NewRequestsTakeEffect_1 :
    (
     let v : State := { lab with conns := [(0, labConn)], wins := [(0, { st := true, gen := 5, entry := pack 256 [(255, 240, 0x0200), (224, 224, 1), (175, 128, 4096)] })] }
     let p : Pkt := labPkt 1 5 [1, 2]
     let now : BitVec 32 := 0
     ((p.psn - (v.conn p.conn).c).toNat < 256 ∧ p.psn ∉ (v.conn p.conn).seen ∧ serLt p.msn (v.conn p.conn).rxMsn = false ∧
      ((v.conn p.conn).rxMsg p.msn p.op).settled = none ∧ p ∉ ((v.conn p.conn).rxMsg p.msn p.op).waitP ∧
      (∀ q ∈ ((v.conn p.conn).rxMsg p.msn p.op).hq, q.psn ≠ p.psn) ∧ v.handlerOf p.conn 1 = none ∧ v.handlerBad p.conn = false ∧
      (p.ordered = true → (v.conn p.conn).earlierDone p.msn = true)) ∧
     let c := v.conn p.conn
     let w := (v.updConn p.conn (fun c => { c with tracker := c.tracker || false })).rxNote p.conn p now
     (p.op = 1 ∨ p.op = 2) ∧ w.winCheck p.conn p = .ok) := by decide +kernel

theorem witness_NewRequestsTakeEffect_2 :
    (
     let v : State := { lab with conns := [(0, labConn)], wins := [(0, { st := true, gen := 5, entry := pack 256 [(255, 240, 0x0200), (226, 224, 7), (189, 189, 1), (228, 228, 1), (175, 128, 4096)] })] }
     let p : Pkt := labPkt 5 5 []
     let now : BitVec 32 := 0
     ((p.psn - (v.conn p.conn).c).toNat < 256 ∧ p.psn ∉ (v.conn p.conn).seen ∧ serLt p.msn (v.conn p.conn).rxMsn = false ∧
      ((v.conn p.conn).rxMsg p.msn p.op).settled = none ∧ p ∉ ((v.conn p.conn).rxMsg p.msn p.op).waitP ∧
      (∀ q ∈ ((v.conn p.conn).rxMsg p.msn p.op).hq, q.psn ≠ p.psn) ∧ v.handlerOf p.conn 1 = none ∧ v.handlerBad p.conn = false ∧
      (p.ordered = true → (v.conn p.conn).earlierDone p.msn = true)) ∧
     let c := v.conn p.conn
     let w := (v.updConn p.conn (fun c => { c with tracker := c.tracker || false })).rxNote p.conn p now
     (p.op = 3 ∨ p.op = 5 ∨ p.op = 6) ∧ w.winCheck p.conn p = .ok) := by decide +kernel

theorem witness_NewRequestsTakeEffect_3 :
    (
     let v : State := { lab with conns := [(0, labConn)], wins := [(0, { st := true, gen := 5, entry := pack 256 [(255, 240, 0xFFFF), (227, 224, 15), (223, 208, 1), (175, 128, 4096)] })] }
     let p : Pkt := labPkt 7 5 []
     let now : BitVec 32 := 0
     ((p.psn - (v.conn p.conn).c).toNat < 256 ∧ p.psn ∉ (v.conn p.conn).seen ∧ serLt p.msn (v.conn p.conn).rxMsn = false ∧
      ((v.conn p.conn).rxMsg p.msn p.op).settled = none ∧ p ∉ ((v.conn p.conn).rxMsg p.msn p.op).waitP ∧
      (∀ q ∈ ((v.conn p.conn).rxMsg p.msn p.op).hq, q.psn ≠ p.psn) ∧ v.handlerOf p.conn 1 = none ∧ v.handlerBad p.conn = false ∧
      (p.ordered = true → (v.conn p.conn).earlierDone p.msn = true)) ∧
     let c := v.conn p.conn
     let w := (v.updConn p.conn (fun c => { c with tracker := c.tracker || false })).rxNote p.conn p now
     p.op = 7 ∧ w.winCheck p.conn p = .ok) ∧
    (
     let v : State := { lab with conns := [(0, labConn)] }
     let p : Pkt := labPkt 4 0 []
     ((p.psn - (v.conn p.conn).c).toNat < 256 ∧ p.psn ∉ (v.conn p.conn).seen ∧ serLt p.msn (v.conn p.conn).rxMsn = false ∧
      ((v.conn p.conn).rxMsg p.msn p.op).settled = none ∧ p ∉ ((v.conn p.conn).rxMsg p.msn p.op).waitP ∧
      (∀ q ∈ ((v.conn p.conn).rxMsg p.msn p.op).hq, q.psn ≠ p.psn) ∧ v.handlerOf p.conn 1 = none ∧ v.handlerBad p.conn = false ∧
      (p.ordered = true → (v.conn p.conn).earlierDone p.msn = true)) ∧
     p.op = 4) := by decide +kernel

theorem witness_NewRequestsTakeEffect_4 :
    (
     let v : State := { lab with conns := [(0, labConn)] }
     let p : Pkt := labPkt 8 0 []
     ((p.psn - (v.conn p.conn).c).toNat < 256 ∧ p.psn ∉ (v.conn p.conn).seen ∧ serLt p.msn (v.conn p.conn).rxMsn = false ∧
      ((v.conn p.conn).rxMsg p.msn p.op).settled = none ∧ p ∉ ((v.conn p.conn).rxMsg p.msn p.op).waitP ∧
      (∀ q ∈ ((v.conn p.conn).rxMsg p.msn p.op).hq, q.psn ≠ p.psn) ∧ v.handlerOf p.conn 1 = none ∧ v.handlerBad p.conn = false ∧
      (p.ordered = true → (v.conn p.conn).earlierDone p.msn = true)) ∧
     p.op = 8) ∧
    (
     let v : State := { lab with conns := [(0, labConn)] }
     let p : Pkt := labPkt 0x44 0 []
     ((p.psn - (v.conn p.conn).c).toNat < 256 ∧ p.psn ∉ (v.conn p.conn).seen ∧ serLt p.msn (v.conn p.conn).rxMsn = false ∧
      ((v.conn p.conn).rxMsg p.msn p.op).settled = none ∧ p ∉ ((v.conn p.conn).rxMsg p.msn p.op).waitP ∧
      (∀ q ∈ ((v.conn p.conn).rxMsg p.msn p.op).hq, q.psn ≠ p.psn) ∧ v.handlerOf p.conn 1 = none ∧ v.handlerBad p.conn = false ∧
      (p.ordered = true → (v.conn p.conn).earlierDone p.msn = true)) ∧
     p.op = 0x44) := by decide +kernel

theorem witness_TransportTimersAct_1 :
    (
     let s : State := { lab with conns := [(0, { labConn with uncovered := true })] }
     let c : Nat := 0
     (s.conn c).st = 2 ∧ (s.conn c).uncovered = true) ∧
    (
     let s : State := { lab with conns := [(0, { labConn with holdTo := some 9 })] }
     let c : Nat := 0
     (s.conn c).st = 2 ∧ (s.conn c).holdTo.isSome = true) ∧
    (
     let s : State := { lab with conns := [(0, { labConn with outs := [{ psn := 7, busySince := some 0 }] })] }
     let c : Nat := 0
     let psn : Nat := 7
     let o : TxPsn := { psn := 7, busySince := some 0 }
     (s.conn c).st = 2 ∧ (s.conn c).outs.find? (fun o => o.psn.toNat == psn && o.busySince.isSome) = some o) ∧
    (
     let s : State := { lab with conns := [(0, { labConn with recvHold := some 7 })] }
     let c : Nat := 0
     (s.conn c).st = 2 ∧ (s.conn c).recvHold.isSome = true) ∧
    (
     let s : State := { lab with clockNs := 2 ^ 40, conns := [(0, { labConn with outs := [{ psn := 7, sent := true, tries := 7 }] })] }
     let c : Nat := 0
     let o : TxPsn := { psn := 7, sent := true, tries := 7 }
     let l : List TxPsn := []
     (s.conn c).st = 2 ∧ (s.conn c).ud = false ∧ (s.conn c).holdTo = none ∧ timeoutList (s.conn c) s.clockNs = o :: l ∧ 7 ≤ o.tries) := by decide +kernel

theorem witness_TransportTimersAct_2 :
    (
     let s : State := { lab with clockNs := 2 ^ 40, conns := [(0, { labConn with outs := [{ psn := 7, sent := true, tries := 6 }] })] }
     let c : Nat := 0
     let o : TxPsn := { psn := 7, sent := true, tries := 6 }
     let l : List TxPsn := []
     (s.conn c).st = 2 ∧ (s.conn c).ud = false ∧ (s.conn c).holdTo = none ∧ timeoutList (s.conn c) s.clockNs = o :: l ∧ o.tries < 7) ∧
    (
     let s : State := { lab with conns := [(0, { labConn with st := 3, notices := 7 })] }
     let c : Nat := 0
     (s.conn c).st = 3 ∧ (s.conn c).noticeAcked = false ∧ 1 ≤ (s.conn c).notices ∧ (s.conn c).notices < 8) := by decide +kernel

theorem witness_SchedulersAndReturnsAct_1 :
    (
     let s : State := { lab with tp := { outq := [(oqKey 30 1, [{ pkt := labPkt 4 0 [] }])] } }
     let n : Nat := 30
     let vc : Nat := 1
     let src : Nat := 32
     let q : QPkt := { pkt := labPkt 4 0 [] }
     n ≤ 32 ∧ vc ≤ 3 ∧ ((s.port n).replayFrom.isSome && !(s.port n).waitFack) = false ∧
     let u := s.admitAll.sendFirst n
     u.vcTurn n vc = true ∧ u.pick n vc = some (src, q)) ∧
    (
     let s : State := lab
     let u : State := (lab.takeHere 0 (labRet 0x0001_0000 5)).1
     let n : Nat := 0
     let p : Pkt := labRet 0x0001_0000 5
     p.proto = 2 ∧ fld p.hdr 127 120 = 1 ∧ s.takeHere n p = (u, true) ∧ fld p.fab 89 88 = 0 ∧ fld p.fab 50 48 = 0 ∧ p.flen = 16 ∧ p.payload = [] ∧ p.crcOk = true ∧
     let inc : BitVec 16 := BitVec.ofNat 16 (fld p.hdr 47 32)
     let e := u.e2eOf p.src
     e.inc ≠ some inc) := by decide +kernel

theorem witness_SchedulersAndReturnsAct_2 :
    (
     let s : State := { lab with tp := { e2e := [(0x0200, { inc := some 5 })] } }
     let u : State := (({ lab with tp := { e2e := [(0x0200, { inc := some 5 })] } } : State).takeHere 0 (labRet 0x0001_0000 5)).1
     let n : Nat := 0
     let p : Pkt := labRet 0x0001_0000 5
     p.proto = 2 ∧ fld p.hdr 127 120 = 1 ∧ s.takeHere n p = (u, true) ∧ fld p.fab 89 88 = 0 ∧ fld p.fab 50 48 = 0 ∧ p.flen = 16 ∧ p.payload = [] ∧ p.crcOk = true ∧
     let acc : BitVec 48 := BitVec.ofNat 48 (fld p.hdr 95 48)
     let inc : BitVec 16 := BitVec.ofNat 16 (fld p.hdr 47 32)
     let e := u.e2eOf p.src
     let adv := (acc - e.raw).toNat
     e.inc = some inc ∧ 0 < adv ∧ adv < 2 ^ 47) ∧
    (
     let s : State := { lab with tp := { e2eR := [(0x0200, { unret := 5 })] } }
     let src : Nat := 0x0200
     (AMap.get s.tp.e2eR src {}).unret ≠ 0) ∧
    (
     let s : State := { lab with tp := { e2e := [(0x0200, { sent := 5 })] } }
     let dest : Nat := 0x0200
     s.inflight dest ≠ 0) := by decide +kernel

theorem witness_FlitsAreTaken_1 :
    (
     let s : State := lab
     let n : Nat := 0
     let f : Flit := { crcOk := false }
     n < 32 ∧ ((s.port n).state = 3 ∨ (s.port n).state = 4) ∧ flitBad f true (s.creditMode n) = true) ∧
    (
     let s : State := lab
     let n : Nat := 0
     let f : Flit := { head := BitVec.ofNat 32 (1 * 2 ^ 28) }
     n < 32 ∧ ((s.port n).state = 3 ∨ (s.port n).state = 4) ∧ flitBad f true (s.creditMode n) = false ∧ s.creditMode n = true ∧ fld f.head 15 0 = (s.port n).rxSeq.toNat ∧ AMap.get (s.port n).slots (fld f.head 29 28) 0 < (if fld f.head 29 28 = 3 then 256 else 1280)) ∧
    (
     let s : State := lab
     let n : Nat := 30
     let f : Flit := { head := BitVec.ofNat 32 (1 * 2 ^ 28) }
     n < 32 ∧ ((s.port n).state = 3 ∨ (s.port n).state = 4) ∧ flitBad f true (s.creditMode n) = false ∧ s.creditMode n = false ∧ (s.rowCol n = true → fld f.head 15 0 = (s.port n).rxSeq.toNat) ∧ (s.rowCol n = false → (s.port n).skipTo.contains (fld f.head 29 28) = true → fld f.head 27 23 ≠ 31)) ∧
    (
     let s : State := lab
     let n : Nat := 0
     let f : Flit := { head := BitVec.ofNat 32 (1 * 2 ^ 28 + 1) }
     n < 32 ∧ ((s.port n).state = 3 ∨ (s.port n).state = 4) ∧ flitBad f true (s.creditMode n) = false ∧ s.creditMode n = true ∧ fld f.head 15 0 ≠ (s.port n).rxSeq.toNat) ∧
    (
     let s : State := lab
     let n : Nat := 0
     let f : Flit := { crcOk := false }
     n < 32 ∧ ((s.port n).state = 3 ∨ (s.port n).state = 4) ∧ flitBad f false (s.creditMode n) = true) := by decide +kernel

theorem witness_FlitsAreTaken_2 :
    (
     let s : State := lab
     let n : Nat := 30
     let f : Flit := { head := BitVec.ofNat 32 (2 ^ 30) }
     n < 32 ∧ ((s.port n).state = 3 ∨ (s.port n).state = 4) ∧ flitBad f false (s.creditMode n) = false ∧ s.creditMode n = false) := by decide +kernel

theorem witness_ControlWordsAct_1 :
    (
     let s : State := lab
     let n : Nat := 0
     let w : BitVec 64 := 0
     n < 32 ∧ s.creditMode n = true ∧ (s.port n).state = 3 ∧
     let val (vc : Nat) : BitVec 14 := BitVec.ofNat 14 (fld w (55 - 14 * vc) (42 - 14 * vc))
     let up (vc : Nat) : Nat := (s.port n).creditsOf vc + (val vc - AMap.get (s.port n).creditRx vc 0).toNat
     (∀ vc < 4, up vc ≤ (if vc = 3 then 256 else 1280))) ∧
    (
     let s : State := { lab with ports := [(0, { state := 4, replay := [1, 2, 3] })] }
     let n : Nat := 0
     let w : BitVec 64 := 2
     let a : List (BitVec 16) := [1]
     let b : List (BitVec 16) := [3]
     let f : BitVec 16 := 2
     n < 32 ∧ s.rowCol n = true ∧ ((s.port n).state = 3 ∨ (s.port n).state = 4) ∧ f = BitVec.ofNat 16 (fld w 15 0) ∧ (s.port n).replay = a ++ f :: b ∧ f ∉ a ∧ (s.port n).waitFack = false ∧ (s.port n).replayFrom = none) ∧
    (
     let s : State := { lab with ports := [(0, { state := 3, replay := [1, 2, 3] })] }
     let n : Nat := 0
     let w : BitVec 64 := 2
     n < 32 ∧ s.rowCol n = true ∧ ((s.port n).state = 3 ∨ (s.port n).state = 4) ∧ BitVec.ofNat 16 (fld w 15 0) ∈ (s.port n).replay ∧ (s.port n).replayFrom = none ∧ (s.port n).retrySame = 0) ∧
    (
     let s : State := { lab with ports := [(0, { state := 3, retrySame := 7, retryLast := 2 })] }
     let n : Nat := 0
     let w : BitVec 64 := 2
     n < 32 ∧ s.rowCol n = true ∧ ((s.port n).state = 3 ∨ (s.port n).state = 4) ∧ 7 ≤ (s.port n).retrySame ∧ (s.port n).retryLast = BitVec.ofNat 16 (fld w 15 0)) := by decide +kernel

theorem witness_ControlWordsAct_2 :
    (
     let s : State := lab
     let n : Nat := 30
     n < 32 ∧ 2 ≤ (s.port n).state.toNat ∧ (s.port n).state.toNat ≤ 5) ∧
    (
     let s : State := { lab with ports := [(0, { state := 5, pings := [(7, 0)] })], clockNs := 100 }
     let n : Nat := 0
     let w : BitVec 64 := 7
     let e : BitVec 32 × Nat := (7, 0)
     n < 32 ∧ 2 ≤ (s.port n).state.toNat ∧ (s.port n).state.toNat ≤ 5 ∧ (s.port n).pings.find? (fun e => e.1 == BitVec.ofNat 32 (fld w 31 0)) = some e ∧ s.clockNs - e.2 - fld w 47 32 ≤ (if n < 30 && !s.spine then 800 else 6000)) ∧
    (
     let s : State := { lab with ports := [(0, { state := 3, pings := [(7, 0)] })], clockNs := 801 }
     let n : Nat := 0
     let w : BitVec 64 := 7
     let e : BitVec 32 × Nat := (7, 0)
     n < 32 ∧ (s.port n).state = 3 ∧ (s.port n).pings.find? (fun e => e.1 == BitVec.ofNat 32 (fld w 31 0)) = some e ∧ (if n < 30 && !s.spine then 800 else 6000) < s.clockNs - e.2 - fld w 47 32) ∧
    (
     let s : State := lab
     let n : Nat := 0
     let w : BitVec 64 := 1
     n < 32 ∧ s.rowCol n = true ∧ bitAt w 0 = true ∧ (s.port n).state = 3 ∧ (s.port n).onoff ≠ some true) ∧
    (
     let s : State := { lab with ports := [(29, { state := 4 })] }
     let n : Nat := 29
     let w : BitVec 64 := 1
     n < 32 ∧ s.rowCol n = true ∧ bitAt w 0 = true ∧ (s.port n).state = 4) := by decide +kernel

theorem witness_LinkTimersAct_1 :
    (
     let s : State := { lab with ports := [(29, { state := 3 })] }
     let n : Nat := 29
     n < 32 ∧ s.rowCol n = true ∧ (s.port n).onoff ≠ some true ∧ (s.port n).state = 3) ∧
    (
     let s : State := { lab with ports := [(31, { state := 4 })] }
     let n : Nat := 31
     n < 32 ∧ (s.port n).state = 4) ∧
    (
     let s : State := { lab with ports := [(29, { unacked := 1 })] }
     let n : Nat := 29
     n < 32 ∧ s.rowCol n = true ∧ (s.port n).unacked ≠ 0) ∧
    (
     let s : State := lab
     let n : Nat := 0
     n < 32 ∧ s.creditMode n = true ∧ (s.port n).state = 3) ∧
    (
     let s : State := { lab with ports := [(0, { state := 3, discarding := true })] }
     let n : Nat := 0
     n < 32 ∧ s.rowCol n = true ∧ (s.port n).discarding = true ∧ ((s.port n).state = 3 ∨ (s.port n).state = 4)) := by decide +kernel

theorem witness_LinkTimersAct_2 :
    (
     let s : State := { lab with ports := [(0, { replay := [1] })] }
     let n : Nat := 0
     s.rowCol n = true ∧ (s.port n).replay ≠ []) ∧
    (
     let s : State := lab
     let n : Nat := 30
     s.looped n = false ∧ ((s.port n).state = 3 ∨ (s.port n).state = 4) ∧ n < 32) ∧
    (
     let s : State := lab
     let n : Nat := 30
     n < 32 ∧ 3 ≤ (s.port n).state.toNat ∧ (s.port n).state.toNat ≤ 5) ∧
    (
     let s : State := lab
     s.tape.running = true) := by decide +kernel

theorem witness_FabricPacketsGoOn :
    (
     let s : State := lab
     let u : State := (lab.arrive 30 (labFwd 0)).1
     let n : Nat := 30
     let k : Nat := 0
     let p : Pkt := labFwd 0
     let detour : Bool := false
     n < 32 ∧ p.mcast = false ∧ (s.devidValid && p.dest = s.myId) = false ∧ s.arrive n p = (u, true) ∧ validId p.dest = true ∧ p.hops < 6 ∧ u.tapeAges = true ∧ (u.now.toNat + 2 ^ 32 - p.txTape) % 2 ^ 32 ≤ 196000 ∧ u.routeBy true n p = .out k detour) ∧
    (
     let s : State := lab
     let u : State := (lab.arrive 30 (labFwd 6)).1
     let n : Nat := 30
     let p : Pkt := labFwd 6
     n < 32 ∧ p.mcast = false ∧ (s.devidValid && p.dest = s.myId) = false ∧ s.arrive n p = (u, true) ∧ validId p.dest = true ∧ 6 ≤ p.hops) ∧
    (
     let s : State := lab
     let u : State := (lab.mcastArrive 30 { fab := pack 128 [(91, 91, 1)] }).1
     let n : Nat := 30
     let p : Pkt := { fab := pack 128 [(91, 91, 1)] }
     let here : Bool := (lab.mcastArrive 30 { fab := pack 128 [(91, 91, 1)] }).2
     p.mcast = true ∧ s.mcastArrive n p = (u, here)) ∧
    (
     let s : State := lab
     let n : Nat := 30
     n < 32 ∧ (s.port n).state = 3 ∧ (s.port n).check = 2) ∧
    (
     let s : State := lab
     s.tape.running = true) := by decide +kernel

set_option maxRecDepth 100000 in
theorem witness_FabricPacketsGoOn_map :
    labMap.proto = 2 ∧ fld labMap.hdr 511 504 = 2 ∧ (lab.takeHere 0 labMap).2 = true ∧ labMap.crcOk = true := by decide +kernel

theorem witness_OpticsAct_1 :
    (
     let s : State := { lab with ports := [(31, { state := 1 })] }
     let n : Nat := 31
     let lane : Nat := 15
     let cw : BitVec 256 := pack 256 [(255, 208, 0x5C3A91E60D47)]
     n < 32 ∧ lane < 16 ∧ fld cw 255 208 = 0x5C3A91E60D47 ∧ (s.port n).state = 1 ∧ (s.port n).step ≠ 5) ∧
    (
     let s : State := { lab with ports := [(31, { state := 0, light := true })] }
     let n : Nat := 31
     n < 32 ∧ (s.port n).mayTrain = true ∧ s.isolated 5 (n / 2) = false) ∧
    (
     let n : Nat := 31
     n < 32) ∧
    (
     let s : State := { lab with ports := [(31, { state := 1, step := 2 })] }
     let n : Nat := 31
     let lanes : Nat := 15
     n < 32 ∧ (s.port n).step = 2 ∧ 4 ≤ popCount (BitVec.ofNat 16 lanes) ∧ s.spareAwaited n = false) ∧
    (
     let s : State := { lab with ports := [(31, { state := 1, step := 3 })] }
     let n : Nat := 31
     n < 32 ∧ (s.port n).step = 3) := by decide +kernel

theorem witness_OpticsAct_2 :
    (
     let s : State := { lab with ports := [(0, { state := 1, step := 4, peerRxOk := 0xFFFF, rxMask := 0xF })], els := [(0, { lit := 0x1111 })] }
     let n : Nat := 0
     n < 32 ∧ (s.port n).step = 4 ∧ 4 ≤ popCount (s.litLanes n &&& (s.port n).peerRxOk) ∧ 4 ≤ popCount (s.port n).rxMask) ∧
    (
     let s : State := { lab with ports := [(31, { state := 2, step := 6, echoes := 8 })] }
     let n : Nat := 31
     n < 32 ∧ (s.port n).step = 6 ∧ 8 ≤ (s.port n).echoes) ∧
    (
     let s : State := { lab with ports := [(31, { state := 1, step := 1 })] }
     let n : Nat := 31
     n < 32 ∧ (s.port n).step ≠ 0) ∧
    (
     let s : State := lab
     let n : Nat := 30
     n < 32 ∧ (s.port n).state ≠ 6 ∧ (s.port n).state ≠ 0) ∧
    (
     let s : State := lab
     let n : Nat := 30
     let lane : Nat := 15
     s.looped n = false ∧ lane < 16 ∧ (s.port n).state = 3) := by decide +kernel

theorem witness_OpticsAct_3 :
    (
     let s : State := { lab with els := [(0, { lit := 0x1111 })], clockNs := 60000000000, ports := [(0, { state := 3, txMask := 0xF, widenAt := some 0 })] }
     let n : Nat := 0
     let lanes : Nat := 0x10
     n < 32 ∧ (s.port n).state = 3 ∧ BitVec.ofNat 16 lanes &&& s.litLanes n &&& ~~~(s.port n).txMask ≠ 0 ∧ (∀ x, (s.port n).widenAt = some x → x + 60000000000 ≤ s.clockNs)) ∧
    (let s : State := { lab with els := [(3, { st := 2 })] }
     (s.elsm 3).st = 2 ∧ bitAt (s.elsm 3).failed 15 = false) ∧
    (
     let s : State := { lab with els := [(3, { starting := [(3, 2)] })] }
     let k : Nat := 3
     let w : Nat := 3
     let g : Nat := 2
     k < 4 ∧ w < 4 ∧ AMap.get? (s.elsm k).starting w = some g) ∧
    (
     let s : State := { lab with els := [(3, { st := 1 })] }
     let k : Nat := 3
     k < 4 ∧ (s.elsm k).st = 1 ∧ (s.elsm k).cmd = none) ∧
    ((lab.elsm 3).present = false ∨ (lab.elsm 3).st = 0) := by decide +kernel

theorem witness_OpticsAct_4 :
    (
     let s : State := lab
     let k : Nat := 3
     k < 4 ∧ (s.elsm k).present = true) := by decide +kernel

theorem witness_RegisterInstructionsAct :
    (
     let s : State := labN (w64 [(7, 0, 0x0C), (31, 18, 3)]) {}
     let n : Nat := 0
     let x : Upset := .none
     let i : Ins := labI (w64 [(7, 0, 0x0C), (31, 18, 3)])
     s.stands n 0x0C x i ∧ i.s1 = 0 ∧ i.f 31 18 = 3) := by unfold State.stands; decide +kernel

theorem witness_TileInstructionsAct_1 :
    (
     let s : State := labN (w64 [(7, 0, 0x80), (39, 36, 9), (43, 40, 9)]) {}
     let n : Nat := 0
     let x : Upset := .none
     let i : Ins := labI (w64 [(7, 0, 0x80), (39, 36, 9), (43, 40, 9)])
     s.stands n 0x80 x i ∧ i.f 63 46 = 0 ∧ i.f 39 36 ≤ 9 ∧ i.f 43 40 = i.f 39 36 ∧ i.f 44 44 = 0 ∧ i.f 25 21 = 0 ∧ (tIsMx (i.f 39 36) = true ∨ i.f 35 26 = 0)) ∧
    (
     let s : State := labN (w64 [(7, 0, 0x80), (39, 36, 10), (43, 40, 10)]) {}
     let n : Nat := 0
     let x : Upset := .none
     let i : Ins := labI (w64 [(7, 0, 0x80), (39, 36, 10), (43, 40, 10)])
     s.stands n 0x80 x i ∧ (i.f 63 46 ≠ 0 ∨ 9 < i.f 39 36 ∨ 9 < i.f 43 40)) := by unfold State.stands; decide +kernel

theorem witness_TileInstructionsAct_2 :
    (
     let s : State := labN (w64 [(7, 0, 0x88), (31, 28, 1)]) {}
     let n : Nat := 0
     let x : Upset := .none
     let i : Ins := labI (w64 [(7, 0, 0x88), (31, 28, 1)])
     s.stands n 0x88 x i ∧ i.f 63 45 = 0 ∧ i.mode ≠ 3 ∧ (i.srcF = 0 ∧ i.dstF ≠ 0 ∨ i.srcF ≠ 0 ∧ i.dstF = 0 ∨ i.srcF = 8 ∧ i.dstF = 9 ∨ i.srcF = 9 ∧ i.dstF = 8) ∧ partOk i.srcF i.spart = true ∧ partOk i.dstF i.dpart = true ∧ i.ss = 0 ∧ i.vr = 0 ∧ i.res = 0) ∧
    (
     let s : State := labN (w64 [(7, 0, 0x89), (35, 32, 3)]) {}
     let n : Nat := 0
     let x : Upset := .none
     let i : Ins := labI (w64 [(7, 0, 0x89), (35, 32, 3)])
     s.stands n 0x89 x i ∧ i.f 63 45 = 0 ∧ i.mode ≠ 3 ∧ i.srcF ≤ 1 ∧ 3 ≤ i.dstF ∧ i.dstF ≤ 7 ∧ partOk i.srcF i.spart = true ∧ partOk i.dstF i.dpart = true ∧ i.vr = 0 ∧ i.res = 0) := by unfold State.stands; decide +kernel

theorem witness_TileInstructionsAct_3 :
    (
     let s : State := labN (w64 [(7, 0, 0x8A), (31, 28, 3)]) {}
     let n : Nat := 0
     let x : Upset := .none
     let i : Ins := labI (w64 [(7, 0, 0x8A), (31, 28, 3)])
     s.stands n 0x8A x i ∧ i.f 63 45 = 0 ∧ i.mode = 0 ∧ i.dpart = 0 ∧ i.dstF = 0 ∧ 3 ≤ i.srcF ∧ i.srcF ≤ 7 ∧ partOk i.srcF i.spart = true ∧ i.vr = 0 ∧ i.res = 0) ∧
    (
     let s : State := labN (w64 [(7, 0, 0x8B)]) {}
     let n : Nat := 0
     let x : Upset := .none
     let i : Ins := labI (w64 [(7, 0, 0x8B)])
     s.stands n 0x8B x i ∧ i.f 63 45 = 0 ∧ i.mode = 0 ∧ i.dpart = 0 ∧ i.spart = 0 ∧ i.dstF = 0 ∧ i.srcF = 0 ∧ i.vr = 0 ∧ i.res = 0) := by unfold State.stands; decide +kernel

theorem witness_ControlFlowActs_1 :
    (
     let e := ((0, 0x20, fun a b => a == b) : Nat × Nat × (BitVec 64 → BitVec 64 → Bool))
     let s : State := labN (w64 [(7, 0, 0x20), (12, 8, 1)]) { s := [(1, 5)] }
     let n : Nat := 0
     let x : Upset := .none
     let i : Ins := labI (w64 [(7, 0, 0x20), (12, 8, 1)])
     s.stands n e.2.1 x i ∧
     let d := s.needle n
     e.2.2 (d.rs i.s1) (d.rs i.d) = false) ∧
    (
     let e := ((0, 0x24, fun a b => decide (a.toNat < b.toNat)) : Nat × Nat × (BitVec 64 → BitVec 64 → Bool))
     let s : State := labN (w64 [(7, 0, 0x24), (12, 8, 1), (31, 18, 1)]) { s := [(1, 5)] }
     let n : Nat := 0
     let x : Upset := .none
     let i : Ins := labI (w64 [(7, 0, 0x24), (12, 8, 1), (31, 18, 1)])
     s.stands n e.2.1 x i ∧
     let d := s.needle n
     let target := BitVec.ofNat 64 i.pc + low64 (4 * i.imm14)
     e.2.2 (d.rs i.s1) (d.rs i.d) = true ∧ i.prog.inText target.toNat = true) := by unfold State.stands; decide +kernel

theorem witness_ControlFlowActs_2 :
    (
     let e := ((0, 0x23, fun a b => decide (b.toInt ≤ a.toInt)) : Nat × Nat × (BitVec 64 → BitVec 64 → Bool))
     let s : State := labN (w64 [(7, 0, 0x23), (31, 18, 0x3FFF)]) {}
     let n : Nat := 0
     let x : Upset := .none
     let i : Ins := labI (w64 [(7, 0, 0x23), (31, 18, 0x3FFF)])
     s.stands n e.2.1 x i ∧
     let d := s.needle n
     let target := BitVec.ofNat 64 i.pc + low64 (4 * i.imm14)
     e.2.2 (d.rs i.s1) (d.rs i.d) = true ∧ i.prog.inText target.toNat = false) ∧
    (
     let s : State := labN (w64 [(7, 0, 0x26), (31, 13, 63)]) {}
     let n : Nat := 0
     let x : Upset := .none
     let i : Ins := labI (w64 [(7, 0, 0x26), (31, 13, 63)])
     s.stands n 0x26 x i ∧
     let target := BitVec.ofNat 64 i.pc + low64 (4 * i.imm19)
     i.prog.inText target.toNat = true) := by unfold State.stands; decide +kernel

theorem witness_ControlFlowActs_3 :
    (
     let s : State := labN (w64 [(7, 0, 0x27), (17, 13, 1), (31, 18, 4)]) { s := [(1, 248)] }
     let n : Nat := 0
     let x : Upset := .none
     let i : Ins := labI (w64 [(7, 0, 0x27), (17, 13, 1), (31, 18, 4)])
     s.stands n 0x27 x i ∧
     let target := (s.needle n).rs i.s1 + low64 i.imm14
     i.prog.inText target.toNat = true) ∧
    (
     let s : State := labN (w64 [(7, 0, 0x78), (28, 13, 0xFFFF)]) {}
     let n : Nat := 0
     let x : Upset := .none
     let i : Ins := labI (w64 [(7, 0, 0x78), (28, 13, 0xFFFF)])
     s.stands n 0x78 x i ∧ i.d = 0 ∧ i.f 31 29 = 0) := by unfold State.stands; decide +kernel

theorem witness_ControlFlowActs_4 :
    (
     let s : State := labN (w64 [(7, 0, 0x79)]) {}
     let n : Nat := 0
     let m : Nat := 1
     let x : Upset := .none
     let i : Ins := labI (w64 [(7, 0, 0x79)])
     s.stands n 0x79 x i ∧ i.f 31 8 = 0 ∧ m ∈ i.run.left.erase n) ∧
    (
     let s : State := { labN (w64 [(7, 0, 0x79)]) with runs := [(1, { labRun with left := [0] })] }
     let n : Nat := 0
     let x : Upset := .none
     let i : Ins := { labI (w64 [(7, 0, 0x79)]) with run := { labRun with left := [0] } }
     s.stands n 0x79 x i ∧ i.f 31 8 = 0 ∧ i.run.left.erase n = []) := by unfold State.stands; decide +kernel

theorem witness_RegisterInstructionsAct_legal : ∀ e ∈ scalarRows ++ vectorRows,
    let w := e.op + (if e.op = 0x41 then 3 * 2 ^ 29 else 0)
    (labN w).stands 0 e.op .none (labI w) ∧ e.legal (labI w) = true := by unfold State.stands; decide +kernel

theorem witness_RegisterInstructionsAct_illegal :
    ∀ e ∈ (scalarRows ++ vectorRows).filter (fun e => !([0x02, 0x03, 0x04, 0x05, 0x09, 0x0A, 0x45] : Nats).contains e.op),
      let w := e.op + 0xFFFFFF00
      (labN w).stands 0 e.op .none (labI w) ∧ e.illegal (labI w) = true := by unfold State.stands; decide +kernel

theorem witness_LoadsAct_1 :
    (
     let e := ((0, 0x15, 4, true) : Nat × Nat × Nat × Bool)
     let s : State := labN (w64 [(7, 0, 0x15), (12, 8, 2), (17, 13, 1), (31, 18, 0x3FFC)]) { s := [(1, 0x01400000)] }
     let n : Nat := 0
     let x : Upset := .ce
     let i : Ins := labI (w64 [(7, 0, 0x15), (12, 8, 2), (17, 13, 1), (31, 18, 0x3FFC)])
     s.stands n e.2.1 x i ∧
     let a := i.addr s 1
     addrTrap a e.2.2.1 true true = none ∧ x.calm a) ∧
    (
     let e := ((0, 0x15, 4, true) : Nat × Nat × Nat × Bool)
     let s : State := labN (w64 [(7, 0, 0x15), (31, 18, 2)]) {}
     let n : Nat := 0
     let x : Upset := .none
     let i : Ins := labI (w64 [(7, 0, 0x15), (31, 18, 2)])
     s.stands n e.2.1 x i ∧
     let a := i.addr s 1
     addrTrap a e.2.2.1 true true = some 5) := by unfold State.stands Upset.calm; decide +kernel

theorem witness_LoadsAct_2 :
    (
     let e := ((0, 0x15, 4, true) : Nat × Nat × Nat × Bool)
     let s : State := labN (w64 [(7, 0, 0x15), (17, 13, 1)]) { s := [(1, 0x01000000)] }
     let n : Nat := 0
     let x : Upset := .data
     let i : Ins := labI (w64 [(7, 0, 0x15), (17, 13, 1)])
     s.stands n e.2.1 x i ∧
     let a := i.addr s 1
     addrTrap a e.2.2.1 true true = none ∧ x = .data ∧ isLocal a = false) ∧
    (
     let s : State := labN (w64 [(7, 0, 0x30), (31, 18, 1)]) {}
     let n : Nat := 0
     let x : Upset := .none
     let i : Ins := labI (w64 [(7, 0, 0x30), (31, 18, 1)])
     s.stands n 0x30 x i ∧
     let a := i.addr s 128
     addrTrap a 128 true true = none ∧ x.calm a) := by unfold State.stands Upset.calm; decide +kernel

theorem witness_LoadsAct_3 :
    (
     let s : State := labN (w64 [(7, 0, 0x33)]) {}
     let n : Nat := 0
     let i : Ins := labI (w64 [(7, 0, 0x33)])
     s.stands n 0x33 .none i ∧ i.f 31 28 = 0 ∧ i.laneTrap s = none) := by unfold State.stands; decide +kernel

theorem witness_StoresAct_1 :
    (
     let e := ((0, 0x1B, 8) : Nat × Nat × Nat)
     let s : State := labN (w64 [(7, 0, 0x1B), (31, 18, 8)]) {}
     let n : Nat := 0
     let x : Upset := .data
     let i : Ins := labI (w64 [(7, 0, 0x1B), (31, 18, 8)])
     s.stands n e.2.1 x i ∧
     let a := i.addr s 1
     addrTrap a e.2.2 true true = none ∧ (x ≠ .ce ∨ isLocal a = false)) ∧
    (
     let e := ((0, 0x1B, 8) : Nat × Nat × Nat)
     let s : State := labN (w64 [(7, 0, 0x1B), (17, 13, 1)]) { s := [(1, 0x100000)] }
     let n : Nat := 0
     let x : Upset := .none
     let i : Ins := labI (w64 [(7, 0, 0x1B), (17, 13, 1)])
     s.stands n e.2.1 x i ∧
     let a := i.addr s 1
     addrTrap a e.2.2 true true = some 4) := by unfold State.stands; decide +kernel

theorem witness_StoresAct_2 :
    (
     let s : State := labN (w64 [(7, 0, 0x31), (31, 18, 1)]) {}
     let n : Nat := 0
     let x : Upset := .none
     let i : Ins := labI (w64 [(7, 0, 0x31), (31, 18, 1)])
     s.stands n 0x31 x i ∧
     let a := i.addr s 128
     addrTrap a 128 true true = none ∧ (x ≠ .ce ∨ isLocal a = false)) ∧
    (
     let s : State := labN (w64 [(7, 0, 0x32)]) {}
     let n : Nat := 0
     let x : Upset := .none
     let i : Ins := labI (w64 [(7, 0, 0x32)])
     s.stands n 0x32 x i ∧ i.s2 = 0 ∧ i.fn = 0 ∧
     let a := ((s.needle n).rs i.s1).toNat
     let mixed := (List.range 128).map (fun b => if bitAt ((s.needle n).rp i.pr) b then (bytesLE 128 ((s.needle n).rv i.d).toNat).getD b 0
      else (s.dataRead n a 128).getD b 0)
     addrTrap a 128 true true = none ∧ (x ≠ .ce ∨ isLocal a = false)) := by unfold State.stands; decide +kernel

theorem witness_StoresAct_3 :
    (
     let s : State := labN (w64 [(7, 0, 0x34)]) {}
     let n : Nat := 0
     let x : Upset := .none
     let i : Ins := labI (w64 [(7, 0, 0x34)])
     s.stands n 0x34 x i ∧ i.f 31 28 = 0 ∧ i.laneTrap s = none ∧ x = .none) ∧
    (
     let s : State := labN (w64 [(7, 0, 0x1C), (17, 13, 1), (31, 26, 6)]) { s := [(1, 0x01000000)] }
     let n : Nat := 0
     let x : Upset := .none
     let i : Ins := labI (w64 [(7, 0, 0x1C), (17, 13, 1), (31, 26, 6)])
     s.stands n 0x1C x i ∧ i.pr = 0 ∧ i.fn ≤ 6 ∧
     let a := ((s.needle n).rs i.s1).toNat
     addrTrap a 8 false true = none ∧ x = .none) := by unfold State.stands; decide +kernel

theorem witness_StreamsAndSyncAct_1 :
    (
     let s : State := labN (w64 [(7, 0, 0x60), (17, 13, 31), (29, 23, 127)]) {}
     let n : Nat := 0
     let x : Upset := .none
     let i : Ins := labI (w64 [(7, 0, 0x60), (17, 13, 31), (29, 23, 127)])
     s.stands n 0x60 x i ∧ i.f 31 31 = 0 ∧ i.d = 0 ∧ i.f 29 23 ≠ 0 ∧
     let q := s.sq (clusterOf n) i.s1
     q.draining = false ∧ q.items.length < 64) ∧
    (
     let s : State := { labN (w64 [(7, 0, 0x60), (29, 23, 127)]) {} with clus := [(0, { owner := some 0, st := 3, sqs := [(0, { items := List.replicate 64 0 })] })] }
     let n : Nat := 0
     let x : Upset := .none
     let i : Ins := labI (w64 [(7, 0, 0x60), (29, 23, 127)])
     s.stands n 0x60 x i ∧ i.f 31 31 = 0 ∧ i.d = 0 ∧ i.f 29 23 ≠ 0 ∧
     let q := s.sq (clusterOf n) i.s1
     q.draining = false ∧ 64 ≤ q.items.length) ∧
    (
     let s : State := { lab with needles := [(511, { st := 2 })] }
     let n : Nat := 511
     let d : NeedleS := { st := 2 }
     let q : SQ := {}
     n < 512 ∧ s.needle n = d ∧ d.st = 2 ∧ s.sq (clusterOf n) d.pushQ = q ∧ q.draining = false ∧ q.items.length < 64) := by unfold State.stands; decide +kernel

theorem witness_StreamsAndSyncAct_2 :
    (
     let s : State := { labN (w64 [(7, 0, 0x61), (12, 8, 1)]) {} with clus := [(0, { owner := some 0, st := 3, sqs := [(0, { items := [5, 6] })] })] }
     let n : Nat := 0
     let x : Upset := .none
     let i : Ins := labI (w64 [(7, 0, 0x61), (12, 8, 1)])
     let it : BitVec 72 := 5
     let rest : List (BitVec 72) := [6]
     s.stands n 0x61 x i ∧ i.f 31 23 = 0 ∧ (i.d ≠ i.s2 ∨ i.d = 0) ∧ (s.sq (clusterOf n) i.s1).draining = false ∧ (s.sq (clusterOf n) i.s1).items = it :: rest) ∧
    (
     let s : State := labN (w64 [(7, 0, 0x61)]) {}
     let n : Nat := 0
     let x : Upset := .none
     let i : Ins := labI (w64 [(7, 0, 0x61)])
     s.stands n 0x61 x i ∧ i.f 31 23 = 0 ∧ (i.d ≠ i.s2 ∨ i.d = 0) ∧ ((s.sq (clusterOf n) i.s1).draining = true ∨ (s.sq (clusterOf n) i.s1).items = [])) := by unfold State.stands; decide +kernel

theorem witness_StreamsAndSyncAct_3 :
    (
     let s : State := { labN (w64 [(7, 0, 0x62)]) {} with clus := [(0, { owner := some 0, st := 3, sqs := [(0, { items := [5, 6] })] })] }
     let n : Nat := 0
     let x : Upset := .none
     let i : Ins := labI (w64 [(7, 0, 0x62)])
     let it : BitVec 72 := 6
     s.stands n 0x62 x i ∧ i.f 31 18 = 0 ∧ i.d = 0 ∧ (s.sq (clusterOf n) i.s1).draining = false ∧ (s.sq (clusterOf n) i.s1).items.getLast? = some it ∧ (s.sq (clusterOf n) i.s1).stalled = []) ∧
    (
     let s : State := labN (w64 [(7, 0, 0x68), (17, 13, 1)]) { s := [(1, 3)] }
     let n : Nat := 0
     let o : Nat := 3
     let x : Upset := .none
     let i : Ins := labI (w64 [(7, 0, 0x68), (17, 13, 1)])
     s.stands n 0x68 x i ∧ i.pr = 0 ∧ i.fn = 0 ∧ i.d = 0 ∧ i.object s ((s.needle n).rs i.s1) = some o) := by unfold State.stands; decide +kernel

theorem witness_StreamsAndSyncAct_4 :
    (
     let s : State := labN (w64 [(7, 0, 0x6A), (17, 13, 1)]) { s := [(1, 3)] }
     let n : Nat := 0
     let o : Nat := 3
     let x : Upset := .none
     let i : Ins := labI (w64 [(7, 0, 0x6A), (17, 13, 1)])
     s.stands n 0x6A x i ∧ i.pr = 0 ∧ i.fn = 0 ∧ i.s2 = 0 ∧ i.object s ((s.needle n).rs i.s1) = some o) ∧
    (
     let s : State := labN (w64 [(7, 0, 0x69), (17, 13, 1), (22, 18, 2)]) { s := [(1, 3)] }
     let n : Nat := 0
     let o : Nat := 3
     let x : Upset := .none
     let i : Ins := labI (w64 [(7, 0, 0x69), (17, 13, 1), (22, 18, 2)])
     s.stands n 0x69 x i ∧ i.pr = 0 ∧ i.fn = 0 ∧ i.object s ((s.needle n).rs i.s1) = some o ∧ ((s.needle n).rs i.s2).toNat ≤ (s.obj o).val.toNat) := by unfold State.stands; decide +kernel

theorem witness_StreamsAndSyncAct_5 :
    (
     let s : State := labN (w64 [(7, 0, 0x69), (17, 13, 1), (22, 18, 2)]) { s := [(1, 3), (2, 1)] }
     let n : Nat := 0
     let o : Nat := 3
     let x : Upset := .none
     let i : Ins := labI (w64 [(7, 0, 0x69), (17, 13, 1), (22, 18, 2)])
     s.stands n 0x69 x i ∧ i.pr = 0 ∧ i.fn = 0 ∧ i.object s ((s.needle n).rs i.s1) = some o ∧ (s.obj o).val.toNat < ((s.needle n).rs i.s2).toNat) ∧
    (
     let s : State := { lab with needles := [(511, { st := 3, waitOk := some 9 })] }
     let n : Nat := 511
     let v : BitVec 64 := 9
     n < 512 ∧ (s.needle n).st = 3 ∧ (s.needle n).waitOk = some v) ∧
    (
     let s : State := { lab with clus := [(63, { sqs := [(31, { timer := true, items := [1] })] })] }
     let c : Nat := 63
     let q : Nat := 31
     c < 64 ∧ q < 32 ∧ (s.sq c q).timer = true ∧ (s.sq c q).items ≠ [] ∧ (s.sq c q).draining = false) := by unfold State.stands; decide +kernel

theorem witness_CopiesAct_1 :
    (
     let s : State := { labN (w64 [(7, 0, 0x90), (10, 8, 3), (25, 21, 1), (35, 31, 2)]) { s := [(1, 2 ^ 30), (2, 0x3FFF)] } with xfers := (List.range 64).map (fun k => (k, ({ eng := k % 2 } : Xfer))) }
     let n : Nat := 0
     let x : Upset := .none
     let i : Ins := labI (w64 [(7, 0, 0x90), (10, 8, 3), (25, 21, 1), (35, 31, 2)])
     s.stands n 0x90 x i ∧ i.f 63 36 = 0 ∧ i.f 10 8 = 3 ∧
     let d := s.needle n
     let sl := d.rs (i.f 25 21)
     let src : CpyEnd := { va := true, addr := (d.rs (i.f 20 16)).toNat, stride := 0, j := 0 }
     let dst : CpyEnd := { va := true, addr := (d.rs (i.f 15 11)).toNat, stride := 0, j := 0 }
     fld sl 63 32 = 0 ∧ fld sl 31 0 ≤ 2 ^ 30 ∧ fld sl 31 0 ≠ 0 ∧ src.addr < 2 ^ 48 ∧ dst.addr < 2 ^ 48 ∧ d.rs (i.f 35 31) = 0x3FFF ∧
     let eng := s.copyEngine (clusterOf n)
     32 ≤ s.engineLoad eng) := by unfold State.stands; decide +kernel

theorem witness_CopiesAct_2 :
    (
     let s : State := { labN (w64 [(7, 0, 0x90), (10, 8, 3), (25, 21, 1), (35, 31, 2), (15, 11, 3)]) { s := [(1, 4096), (2, 0x3FFF), (3, 8192)] } with ctxs := [(0, { labCtx with act := [(0, pack 256 [(199, 199, 1), (153, 128, 1), (127, 112, 0x0100)])] })] }
     let n : Nat := 0
     let x : Upset := .none
     let i : Ins := labI (w64 [(7, 0, 0x90), (10, 8, 3), (25, 21, 1), (35, 31, 2), (15, 11, 3)])
     s.stands n 0x90 x i ∧ i.f 63 36 = 0 ∧ i.f 10 8 = 3 ∧
     let d := s.needle n
     let sl := d.rs (i.f 25 21)
     let src : CpyEnd := { va := true, addr := (d.rs (i.f 20 16)).toNat, stride := 0, j := 0 }
     let dst : CpyEnd := { va := true, addr := (d.rs (i.f 15 11)).toNat, stride := 0, j := 0 }
     fld sl 63 32 = 0 ∧ fld sl 31 0 ≤ 2 ^ 30 ∧ fld sl 31 0 ≠ 0 ∧ src.addr < 2 ^ 48 ∧ dst.addr < 2 ^ 48 ∧ d.rs (i.f 35 31) = 0x3FFF ∧
     let eng := s.copyEngine (clusterOf n)
     let a : XEnd := .va 0 0 0x0100_0000_0000_0000 0; let b : XEnd := .va 0 8192 0x0100_0000_0000_2000 0; s.engineLoad eng < 32 ∧ src.take s i.run.ctx (clusterOf n) 0 (fld sl 31 0) = .inl a ∧ dst.take s i.run.ctx (clusterOf n) 0 (fld sl 31 0) = .inl b ∧ (a.remote s && b.remote s) = false) := by unfold State.stands; decide +kernel

theorem witness_CopiesAct_3 :
    (
     let s : State := { labN (w64 [(7, 0, 0x98), (12, 8, 1), (17, 13, 2), (27, 23, 3)]) { s := [(1, 4096), (2, 3), (3, 0x3FFF)] } with ctxs := [(0, { labCtx with act := [(0, pack 256 [(199, 199, 1), (153, 128, 1), (127, 112, 0x0100)])] })] }
     let n : Nat := 0
     let k : Nat := 0
     let o : Nat := 3
     let x : Upset := .none
     let i : Ins := labI (w64 [(7, 0, 0x98), (12, 8, 1), (17, 13, 2), (27, 23, 3)])
     let f : Nat := 0x0100_0000_0000_1000
     s.stands n 0x98 x i ∧ i.f 63 28 = 0 ∧
     let d := s.needle n
     let so := d.rs (i.f 17 13)
     so.toNat < 2 ^ 14 ∧ d.rs (i.f 27 23) = 0x3FFF ∧ s.translate i.run.ctx (d.rs (i.f 12 8)).toNat 0 = .inl (k, f) ∧ fpaDev f = s.myId ∧ i.object s so = some o) ∧
    (
     let s : State := { lab with xfers := [(5, { who := .cpy 511, ended := true })] }
     let id : Nat := 5
     let n : Nat := 511
     let x : Xfer := { who := .cpy 511, ended := true }
     AMap.get? s.xfers id = some x ∧ x.who = .cpy n ∧ x.ended = true ∧ x.path = .none ∧ x.run = none) := by unfold State.stands; decide +kernel

theorem witness_CopiesAct_4 :
    (
     let s : State := { lab with needles := [(511, { run := some 7 })], xfers := [(5, { who := .cpy 511, ended := true, run := some 7, status := 1 })] }
     let id : Nat := 5
     let n : Nat := 511
     let r : Nat := 7
     let x : Xfer := { who := .cpy 511, ended := true, run := some 7, status := 1 }
     n < 512 ∧ AMap.get? s.xfers id = some x ∧ x.who = .cpy n ∧ x.ended = true ∧ x.path = .none ∧ x.sync = none ∧ x.run = some r ∧ (s.needle n).run = some r ∧ x.status ≠ 0 ∧ AMap.get? s.runs r = none) := by decide +kernel

theorem witness_ClustersAndRunsAct_1 :
    (
     let s : State := { lab with clus := [(63, { st := 1 })] }
     let c : Nat := 63
     c < 64 ∧ (s.clu c).st = 1) ∧
    (
     let s : State := lab
     let n : Nat := 511
     n < 512 ∧ bitAt (s.clu (clusterOf n)).present (needleSlot n) = true ∧ (s.needle n).run = none) ∧
    (
     let s : State := { lab with clus := [(63, { st := 4, repair := [7] })] }
     let c : Nat := 63
     let j : Nat := 7
     c < 64 ∧ (s.clu c).st = 4 ∧ (s.clu c).repair = [j] ∧ j < 8 ∧ (s.die (c / 16)).spares ≠ 0) ∧
    (
     let s : State := { lab with runs := [(1, labRun)] }
     let id : Nat := 1
     let n : Nat := 0
     let l : Nats := [1]
     let r : RunS := labRun
     AMap.get? s.runs id = some r ∧ r.left = n :: l) := by decide +kernel

theorem witness_ClustersAndRunsAct_2 :
    (
     let s : State := { lab with clus := [(0, { owner := some 0, st := 2 })], conns := [(0, { labConn with tx := [{ q := 2, given := 1 }] })], binds := [(2, { blk := pack 256 [(64, 64, 1)], slots := [(0, chunkMark 0 0 0)] })] }
     let cid : Nat := 0
     let chunk : Nat := 0
     let at_ : Nat := 0
     let n : Nat := 0
     let msn : BitVec 32 := 0
     let m : TxMsg := { q := 2, given := 1 }
     let b : Bind := { blk := pack 256 [(64, 64, 1)], slots := [(0, chunkMark 0 0 0)] }
     (s.conn cid).tx.find? (fun m => m.msn == msn && !m.fin && !m.settled && !m.held && decide (chunk < m.given)) = some m ∧ AMap.get? s.binds m.q = some b ∧ b.slots.find? (fun e => e.2 == chunkMark cid msn.toNat chunk) = some (at_, chunkMark cid msn.toNat chunk) ∧ s.runNeedle (at_ / 64) = some n ∧ s.xfers.any (fun x => x.2.who == .chunk cid msn.toNat chunk at_) = false ∧ AMap.get? m.outLen chunk = none ∧ s.runs.any (fun r => r.2.kind == 2 && r.2.conn == cid && r.2.msn == msn && r.2.chunk == chunk) = false) := by decide +kernel

theorem witness_ClustersAndRunsAct_3 :
    (
     let s : State := { lab with clus := [(0, { owner := some 0, st := 2 })], conns := [(0, { labConn with rx := [{ hq := [labPkt 1 0 []] }] })], binds := [(2 ^ 32, { blk := pack 256 [(64, 64, 1)] })] }
     let cid : Nat := 0
     let c : Nat := 0
     let k : Nat := 0
     let n : Nat := 0
     let msn : BitVec 32 := 0
     let m : RxMsg := { hq := [labPkt 1 0 []] }
     let b : Bind := { blk := pack 256 [(64, 64, 1)] }
     let p : Pkt := labPkt 1 0 []
     let rest : List Pkt := []
     (s.conn cid).rx.find? (fun m => m.msn == msn && m.settled.isNone && !m.hq.isEmpty) = some m ∧ AMap.get? s.binds (2 ^ 32 + cid) = some b ∧ m.hq = p :: rest ∧ s.pickSlot b b.slotCount = some (c, k) ∧ s.runNeedle c = some n ∧ b.faulted = false ∧ b.unbinding = none ∧ p.op = 1) := by decide +kernel

theorem witness_ClustersAndRunsAct_4 :
    (
     let s : State := { lab with clus := [(0, { owner := some 0, st := 2 })], colls := [(0, { act := pack 512 [(110, 102, 1)], run := some { chunks := [(0, { hook := some true })] } })], binds := [(collKey 0, { blk := pack 256 [(64, 64, 1)] })] }
     let slot : Nat := 0
     let chunk : Nat := 0
     let cl : Nat := 0
     let k : Nat := 0
     let n : Nat := 0
     let ph : Bool := true
     let bd : Bind := { blk := pack 256 [(64, 64, 1)] }
     let c := s.coll slot
     (c.chunk chunk).hook = some ph ∧ AMap.get? s.binds (collKey slot) = some bd ∧ c.run.isSome = true ∧ s.runs.any (fun r => r.2.kind == 4 && r.2.coll == slot && r.2.chunk == chunk) = false ∧ s.pickSlot bd (cbDepth c.act) = some (cl, k) ∧ s.runNeedle cl = some n) := by decide +kernel

theorem ends_of (g : Go) (n : Nat) (h : (match g with | .ends k => k == n | _ => false) = true) : g = .ends n := by
  cases g <;> simp_all

theorem on_of (g : Go) (p : Prog) (cs : Nats) (h : (match g with | .on q ds => decide (q = p) && ds == cs | _ => false) = true) : g = .on p cs := by
  cases g <;> simp_all

theorem witness_ClustersAndRunsAct_ends :
    let d : Desc := pack 512 [(127, 104, 10000001)]
    let l : LaunchW := { part := 0, launch := some d }
    let s : State := { lab with launches := [l] }
    s.launches = [l] ∧ l.launch = some d ∧ s.launchGo l d = .ends 4 := ⟨rfl, rfl, ends_of _ _ (by decide +kernel)⟩

theorem witness_ClustersAndRunsAct_on :
    let d : Desc := pack 512 [(94, 88, 1), (87, 72, 0x105)]
    let l : LaunchW := { part := 0, launch := some d }
    let s : State := { lab with
      clus := [(0, { owner := some 0, st := 2 })], parts := [(0, { labPart 0 with progs := [(5, labProg)] })], launches := [l] }
    s.launches = [l] ∧ l.launch = some d ∧ s.launchGo l d = .on labProg [0] := ⟨rfl, rfl, on_of _ _ _ (by decide +kernel)⟩

theorem witness_CollectivePacketsAct_1 :
    (
     let e := ((0, 1, 0) : Nat × Nat × Nat)
     let s : State := { lab with colls := [(0, labColl)] }
     let u : State := (({ lab with colls := [(0, labColl)] } : State).takeHere 0 { labCol 1 0 with trailer := 0 }).1
     let n : Nat := 0
     let p : Pkt := { labCol 1 0 with trailer := 0 }
     p.proto = 1 ∧ p.op = e.2.1 ∧ s.takeHere n p = (u, true) ∧
     p.crcOk = false) ∧
    (
     let e := ((0, 9, 0) : Nat × Nat × Nat)
     let s : State := { lab with colls := [(0, labColl)] }
     let u : State := (({ lab with colls := [(0, labColl)] } : State).takeHere 0 (labCol 9 1)).1
     let n : Nat := 0
     let p : Pkt := labCol 9 1
     p.proto = 1 ∧ p.op = e.2.1 ∧ s.takeHere n p = (u, true) ∧
     let k := ctSlot p
     let c := u.coll k
     let bad := c.st = 0 ∨ fld p.hdr 239 208 ≠ cbTag c.act ∨ cbN c.act ≤ ctRank p ∨ fld (c.table.getD (ctRank p) 0) 31 16 ≠ p.src
     p.crcOk = true ∧ (bad ∨ (ctSeq p ≠ c.seq ∧ (ctSeq p ≠ c.seq + 1 ∨ p.op = 9)))) ∧
    (
     let e := ((0, 1, 0) : Nat × Nat × Nat)
     let s : State := { lab with colls := [(0, labColl)] }
     let u : State := (({ lab with colls := [(0, labColl)] } : State).takeHere 0 (labCol 1 0)).1
     let n : Nat := 0
     let p : Pkt := labCol 1 0
     p.proto = 1 ∧ p.op = e.2.1 ∧ s.takeHere n p = (u, true) ∧
     let k := ctSlot p
     let c := u.coll k
     let bad := c.st = 0 ∨ fld p.hdr 239 208 ≠ cbTag c.act ∨ cbN c.act ≤ ctRank p ∨ fld (c.table.getD (ctRank p) 0) 31 16 ≠ p.src
     p.crcOk = true ∧ ¬bad ∧ ctSeq p = c.seq) := by decide +kernel

theorem witness_CollectivePacketsAct_2 :
    (
     let e := ((0, 1, 0) : Nat × Nat × Nat)
     let s : State := { lab with colls := [(0, labColl)] }
     let u : State := (({ lab with colls := [(0, labColl)] } : State).takeHere 0 (labCol 1 1)).1
     let n : Nat := 0
     let p : Pkt := labCol 1 1
     p.proto = 1 ∧ p.op = e.2.1 ∧ s.takeHere n p = (u, true) ∧
     let k := ctSlot p
     let c := u.coll k
     let bad := c.st = 0 ∨ fld p.hdr 239 208 ≠ cbTag c.act ∨ cbN c.act ≤ ctRank p ∨ fld (c.table.getD (ctRank p) 0) 31 16 ≠ p.src
     k < 64 ∧ p.crcOk = true ∧ ¬bad ∧ ctSeq p = c.seq + 1 ∧ p.op ≠ 9) ∧
    (
     let s : State := { lab with colls := [(0, labColl)] }
     let k : Nat := 0
     let p : Pkt := { hdr := pack 512 [(247, 247, 1), (175, 163, 1), (159, 136, 1), (135, 128, 1), (127, 120, 2), (63, 0, labDig)], payload := [1, 2, 3, 4, 5, 6, 7, 8, 9, 10, 11, 12, 13, 14, 15, 16] }
     k < 64 ∧
     let c := s.coll k
     let n := ctChunk p
     let q := ctRank p
     let x := c.chunk n
     let had := AMap.get x.kidGot q 0
     c.run.isSome = true ∧ c.st ≠ 4 ∧ ctDigest p = paramDigest c.act c.desc c.seq c.table ∧ (kidsOf c.act (ctTree p) (cbRank c.act)).contains q = true ∧ c.shapeOk p = true ∧ (upChunks c.act c.desc (ctTree p) q).contains n = true ∧ bitAt had (ctPkt p) = false ∧ had ||| BitVec.ofNat 64 (2 ^ ctPkt p) ≠ wholeBits (ctCount p)) ∧
    (
     let s : State := { lab with colls := [(0, { labColl with abortSt := 27 })] }
     let k : Nat := 0
     (s.coll k).abortSt ≠ 0) := by decide +kernel

theorem witness_CollectivePacketsAct_3 :
    (
     let s : State := { lab with colls := [(0, labColl)] }
     let k : Nat := 0
     let p : Pkt := { hdr := pack 512 [(247, 247, 1), (175, 163, 1), (63, 0, labDig)] }
     k < 64 ∧
     let c := s.coll k
     c.run.isSome = true ∧ (kidsOf c.act (ctTree p) (cbRank c.act)).contains (ctRank p) = true ∧ ctDigest p = paramDigest c.act c.desc c.seq c.table) ∧
    (
     let s : State := lab
     let k : Nat := 63
     k < 64 ∧ (s.coll k).run = none) := by decide +kernel

theorem witness_CollectiveTimersAct_1 :
    (
     let s : State := { lab with colls := [(0, { labColl with st := 2 })] }
     let k : Nat := 0
     (s.coll k).st = 2 ∧ s.tape.running = true ∧ roundUp (fld (s.coll k).desc 511 448) 1000 ≤ s.now.toNat) ∧
    (let s : State := { lab with ctxs := [(0, labHost)], binds := [(collKey 0, {})], colls := [(0, { labColl with run := some { d := pack 512 [(447, 408, 1)] } })] }
     let c := s.coll 0
     let b := c.act
     c.st = 3 ∧ 0 < chunkCount b c.desc ∧ contributes b c.desc (cbRank b) 0 = true ∧ (c.chunk 0).own = false ∧ (c.chunk 0).hook = none ∧
     0 ≤ c.ownLimit 0 ∧ cbHookContrib b = false ∧
     s.collRead 0 (fld c.desc 351 304 + srcElem b c.desc 0 * elemSize (cbElem b)) (chunkElems b c.desc 0 * elemSize (cbElem b)) [] [1, 2, 3, 4] .ok =
       (s, .inl [1, 2, 3, 4])) ∧
    (let s : State := { lab with binds := [(collKey 0, {})], colls := [(0, labColl)] }
     let c := s.coll 0
     let b := c.act
     c.st = 3 ∧ 1 < chunkCount b c.desc ∧ contributes b c.desc (cbRank b) 1 = true ∧ (c.chunk 1).own = false ∧ (c.chunk 1).hook = none ∧
     1 ≤ c.ownLimit 1 ∧
     s.collRead 0 (fld c.desc 351 304 + srcElem b c.desc 1 * elemSize (cbElem b)) (chunkElems b c.desc 1 * elemSize (cbElem b)) [] [] .ok = (s, .inr 1)) := by decide +kernel

theorem witness_CollectiveTimersAct_2 :
    (
     let s : State := { lab with colls := [(0, { labColl with run := some { d := labColl.desc, chunks := [(1, { kidGot := [(1, 1)], kidN := [(1, 2)] })] } })] }
     let k : Nat := 0
     let n : Nat := 1
     let q : Nat := 1
     k < 64 ∧
     let x := (s.coll k).chunk n
     let had := AMap.get x.kidGot q 0
     (s.coll k).run.isSome = true ∧ had ≠ 0 ∧ had ≠ wholeBits (AMap.get x.kidN q 0)) ∧
    (
     let s : State := { lab with colls := [(0, { labColl with run := some { d := labColl.desc, chunks := [(0, { upSent := true, resends := 7 })] } })] }
     let k : Nat := 0
     let n : Nat := 0
     let q : Nat := 1
     let c := s.coll k
     c.ackDest n = some q ∧ c.st = 3 ∧ (c.chunk n).upSent = true ∧ (c.chunk n).upAcked = false ∧ 7 ≤ (c.chunk n).resends) ∧
    (
     let s : State := { lab with colls := [(0, { labColl with run := some { d := labColl.desc, chunks := [(0, { upSent := true, resends := 6 })] } })] }
     let k : Nat := 0
     let n : Nat := 0
     let q : Nat := 1
     let c := s.coll k
     c.ackDest n = some q ∧ c.st = 3 ∧ (c.chunk n).upSent = true ∧ (c.chunk n).upAcked = false ∧ (c.chunk n).resends < 7) := by decide +kernel

theorem witness_CollectiveTimersAct_3 :
    (
     let s : State := { lab with colls := [(0, { labColl with run := some { d := labColl.desc, chunks := [(0, { rGot := 1, fetches := 7 })] } })] }
     let k : Nat := 0
     let n : Nat := 0
     let q : Nat := 1
     let c := s.coll k
     c.st = 3 ∧ sourceOf c.act c.desc (cbRank c.act) n = some q ∧ n < chunkCount c.act c.desc ∧ (c.chunk n).verified = false ∧ (c.chunk n).rGot ≠ 0 ∧ 7 ≤ (c.chunk n).fetches) ∧
    (
     let s : State := { lab with colls := [(0, { labColl with run := some { d := labColl.desc, chunks := [(0, { rGot := 1, fetches := 6 })] } })] }
     let k : Nat := 0
     let n : Nat := 0
     let q : Nat := 1
     let c := s.coll k
     c.st = 3 ∧ sourceOf c.act c.desc (cbRank c.act) n = some q ∧ n < chunkCount c.act c.desc ∧ (c.chunk n).verified = false ∧ (c.chunk n).rGot ≠ 0 ∧ (c.chunk n).fetches < 7) ∧
    (
     let s : State := { lab with colls := [(0, labColl)] }
     let k : Nat := 0
     (s.coll k).st = 3) ∧
    (
     let s : State := { lab with colls := [(0, { labColl with aborts := [(1, 7)] })] }
     let k : Nat := 0
     let r : Nat := 1
     let n : Nat := 7
     (s.coll k).aborts = [(r, n)]) := by decide +kernel

theorem witness_SyncAndDoorbellWritesAct_1 :
    (
     let s : State := lab
     let p : Nat := 0
     let i : Nat := 3
     let o : Nat := 3
     s.barOpen p = true ∧ Ranges.item (s.leaveIdle.part p).syncs i = some o) ∧
    (
     let s : State := lab
     let p : Nat := 0
     let i : Nat := 4
     s.barOpen p = true ∧ Ranges.item (s.leaveIdle.part p).syncs i = none) ∧
    (
     let s : State := lab
     let p : Nat := 1
     s.barOpen p = false) ∧
    (
     let s : State := { lab with host := { up := true, vfEnable := true } }
     let p : Nat := 63
     s.barOpen p = true ∧ p < 64 ∧ p ≠ 0) ∧
    (
     let s : State := { lab with host := { up := true, vfEnable := true } }
     let p : Nat := 63
     s.barOpen p = true ∧ p < 64) := by decide +kernel

theorem witness_SyncAndDoorbellWritesAct_2 :
    (
     let s : State := lab
     let p : Nat := 63
     s.barOpen 0 = true ∧ 1 ≤ p ∧ p ≤ 63) := by decide +kernel

theorem witness_TapeEventsAct_1 :
    (
     let s : State := { lab with straps := { tapeSrc := 1 } }
     s.straps.tapeSrc ≠ 3 ∧ s.tape.state = 2) ∧
    (
     let s : State := { lab with tape := { state := 1 } }
     s.straps.tapeSrc ≠ 3 ∧ s.tape.state = 1) ∧
    (
     let s : State := { lab with tape := { state := 3 } }
     s.tape.state = 3) ∧
    (
     let s : State := { lab with straps := { tapeSrc := 2 }, tape := { lab.tape with better := some 30, marks := [(30, { st := 2, cls := 0 })] } }
     let n : Nat := 30
     s.inBand = true ∧ s.tape.better = some n ∧ s.bestMark = some n ∧ n < 32) ∧
    (
     let s : State := { lab with parts := [(0, { labPart 0 with events := [(63, { armed := true, atNs := 4999999001, index := 3 })] })] }
     let p : Nat := 0
     let k : Nat := 63
     let o : Nat := 3
     p < 64 ∧ s.tape.running = true ∧
     let e := AMap.get (s.part p).events k {}
     e.due s.now.toNat = true ∧ Ranges.item (s.part p).syncs e.index = some o) := by decide +kernel

theorem witness_TapeEventsAct_2 :
    (lab.tape.state = 2 ∧ ({ lab with tape := { state := 3 } } : State).tape.state ≠ 2) ∧
    (let s : State := { lab with ports := [(31, { bookAct := { cycle := 1 } })] }
     (s.port 31).bookAct.cycle ≠ 0 ∧ s.tape.state = 2 ∧ (s.port 31).bookSusp = false) ∧
    (
     let s : State := { lab with straps := { tapeSrc := 1 }, tape := { lab.tape with ppsSec := some 5 } }
     let k : BitVec 64 := 5
     s.straps.tapeSrc = 1 ∧ s.tape.running = true ∧ s.tape.ppsSec = some k) ∧
    (
     let s : State := lab
     let m : PtpMsg := { twoStep := true }
     s.ptpMine m = true ∧ m.kind = 0 ∧
     m.twoStep = true) ∧
    (
     let s : State := lab
     let m : PtpMsg := {}
     s.ptpMine m = true ∧ m.kind = 0 ∧
     m.twoStep = false) := by decide +kernel

theorem witness_TapeEventsAct_3 :
    (
     let s : State := { lab with tape := { lab.tape with ptpWait := some (7, 3) } }
     let m : PtpMsg := { kind := 8, seq := 3 }
     let t2 : BitVec 64 := 7
     let q : BitVec 16 := 3
     s.ptpMine m = true ∧ s.tape.ptpWait = some (t2, q) ∧ q.toNat = m.seq ∧ m.kind = 8) ∧
    (
     let s : State := lab
     let m : PtpMsg := { kind := 9 }
     s.ptpMine m = true ∧ m.kind = 9) := by decide +kernel

theorem witness_QueuesAct_1 :
    (
     let s : State := lab
     let p : Nat := 0
     let q : Nat := 2
     let v : BitVec 64 := 16
     let u : QueueS := labQueue 1
     s.barOpen p = true ∧ s.leaveIdle.queue? (qkey p q) = some u ∧ q ≤ 65535 ∧ u.hostWritten = true ∧ bitAt v 63 = false ∧ (v.truncate 32 - u.ci).toNat ≤ u.size ∧ (v.truncate 32 : BitVec 32) ≠ u.pi) ∧
    (
     let s : State := lab
     let p : Nat := 0
     let q : Nat := 3
     let v : BitVec 64 := 0xFFFFFFFF_FFFFFFC0
     let u : QueueS := labQueue 3
     s.barOpen p = true ∧ s.leaveIdle.queue? (qkey p q) = some u ∧ q ≤ 65535 ∧ u.hostWritten = false ∧ (u.pi - v.truncate 32).toNat ≤ u.size ∧ u.isFault = false) ∧
    (
     let s : State := { lab with host := { up := true, vfEnable := true } }
     let p : Nat := 63
     let q : Nat := 65536
     let v : BitVec 64 := 0
     p < 64 ∧ s.barOpen p = true ∧ (s.leaveIdle.queue? (qkey p q) = none ∨ (∃ u, s.leaveIdle.queue? (qkey p q) = some u ∧ u.hostWritten = true ∧ (bitAt v 63 = true ∨ u.size < (v.truncate 32 - u.ci).toNat)))) ∧
    (
     let s : State := { lab with queues := [(qkey 0 2, { labQueue 1 with reading := true, pi := 5 })] }
     let p : Nat := 0
     let q : Nat := 2
     let r : BitVec 128 := 64
     let u : QueueS := { labQueue 1 with reading := true, pi := 5 }
     s.queue? (qkey p q) = some u ∧ u.reading = true ∧ u.again = false ∧ (r.truncate 32 - u.ci).toNat ≤ u.size ∧ (u.pi - u.ci).toNat ≤ (r.truncate 32 - u.ci).toNat) := by decide +kernel

theorem witness_QueuesAct_2 :
    (
     let s : State := { lab with queues := [(qkey 0 2, { labQueue 1 with reading := true, pi := 5 })] }
     let p : Nat := 0
     let q : Nat := 2
     let r : BitVec 128 := 65
     let u : QueueS := { labQueue 1 with reading := true, pi := 5 }
     s.queue? (qkey p q) = some u ∧ u.reading = true ∧ u.size < (r.truncate 32 - u.ci).toNat) ∧
    (
     let s : State := { lab with queues := [(qkey 0 2, { labQueue 1 with rereads := 1 })] }
     let p : Nat := 0
     let q : Nat := 2
     let u : QueueS := { labQueue 1 with rereads := 1 }
     s.queue? (qkey p q) = some u ∧ u.reading = false ∧ u.rereads ≠ 0 ∧ s.fetching p = true) ∧
    (
     let s : State := { lab with queues := [(qkey 0 2, { labQueue 1 with recPi := 5 })] }
     let p : Nat := 0
     let q : Nat := 2
     let u : QueueS := { labQueue 1 with recPi := 5 }
     s.queue? (qkey p q) = some u ∧ u.hostWritten = true ∧ u.recPi ≠ u.ci ∧ s.fetching p = true) ∧
    (
     let s : State := { lab with parts := [(0, { labPart 0 with paramWait := [({ tag := 5 }, 0x0001, 0, 0)] })] }
     let p : Nat := 0
     let tag : Nat := 5
     let op : Nat := 1
     let n : Nat := 0
     let va : Nat := 0
     let h : Issue := { tag := 5 }
     p < 64 ∧ (s.part p).paramWait.find? (fun w => w.1.tag == tag) = some (h, op, n, va)) := by decide +kernel

theorem witness_QueuesAct_3 :
    (
     let s : State := { lab with queues := [(qkey 0 2, { labQueue 1 with ci := 5 })] }
     let p : Nat := 0
     let q : Nat := 2
     let u : QueueS := { labQueue 1 with ci := 5 }
     s.queue? (qkey p q) = some u ∧ u.hostWritten = true ∧ u.ciRep ≠ u.ci) ∧
    (
     let s : State := { lab with funcs := [(0, { adminBast := { cfg := pack 64 [(12, 8, 16), (4, 0, 6)] } })] }
     let p : Nat := 0
     p < 64 ∧ s.barOpen p = true ∧ (s.func p).adminState = 0 ∧ (s.func p).adminBast.ok = true) ∧
    (
     let s : State := lab
     let p : Nat := 0
     p < 64 ∧ s.barOpen p = true ∧ (s.func p).adminState = 0 ∧ (s.func p).adminBast.ok = false) ∧
    (
     let s : State := { lab with funcs := [(0, { adminState := 1 })] }
     let p : Nat := 0
     p < 64 ∧ s.barOpen p = true ∧ (s.func p).adminState = 1 ∧ (s.part p).long = [] ∧ (s.part p).paramWait = [] ∧ (s.part p).owed = []) ∧
    (
     let s : State := { lab with parts := [(0, { labPart 0 with long := [{ tag := 5, opcode := 0x0610 }] })] }
     let p : Nat := 0
     let tag : Nat := 5
     let l : LongC := { tag := 5, opcode := 0x0610 }
     (s.part p).running.find? (fun l => l.tag.toNat == tag) = some l ∧ l.opcode = 0x0610) := by decide +kernel

theorem witness_QueuesAct_4 :
    (
     let s : State := { lab with parts := [(0, { labPart 0 with long := [{ tag := 5, opcode := 0x0A10 }] })] }
     let p : Nat := 0
     let tag : Nat := 5
     let l : LongC := { tag := 5, opcode := 0x0A10 }
     (s.part p).running.find? (fun l => l.tag.toNat == tag) = some l ∧ l.opcode = 0x0A10) ∧
    (
     let s : State := { lab with parts := [(0, { labPart 0 with long := [{ tag := 5, opcode := 0x0A20 }] })] }
     let p : Nat := 0
     let tag : Nat := 5
     let l : LongC := { tag := 5, opcode := 0x0A20 }
     (s.part p).running.find? (fun l => l.tag.toNat == tag) = some l ∧ l.opcode = 0x0A20) ∧
    (
     let s : State := lab
     let p : Nat := 0
     s.barOpen p = true ∧ (s.func p).mbox.go = false ∧ (p = 0 → s.thimble.booting = false)) ∧
    (
     let s : State := { lab with funcs := [(0, { mbox := { go := true } })] }
     let p : Nat := 0
     (s.func p).mbox.go = true) := by decide +kernel

theorem witness_PartitionEventsAct_1 :
    (
     let s : State := { lab with parts := [(63, { labPart 0 with resetStep := 9 })] }
     let p : Nat := 63
     let n : Nat := 9
     p < 64 ∧ (s.part p).resetStep = n ∧ n ≠ 0 ∧ n < 10) ∧
    (
     let s : State := { lab with parts := [(63, { labPart 0 with resetStep := 10 })] }
     let p : Nat := 63
     let n : Nat := 10
     p < 64 ∧ (s.part p).resetStep = n ∧ n ≠ 0 ∧ n = 10) ∧
    (
     let s : State := { lab with units := [(5, { st := 2, owner := 1 })], parts := [(1, { labPart 0 with units := [5, 6], destroy := some hd })] }
     let k : Nat := 5
     let p : Nat := 1
     let h : Issue := hd
     p < 64 ∧ (s.unit k).st = 2 ∧ (s.unit k).owner = p ∧ s.units.any (fun e => decide (e.1 < k) && e.2.st == 2 && e.2.owner == p) = false ∧ (s.part p).destroy = some h ∧ (∃ m ∈ (s.part p).units, m ≠ k)) ∧
    (lab.host.vfEnable = false ∧ 5 ≤ lab.rst.stage.toNat ∧ lab.rst.stage ≠ 7) ∧
    (let s : State := { lab with host := { up := true, vfEnable := true }, parts := [] }
     s.host.vfEnable = true ∧ (∀ p ∈ List.range' 1 63, (s.part p).held = false)) := by decide +kernel

theorem witness_PartitionEventsAct_2 :
    (
     let s : State := { lab with host := { up := true, vfEnable := true } }
     let p : Nat := 1
     1 ≤ p ∧ p ≤ 63 ∧ s.host.vfEnable = true ∧ (s.part p).held = true) ∧
    (
     let s : State := { lab with host := { up := true, vfEnable := true } }
     let p : Nat := 63
     1 ≤ p ∧ p ≤ 63 ∧ s.host.vfEnable = true ∧ (s.part p).held = false) ∧
    (
     let s : State := lab
     s.host.vfEnable = false) ∧
    (
     let s : State := lab
     let p : Nat := 63
     s.rst.stage = 6 ∧ p < 64 ∧ (s.part p).st ≠ 5 ∧ (s.part p).resetStep = 0) ∧
    (
     let s : State := { lab with rst := { stage := 5 } }
     s.rst.stage ≠ 6) := by decide +kernel

theorem witness_HostLinkEventsAct_1 :
    (
     let s : State := lab
     s.host.up = true) ∧
    (
     let s : State := { lab with host := {} }
     let width : Nat := 16
     let speed : Nat := 7
     s.host.up = false ∧ s.pins.perstN = true ∧ s.host.riding = false ∧ 16 ≤ width ∧ 7 ≤ speed) ∧
    (
     let s : State := { lab with host := { riding := true } }
     s.host.up = false ∧ s.pins.perstN = true ∧ s.host.riding = true) ∧
    (
     let s : State := { lab with host := { riding := true } }
     s.host.riding = true ∧ s.host.up = false) ∧
    (
     let s : State := { lab with rst := { dormant := true } }
     s.rst.dormant = true) := by decide +kernel

theorem witness_HostLinkEventsAct_2 :
    (
     let s : State := lab
     s.rst.dormant = false ∧ s.rst.halted = false) ∧
    (
     let s : State := { lab with rst := { halted := true } }
     s.rst.dormant = false ∧ s.rst.halted = true) ∧
    (
     let s : State := { lab with rst := { perstHold := true } }
     s.rst.perstHold = true) ∧
    (
     let s : State := { lab with host := { waits := [{ addr := 0, func := 0, q := 0, entry := 0, stage := 1 }] } }
     let p : Nat := 0
     let w : HWait := { addr := 0, func := 0, q := 0, entry := 0, stage := 1 }
     s.host.waits.find? (fun w => w.func == p && (w.stage == 0 || w.stage == 1)) = some w ∧ w.stage = 1) ∧
    (
     let s : State := { lab with host := { reads := [{ addr := 64, len := 8 }] } }
     let i : Nat := 0
     let r : HRead := { addr := 64, len := 8 }
     s.host.reads[i]? = some r ∧ s.isolated 8 (Config.dmaOf r.func) = false ∧ r.coh = false) := by decide +kernel

theorem witness_HostLinkEventsAct_3 :
    (
     let s : State := { lab with host := { reads := [{ addr := 64, len := 8 }] } }
     let i : Nat := 0
     let r : HRead := { addr := 64, len := 8 }
     let rd : ReadEnd := .ur
     s.host.reads[i]? = some r ∧ s.isolated 8 (Config.dmaOf r.func) = false ∧ rd ≠ .ok) ∧
    (
     let s : State := { lab with host := { cache := [(64, {})] } }
     let a : Nat := 127
     let c : CLine := {}
     AMap.get? s.host.cache (a / 64 * 64) = some c ∧ c.st = 0 ∧ c.merge = [] ∧ s.host.reads = [] ∧ s.host.waits = [] ∧ s.xfers = [] ∧ s.conns = []) ∧
    (
     let s : State := { lab with host := { cache := [(64, { st := 2 })] } }
     let a : Nat := 127
     let c : CLine := { st := 2 }
     AMap.get? s.host.cache (a / 64 * 64) = some c ∧ c.st ≠ 0 ∧ c.merge = []) ∧
    (
     let s : State := { lab with host := { cache := [(64, { st := 2 })] } }
     let a : Nat := 127
     let c : CLine := { st := 2 }
     AMap.get? s.host.cache (a / 64 * 64) = some c ∧ c.st ≠ 0) ∧
    (
     let s : State := lab
     let p : Nat := 0
     s.funcOn p = true) := by decide +kernel

theorem witness_HostLinkEventsAct_4 :
    (
     let s : State := lab
     let p : Nat := 0
     s.funcOn p = true ∧ s.host.bmeWait.filter (fun r => r.func == p) = []) ∧
    (
     let s : State := lab
     let p : Nat := 0
     let v : Nat := 2047
     s.funcOn p = true ∧ v ≤ 2047 ∧ (s.func p).msixPend.contains v = false) := by decide +kernel

theorem witness_BootingActs_1 :
    (
     let s : State := { lab with rst := { stage := 1 }, thimble := { state := 1, booting := true } }
     s.thimble.booting = true ∧ s.fetchingBundle = true ∧ (s.func 0).mbox.go = false) ∧
    (
     let s : State := { lab with straps := { bootSrc := 1 }, rst := { stage := 1 }, thimble := { state := 1 } }
     s.netBoot = true) ∧
    (
     let s : State := { lab with straps := { bootSrc := 1 }, rst := { stage := 1 }, thimble := { state := 1 } }
     let f : BootFrame := { kind := 1 }
     s.netBoot = true ∧ f.kind = 1 ∧ s.thimble.netIp = none) ∧
    (
     let s : State := { lab with straps := { bootSrc := 1 }, rst := { stage := 1 }, thimble := { state := 1, netFile := true, netBlock := 65535, netBytes := 2 ^ 25 } }
     let f : BootFrame := { kind := 3, len := 1 }
     s.netBoot = true ∧ f.kind = 3 ∧ s.thimble.netFile = true ∧ f.block ≠ s.thimble.netBlock % 65536 ∧ f.block = (s.thimble.netBlock + 1) % 65536 ∧
     2 ^ 25 < s.thimble.netBytes + f.len) ∧
    (
     let s : State := { lab with straps := { bootSrc := 1 }, rst := { stage := 1 }, thimble := { state := 1, netFile := true, netBlock := 65535, netBytes := 2 ^ 25 - 511 } }
     let f : BootFrame := { kind := 3, len := 511 }
     s.netBoot = true ∧ f.kind = 3 ∧ s.thimble.netFile = true ∧ f.block ≠ s.thimble.netBlock % 65536 ∧ f.block = (s.thimble.netBlock + 1) % 65536 ∧
     s.thimble.netBytes + f.len ≤ 2 ^ 25 ∧ f.len < f.blksize) := by decide +kernel

theorem witness_BootingActs_2 :
    (
     let s : State := { lab with straps := { bootSrc := 3 }, rst := { stage := 1 } }
     let data : Bytes := [0, 0, 0, 2]
     s.pins.powered = true ∧ s.recoveryOpen = true ∧ data.length = 4 ∧ natLE data ≤ 2 ^ 25) ∧
    (
     let s : State := { lab with straps := { bootSrc := 3 }, rst := { stage := 1 }, i3c := { status := 1, len := 512, got := 255 } }
     let data : Bytes := List.replicate 256 0
     s.pins.powered = true ∧ s.recoveryOpen = true ∧ data.length = 256 ∧ s.i3c.status = 1 ∧ s.i3c.got + 256 < s.i3c.len.toNat) ∧
    (
     let s : State := { lab with straps := { bootSrc := 3 }, rst := { stage := 1 }, i3c := { status := 1, len := 512, got := 256 } }
     let data : Bytes := List.replicate 256 0
     s.pins.powered = true ∧ s.recoveryOpen = true ∧ data.length = 256 ∧ s.i3c.status = 1 ∧ s.i3c.len.toNat ≤ s.i3c.got + 256) ∧
    (
     let s : State := lab
     s.pins.powered = true) ∧
    (
     let s : State := lab
     let k : Nat := 1
     s.pins.powered = true ∧ k < 2) := by decide +kernel

theorem witness_BootingActs_3 :
    (
     let s : State := { lab with thimble := { state := 3, bundle := some {} } }
     let b : Bundle := {}
     s.thimble.bundle = some b ∧ s.rst.stage = 6 ∧ s.thimble.state = 3 ∧ s.thimble.bootOk = false ∧ s.clockNs ≤ s.thimble.releasedAt + 10 * 10 ^ 9) := by decide +kernel

theorem witness_SecureMailboxesAct_1 :
    (
     let s : State := lab
     let m : Nat := 3
     m < 4 ∧ s.barOpen 0 = true ∧ (s.secure m).go = false) ∧
    (
     let s : State := { lab with thimble := { kekEpoch := 15 }, secMbox := [(3, { data := [(2, 15)] })] }
     let m : Nat := 3
     m < 4 ∧ s.barOpen 0 = true ∧ (s.secure m).go = false ∧
     let w (k : Nat) : State := (s.secNamed m k).updSecure m (fun b => { b with go := true, sender := 0 })
     s.thimble.kekEpoch.toNat < 16 ∧ (s.secure m).word 2 = s.thimble.kekEpoch.toNat ∧ s.rst.held = none) ∧
    (
     let s : State := { lab with secMbox := [(3, { data := [(2, 1)] })] }
     let m : Nat := 3
     m < 4 ∧ s.barOpen 0 = true ∧ (s.secure m).go = false ∧
     let w (k : Nat) : State := (s.secNamed m k).updSecure m (fun b => { b with go := true, sender := 0 })
     (s.secure m).word 2 ≠ s.thimble.kekEpoch.toNat) ∧
    (let s : State := { lab with secMbox := [(4, { go := true })] }
     (5 ≤ s.rst.stage.toNat ∧ s.rst.halted = false ∧ (s.secure 5).go = false ∧ (∀ k ∈ ([4] : Nats), (s.secure k).go = true))) ∧
    (
     let s : State := lab
     let m : Nat := 7
     4 ≤ m ∧ m ≤ 7 ∧ s.barOpen 0 = true) := by decide +kernel

theorem witness_SecureMailboxesAct_2 :
    (
     let s : State := { lab with rst := { stage := 6, nvBusy := some 0 } }
     s.rst.nvBusy = some 0 ∧ s.rst.held = none) ∧
    (
     let s : State := { lab with rst := { stage := 6, nvBusy := some 0, held := some (true, 0, 0, 0, 0) } }
     s.rst.nvBusy = some 0 ∧ s.rst.held.isSome = true) ∧
    (
     let s : State := { lab with rst := { stage := 6, nvBusy := some 1, held := some (true, 0, 0, 0, 0) } }
     let k : Nat := 0
     s.rst.nvBusy = some (k + 1) ∧ s.rst.held.isSome = true) ∧
    (
     let s : State := { lab with rst := { stage := 6, nvBusy := some 2 } }
     let k : Nat := 1
     s.rst.nvBusy = some (k + 1) ∧ s.rst.held = none) := by decide +kernel

theorem witness_SpdmAnswers_1 :
    (
     let s : State := lab
     let bus : Nat := 0
     let m : SpdmReq := { version := 0x10 }
     s.spdmOpen bus = true ∧ m.version = 0x10) ∧
    (
     let s : State := { lab with thimble := { spdm := [(1, { st := 1 })] } }
     let bus : Nat := 1
     let m : SpdmReq := { version := 0x13 }
     s.spdmOpen bus = true ∧ (s.spdm bus).st = 1 ∧ (m.version = 0x12 ∨ m.version = 0x13)) ∧
    (
     let s : State := { lab with thimble := { spdm := [(0, { st := 2, version := 0x12 })] } }
     let bus : Nat := 0
     let m : SpdmReq := { a := 8, b := 2 }
     s.spdmOpen bus = true ∧ (s.spdm bus).st = 2 ∧ m.version = (s.spdm bus).version ∧ m.a.testBit 3 = true ∧ m.b.testBit 1 = true) ∧
    (
     let s : State := lab
     let bus : Nat := 2
     s.spdmOpen bus = false) ∧
    (
     let s : State := lab
     let bus : Nat := 0
     s.spdmOpen bus = true ∧ (s.spdm bus).st ≠ 3) := by decide +kernel

theorem witness_SpdmAnswers_2 :
    (
     let s : State := { lab with thimble := { spdm := [(0, { st := 3, version := 0x13 })] } }
     let bus : Nat := 0
     let m : SpdmReq := {}
     s.spdmOpen bus = true ∧ (s.spdm bus).st = 3 ∧ m.version ≠ (s.spdm bus).version) ∧
    (
     let s : State := { lab with thimble := { spdm := [(0, { st := 3, version := 0x12 })] } }
     let bus : Nat := 0
     let m : SpdmReq := {}
     s.spdmOpen bus = true ∧ (s.spdm bus).st = 3 ∧ m.version = (s.spdm bus).version) ∧
    (
     let s : State := { lab with thimble := { spdm := [(0, { st := 3, version := 0x12 })] } }
     let bus : Nat := 0
     let m : SpdmReq := {}
     (s.spdm bus).st = 3 ∧ m.version = (s.spdm bus).version ∧ s.thimble.idLost = false) ∧
    (
     let s : State := { lab with thimble := { spdm := [(0, { st := 3, version := 0x12 })] } }
     let bus : Nat := 0
     let m : SpdmReq := {}
     (s.spdm bus).st = 3 ∧ m.version = (s.spdm bus).version ∧ s.thimble.idLost = false ∧ s.thimble.reports.length < 5) ∧
    (
     let s : State := { lab with thimble := { spdm := [(0, { st := 3, version := 0x12 })], reports := List.replicate 5 (none, 0, 0) } }
     let bus : Nat := 0
     let m : SpdmReq := {}
     (s.spdm bus).st = 3 ∧ m.version = (s.spdm bus).version ∧ s.thimble.idLost = false ∧ 5 ≤ s.thimble.reports.length) := by decide +kernel

theorem witness_SpdmAnswers_3 :
    (
     let s : State := { lab with thimble := { spdm := [(0, { st := 3, version := 0x12 })] } }
     let bus : Nat := 0
     let m : SpdmReq := {}
     (s.spdm bus).st = 3 ∧ m.version = (s.spdm bus).version ∧ s.thimble.idLost = false ∧ m.param1 = 0) ∧
    (
     let s : State := { lab with thimble := { spdm := [(0, { st := 3, version := 0x12 })], idLost := true } }
     let bus : Nat := 0
     let m : SpdmReq := {}
     (s.spdm bus).st = 3 ∧ m.version = (s.spdm bus).version ∧ s.thimble.idLost = true) := by decide +kernel

theorem witness_ManagementEventsAct_1 :
    (
     let s : State := { lab with mgmt := { txq := [{}] } }
     s.macSends = true ∧ s.mgmt.mode = false ∧ s.mgmt.txq ≠ []) ∧
    (
     let s : State := { lab with mgmt := { txq := [{}], attempts := 14 } }
     s.macSends = true ∧ s.mgmt.mode = false ∧ s.mgmt.txq ≠ [] ∧ s.mgmt.attempts < 15) ∧
    (
     let s : State := { lab with mgmt := { txq := [{}], attempts := 15 } }
     s.macSends = true ∧ s.mgmt.mode = false ∧ s.mgmt.txq ≠ [] ∧ 15 ≤ s.mgmt.attempts) ∧
    (
     let s : State := { lab with mgmt := { mode := true } }
     s.macOn = true ∧ s.mgmt.mode = true) ∧
    (
     let s : State := lab
     s.devidValid = true ∧ s.tackOn = true) := by decide +kernel

theorem witness_ManagementEventsAct_2 :
    (
     let s : State := lab
     let c : Nat := 15
     s.rowMaster = false ∧ s.tackOn = true ∧ c ≤ 15 ∧ s.mgmt.lastWord ≠ some c) ∧
    (
     let s : State := { lab with devidValid := false, mgmt := { lastWord := some 15 } }
     let c : Nat := 15
     s.rowMaster = false ∧ s.tackOn = true ∧ c ≤ 15 ∧ s.mgmt.lastWord = some c ∧ s.mgmt.predCol ≠ some c ∧ s.devidValid = false) ∧
    (
     let s : State := { lab with devidValid := false, mgmt := { predCol := some 15 } }
     let c : Nat := 15
     s.rowMaster = false ∧ s.devidValid = false ∧ s.tackOn = true ∧ s.mgmt.predCol = some c) ∧
    (
     let s : State := { lab with straps := { rowMasterN := false } }
     let f : MgmtFrame := { body := [1, 14] }
     s.macOn = true ∧ f.sumsOk = true ∧ tackType f = 1 ∧ s.rowMaster = true ∧ s.tackOn = true ∧ s.devidValid = true ∧ tackPred f < 15 ∧ s.mgmt.given.any (fun g => g.1 == tackPred f + 1 && g.2 != tackEui f) = false) ∧
    (
     let s : State := { lab with devidValid := false }
     let f : MgmtFrame := { body := [2, 0, 0, 0, 0, 0, 0, 0, 0, 1] }
     s.macOn = true ∧ f.sumsOk = true ∧ tackType f = 2 ∧ tackEui f = s.mgmt.eui ∧ s.tackOn = true ∧ s.rowMaster = false ∧ s.devidValid = false ∧
     let id := tackId f % 2 ^ 15 + b2n s.spine * 2 ^ 15
     validId id = true) := by decide +kernel

theorem witness_ManagementEventsAct_3 :
    (
     let s : State := { lab with straps := { rowMasterN := false } }
     let f : MgmtFrame := { body := [3] }
     s.macOn = true ∧ f.sumsOk = true ∧ tackType f = 3 ∧ s.rowMaster = true) ∧
    (
     let s : State := { lab with mgmt := { offers := [(5, 1, 7)] } }
     let e : BitVec 48 := 5
     let c : Nat := 1
     let n : Nat := 7
     s.tackOn = true ∧ s.mgmt.offers.find? (fun o => o.1.toNat == e.toNat) = some (e, c, n) ∧ n < 8) ∧
    (
     let s : State := { lab with mgmt := { offers := [(5, 1, 8)] } }
     let e : BitVec 48 := 5
     let c : Nat := 1
     let n : Nat := 8
     s.tackOn = true ∧ s.mgmt.offers.find? (fun o => o.1.toNat == e.toNat) = some (e, c, n) ∧ 8 ≤ n) ∧
    (let s : State := { lab with keys := [(0, { ty := 1 })], mgmt := { ip := 1, oobSlot := 0, oobLast := [(9, default, [])] } }
     let f : MgmtFrame := { kind := 2, body := [1, 0, 0, 0, 9] ++ List.replicate 31 0 }
     s.macOn = true ∧ f.sumsOk = true ∧ f.kind = 2 ∧ s.oobOn = true ∧ 36 ≤ f.body.length ∧
     let head := f.body.take (f.body.length - 16)
     let word := natLE ((head.drop 4).take 8)
     natLE (head.take 2) = 1 ∧ word < 2 ^ 63 ∧ s.mgmt.oobLast.find? (fun e => e.1 == word) = some (9, default, [])) := by decide +kernel

theorem witness_ManagementEventsAct_4 :
    (let s : State := { lab with keys := [(0, { ty := 1 })], mgmt := { ip := 1, oobSlot := 0 } }
     let f : MgmtFrame := { kind := 2, body := [1, 0, 0, 0, 9] ++ List.replicate 31 0 }
     s.macOn = true ∧ f.sumsOk = true ∧ f.kind = 2 ∧ s.oobOn = true ∧ 36 ≤ f.body.length ∧
     let head := f.body.take (f.body.length - 16)
     let word := natLE ((head.drop 4).take 8)
     natLE (head.take 2) = 1 ∧ word < 2 ^ 63 ∧ s.mgmt.oobLast.find? (fun e => e.1 == word) = none) := by decide +kernel

theorem witness_ResetsAct_1 :
    (
     let s : State := { lab with pins := { powered := false } }
     s.pins.powered = false) ∧
    (
     let s : State := lab
     s.pins.powered = true) ∧
    (
     let ns : Nat := 199
     ns < 200) ∧
    (
     let ns : Nat := 1000
     1000 ≤ ns) ∧
    (
     let ns : Nat := 999
     200 ≤ ns ∧ ns < 1000) := by decide +kernel

theorem witness_ResetsAct_2 :
    (
     let s : State := { lab with pins := { resetN := false } }
     s.pins.powered = true ∧ s.rst.nvBusy = none ∧ s.pins.resetN = false) ∧
    (
     let s : State := { lab with rst := { nvBusy := some 0 } }
     s.pins.powered = true ∧ s.rst.nvBusy.isSome = true) ∧
    (
     let s : State := { lab with rst := { inReset := true } }
     s.rst.inReset = true ∧ s.pins.resetN = true ∧ s.pins.oscOk = true ∧ s.pins.powered = true) ∧
    (
     let s : State := lab
     s.pins.oscOk = true) ∧
    (
     let s : State := lab
     s.straps.clkMode.toNat ≤ 1 ∧ s.alive = true) := by decide +kernel

theorem witness_ResetsAct_3 :
    (
     let s : State := lab
     let v : Nat := 0xA5C3_0000_0000_0002
     s.pins.powered = true ∧ s.rst.inReset = false ∧ s.rst.dormant = false ∧ 5 ≤ s.rst.stage.toNat ∧ (s.part 0).resetStep = 0 ∧
     v / 2 ^ 48 % 2 ^ 16 = 0xA5C3 ∧ v % 4 = 2) ∧
    (
     let s : State := lab
     let v : Nat := 0xA5C3_0000_0000_0001
     s.pins.powered = true ∧ s.rst.inReset = false ∧ s.rst.dormant = false ∧ 5 ≤ s.rst.stage.toNat ∧ (s.part 0).resetStep = 0 ∧
     v / 2 ^ 48 % 2 ^ 16 = 0xA5C3 ∧ v % 4 = 1) ∧
    (
     let s : State := lab
     let v : Nat := 0xA5C3_0000_0000_0003
     s.pins.powered = true ∧ s.rst.inReset = false ∧ s.rst.dormant = false ∧ 5 ≤ s.rst.stage.toNat ∧ (s.part 0).resetStep = 0 ∧
     (v / 2 ^ 48 % 2 ^ 16 ≠ 0xA5C3 ∨ v % 4 = 3)) ∧
    (
     let s : State := { lab with rst := { stage := 6, warm := true } }
     let cause : Nat := 15
     cause < 16 ∧ s.alive = true ∧ s.rst.held = none ∧ s.rst.stage = 6 ∧ s.rst.nvBusy = none ∧ s.warmRefused = true) ∧
    (
     let s : State := lab
     let cause : Nat := 15
     cause < 16 ∧ s.alive = true ∧ s.rst.held = none ∧ s.rst.stage = 6 ∧ s.rst.nvBusy = none ∧ s.warmRefused = false) := by decide +kernel

theorem witness_StagesFollowInOrder_1 :
    (
     let s : State := { lab with rst := {} }
     s.alive = true ∧ s.rst.stage = 0) ∧
    (
     let s : State := { lab with rst := { stage := 1 }, thimble := { state := 4 } }
     let u : State := { lab with rst := { stage := 1 }, thimble := { state := 4 } }
     let b : Bundle := {}
     let ok : Bool := true
     s.alive = true ∧ s.rst.stage = 1 ∧ s.thimbleStage b ok = (u, false)) ∧
    (let s : State := { lab with rst := { stage := 1, bundleReady := true }, thimble := { bundle := some {} } }
     s.alive = true ∧ s.rst.stage = 1 ∧ (s.thimbleStage {} true).2 = true) ∧
    (
     let s : State := { lab with rst := { stage := 2 } }
     s.alive = true ∧ s.rst.stage = 2 ∧ s.rst.warm = false) ∧
    (
     let s : State := { lab with rst := { stage := 3 } }
     s.alive = true ∧ s.rst.stage = 3 ∧ s.rst.warm = false) := by decide +kernel

theorem witness_StagesFollowInOrder_2 :
    (
     let s : State := { lab with rst := { stage := 3 } }
     s.alive = true ∧ s.rst.stage = 3) ∧
    (
     let s : State := { lab with rst := { stage := 4, hubFailed := true } }
     s.alive = true ∧ s.rst.stage = 4 ∧ s.rst.hubFailed = true) ∧
    (
     let s : State := { lab with rst := { stage := 4 } }
     s.alive = true ∧ s.rst.stage = 4 ∧ s.rst.hubFailed = false) ∧
    (
     let s : State := { lab with rst := { stage := 5 } }
     s.alive = true ∧ s.rst.stage = 5) ∧
    (
     let s : State := lab
     s.rst.heldParts = [] ∧ s.rst.heldBlocks = []) := by decide +kernel

theorem witness_StagesFollowInOrder_3 :
    (
     let s : State := lab
     (s.alive = false ∨ 6 ≤ s.rst.stage.toNat)) := by decide +kernel

theorem witness_PowerActs_1 :
    (
     let s : State := { lab with rst := { dormant := true } }
     let ns : Nat := 1000
     s.pins.powered = true ∧ 1000 ≤ ns ∧ s.rst.dormant = true) ∧
    (
     let s : State := { lab with power := { state := 2 } }
     let ns : Nat := 1000
     s.pins.powered = true ∧ 1000 ≤ ns ∧ s.rst.dormant = false ∧ s.power.state = 2) ∧
    (
     let s : State := { lab with rst := { dormant := true }, mgmt := { wakes := [(7, { en := true, len := 1, mask := 1, pat := [5] })] } }
     let bs : Bytes := [5]
     s.rst.dormant = true ∧ s.mgmt.wakes.any (fun w => w.2.hits bs) = true) ∧
    (
     let s : State := lab
     s.rst.stage = 6 ∧ s.power.state = 0 ∧ s.runs = [] ∧ s.xfers = [] ∧ s.launches = [] ∧ (∀ e ∈ s.queues, e.2.work = [])) ∧
    (
     let s : State := { lab with power := { state := 3, target := some 3 } }
     s.power.state = 3 ∧ s.power.issue = none ∧ s.power.target = some 3) := by decide +kernel

theorem witness_PowerActs_2 :
    (
     let s : State := { lab with power := { state := 3, target := some 2 } }
     s.power.state = 3 ∧ s.power.issue = none ∧ s.power.target = some 2) ∧
    (
     let s : State := { lab with power := { state := 3, target := some 0 } }
     s.power.state = 3 ∧ s.power.issue = none ∧ s.power.target = some 0) ∧
    (
     let s : State := lab
     let a : Nat := 1080
     let v : Nat := 255
     s.alive = true ∧ 2 ≤ s.rst.stage.toNat ∧ a ≤ s.power.capW.toNat ∧ s.power.capW.toNat ≤ a + 20 ∧ a ≤ 1150 ∧ v ≤ 255) ∧
    (
     let s : State := { lab with power := { overNs := 9, capW := 300 } }
     let a : Nat := 301
     let v : Nat := 0
     s.alive = true ∧ 2 ≤ s.rst.stage.toNat ∧ s.power.capW.toNat < a ∧ 9 ≤ s.power.overNs ∧ a ≤ 1150 ∧ v ≤ 255) ∧
    (
     let s : State := lab
     let ts : Nats := [30, 40, 50]
     s.alive = true ∧ 2 ≤ s.rst.stage.toNat ∧
     let is := List.zip (List.range 7) ts
     (∀ e ∈ is, tempLevel e.1 e.2 ≠ 3)) := by decide +kernel

theorem witness_PowerActs_3 :
    (
     let s : State := lab
     let ts : Nats := [200]
     let k : Nat := 0
     let t : Nat := 200
     s.alive = true ∧ 2 ≤ s.rst.stage.toNat ∧
     let is := List.zip (List.range 7) ts
     is.find? (fun e => tempLevel e.1 e.2 == 3) = some (k, t)) := by decide +kernel

theorem witness_FaultLadderActs_1 :
    (
     let k : Nat := 1
     let i : Nat := 127
     blockOk k i = true) ∧
    (
     let k : Nat := 6
     let i : Nat := 0
     blockOk k i = true ∧ (k = 1 ∨ k = 2 ∨ k = 5 ∨ k = 6 ∨ k = 8)) ∧
    (
     let i : Nat := 3
     i < 4) ∧
    (
     let s : State := { lab with pins := { powered := false } }
     s.alive = false) ∧
    (
     let s : State := { lab with rst := { stage := 5 } }
     s.alive = true ∧ s.rst.stage ≠ 6) := by decide +kernel

theorem witness_FaultLadderActs_2 :
    (
     let s : State := lab
     s.alive = true ∧ s.rst.stage = 6 ∧ s.recovery = none) ∧
    (let s : State := { lab with faults := { cur := some { rung := 1, dom := 77 } } }
     let f : FPend := { kind := 1, idx := 3 }
     let r : FRec := { rung := 1, dom := 77 }
     s.alive = true ∧ s.rst.stage = 6 ∧ s.recovery = some r ∧ s.domainHas r.rung r.dom f.kind f.idx = false ∧ s.ladder f.kind f.idx ≤ 3 ∧
     s.faults.pending.any (fun x => x.kind == f.kind && x.idx == f.idx && x.cls == f.cls) = false ∧ s.faults.pending.length < 32) ∧
    (
     let s : State := lab
     let f : FPend := { kind := 1, idx := 3 }
     s.ladder f.kind f.idx = 1) ∧
    (
     let s : State := { lab with rst := { stage := 6, blocks := [(1, 3)] } }
     let k : Nat := 1
     let i : Nat := 3
     s.isolated k i = true) ∧
    (
     let s : State := { lab with faults := { pending := [{}] } }
     let f : FPend := {}
     let fs : List FPend := []
     s.recovery = none ∧ s.faults.pending = f :: fs ∧ s.alive = true ∧ s.rst.stage = 6) := by decide +kernel

theorem witness_FaultLadderActs_3 :
    (
     let s : State := lab
     s.serving = true) ∧
    (
     let s : State := lab
     s.alive = true) ∧
    (
     let s : State := { lab with parts := [(63, { resetStep := 10 })] }
     let p : Nat := 63
     (s.part p).resetStep ≠ 0) := by decide +kernel

theorem witness_TestAndRegisterWritesAct_1 :
    (
     let s : State := { lab with lb := [(95, { st := 1, depth := 3 })] }
     let j : Nat := 95
     (AMap.get s.lb j {}).st = 1 ∧ AMap.get? s.lbPrior j = none ∧ (AMap.get s.lb j {}).depth ≠ 4) ∧
    (
     let s : State := { lab with bist := [(5, (1, 0, hd))] }
     let id : Nat := 5
     let i : Nat := 0
     let h : Issue := hd
     AMap.get? s.bist id = some (1, i, h)) ∧
    (
     let s : State := { lab with bist := [(5, (0, 63, hd))] }
     let id : Nat := 5
     let i : Nat := 63
     let m : Nat := 256
     let h : Issue := hd
     AMap.get? s.bist id = some (0, i, h) ∧ i < 64 ∧ m % 256 = 0) ∧
    (
     let q : Nat := 65535
     let v : Nat := 2 ^ 64 - 1
     q < 65536 ∧ v < 2 ^ 64) ∧
    (
     let i : Nat := 2 ^ 14 - 1
     let v : Nat := 2 ^ 48 - 1
     i < 2 ^ 14 ∧ v < 2 ^ 48) := by decide +kernel

theorem witness_TestAndRegisterWritesAct_2 :
    (
     let v : Nat := 2 ^ 64 - 1
     v < 2 ^ 64) ∧
    (
     let v : Nat := 2 ^ 32 - 1
     v < 2 ^ 32) ∧
    (
     let s : State := lab
     s.barOpen 0 = true ∧ s.rst.halted = false) ∧
    (
     let s : State := lab
     let p : Nat := 0
     let i : Nat := 15
     let v : Nat := 2 ^ 32 - 1
     s.barOpen p = true ∧ s.rst.halted = false ∧ i < 16 ∧ v < 2 ^ 32) ∧
    (
     let s : State := lab
     let p : Nat := 0
     let v : Nat := 2 ^ 64 - 1
     s.barOpen p = true ∧ s.rst.halted = false ∧ v < 2 ^ 64) := by decide +kernel

theorem witness_TestAndRegisterWritesAct_3 :
    (
     let off : Nat := 0x180002
     let w : Nat := 4
     off < 2 ^ 32 ∧ (off < 0x100000 ∨ 0x180000 ≤ off) ∧ ((w ≠ 4 ∧ w ≠ 8) ∨ off % w ≠ 0)) ∧
    (
     let s : State := lab
     let p : Nat := 1
     let off : Nat := 0x200000
     off < 2 ^ 32 ∧ (off < 0x100000 ∨ 0x180000 ≤ off) ∧ off ≠ 0x880000 ∧ s.barOpen p = false ∧ off ≠ 0x120) := by decide +kernel

theorem witness_IdleStepsPassTime :
    (
     let s : State := lab
     s.pending = []) := by decide +kernel

theorem witness_RepliesReachTheirSender :
    (
     let h : Issue := { path := .mailbox }
     let a : Ans := Ans.ok lab
     h.path = .mailbox ∧ a.items = []) ∧
    (
     let h : Issue := { path := .oob 5 }
     let seq : Nat := 5
     h.path = .oob seq) ∧
    (
     let h : Issue := hd
     let a : Ans := Ans.ok lab
     h.path = .admin ∧ a.items = []) ∧
    (
     let res : Bytes := [1, 2, 3, 4, 5, 6, 7, 8]
     res.length ≤ 8) ∧
    (
     let h : Issue := { indirect := true }
     let res : Bytes := [1, 2, 3, 4, 5, 6, 7, 8, 9]
     8 < res.length ∧ h.indirect = true) := by decide +kernel

theorem witness_NeedleMemoriesAreSeparate_1 :
    (
     let n : Nat := 511
     let m : Nat := 510
     let a : Nat := 0xFFFFF
     let b : Nat := 0xFFFFF
     let len : Nat := 1
     let bs : Bytes := [1]
     n < 512 ∧ m < 512 ∧ ((isLocal a = true ∧ isLocal (a + bs.length - 1) = true) ∨ (isShared a = true ∧ isShared (a + bs.length - 1) = true)) ∧ bs ≠ [] ∧ ((isLocal b = true ∧ isLocal (b + len - 1) = true) ∨ (isShared b = true ∧ isShared (b + len - 1) = true)) ∧ 0 < len) ∧
    (
     let n : Nat := 511
     let m : Nat := 511
     let a : Nat := 0x013FFFFF
     let b : Nat := 0x013FFFFE
     let len : Nat := 1
     let bs : Bytes := [1]
     n < 512 ∧ m < 512 ∧ ((isLocal a = true ∧ isLocal (a + bs.length - 1) = true) ∨ (isShared a = true ∧ isShared (a + bs.length - 1) = true)) ∧ bs ≠ [] ∧ ((isLocal b = true ∧ isLocal (b + len - 1) = true) ∨ (isShared b = true ∧ isShared (b + len - 1) = true)) ∧ 0 < len ∧
     ((isLocal a = true ∧ isLocal b = true ∧ n ≠ m) ∨ (isLocal a ≠ isLocal b) ∨ (isLocal a = false ∧ isLocal b = false ∧ clusterOf n ≠ clusterOf m) ∨ (a + bs.length ≤ b ∨ b + len ≤ a))) := by decide +kernel

theorem witness_NeedleMemoriesAreSeparate_2 :
    (
     let s : State := lab
     let n : Nat := 511
     let m : Nat := 0
     let a : Nat := 0x01000000
     let b : Nat := 0x01000000
     let len : Nat := 1
     let bs : Bytes := [1]
     n < 512 ∧ m < 512 ∧ ((isLocal a = true ∧ isLocal (a + bs.length - 1) = true) ∨ (isShared a = true ∧ isShared (a + bs.length - 1) = true)) ∧ bs ≠ [] ∧ ((isLocal b = true ∧ isLocal (b + len - 1) = true) ∨ (isShared b = true ∧ isShared (b + len - 1) = true)) ∧ 0 < len ∧
     s.memoriesOk = true) := by decide +kernel

theorem witness_ImmediateInstructionsCompute_1 :
    (
     let e := ((0, 0x09, 8) : Nat × Nat × Nat)
     let s : State := labN (w64 [(7, 0, 0x09), (31, 18, 0x2000)]) {}
     let n : Nat := 0
     let x : Upset := .none
     let i : Ins := labI (w64 [(7, 0, 0x09), (31, 18, 0x2000)])
     s.stands n e.2.1 x i) ∧
    (
     let e := ((0, 0x08, 7) : Nat × Nat × Nat)
     let s : State := labN (w64 [(7, 0, 0x08), (23, 18, 63)]) {}
     let n : Nat := 0
     let x : Upset := .none
     let i : Ins := labI (w64 [(7, 0, 0x08), (23, 18, 63)])
     s.stands n e.2.1 x i ∧ i.f 31 24 = 0) := by unfold State.stands; decide +kernel

theorem witness_ImmediateInstructionsCompute_2 :
    (
     let e := ((0, 0x08, 7) : Nat × Nat × Nat)
     let s : State := labN (w64 [(7, 0, 0x08), (24, 24, 1)]) {}
     let n : Nat := 0
     let x : Upset := .none
     let i : Ins := labI (w64 [(7, 0, 0x08), (24, 24, 1)])
     s.stands n e.2.1 x i ∧ i.f 31 24 ≠ 0) ∧
    (
     let s : State := labN (w64 [(7, 0, 0x0A), (31, 13, 0x40000)]) {}
     let n : Nat := 0
     let x : Upset := .none
     let i : Ins := labI (w64 [(7, 0, 0x0A), (31, 13, 0x40000)])
     s.stands n 0x0A x i) ∧
    (-(2 ^ 31) ≤ (-(2 ^ 31) : Int) ∧ (-(2 ^ 31) : Int) < 2 ^ 31) := by unfold State.stands; decide +kernel

theorem witness_ImmediateInstructionsCompute_3 :
    (
     let s : State := labN (w64 [(7, 0, 0x02)]) {}
     let n : Nat := 0
     let x : Upset := .none
     let i : Ins := labI (w64 [(7, 0, 0x02)])
     s.stands n 0x02 x i ∧ i.d = 0 ∧ i.s1 = 0 ∧ i.f 31 18 = 0) := by unfold State.stands; decide +kernel

theorem witness_LaunchesStartFromZero :
    (511 < 512 ∧ ((([(1, 5), (31, 7)] : List (Nat × Nat))).map Prod.fst).Nodup ∧ (∀ a ∈ ([(1, 5), (31, 7)] : List (Nat × Nat)), 1 ≤ a.1)) := by decide +kernel

theorem witness_PpsOutFollowsTheTape :
    (lab.tape.running = true ∧ (lab.tape.state = 2 ∨ lab.tape.state = 3)) ∧
    (let s : State := { lab with tape := { state := 4 } }
     ¬(s.tape.state = 2 ∨ s.tape.state = 3)) := by decide +kernel

theorem witness_StepsTakeOneCommand : ∃ t, step lab = .next t := ⟨_, rfl⟩

theorem witness_FusesAreOnlyBlown :
    let s : State := { lab with thimble := { svnFuse := 64, kekEpoch := 16, slot0Revoked := true } }
    s.fusesAtLeast 64 16 true ∧ ∃ t, step s = .next t := ⟨by unfold State.fusesAtLeast; decide, _, rfl⟩

/-! ### Ill-formed commands are refused: one term for each bound -/

theorem test_refused_1 : ([
    .cmdProgress {} (2 ^ 16), .qDestroy {} (2 ^ 16), .qQuery {} (2 ^ 16), .segWrite {} (2 ^ 16) 0 0, .segWrite {} 0 256 0, .ctxWrite {} (2 ^ 16) 0,
    .segStitch {} (2 ^ 16), .segUnmap {} (2 ^ 16) 0, .segUnmap {} 0 256, .segQuery {} (2 ^ 16) 0 0, .segQuery {} 0 256 0, .segQuery {} 0 0 256,
    .segDrainEnd 4096, .drainForced 4096, .segCacheMissFill 4096 0 0, .segCacheMissFill 0 16 0, .hotIntervalEnd 4096, .memBound {} 256 0 0,
    .memBound {} 0 (2 ^ 16) 0, .memBound {} 0 0 (2 ^ 16), .memPin {} (2 ^ 64) 0 0, .memPin {} 0 (2 ^ 32) 0, .memPin {} 0 0 256,
    .memClearDamaged {} (2 ^ 64) 0, .memClearDamaged {} 0 (2 ^ 32), .memScrubSet {} 256, .memChanRetire {} 256 0, .memChanRetire {} 0 256,
    .memQuery {} 256 0, .memQuery {} 0 256, .scrubLine 2 0 [], .scrubLine 0 48 [], .rowRepair (96 * 2 ^ 24), .frameRetired (96 * 2 ^ 24),
    .freeFrameAvailable 2, .channelFailure 2 0, .channelFailure 0 48, .evacuationEnd 2 [], .evacuationEnd 0 [1050624], .granuleMoveDone 1050624 false,
    .connConnect {} (2 ^ 32) 0 0 0 0 0, .connConnect {} 0 (2 ^ 16) 0 0 0 0, .connConnect {} 0 0 (2 ^ 32) 0 0 0, .connConnect {} 0 0 0 256 0 0,
    .connConnect {} 0 0 0 0 (2 ^ 32) 0, .connConnect {} 0 0 0 0 0 (2 ^ 32), .connReset {} (2 ^ 32), .connDestroy {} (2 ^ 32), .connPin {} (2 ^ 32) 0,
    .connPin {} 0 256, .connQuery {} (2 ^ 32), .bobbinRefill (2 ^ 24) false, .segmentConnIdle (2 ^ 24), .winRevoke {} (2 ^ 32), .write 64 0 0,
    .write 0 (2 ^ 16) 0, .writeSig 64 0 0, .writeSig 0 (2 ^ 16) 0, .read 64 0 0, .read 0 (2 ^ 16) 0] : List Instr).all (fun i => !wellFormed i) = true := by decide +kernel

theorem test_refused_2 : ([
    .send 64 0 0, .send 0 (2 ^ 16) 0, .fetchAdd 64 0 0, .fetchAdd 0 (2 ^ 16) 0, .cmpSwap 64 0 0, .cmpSwap 0 (2 ^ 16) 0, .syncAdd 64 0 0,
    .syncAdd 0 (2 ^ 16) 0, .invoke 64 0 0, .invoke 0 (2 ^ 16) 0, .recvBufferPost 64 0 0, .recvBufferPost 0 (2 ^ 16) 0, .writePacket 33 {} none,
    .writeSigPacket 33 {}, .readReq 33 {} [], .sendPacket 33 {}, .fetchAddPacket 33 {} [], .cmpSwapPacket 33 {} [], .syncAddPacket 33 {},
    .invokePacket 33 {}, .udSend 33 {}, .readResp 33 {}, .atomicResp 33 {}, .ack 33 {}, .ackDelayTimer (2 ^ 24), .nak 33 {}, .skip 33 {},
    .cbusyHoldExpiry (2 ^ 24), .cbusyLimit (2 ^ 24) 0, .cbusyLimit 0 (2 ^ 32), .noRecvRetry (2 ^ 24), .rtoExpiry (2 ^ 24), .errorNotice 33 {},
    .noticeAck 33 {}, .errorNoticeRepeat (2 ^ 24), .egressPacketSelect 33 0 none, .egressPacketSelect 0 4 none, .e2eReturn 33 {},
    .e2eReturnTimer (2 ^ 16), .e2eStale (2 ^ 16), .ccParamSet {} 256 0, .ccStitch {} 256, .ccConnSet {} (2 ^ 32) 0 0 0 0, .ccConnSet {} 0 256 0 0 0,
    .ccConnSet {} 0 0 (2 ^ 16) 0 0, .ccConnSet {} 0 0 0 0 (2 ^ 16), .shpWrite {} (2 ^ 16) 0, .shpStitch {} (2 ^ 16) 0, .shpStitch {} 0 (2 ^ 16),
    .shpQuery {} (2 ^ 16) 0, .shpQuery {} 0 256, .schedWeightSet {} 256 0, .schedWeightSet {} 0 256, .histRead {} 256 0, .histRead {} 0 256,
    .dataFlitRx 32 {}, .idleFlitRx 32 {}, .credit 32 0, .fack 32 0, .retryReq 32 0] : List Instr).all (fun i => !wellFormed i) = true := by decide +kernel

theorem test_refused_3 : ([
    .tapeMark 32 0 0, .loopPing 32 0, .loopEcho 32 0, .modeReq 32 0, .modeAck 32 0, .creditLossTimer 32, .modeReqRepeat 32, .modeChangeTimeout 32,
    .fackTimer 32, .creditTimer 32, .retryReqTimer 32, .fackStall 32, .loopMeasureTimer 32, .linkSet {} 256 0, .linkSet {} 0 256, .packetForward 33 {},
    .mcastPacket 33 {}, .mapPush 33 {}, .rtWrite {} 256 0 0 0 [], .rtWrite {} 0 256 0 0 [], .rtWrite {} 0 0 256 0 [], .rtWrite {} 0 0 0 256 [],
    .rtStitch {} 256, .rtClear {} 256, .rtFlip {} 256, .rtQuery {} 256 0 0 0, .rtQuery {} 0 256 0 0, .rtQuery {} 0 0 256 0, .rtQuery {} 0 0 0 256,
    .mcastSet {} (2 ^ 16) 0, .mcastQuery {} (2 ^ 16), .alignmentCodewordRx 32 0 0, .alignmentCodewordRx 0 16 0, .lightDetect 32,
    .trainingPhaseEnd 32 false 0, .trainingPhaseEnd 0 false (2 ^ 16), .trainingTimeout 32, .trainingRetryTimer 32, .lightLoss 32, .laneDegrade 32 0,
    .laneDegrade 0 16, .widenTimer 32 0, .widenTimer 0 (2 ^ 16), .emitterFail 4 0, .emitterFail 0 16, .spareSwitched 4 0, .spareSwitched 0 4,
    .elsRelease {} 256, .elsStart {} 256, .optQuery {} 256 0 {}, .optQuery {} 0 256 {}, .elsInsert 4, .elsRemoved 4, .clusterClearDone 64,
    .needleFailed 512, .needleSpared 64, .staleTailFire 64 0, .staleTailFire 0 32, .ndieClkSet {} 256 0 0, .ndieClkSet {} 0 (2 ^ 16) 0] : List Instr).all (fun i => !wellFormed i) = true := by decide +kernel

theorem test_refused_4 : ([
    .ndieClkSet {} 0 0 (2 ^ 16), .sarith 512 .none, .addi 512 .none, .andi 512 .none, .ori 512 .none, .xori 512 .none, .slli 512 .none,
    .srli 512 .none, .srai 512 .none, .slti 512 .none, .lui 512 .none, .mfsr 512 .none, .mtsr 512 .none, .lb 512 .none, .lbu 512 .none, .lh 512 .none,
    .lhu 512 .none, .lw 512 .none, .lwu 512 .none, .ld 512 .none, .sb 512 .none, .sh 512 .none, .sw 512 .none, .sd 512 .none, .amo 512 .none,
    .beq 512 .none, .bne 512 .none, .blt 512 .none, .bge 512 .none, .bltu 512 .none, .bgeu 512 .none, .jal 512 .none, .jalr 512 .none, .vld 512 .none,
    .vst 512 .none, .vstm 512 .none, .vgather 512 .none, .vscatter 512 .none, .varith 512 .none, .vlogic 512 .none, .vcmp 512 .none, .vmisc 512 .none,
    .plogic 512 .none, .vtopk 512 .none, .tmisc 512 .none, .tmma 512 .none, .vcvt 512 .none, .vcvtmx 512 .none, .vmxdq 512 .none, .vscale 512 .none,
    .cpy 512 .none, .fsig 512 .none, .sqpush 512 .none, .sqpushResume 512, .sqpop 512 .none, .sqflush 512 .none, .sqstat 512 .none, .syadd 512 .none,
    .sywait 512 .none, .sywaitResume 512] : List Instr).all (fun i => !wellFormed i) = true := by decide +kernel

theorem test_refused_5 : ([
    .syrd 512 .none, .tape 512 .none, .fence 512 .none, .trap 512 .none, .exit 512 .none, .launch 64 0 0, .launch 0 (2 ^ 16) 0,
    .transformChunkReady (2 ^ 24) 0 0, .transformChunkReady 0 (2 ^ 32) 0, .transformChunkReady 0 0 (2 ^ 24), .handlerRunStart (2 ^ 24) 0,
    .handlerRunStart 0 (2 ^ 32), .progLoad {} (2 ^ 16) 0 0 {}, .progLoad {} 0 (2 ^ 64) 0 {}, .progLoad {} 0 0 (2 ^ 32) {}, .progBind {} (2 ^ 32) 0,
    .progUnbind {} 256 0 0, .progUnbind {} 0 (2 ^ 32) 0, .progUnbind {} 0 0 256, .progUnload {} (2 ^ 16) 0, .progUnload {} 0 256,
    .progQuery {} (2 ^ 16), .progPolicy {} 256 0, .progPolicy {} 0 256, .collSet {} 256 0, .collStitch {} 256 {}, .collAbort {} 256,
    .collQuery {} 256 0, .collQuery {} 0 256, .collStart 64 0 0, .collStart 0 (2 ^ 16) 0, .collBegin 64, .collContribReady 64 0 [] .ok [],
    .collContribReady 0 (2 ^ 24) [] .ok [], .upData 33 {}, .downData 33 {}, .chunkAck 33 {}, .collFetch 33 {} [], .seal 33 {}, .sealAck 33 {},
    .collAbortPacket 33 {}, .arrive 33 {}, .notStarted 33 {}, .chunkAckTimer 64 0 0, .chunkAckTimer 0 (2 ^ 24) 0, .chunkAckTimer 0 0 8192,
    .upResendTimer 64 0, .upResendTimer 0 (2 ^ 24), .fetchTimer 64 0, .fetchTimer 0 (2 ^ 24), .collDeadline 64, .abortRepeat 64, .hookRunStart 64 0,
    .hookRunStart 0 (2 ^ 24), .syncCtl {} (2 ^ 16) 0 0 0, .syncCtl {} 0 (2 ^ 16) 0 0, .syncCtl {} 0 0 256 0, .syncCtl {} 0 0 0 (2 ^ 64),
    .syncOp {} (2 ^ 16) 0 0, .syncOp {} 0 256 0] : List Instr).all (fun i => !wellFormed i) = true := by decide +kernel

theorem test_refused_6 : ([
    .syncOp {} 0 0 (2 ^ 64), .syncQuery {} (2 ^ 16) 0, .syncQuery {} 0 256, .syncDbAdd 64 0 0, .syncDbAdd 0 16384 0, .syncDbAdd 0 0 (2 ^ 48),
    .syncDbSet 64 0 0, .syncDbSet 0 16384 0, .syncDbSet 0 0 (2 ^ 48), .syncDbArm 64 0 0, .syncDbArm 0 16384 0, .syncDbArm 0 0 (2 ^ 48),
    .mailboxGo 64 {}, .dbH2aSet 64 0, .dbA2hClear 64 0, .dbA2hMaskWrite 64 0, .mgrH2aClear 64 0, .mgrH2aMaskWrite 64 0, .mgrA2hSet 64 0,
    .tapePpsSec {} (2 ^ 64), .tapeEventSet {} 256 0 0 0 0 0, .tapeEventSet {} 0 (2 ^ 64) 0 0 0 0, .tapeEventSet {} 0 0 (2 ^ 32) 0 0 0,
    .tapeEventSet {} 0 0 0 256 0 0, .tapeEventSet {} 0 0 0 0 (2 ^ 16) 0, .tapeEventSet {} 0 0 0 0 0 (2 ^ 64), .tapeEventCancel {} 256,
    .tapeEventDue 64 0, .tapeEventDue 0 64, .bookWrite {} 256 0 0, .bookWrite {} 0 (2 ^ 16) 0, .bookStitch {} (2 ^ 64) 0, .bookStitch {} 0 (2 ^ 32),
    .bookQuery {} 256 0, .bookQuery {} 0 256, .doorbellWrite 64 0 0, .doorbellWrite 0 (2 ^ 16) 0, .indexRecordRead 64 0 0 .ok,
    .indexRecordRead 0 (2 ^ 16) 0 .ok, .indexRereadTimer 64 0, .indexRereadTimer 0 (2 ^ 16), .entryFetch 64 0 [] .ok {},
    .entryFetch 0 (2 ^ 16) [] .ok {}, .paramRead 64 0 [] .ok {}, .paramRead 0 (2 ^ 16) [] .ok {}, .ciWrite 64 0, .ciWrite 0 (2 ^ 16),
    .longCmdFinal 64 0 false, .longCmdFinal 0 (2 ^ 16) false, .copy 64 0 0, .copy 0 (2 ^ 16) 0, .adminEnable 64, .adminDisable 64,
    .partCreate {} 256 0 0 0 0 0 0 0 0 0 0 0, .partCreate {} 0 (2 ^ 32) 0 0 0 0 0 0 0 0 0 0, .partCreate {} 0 0 (2 ^ 32) 0 0 0 0 0 0 0 0 0,
    .partCreate {} 0 0 0 (2 ^ 16) 0 0 0 0 0 0 0 0, .partCreate {} 0 0 0 0 (2 ^ 32) 0 0 0 0 0 0 0, .partCreate {} 0 0 0 0 0 (2 ^ 16) 0 0 0 0 0 0,
    .partCreate {} 0 0 0 0 0 0 (2 ^ 16) 0 0 0 0 0] : List Instr).all (fun i => !wellFormed i) = true := by decide +kernel

theorem test_refused_7 : ([
    .partCreate {} 0 0 0 0 0 0 0 256 0 0 0 0, .partCreate {} 0 0 0 0 0 0 0 0 (2 ^ 32) 0 0 0, .partCreate {} 0 0 0 0 0 0 0 0 0 (2 ^ 16) 0 0,
    .partCreate {} 0 0 0 0 0 0 0 0 0 0 (2 ^ 64) 0, .partCreate {} 0 0 0 0 0 0 0 0 0 0 0 (2 ^ 2048), .partReset {} 256 0, .partReset {} 0 256,
    .partDestroy {} 256, .partQuery {} 256, .partitionResetStep 64, .resetForced 64, .unitEraseDone 2048, .keyLoad {} 256 0 0 none,
    .keyLoad {} 0 (2 ^ 16) 0 none, .keyClear {} 256 0, .keyClear {} 0 (2 ^ 16), .fwUpdate {} (2 ^ 16) 0 0 0 0 {}, .fwUpdate {} 0 (2 ^ 64) 0 0 0 {},
    .fwUpdate {} 0 0 (2 ^ 32) 0 0 {}, .fwUpdate {} 0 0 0 256 0 {}, .fwUpdate {} 0 0 0 0 256 {}, .i3cRecoveryWrite (2 ^ 16) [] {},
    .i3cRegWrite (2 ^ 16), .mrExtend 8, .mrRead 8, .kekRotate 8, .selfTest 8 false, .notice 256, .secureMailboxReply 8, .getVersion 2 {},
    .getCapabilities 2 {}, .negotiateAlgorithms 2 {}, .getDigests 2 {}, .getCertificate 2 {}, .challenge 2 {}, .getMeasurements 2 {}, .chunkSend 2 {},
    .chunkGet 2 {}, .getReport 2 {}, .getPqCert 2 {}, .tackWord 16, .offerResendTimer (2 ^ 48), .pauseFrame (2 ^ 16) false, .powerState {} 256,
    .powerLimit {} (2 ^ 16), .resetCtlCold 64 0, .resetCtlCold 0 (2 ^ 64), .resetCtlWarm 64 0, .resetCtlWarm 0 (2 ^ 64), .warmReset 16,
    .blockReset 256 0, .blockReset 0 256, .blockResetEnd 256 0, .blockResetEnd 0 256, .powerSample (2 ^ 16) 0 0, .powerSample 0 (2 ^ 16) 0,
    .powerSample 0 0 256, .dataLinkUp 0 16, .hostReadCompletion (2 ^ 32) [] .ok, .flushReadDone 64 .ok] : List Instr).all (fun i => !wellFormed i) = true := by decide +kernel

theorem test_refused_8 : ([
    .hostSnoop (2 ^ 64) false, .cacheGo (2 ^ 64) [], .vfFlr 64, .busMasterEnable 64 false, .msixUnmask 64 0, .msixUnmask 0 2048,
    .engineWatchdog 256 0 false, .engineWatchdog 0 256 false, .cpWatchdog 4, .recoveryWindowClose 5 0, .faultLogRead {} 256 0 0,
    .faultLogRead {} 0 (2 ^ 16) 0, .faultLogRead {} 0 0 256, .loopbackSet {} 256 0 0 0, .loopbackSet {} 0 256 0 0, .loopbackSet {} 0 0 256 0,
    .loopbackSet {} 0 0 0 (2 ^ 16), .loopbackEnd 160 0 0, .loopbackEnd 0 (2 ^ 16) 0, .bistRun {} 256 0, .bistRun {} 0 256, .bistDone 0 (2 ^ 64),
    .registerWrite 64 0 0 0, .registerWrite 0 0 0 (2 ^ 64), .queueDrainLimit [32], .elsSelfTestDone 4 false, .setdasa 2 0, .setdasa 0 (2 ^ 7),
    .entdaa (2 ^ 7) 0, .entdaa 0 (2 ^ 7), .nop { part := 64 }, .nop { tag := 2 ^ 16 }, .nop { resultVa := 2 ^ 64 }, .nop { resultLen := 2 ^ 32 },
    .nop { part := 1, path := .oob 0 }, .nop { path := .oob (2 ^ 63) }, .identify { part := 64 }, .cmdProgress { part := 64 } 0,
    .qCreate { part := 64 } 0, .qDestroy { part := 64 } 0, .qQuery { part := 64 } 0, .segWrite { part := 64 } 0 0 0, .ctxWrite { part := 64 } 0 0,
    .segStitch { part := 64 } 0, .segUnmap { part := 64 } 0 0, .segQuery { part := 64 } 0 0 0, .memTierSet { part := 64 } 0,
    .memBound { part := 64 } 0 0 0, .memPin { part := 64 } 0 0 0, .memClearDamaged { part := 64 } 0 0, .memScrubSet { part := 64 } 0,
    .memChanRetire { part := 64 } 0 0, .memQuery { part := 64 } 0 0, .connCreate { part := 64 } 0, .connConnect { part := 64 } 0 0 0 0 0 0,
    .connReset { part := 64 } 0, .connDestroy { part := 64 } 0, .connPin { part := 64 } 0 0, .connQuery { part := 64 } 0, .winOpen { part := 64 } 0] : List Instr).all (fun i => !wellFormed i) = true := by decide +kernel

theorem test_refused_9 : ([
    .winRevoke { part := 64 } 0, .ccParamSet { part := 64 } 0 0, .ccStitch { part := 64 } 0, .ccConnSet { part := 64 } 0 0 0 0 0,
    .shpWrite { part := 64 } 0 0, .shpStitch { part := 64 } 0 0, .shpQuery { part := 64 } 0 0, .schedWeightSet { part := 64 } 0 0,
    .schedStitch { part := 64 }, .histRead { part := 64 } 0 0, .linkSet { part := 64 } 0 0, .rtWrite { part := 64 } 0 0 0 0 [],
    .rtStitch { part := 64 } 0, .rtClear { part := 64 } 0, .rtFlip { part := 64 } 0, .rtQuery { part := 64 } 0 0 0 0, .mcastSet { part := 64 } 0 0,
    .mcastQuery { part := 64 } 0, .elsRelease { part := 64 } 0, .elsStart { part := 64 } 0, .optQuery { part := 64 } 0 0 {},
    .ndieClkSet { part := 64 } 0 0 0, .progLoad { part := 64 } 0 0 0 {}, .progBind { part := 64 } 0 0, .progUnbind { part := 64 } 0 0 0,
    .progUnload { part := 64 } 0 0, .progQuery { part := 64 } 0, .progPolicy { part := 64 } 0 0, .collSet { part := 64 } 0 0,
    .collStitch { part := 64 } 0 {}, .collAbort { part := 64 } 0, .collQuery { part := 64 } 0 0, .syncCtl { part := 64 } 0 0 0 0,
    .syncOp { part := 64 } 0 0 0, .syncQuery { part := 64 } 0 0, .tapePpsSec { part := 64 } 0, .tapeEventSet { part := 64 } 0 0 0 0 0 0,
    .tapeEventCancel { part := 64 } 0, .bookWrite { part := 64 } 0 0 0, .bookStitch { part := 64 } 0 0, .bookQuery { part := 64 } 0 0,
    .partCreate { part := 64 } 0 0 0 0 0 0 0 0 0 0 0 0, .partReset { part := 64 } 0 0, .partDestroy { part := 64 } 0, .partQuery { part := 64 } 0,
    .keyLoad { part := 64 } 0 0 0 none, .keyClear { part := 64 } 0 0, .fwUpdate { part := 64 } 0 0 0 0 0 {}, .attest { part := 64 } 0,
    .mgmtCfg { part := 64 } [], .resetWarm { part := 64 }, .resetCold { part := 64 }, .powerState { part := 64 } 0, .powerLimit { part := 64 } 0,
    .faultLogRead { part := 64 } 0 0 0, .loopbackSet { part := 64 } 0 0 0 0, .bistRun { part := 64 } 0 0] : List Instr).all (fun i => !wellFormed i) = true := by decide +kernel

/-! ### Worked examples of the spec

The expected values stand in the spec's own examples; the chapter is named with each. -/

/-- What a test reads off the next state. -/
def seen {α : Type} (o : Host.Outcome State Fault Refusal) (f : State → α) : Option α :=
  match o with
  | .next s => some (f s)
  | _ => none

/-- The state of the example under R24, R28: adapter A at plane 3, row 2, column 5. -/
def labA : State := { lab with devid := 0x0C94 }

/-- Chapter 02, "Example: adapter A at (3, 2, 5) …": X11 leads to (3, 2, 12) at X5, Y8 of (3, 2, 12) to B at Y2, S0 to spine (0, 2, 5) at S3. -/
theorem test_link_ends :
    expected (mkId 3 2 5) 11 = (mkId 3 2 12, 5) ∧ expected (mkId 3 2 12) 23 = (mkId 3 9 12, 64 + 2) ∧
      expected (mkId 3 2 5) 30 = (mkSpine 0 2 5, 128 + 3) := by decide +kernel

/-- Chapter 02, "Example: A at (3, 2, 5) has the ID …". The sum given there for B, 0x0C00 + 0x0240 + 0x0030, is 0x0E70; the example prints
0x0C70. -/
theorem test_device_ids : mkId 3 2 5 = 0x0C94 ∧ mkId 3 9 12 = 0x0E70 ∧ mkSpine 0 2 5 = 0x8094 ∧ mkSpine 1 2 5 = 0x8494 := by decide +kernel

/-- Chapter 04, "Example: offset 0x12_3450_03C8 …": near channel 16, line 15,169,541, word 1. -/
theorem test_word_place :
    let s := { lab with mem := { init := true, triples := [(5, [15, 16, 17])], gmap := [(37282, { far := false, triple := 5, frame := 1234 })] } }
    s.lineOf 0x12345003C8 = some { far := false, chan := 16, line := 15169541 } ∧
      s.offsetOf { far := false, chan := 16, line := 15169541 } = some 0x12345003C0 := by decide +kernel

/-- Chapter 06, "Example: connection 0x00_0731 …": SRTT 1.80 µs and RTTVAR 0.20 µs give 20 µs. -/
theorem test_retransmission_time : ({ labConn with srtt := some 1800, rttvar := 200 } : ConnS).rto = 20000 := by decide +kernel

/-- The state of the example of chapter 09: X11 DOWN, COL[12] with a penalty of 16, and the depths and levels given there. -/
def labRoute : State := { labA with
  ports := [(12, { state := 3, check := 2, ahead := pack 256 [(159, 152, 0x10)] }), (13, { state := 3, check := 2 }),
    (14, { state := 3, check := 2, ahead := pack 256 [(159, 152, 0x30)] })]
  route := { a := { st := 2, ents := [(44, pack 64 [(47, 40, 16), (31, 0, 0x7800)])] }, depth := [(49, 48), (53, 8)] } }

/-- Chapter 09, "Example: a VC1 packet goes from A …": the costs are 80, 24 and 64 KiB, and the packet leaves by X13. -/
theorem test_detour :
    [12, 13, 14].map (fun n => labRoute.cost n 1 0x0E70 16 [11]) = [80, 24, 64] ∧
      labRoute.routeBy true 32 { fab := pack 128 [(127, 112, 0x0E70), (111, 96, 0x0C94), (95, 94, 1)] } = .out 13 true := by decide +kernel

/-- The same example, at (3, 2, 14): arrived on X5, X14 is removed and the packet leaves by X12. -/
theorem test_turn :
    let s := { labRoute with devid := 0x0CB8 }
    s.turnOk 5 14 0x0E70 = false ∧ s.turnOk 5 12 0x0E70 = true := by decide +kernel

/-- Chapter 11, "Example: one MXFP4 block …": −13.0, 2.6, 0.7 and 0.0 become −6.0, 1.5, 0.5 and 0.0 with X = 128, and SAT is set. -/
theorem test_mx_block :
    let r := toMx e2m1 [.rne, .rne, .rne, .rne] ([0xC1500000, 0x40266666, 0x3F333333, 0].map fp32.decode)
    r = (128, [15, 3, 1, 0], { sat := true }) ∧ ([(15, 12), (3, 3), (1, 1)].map (fun e => mxVal e2m1 128 e.1)) =
      [.fin true 3 2, .fin false 3 0, .fin false 1 0] := by decide +kernel

/-- Chapter 12, "Example: K = 5 …": 0.95, 0.91, 0.85, 0.80 and 0.75 with the indices 66, 12, 64, 7 and 30. -/
theorem test_vtopk :
    let d : NeedleS := { p := [(1, 0x1111)], s := [(7, 64)], v := [(5, BitVec.ofNat 1024 (ofElems 32 ([0x3F68F5C3, 0x3F4CCCCD, 0x3F400000, 0x3ECCCCCD, 0x3DCCCCCD] ++
        List.replicate 11 0 ++ [12, 7, 30, 2, 41]))), (6, BitVec.ofNat 1024 (ofElems 32 [0x3F59999A, 0x3F400000, 0x3F733333, 0x7FC00000]))] }
    let v := topList 5 false false (d.rv 5) (d.rv 6) (d.rp 1) (d.rs 7).toNat
    (List.range 5).map (elem 32 v) = [0x3F733333, 0x3F68F5C3, 0x3F59999A, 0x3F4CCCCD, 0x3F400000] ∧
      (List.range 5).map (fun j => elem 32 v (16 + j)) = [66, 12, 64, 7, 30] := by decide +kernel

/-- Chapter 12, "Example: two encodings": ADDI s5, s3, −8 is 0xFFE0_6502. -/
theorem test_addi_encoding :
    seen (step { labN 0xFFE06502 { s := [(3, 5)] } with pending := [.addi 0 .none] }) (fun s => (s.needle 0).rs 5) = some (-3) := by decide +kernel

/-- Chapter 12, the same example: TMMA a2, v4, v6 is 0x0000_0995_A806_2280. With 1.0 in the first element of each operand, 2^3 over row 0
of A and 2^1 over column 0 of B, element (0, 0) of a2 is 16.0. -/
theorem test_tmma_encoding :
    seen (step { labN 0x00000995A8062280 { v := [(4, 2), (6, 2)], s := [(10, 130), (11, 128)] } with pending := [.tmma 0 .none] })
      (fun s => (s.needle 0).ra 2) = some 0x41800000 := by decide +kernel

/-- Chapter 15, "Example: a driver adds 5 to object 0x01A …": the value becomes 9, the waiter at 16 is armed, and a further 7 fires it. -/
theorem test_sync_doorbell :
    let s : State := { lab with parts := [(0, { labPart 0 with syncs := [(0, 64)] })], sync := [(0x1A, { val := 4 })] }
    seen (step { s with pending := [.syncDbAdd 0 0x1A 5] }) (fun s => (s.obj 0x1A).val) = some 9 ∧
    seen (step { s with sync := [(0x1A, { val := 9 })], pending := [.syncDbArm 0 0x1A 16] }) (fun s => ((s.obj 0x1A).armed, (s.obj 0x1A).thresh)) =
      some (true, 16) ∧
    seen (step { s with sync := [(0x1A, { val := 9, armed := true, thresh := 16 })], pending := [.syncDbAdd 0 0x1A 7] })
      (fun s => ((s.obj 0x1A).armed, (s.obj 0x1A).val)) = some (false, 16) := by decide +kernel

/-- Chapter 26, "Example: basting the admin queue": SQ_LOG2 5 is REFUSED, SQ_LOG2 8 turns the queue ON. -/
theorem test_admin_queue :
    let cfg (v : BitVec 64) : AdminCfg := { sq := 0x4012340000, cq := 0x4012350000, idx := 0x4012360000, cfg := v.setWidth _ }
    let s (v : BitVec 64) : State := { lab with funcs := [(0, { adminBast := cfg v })], pending := [.adminEnable 0] }
    seen (step (s 0x00010805)) (fun s => (s.func 0).adminState) = some 2 ∧ seen (step (s 0x00010808)) (fun s => (s.func 0).adminState) = some 1 := by
  decide +kernel

/-- Chapter 27, "Example: the sixteen adapters …": STRAPS 0x04 on the row master and 0x0C elsewhere, DEVID 0x8000_0C80. -/
theorem test_straps_and_devid :
    ({ rowMasterN := false } : Straps).word = 0x04 ∧ ({} : Straps).word = 0x0C ∧ ({ lab with devid := 0x0C80 } : State).devidWord = 0x80000C80 := by
  decide +kernel

/-- Chapter 27, "Example: the 256 adapters of plane 3 sum …": E, chunks, W, packets per chunk and STAGE. -/
theorem test_collective_sizes :
    let b : CBlk := pack 512 [(239, 227, 255), (127, 124, 2), (119, 116, 7), (115, 115, 1), (110, 102, 8), (101, 97, 16)]
    let d : Desc := pack 512 [(447, 408, 67108864)]
    (cbE b, chunkCount b d, fullWire b, chunkPkts b d 0, cbStage b) = (65536, 1024, 51200, 13, 2555904) := by decide +kernel

/-- Chapter 26: IDENT 0x0106_0021, and the Reset columns of TAPE_STATUS, RT_CFG, FAB_QCFG, FAULT_LOG_STAT, LINK_STAT30 and DB_A2H_MASK. -/
theorem test_reset_columns :
    State.reset.barRead 0 0 4 = 0x01060021 ∧ [0x840008, 0x815100, 0x812000, 0x894008, 0x8130F0, 0x110].map (fun o => State.reset.barRead 0 o 8 % 2 ^ 48) =
      [0x3FF000000, 32, 0x40000000040, 0x400000, 0x100, 0xFFFFFFFF] := by decide +kernel

/-- R5, R6, R360, R423: what was written is read, reserved bits aside, and a register of 8 bytes is read by halves. -/
theorem test_written_registers :
    seen (step { lab with pending := [.registerWrite 0 0x1004 4 0xFFFFFFFE] }) (fun s => s.barRead 0 0x1004 4) = some 0xFFFFFFFE ∧
    seen (step { lab with pending := [.registerWrite 0 0x218 8 (2 ^ 64 - 1)] }) (fun s => s.barRead 0 0x218 8) = some 0x07FF1F1F ∧
    seen (step { lab with pending := [.registerWrite 0 0x812000 4 1024] }) (fun s => s.barRead 0 0x812000 8) = some 0x40000000400 ∧
    seen (step { lab with pending := [.registerWrite 0 0x812000 4 1025] }) (fun s => s.barRead 0 0x812000 8) = some 0x40000000040 := by decide +kernel
end

section
/-!
PROOFS of `Obligations.TestAndRegisterWritesAct` (O50): loop-backs, self-tests, the test port and register writes.
-/

namespace Sys2Proof.Machine

variable {s t u : State}

/-! ### What a write to BAR0 comes to (R386, R551-R553) -/

theorem State.func_updFunc_same (s : State) (p : Nat) (f : FuncS → FuncS) : (s.updFunc p f).func p = f (s.func p) :=
  AMap.get_upd_same _ _ _ _

theorem State.onIf_false (s : State) (f : State → State) : s.onIf false f = s := rfl

theorem State.barDo_of_open {p : Nat} (h : s.barOpen p = true) (f : State → State) : s.barDo p f = f s := by
  simp [State.barDo, State.onIf, h]

theorem State.barDo_of_closed {p : Nat} (h : s.barOpen p = false) (f : State → State) : s.barDo p f = s := by
  simp [State.barDo, State.onIf, h]

/-- A write inside BAR0 is not the one to MSI-X Message Control. -/
theorem exec_registerWrite {p off w v : Nat} (h : off < 2 ^ 32) :
    exec (.registerWrite p off w v) s = .next (s.barWrite p off w v) := by
  have : off ≠ msixControlAt := by unfold msixControlAt; omega
  simp [exec, execRegisterWrite, this]

theorem inBells_eq_false_iff {off : Nat} : inBells off = false ↔ off < 0x100000 ∨ 0x180000 ≤ off := by
  simp only [inBells, decide_eq_false_iff_not]; omega

/-- An aligned 8-byte write to the doorbell region rings the doorbell of its slot (R408). -/
theorem State.barWrite_doorbell {p q v : Nat} (hq : q < 65536) (hv : v < 2 ^ 64) :
    s.barWrite p (0x100000 + 8 * q) 8 v = afterOut s (execDoorbellWrite p q (BitVec.ofNat 64 v) s) := by
  have bells : inBells (0x100000 + 8 * q) = true := by simp only [inBells, decide_eq_true_eq]; omega
  have aligned : (0x100000 + 8 * q) % 8 = 0 := by omega
  norm_num at hv
  simp [State.barWrite, State.bellWrite, bells, aligned, Nat.mod_eq_of_lt hv]

/-- An aligned 4-byte write outside the doorbells, RESET_CTL and SYNC_DB is the write of its word. -/
theorem State.barWrite_four {p off v : Nat} (hb : inBells off = false) (ha : off % 4 = 0)
    (h8 : off ∉ [0x880000, 0x880004, 0x120, 0x124]) :
    s.barWrite p off 4 v = s.barDo p (fun t => t.word4 p off (v % 2 ^ 32)) := by
  simp only [List.mem_cons, List.not_mem_nil, or_false, not_or] at h8
  obtain ⟨notReset, notResetHigh, notSync, notSyncHigh⟩ := h8
  simp [State.barWrite, hb, ha, notReset, notResetHigh, notSync, notSyncHigh]

/-- A misaligned or oddly sized write outside the doorbells is discarded. -/
theorem State.barWrite_of_misaligned {p off w v : Nat} (hb : inBells off = false) (h : (w ≠ 4 ∧ w ≠ 8) ∨ off % w ≠ 0) :
    s.barWrite p off w v = s := by
  have : (!(w == 4 || w == 8) || off % w != 0) = true := by
    rcases h with ⟨h4, h8⟩ | h
    · simp [h4, h8]
    · simp [h]
  simp only [State.barWrite, hb, this, Bool.false_eq_true, if_false, if_true]

/-- A closed BAR0 discards every write but those to the doorbells, RESET_CTL and SYNC_DB, which have commands of their own. -/
theorem State.barWrite_of_closed {p off w v : Nat} (hb : inBells off = false) (hr : off ≠ 0x880000) (hs : off ≠ 0x120)
    (h : s.barOpen p = false) : s.barWrite p off w v = s := by
  simp only [State.barWrite, hb, hr, hs, State.barDo_of_closed h, Bool.false_eq_true, if_false, ite_self]

/-! ### The registers that have a command of their own (R357, R364, R500) -/

theorem State.barWrite_resetCtl {p v : Nat} (hv : v < 2 ^ 64) : s.barWrite p 0x880000 8 v = s.resetCtl p v := by
  norm_num at hv
  simp [State.barWrite, inBells, Nat.mod_eq_of_lt hv]

theorem State.barWrite_syncDb {p v : Nat} (hv : v < 2 ^ 64) : s.barWrite p 0x120 8 v = s.syncDbWrite p v := by
  norm_num at hv
  simp [State.barWrite, inBells, Nat.mod_eq_of_lt hv]

/-- OP, INDEX and VALUE of SYNC_DB are read back from where they were laid out. -/
theorem syncDb_fields {op i v : Nat} (ho : op < 4) (hi : i < 2 ^ 14) (hv : v < 2 ^ 48) :
    let x := op * 2 ^ 62 + i * 2 ^ 48 + v
    x < 2 ^ 64 ∧ x / 2 ^ 62 % 4 = op ∧ x / 2 ^ 48 % 2 ^ 14 = i ∧ dbValue x = dbValue v := by
  refine ⟨by omega, by omega, by omega, ?_⟩
  unfold dbValue
  congr 1
  omega

/-- SYNC_DB's OP 0, 1 and 2 are SYNC_DB_ADD, SYNC_DB_SET and SYNC_DB_ARM. -/
theorem exec_registerWrite_syncDb {p op i v : Nat} (ho : op < 4) (hi : i < 2 ^ 14) (hv : v < 2 ^ 48) {c : Instr}
    (hc : [Instr.syncDbAdd p i v, .syncDbSet p i v, .syncDbArm p i v][op]? = some c) :
    exec (.registerWrite p 0x120 8 (op * 2 ^ 62 + i * 2 ^ 48 + v)) s = exec c s := by
  obtain ⟨hx, hop, hidx, hval⟩ := syncDb_fields ho hi hv
  rw [exec_registerWrite (by norm_num), State.barWrite_syncDb hx]
  unfold State.syncDbWrite
  rw [hop, hidx]
  interval_cases op <;> cases hc
  · simp only [exec, execSyncDbAdd, afterOut, hval]
  · simp only [exec, execSyncDbSet, afterOut, hval]
  · simp only [exec, execSyncDbArm, afterOut, hval]

/-- A write of a word in the page of the doorbell bits is the write of that word. -/
theorem exec_registerWrite_doorbellBits {p off v : Nat} (ho : off ∈ [0x100, 0x108, 0x110]) (hv : v < 2 ^ 32) :
    exec (.registerWrite p off 4 v) s = .next (s.barDo p (fun t => t.word4 p off v)) := by
  simp only [List.mem_cons, List.not_mem_nil, or_false] at ho
  have outside : inBells off = false := inBells_eq_false_iff.mpr (by omega)
  have plain : off ∉ [0x880000, 0x880004, 0x120, 0x124] := by
    simp only [List.mem_cons, List.not_mem_nil, or_false]; omega
  rw [exec_registerWrite (by omega), State.barWrite_four outside (by omega) plain, Nat.mod_eq_of_lt hv]

/-! ### What a read shows: the halves of an 8-byte slot (R552) -/

theorem State.barRead_low {p off : Nat} (ha : off % 8 = 0) (hn : off ≠ 0x10) :
    s.barRead p off 4 = s.barWord p off % 2 ^ 32 := by
  have slot : off / 8 * 8 = off := by omega
  have aligned : off % 4 = 0 := by omega
  simp [State.barRead, slot, aligned, ha, hn]

theorem State.barRead_high {p off : Nat} (ha : off % 8 = 0) (hn : off ≠ 0x10) :
    s.barRead p (off + 4) 4 = s.barWord p off / 2 ^ 32 % 2 ^ 32 := by
  have slot : (off + 4) / 8 * 8 = off := by omega
  have aligned : (off + 4) % 4 = 0 := by omega
  have half : (off + 4) % 8 = 4 := by omega
  simp [State.barRead, slot, aligned, half, hn]

/-! ### MARK_THRESH (R159, R558) -/

theorem TpS.qcfg_eq (c : TpS) : c.qcfg = c.markTh.toNat + c.e2eWin.toNat * 2 ^ 32 := by
  have := c.markTh.isLt
  have := c.e2eWin.isLt
  simp only [TpS.qcfg, pack, List.foldl, BitVec.toNat_ofNat]
  omega

theorem State.barWord_qcfg (h : s.rst.halted = false) :
    s.barWord 0 0x812000 = s.tp.markTh.toNat + s.tp.e2eWin.toNat * 2 ^ 32 := by
  rw [← TpS.qcfg_eq]
  simp [State.barWord, State.managerWord, h]

theorem State.barRead_markThresh (h : s.rst.halted = false) : s.barRead 0 0x812000 4 = s.tp.markTh.toNat := by
  have := s.tp.markTh.isLt
  rw [State.barRead_low (by norm_num) (by norm_num), State.barWord_qcfg h]
  omega

theorem State.barRead_e2eWin (h : s.rst.halted = false) : s.barRead 0 0x812004 4 = s.tp.e2eWin.toNat := by
  have := s.tp.markTh.isLt
  have := s.tp.e2eWin.isLt
  rw [State.barRead_high (off := 0x812000) (by norm_num) (by norm_num), State.barWord_qcfg h]
  omega

/-- A value of MARK_THRESH outside its range is refused (R9). -/
theorem State.word4_markThresh (s : State) (v : Nat) :
    s.word4 0 0x812000 v = if 4 ≤ v % 2 ^ 11 ∧ v % 2 ^ 11 ≤ 1024
      then s.updTp (fun t => { t with markTh := BitVec.ofNat 11 (v % 2 ^ 11) }) else s := by
  simp [State.word4, State.managerWrite, State.onIf]

/-! ### A mailbox's DATA (R360) -/

/-- The 8 bytes shown at an offset of the mailbox page are two of its words. -/
theorem State.barWord_mailbox {p off : Nat} (h : s.rst.halted = false) (lo : 0x1000 ≤ off) (hi : off < 0x1048) :
    s.barWord p off =
      twoWords ((s.func p).mbox.shown ((off - 0x1000) / 4)) ((s.func p).mbox.shown ((off - 0x1000) / 4 + 1)) := by
  have notControl : ∀ c, c < 0x1000 → off ≠ c := by omega
  have notLost : ¬ off < 0x400 := by omega
  have page : off < 0x800000 := by omega
  simp [State.barWord, State.funcWord, h, page, notControl, notLost, lo, hi]

theorem Mbox.shown_data (m : Mbox) {i : Nat} (hi : i < 16) : m.shown i % 2 ^ 32 = m.word i := by
  simp only [Mbox.shown, Mbox.word, hi, if_true]
  exact Nat.mod_eq_of_lt (BitVec.isLt _)

theorem State.barRead_mailboxData {p i : Nat} (h : s.rst.halted = false) (hi : i < 16) :
    s.barRead p (0x1000 + 4 * i) 4 = (s.func p).mbox.word i := by
  rw [← Mbox.shown_data _ hi]
  obtain ⟨k, rfl | rfl⟩ := i.even_or_odd'
  · have word : (0x1000 + 4 * (2 * k) - 0x1000) / 4 = 2 * k := by omega
    rw [State.barRead_low (by omega) (by omega), State.barWord_mailbox h (by omega) (by omega), word, twoWords]
    omega
  · have odd : 0x1000 + 4 * (2 * k + 1) = 0x1000 + 8 * k + 4 := by omega
    have word : (0x1000 + 8 * k - 0x1000) / 4 = 2 * k := by omega
    rw [odd, State.barRead_high (by omega) (by omega), State.barWord_mailbox h (by omega) (by omega), word, twoWords]
    omega

theorem State.word4_mailboxPage {p off : Nat} (v : Nat) (lo : 0x1000 ≤ off) (hi : off < 0x1048) :
    s.word4 p off v = s.mboxWrite p (off - 0x1000) v := by
  have notControl : ∀ c, c < 0x1000 → off ≠ c := by omega
  have notAdmin : ¬ off < 0x220 := by omega
  have page : off < 0x20000 := by omega
  simp [State.word4, State.funcWrite, page, notControl, notAdmin, lo, hi]

/-- A register of DATA takes what is written, unless GO is set. -/
theorem State.word4_mailboxData (s : State) {p i : Nat} (v : Nat) (hi : i < 16) :
    s.word4 p (0x1000 + 4 * i) v =
      if (s.func p).mbox.go then s else s.updFunc p (fun f => { f with mbox := f.mbox.put i v }) := by
  have inData : 4 * i < 0x40 := by omega
  have reg : 4 * i / 4 = i := by omega
  rw [State.word4_mailboxPage v (by omega) (by omega), Nat.add_sub_cancel_left, State.mboxWrite, reg, if_pos inData]

theorem Mbox.word_put_same (m : Mbox) (i v : Nat) : (m.put i v).word i = v % 2 ^ 32 := by
  simp only [Mbox.word, Mbox.put, AMap.get_put, if_true, BitVec.toNat_ofNat]

/-! ### The basting ADMIN_CFG (R423, R551) -/

theorem State.barRead_adminCfg {p : Nat} (h : s.rst.halted = false) : s.barRead p 0x218 8 = (s.func p).adminBast.cfg.toNat := by
  have word : s.barWord p 0x218 = (s.func p).adminBast.cfg.toNat := by simp [State.barWord, State.funcWord, h]
  have fits := (s.func p).adminBast.cfg.isLt
  simpa [State.barRead, word] using fits

/-- Bits [31:0] of ADMIN_CFG hold its fields; the others of them are reserved and read 0. -/
theorem State.word4_adminCfg (s : State) (p v : Nat) :
    s.word4 p 0x218 v =
      s.updFunc p (fun f => { f with adminBast := { f.adminBast with cfg := BitVec.ofNat 64 v &&& 0x07FF1F1F#64 } }) :=
  rfl

/-- Bits [63:32] of ADMIN_CFG are reserved. -/
theorem State.word4_adminCfgHigh (s : State) (p v : Nat) : s.word4 p 0x21C v = s.updFunc p id := rfl

/-- The fields of ADMIN_CFG, picked out by the mask of its bits that are not reserved. -/
theorem adminCfg_fields (x : Nat) :
    x &&& 0x07FF1F1F = x / 2 ^ 16 % 2 ^ 11 * 2 ^ 16 + x / 2 ^ 8 % 2 ^ 5 * 2 ^ 8 + x % 2 ^ 5 := by
  have top : (x &&& 0x07FF1F1F) / 2 ^ 16 = x / 2 ^ 16 % 2 ^ 11 := by
    rw [Nat.and_div_two_pow, ← Nat.and_two_pow_sub_one_eq_mod _ 11]
  have middle : (x &&& 0x07FF1F1F) / 2 ^ 8 % 2 ^ 8 = x / 2 ^ 8 % 2 ^ 8 % 2 ^ 5 := by
    rw [Nat.and_div_two_pow, Nat.and_mod_two_pow, ← Nat.and_two_pow_sub_one_eq_mod _ 5]
  have bottom : (x &&& 0x07FF1F1F) % 2 ^ 8 = x % 2 ^ 8 % 2 ^ 5 := by
    rw [Nat.and_mod_two_pow, ← Nat.and_two_pow_sub_one_eq_mod _ 5]
  omega

/-- What ADMIN_CFG reads after a write of it. -/
theorem adminCfg_toNat (v : Nat) :
    (BitVec.ofNat 64 (v % 2 ^ 32) &&& 0x07FF1F1F#64).toNat =
      v / 2 ^ 16 % 2 ^ 11 * 2 ^ 16 + v / 2 ^ 8 % 2 ^ 5 * 2 ^ 8 + v % 2 ^ 5 := by
  have small : v % 2 ^ 32 % 2 ^ 64 = v % 2 ^ 32 := by omega
  rw [BitVec.toNat_and, BitVec.toNat_ofNat, small, BitVec.toNat_ofNat, Nat.mod_eq_of_lt (by norm_num : 0x07FF1F1F < 2 ^ 64),
    adminCfg_fields]
  omega

/-! ### Register writes that are read back (R9, R551) -/

/-- Writing MARK_THRESH changes it alone, and only to a value in its range. -/
theorem registerWrite_markThresh (x : Nat) (opened : s.barOpen 0 = true) (runs : s.rst.halted = false) :
    ∃ t : State, exec (.registerWrite 0 0x812000 4 x) s = .next t ∧ { t with tp := s.tp } = s ∧
      t.barRead 0 0x812000 4 = (if 4 ≤ x % 2 ^ 11 ∧ x % 2 ^ 11 ≤ 1024 then x % 2 ^ 11 else s.barRead 0 0x812000 4) ∧
      t.barRead 0 0x812004 4 = s.barRead 0 0x812004 4 := by
  have low : x % 2 ^ 32 % 2 ^ 11 = x % 2 ^ 11 := by omega
  refine ⟨s.word4 0 0x812000 (x % 2 ^ 32), ?_, ?_⟩
  · rw [exec_registerWrite (by norm_num), State.barWrite_four (by decide) (by norm_num) (by decide), State.barDo_of_open opened]
  · rw [State.word4_markThresh, low]
    split
    · refine ⟨rfl, ?_, ?_⟩
      · rw [State.barRead_markThresh (s := s.updTp _) runs, State.updTp, BitVec.toNat_ofNat, Nat.mod_mod]
      · rw [State.barRead_e2eWin (s := s.updTp _) runs, State.barRead_e2eWin runs, State.updTp]
    · exact ⟨rfl, rfl, rfl⟩

/-- Writing a register of a mailbox's DATA changes it alone, and only while GO is clear. -/
theorem registerWrite_mailboxData {p i v : Nat} (opened : s.barOpen p = true) (runs : s.rst.halted = false) (hi : i < 16)
    (hv : v < 2 ^ 32) :
    ∃ t : State, exec (.registerWrite p (0x1000 + 4 * i) 4 v) s = .next t ∧ { t with funcs := s.funcs } = s ∧
      t.barRead p (0x1000 + 4 * i) 4 = (if (s.func p).mbox.go = true then s.barRead p (0x1000 + 4 * i) 4 else v) := by
  have outside : inBells (0x1000 + 4 * i) = false := inBells_eq_false_iff.mpr (by omega)
  have plain : 0x1000 + 4 * i ∉ [0x880000, 0x880004, 0x120, 0x124] := by
    simp only [List.mem_cons, List.not_mem_nil, or_false]; omega
  refine ⟨s.word4 p (0x1000 + 4 * i) v, ?_, ?_⟩
  · rw [exec_registerWrite (by omega), State.barWrite_four outside (by omega) plain, State.barDo_of_open opened, Nat.mod_eq_of_lt hv]
  · rw [State.word4_mailboxData s v hi]
    split
    · exact ⟨rfl, rfl⟩
    · refine ⟨rfl, ?_⟩
      rw [State.barRead_mailboxData (s := s.updFunc p _) runs hi, State.func_updFunc_same, Mbox.word_put_same, Nat.mod_eq_of_lt hv]

/-- Writing the basting ADMIN_CFG changes it alone; its reserved bits read 0, and the active configuration stays. -/
theorem registerWrite_adminCfg {p v : Nat} (opened : s.barOpen p = true) (runs : s.rst.halted = false) :
    ∃ t : State, exec (.registerWrite p 0x218 8 v) s = .next t ∧ { t with funcs := s.funcs } = s ∧
      (t.func p).adminAct = (s.func p).adminAct ∧
      t.barRead p 0x218 8 = v / 2 ^ 16 % 2 ^ 11 * 2 ^ 16 + v / 2 ^ 8 % 2 ^ 5 * 2 ^ 8 + v % 2 ^ 5 := by
  have written : s.barWrite p 0x218 8 v =
      (s.barDo p (fun t => t.word4 p 0x218 (v % 2 ^ 64 % 2 ^ 32))).barDo p (fun t => t.word4 p 0x21C (v % 2 ^ 64 / 2 ^ 32)) := by
    simp [State.barWrite, inBells]
  have low : v % 2 ^ 64 % 2 ^ 32 = v % 2 ^ 32 := by omega
  refine ⟨(s.word4 p 0x218 (v % 2 ^ 32)).word4 p 0x21C (v % 2 ^ 64 / 2 ^ 32), ?_, ?_⟩
  · rw [exec_registerWrite (by norm_num), written, State.barDo_of_open opened, low, State.word4_adminCfg,
      State.barDo_of_open (s := s.updFunc p _) opened]
  · rw [State.word4_adminCfgHigh, State.word4_adminCfg]
    refine ⟨rfl, ?_, ?_⟩
    · simp only [State.func_updFunc_same, id]
    · rw [State.barRead_adminCfg (s := (s.updFunc p _).updFunc p id) runs]
      simp only [State.func_updFunc_same, id, adminCfg_toNat]

/-! ### What leaves the tests of clusters as they are (R532) -/

/-- Both states hold the same self-tests, and of every cluster the same needles present and the same mark of a test. -/
structure SameTests (s t : State) : Prop where
  tests : t.bist = s.bist
  marks : ∀ i, (t.clu i).bist = (s.clu i).bist
  present : ∀ i, (t.clu i).present = (s.clu i).present

theorem SameTests.trans (h : SameTests s t) (g : SameTests t u) : SameTests s u :=
  ⟨g.tests.trans h.tests, fun i => (g.marks i).trans (h.marks i), fun i => (g.present i).trans (h.present i)⟩

theorem SameTests.of_eq (hb : t.bist = s.bist) (hc : t.clus = s.clus) : SameTests s t :=
  ⟨hb, fun i => by simp only [State.clu, hc], fun i => by simp only [State.clu, hc]⟩

theorem SameTests.refl (s : State) : SameTests s s := .of_eq rfl rfl

/-- What tells the host something leaves the tests alone. -/
theorem SameTests.of_aside (h : Aside s t) : SameTests s t :=
  .of_eq (h.fld State.bist fun _ => rfl) (h.fld State.clus fun _ => rfl)

theorem SameTests.ite {c : Prop} [Decidable c] (h : SameTests s t) (g : SameTests s u) : SameTests s (if c then t else u) := by
  split
  · exact h
  · exact g

theorem SameTests.iteAns {c : Prop} [Decidable c] {a b : Ans} (h : SameTests s a.st) (g : SameTests s b.st) :
    SameTests s (if c then a else b).st := by
  split
  · exact h
  · exact g

theorem SameTests.setParts (m) (h : SameTests s t) : SameTests s { t with parts := m } := h.trans (.of_eq rfl rfl)
theorem SameTests.updFunc (p f) (h : SameTests s t) : SameTests s (t.updFunc p f) := h.trans (.of_eq rfl rfl)
theorem SameTests.updPart (p f) (h : SameTests s t) : SameTests s (t.updPart p f) := h.trans (.of_eq rfl rfl)
theorem SameTests.updUnit (k f) (h : SameTests s t) : SameTests s (t.updUnit k f) := h.trans (.of_eq rfl rfl)
theorem SameTests.updMem (f) (h : SameTests s t) : SameTests s (t.updMem f) := h.trans (.of_eq rfl rfl)
theorem SameTests.updRst (f) (h : SameTests s t) : SameTests s (t.updRst f) := h.trans (.of_eq rfl rfl)

theorem SameTests.allot (p n) (h : SameTests s t) : SameTests s (t.allot p n) := h.updPart _ _
theorem SameTests.objReset (p) (h : SameTests s t) : SameTests s (t.objReset p) := h.trans (.of_eq rfl rfl)
theorem SameTests.adminOff (p) (h : SameTests s t) : SameTests s (t.adminOff p) := h.trans (.of_eq rfl rfl)

/-- A cluster reads as changed, where it exists and is the one changed, and as before otherwise. -/
theorem State.clu_updClu (s : State) (c i : Nat) (f : ClusS → ClusS) :
    (s.updClu c f).clu i = if i = c ∧ c < 64 then f (s.clu c) else s.clu i := by
  unfold State.updClu State.clu
  by_cases hc : c < 64
  · simp only [hc, if_true, and_true, AMap.get_upd]
  · simp only [hc, if_false, and_false]

theorem SameTests.updClu (c) {f : ClusS → ClusS} (marks : ∀ x, (f x).bist = x.bist) (present : ∀ x, (f x).present = x.present)
    (h : SameTests s t) : SameTests s (t.updClu c f) := by
  refine h.trans ⟨by simp only [State.updClu_bist], fun i => ?_, fun i => ?_⟩
  · rw [State.clu_updClu]
    split
    · next e => rw [marks, e.1]
    · rfl
  · rw [State.clu_updClu]
    split
    · next e => rw [present, e.1]
    · rfl

theorem SameTests.eachOf {α : Type} {xs : List α} {f : α → State → State} (g : ∀ k x, SameTests x (f k x))
    (h : SameTests s t) : SameTests s (t.eachOf xs f) := by
  unfold State.eachOf
  induction xs generalizing t with
  | nil => exact h
  | cons x xs ih => exact ih (h.trans (g x t))

theorem SameTests.each {ks : Nats} {f : Nat → State → State} (g : ∀ k x, SameTests x (f k x)) (h : SameTests s t) :
    SameTests s (t.each ks f) :=
  SameTests.eachOf g h

theorem SameTests.placeUnit (k) (h : SameTests s t) : SameTests s (t.placeUnit k) := by
  refine .updUnit _ _ (.each (fun i x => ?_) h)
  split
  · exact .updMem _ (.refl x)
  · exact .refl x

theorem SameTests.takeUnit (p k) (h : SameTests s t) : SameTests s (t.takeUnit p k) :=
  .updUnit _ _ (.ite (h.placeUnit k) h)

/-- PART_CREATE hands out clusters, but neither tests nor repairs them (R439). -/
theorem SameTests.createNow (p n mask map) (h : SameTests s t) : SameTests s (t.createNow p n mask map).st := by
  refine h.trans ?_
  unfold State.createNow
  dsimp only
  refine .iteAns (.refl t) (.iteAns (.refl t) (.iteAns (.refl t) ?_))
  split; · exact .refl t
  split; · exact .refl t
  split; · exact .refl t
  refine .ite ?taken (.updFunc _ _ (.adminOff _ (.objReset _ ?taken)))
  refine .each (fun k x => .takeUnit p k (.refl x)) (.updRst _ (.each (fun c x => .updClu c (fun _ => rfl) (fun _ => rfl) (.refl x)) ?_))
  exact .updPart _ _ (.allot _ _ (.ite (.updPart _ _ (.refl t)) (.setParts _ (.refl t))))

/-- A PART_CREATE that waited leaves the tests alone when it goes on. -/
theorem SameTests.createRetry (h : SameTests s t) : SameTests s t.createRetry := by
  refine .eachOf (fun w x => ?_) h
  refine .ite (.refl x) ?_
  exact (((SameTests.refl x).updPart _ _).createNow _ _ _ _).trans (.of_aside ((Aside.refl _).answer _ _ _ _))

/-- What ends the test of a cluster: the entry is gone, and the cluster is no longer marked. -/
theorem clusterTestEnds {id i : Nat} (hi : i < 64) {f : State → State} (hf : ∀ x, SameTests x (f x)) :
    let t := f (({ s with bist := AMap.erase s.bist id } : State).updClu i (fun c => { c with bist := false }))
    AMap.get? t.bist id = none ∧ (t.clu i).bist = false ∧ (t.clu i).present = (s.clu i).present := by
  obtain ⟨tests, marks, present⟩ := hf (({ s with bist := AMap.erase s.bist id } : State).updClu i (fun c => { c with bist := false }))
  refine ⟨?_, (marks i).trans ?_, (present i).trans ?_⟩
  · rw [tests, State.updClu_bist, AMap.get?_erase, if_pos rfl]
  · rw [State.clu_updClu, if_pos ⟨rfl, hi⟩]
  · rw [State.clu_updClu, if_pos ⟨rfl, hi⟩]; rfl

/-- A self-test that finds no failure has no other effect than its reply and the end of what waited for it. -/
theorem bistDone_passed {id target i m : Nat} {h : Issue} (found : AMap.get? s.bist id = some (target, i, h))
    (passed : (if target = 0 then m % 256 else m % 2 ^ 64) = 0) :
    let u := ({ s with bist := AMap.erase s.bist id } : State).onIf (target == 0) (fun t => t.updClu i (fun c => { c with bist := false }))
    exec (.bistDone id m) s = .next ((u.longEnd h 0x0B31 (Ans.ok u [blkItem 8 0])).createRetry) := by
  simp only [-Nat.reducePow, exec, execBistDone, found, passed, bne_self_eq_false, State.onIf_false]

/-! ### Loop-backs (R527-R529) -/

/-- A loop-back that runs, is not on a port that takes a state back and does not fail in training ends with what it has counted. -/
theorem exec_loopbackEnd {j errors units : Nat} (runs : (AMap.get s.lb j {}).st = 1) (noPort : AMap.get? s.lbPrior j = none)
    (shallow : (AMap.get s.lb j {}).depth ≠ 4) :
    exec (.loopbackEnd j errors units) s = .next { s with lb := AMap.set s.lb j { AMap.get s.lb j {} with
      st := if errors = 0 ∧ 1024 ≤ units then 2 else 3
      errors := BitVec.ofNat 16 (min 65535 errors), units := min (2 ^ 32 - 1) (units / 1024) } } := by
  have counted : min (2 ^ 32 - 1) (units / 1024) ≠ 0 ↔ 1024 ≤ units := by omega
  have trained : ((AMap.get s.lb j {}).depth == 4) = false := by simpa using shallow
  simp only [-Nat.reducePow, -Nat.reduceSub, exec, execLoopbackEnd, State.lbEnd, runs, noPort, trained, counted, bne_self_eq_false,
    Bool.false_and, Bool.not_false, Bool.true_and, Bool.false_eq_true, if_false, Bool.and_eq_true, decide_eq_true_eq, bne_iff_ne]

/-- Settles O50: a register write is traced to the command or the word it stands for, and every reply leaves the tests as they are. -/
theorem testAndRegisterWritesAct : Obligations.TestAndRegisterWritesAct := by
  unfold Obligations.TestAndRegisterWritesAct
  refine ⟨?loopback, ?bistOther, ?bistCluster, ?tap, ?doorbell, ?syncDb, ?resetCtl, ?bits, ?markThresh, ?mailbox, ?adminCfg,
    ?misaligned, ?closed⟩
  case loopback =>
    intro s j errors units runs noPort shallow
    exact ⟨_, exec_loopbackEnd runs noPort shallow, rfl, by simp⟩
  case bistOther =>
    intro s id i h found
    exact bistDone_passed found rfl
  case bistCluster =>
    intro s id i m h found hi passed
    refine ⟨_, bistDone_passed found passed, ?_⟩
    exact clusterTestEnds hi (f := fun u => (u.longEnd h 0x0B31 (Ans.ok u [blkItem 8 0])).createRetry)
      fun u => (SameTests.of_aside ((Aside.refl u).longEnd _ _ _)).createRetry
  case tap =>
    intro s ir
    refine ⟨_, rfl, rfl, ?_, ?_, ?_⟩
    · rintro (rfl | rfl | rfl) <;> rfl
    · rintro (rfl | rfl) <;> simp
    · intro high
      have notExtest : ir ≠ 3 := by omega
      have notHighz : ir ≠ 5 := by omega
      by_cases made : s.thimble.manufacturing = true <;> simp [notExtest, notHighz, high, made]
  case doorbell =>
    intro s p q v hq hv
    rw [exec_registerWrite (by omega), State.barWrite_doorbell hq hv]
    rfl
  case syncDb =>
    intro s p i v hi hv
    exact ⟨exec_registerWrite_syncDb (by norm_num) hi hv rfl, exec_registerWrite_syncDb (by norm_num) hi hv rfl,
      exec_registerWrite_syncDb (by norm_num) hi hv rfl⟩
  case resetCtl =>
    intro s p v hv
    rw [exec_registerWrite (by norm_num), State.barWrite_resetCtl hv]
    rfl
  case bits =>
    intro s p v hv
    exact ⟨exec_registerWrite_doorbellBits (by simp) hv, exec_registerWrite_doorbellBits (by simp) hv,
      exec_registerWrite_doorbellBits (by simp) hv⟩
  case markThresh =>
    intro s x opened runs
    exact registerWrite_markThresh x opened runs
  case mailbox =>
    intro s p i v opened runs hi hv
    exact registerWrite_mailboxData opened runs hi hv
  case adminCfg =>
    intro s p v opened runs _
    exact registerWrite_adminCfg opened runs
  case misaligned =>
    intro s p off w v hoff outside bad
    rw [exec_registerWrite hoff, State.barWrite_of_misaligned (inBells_eq_false_iff.mpr outside) bad]
  case closed =>
    intro s p off w v hoff outside notReset shut notSync
    rw [exec_registerWrite hoff, State.barWrite_of_closed (inBells_eq_false_iff.mpr outside) notReset notSync shut]

end Sys2Proof.Machine
end

section
/-!
SUPPORT. What ports, laser modules and the tape keep while links leave and enter service: one lemma for each operation that chapters 08, 10
and 16 share, and what a step done for every item of a list keeps and settles.
-/

namespace Sys2Proof.Machine

variable {s t u : State} {n : Nat}

/-! ### Steps done for every item of a list -/

/-- What every single step keeps, all of them keep. -/
theorem State.eachOf_keeps {α : Type} {P : State → Prop} {xs : List α} {f : α → State → State}
    (keeps : ∀ a ∈ xs, ∀ x, P x → P (f a x)) (h : P s) : P (s.eachOf xs f) := by
  unfold State.eachOf
  induction xs generalizing s with
  | nil => exact h
  | cons a xs ih =>
    exact ih (fun b hb => keeps b (List.mem_cons_of_mem _ hb)) (keeps a List.mem_cons_self s h)

theorem State.each_keeps {P : State → Prop} {ks : Nats} {f : Nat → State → State}
    (keeps : ∀ k ∈ ks, ∀ x, P x → P (f k x)) (h : P s) : P (s.each ks f) :=
  State.eachOf_keeps keeps h

/-- What the step for one item settles, and no step undoes, holds in the end. -/
theorem State.each_settles {I P : State → Prop} {ks : Nats} {f : Nat → State → State} {k : Nat} (hk : k ∈ ks)
    (keeps : ∀ j ∈ ks, ∀ x, I x → I (f j x)) (settles : ∀ x, I x → P (f k x)) (stays : ∀ j ∈ ks, ∀ x, P x → P (f j x))
    (h : I s) : P (s.each ks f) := by
  unfold State.each
  induction ks generalizing s with
  | nil => cases hk
  | cons j ks ih =>
    rcases List.mem_cons.mp hk with rfl | hk
    · exact State.each_keeps (s := f k s) (ks := ks) (fun i hi => stays i (List.mem_cons_of_mem _ hi)) (settles s h)
    · exact ih hk (fun i hi => keeps i (List.mem_cons_of_mem _ hi)) (fun i hi => stays i (List.mem_cons_of_mem _ hi)) (keeps j List.mem_cons_self s h)

/-! ### One port and one laser module -/

/-- A port reads as changed, where it exists and is the one changed, and as before otherwise. -/
theorem State.port_updPort (s : State) (n m : Nat) (f : PortS → PortS) :
    (s.updPort n f).port m = if m = n ∧ n < 32 then f (s.port n) else s.port m := by
  unfold State.updPort State.port
  by_cases hn : n < 32
  · simp only [hn, if_true, and_true, AMap.get_upd]
  · simp only [hn, if_false, and_false]

theorem State.port_updPort_same (hn : n < 32) (f : PortS → PortS) : (s.updPort n f).port n = f (s.port n) := by
  rw [State.port_updPort, if_pos ⟨rfl, hn⟩]

theorem State.port_updPort_other {m : Nat} (hm : m ≠ n) (f : PortS → PortS) : (s.updPort n f).port m = s.port m := by
  rw [State.port_updPort, if_neg fun h => hm h.1]

/-- A laser module reads as changed, where it exists and is the one changed, and as before otherwise. -/
theorem State.elsm_updEls (s : State) (k j : Nat) (f : ElsS → ElsS) :
    (s.updEls k f).elsm j = if j = k ∧ k < 4 then f (s.elsm k) else s.elsm j := by
  unfold State.updEls State.elsm
  by_cases hk : k < 4
  · simp only [hk, if_true, and_true, AMap.get_upd]
  · simp only [hk, if_false, and_false]

theorem State.elsm_updEls_same {k : Nat} (hk : k < 4) (f : ElsS → ElsS) : (s.updEls k f).elsm k = f (s.elsm k) := by
  rw [State.elsm_updEls, if_pos ⟨rfl, hk⟩]

theorem State.elsm_updEls_other {k j : Nat} (hj : j ≠ k) (f : ElsS → ElsS) : (s.updEls k f).elsm j = s.elsm j := by
  rw [State.elsm_updEls, if_neg fun h => hj h.1]

theorem State.elsm_of_els (h : t.els = s.els) (k : Nat) : t.elsm k = s.elsm k := by unfold State.elsm; rw [h]

/-! ### What other ports' leaving service keeps of a port -/

/-- A port with everything blank but what says whether it serves: its state and check, its step of training, its light, and its laser
module's hold on it. -/
def PortS.service (p : PortS) : PortS := { state := p.state, check := p.check, step := p.step, light := p.light, els := p.els }

/-- Port `n` serves in `t` as in `s`, looped or not as there, and the laser modules are the same. -/
structure SameService (n : Nat) (s t : State) : Prop where
  service : (t.port n).service = (s.port n).service
  looped : t.looped n = s.looped n
  modules : t.els = s.els

theorem SameService.state (h : SameService n s t) : (t.port n).state = (s.port n).state := by
  simpa [PortS.service] using congrArg PortS.state h.service
theorem SameService.light (h : SameService n s t) : (t.port n).light = (s.port n).light := by
  simpa [PortS.service] using congrArg PortS.light h.service

theorem SameService.held (h : SameService n s t) : (t.port n).els = (s.port n).els := by
  simpa [PortS.service] using congrArg PortS.els h.service

theorem SameService.refl (n : Nat) (s : State) : SameService n s s := ⟨rfl, rfl, rfl⟩

theorem SameService.trans (h : SameService n s t) (g : SameService n t u) : SameService n s u :=
  ⟨g.service.trans h.service, g.looped.trans h.looped, g.modules.trans h.modules⟩

theorem SameService.of_eq (hp : t.ports = s.ports) (hl : t.lbPrior = s.lbPrior) (he : t.els = s.els) : SameService n s t :=
  ⟨by simp only [State.port, hp], by simp only [State.looped, hl], he⟩

/-- What tells the host something leaves every port as it serves. -/
theorem SameService.of_aside (h : Aside s t) : SameService n s t :=
  .of_eq (h.fld State.ports fun _ => rfl) (h.fld State.lbPrior fun _ => rfl) (h.fld State.els fun _ => rfl)

/-- A port is changed: another one, or in nothing that says whether it serves. -/
theorem SameService.updPort (j : Nat) {f : PortS → PortS} (hf : j = n → ∀ p, (f p).service = p.service) (h : SameService n s t) :
    SameService n s (t.updPort j f) := by
  refine h.trans ⟨?_, ?_, State.updPort_els ..⟩
  · rw [State.port_updPort]
    split
    · next e => rw [hf e.1.symm, e.1]
    · rfl
  · simp only [State.looped, State.updPort_lbPrior]

theorem SameService.updTp (f) (h : SameService n s t) : SameService n s (t.updTp f) := h.trans (.of_eq rfl rfl rfl)
theorem SameService.updConn (c f) (h : SameService n s t) : SameService n s (t.updConn c f) := h.trans (.of_eq rfl rfl rfl)
theorem SameService.updTape (f) (h : SameService n s t) : SameService n s (t.updTape f) := h.trans (.of_eq rfl rfl rfl)

theorem SameService.ite {c : Prop} [Decidable c] (h : SameService n s t) (g : SameService n s u) :
    SameService n s (if c then t else u) := by
  split
  · exact h
  · exact g

theorem SameService.onIf (b : Bool) {f : State → State} (g : ∀ x, SameService n s x → SameService n s (f x))
    (h : SameService n s t) : SameService n s (t.onIf b f) :=
  .ite (g t h) h

theorem SameService.cntPort (j i k) (h : SameService n s t) : SameService n s (t.cntPort j i k) := h.updPort j fun _ _ => rfl
theorem SameService.updStop (j) (h : SameService n s t) : SameService n s (t.updStop j) := h.updPort j fun _ _ => rfl

theorem SameService.freeSlots (j v k) (h : SameService n s t) : SameService n s (t.freeSlots j v k) :=
  .ite h (.updStop j (.onIf _ (fun _ g => g.updPort j fun _ _ => rfl) (h.updPort j fun _ _ => rfl)))

theorem SameService.dropOwn (q) (h : SameService n s t) : SameService n s (t.dropOwn q) := by
  unfold State.dropOwn
  split
  · exact h
  · exact h.updConn _ _

theorem SameService.dropQueued (j) (h : SameService n s t) : SameService n s (t.dropQueued j) := by
  refine State.each_keeps (fun v _ x hx => ?_) h
  refine State.eachOf_keeps (fun q _ y hy => ?_) ((hx.updTp _).cntPort j _ _)
  exact .ite (hy.dropOwn q) (.ite hy (hy.freeSlots _ _ _))

theorem SameService.dropReplay (j) (h : SameService n s t) : SameService n s (t.dropReplay j) :=
  (h.cntPort j _ _).updPort j fun _ _ => rfl

theorem SameService.dropPartial (j) (h : SameService n s t) : SameService n s (t.dropPartial j) :=
  .updPort j (fun _ _ => rfl) (State.eachOf_keeps (fun _ _ _ hx => hx.freeSlots _ _ _) (h.cntPort j _ _))

theorem SameService.leaveMatch (j) (h : SameService n s t) : SameService n s (t.leaveMatch j) := (h.dropQueued j).dropReplay j

theorem SameService.tapeView (h : SameService n s t) : SameService n s t.tapeView := h.trans (.of_eq rfl rfl rfl)

theorem SameService.chooseUpstream (h : SameService n s t) : SameService n s t.chooseUpstream :=
  .ite h (.ite (h.updTape _) (.tapeView (h.updTape _)))

theorem Aside.answerLater (i o c r) (h : Aside s t) : Aside s (t.answerLater i o c r) := h.answer i o _ true

theorem SameService.answerLater (i o c r) (h : SameService n s t) : SameService n s (t.answerLater i o c r) :=
  h.trans (.of_aside ((Aside.refl t).answerLater i o c r))

theorem SameService.linkReply (j) (h : SameService n s t) : SameService n s (t.linkReply j) := by
  unfold State.linkReply
  split
  · exact h
  · exact .answerLater _ _ _ _ (.updPort j (fun _ _ => rfl) h)

theorem SameService.linkRec (j r) (h : SameService n s t) : SameService n s (t.linkRec j r) :=
  h.trans (.of_aside ((Aside.refl _).postRec _))

theorem SameService.elsRec (k e r v) (h : SameService n s t) : SameService n s (t.elsRec k e r v) :=
  h.trans (.of_aside ((Aside.refl _).postRec _))

theorem SameService.trainFail (j) (h : SameService n s t) : SameService n s (t.trainFail j) := by
  unfold State.trainFail
  exact .ite ((h.linkRec j 4).updPort j fun _ _ => rfl) h

/-- Another port goes out of service. -/
theorem SameService.portOut {j : Nat} (hj : j ≠ n) (st) (h : SameService n s t) : SameService n s (t.portOut j st) :=
  .linkReply j (.chooseUpstream (.updPort j (fun e => absurd e hj) ((h.leaveMatch j).dropPartial j)))

/-- Another port retrains. -/
theorem SameService.retrain {j : Nat} (hj : j ≠ n) (h : SameService n s t) : SameService n s (t.retrain j) :=
  .ite (.chooseUpstream (.updPort j (fun e => absurd e hj) ((h.cntPort j _ _).dropPartial j))) h

theorem SameService.setLb (m) (h : SameService n s t) : SameService n s { t with lb := m } := h.trans (.of_eq rfl rfl rfl)

theorem SameService.setPrior {m} (hm : (AMap.get? m n).isSome = s.looped n) (h : SameService n s t) :
    SameService n s { t with lbPrior := m } :=
  ⟨h.service, hm, h.modules⟩

/-- A loop-back ends that holds another port, or none. -/
theorem SameService.lbEnd {j : Nat} (hj : j = n → s.looped n = false) (e k b) (h : SameService n s t) :
    SameService n s (t.lbEnd j e k b) := by
  unfold State.lbEnd
  refine .ite h ?_
  dsimp only
  split
  case h_2 => exact h.setLb _
  case h_1 st prior =>
    have other : j ≠ n := by
      intro e
      have := hj e
      rw [← h.looped, ← e, State.looped, prior] at this
      cases this
    refine .setPrior ?_ (.portOut other st (.setLb _ h))
    rw [← h.looped, AMap.get?_erase, if_neg other.symm, State.looped]

theorem SameService.lbStop {j : Nat} (hj : j = n → s.looped n = false) (b) (h : SameService n s t) :
    SameService n s (t.lbStop j b) :=
  .lbEnd hj _ _ b (h.trans (.of_eq rfl rfl rfl))

/-! ### What a port's own leaving and entering service makes of it -/

/-- A port out of service has its new state and no check; its light and its module's hold stay (R228). -/
theorem State.service_portOut (hn : n < 32) (st : BitVec 4) :
    ((s.portOut n st).port n).service = { (s.port n).service with state := st, check := 4, step := 0 } := by
  have before := (((SameService.refl n s).leaveMatch n).dropPartial n).service
  have after := ((SameService.refl n (((s.leaveMatch n).dropPartial n).updPort n (fun p => { p.stopped with
    state := st, check := 4, reason := 0, txMask := 0, rxMask := 0, rxOk := 0, peerRxOk := 0, cold := true }))).chooseUpstream.linkReply n).service
  rw [State.port_updPort_same hn] at after
  exact after.trans (congrArg (fun p : PortS => { p with state := st, check := 4, step := 0 }) before)

/-- A link that comes up is in UP, its training over (R227). -/
theorem State.service_linkUp (hn : n < 32) :
    ((s.linkUp n).port n).service = { (s.port n).service with state := 3, step := 0 } := by
  refine ((((SameService.refl n _).updStop n).chooseUpstream.linkReply n).service).trans ?_
  rw [State.port_updPort_same hn]
  rfl

/-- No retrain changes a laser module. -/
theorem State.retrain_els (s : State) (j : Nat) : (s.retrain j).els = s.els :=
  ((SameService.refl (j + 1) s).retrain (by omega)).modules

end Sys2Proof.Machine
end

section
/-!
PROOFS of `Obligations.ResetStateIsEmpty` (O54): what the state after reset holds.
-/

namespace Sys2Proof.Machine

/-- Settles O54: every list of the state after reset is empty, so that each item reads its own reset value. -/
theorem resetStateIsEmpty : Obligations.ResetStateIsEmpty := by
  unfold Obligations.ResetStateIsEmpty
  refine ⟨rfl, by decide, fun a => ⟨rfl, rfl, rfl, rfl⟩, rfl, rfl, rfl, rfl, rfl, ⟨by decide, by decide, nofun⟩, rfl, rfl, rfl,
    fun n => ⟨rfl, rfl, rfl⟩, fun p => ⟨rfl, rfl, rfl⟩, fun c => rfl, fun k => rfl, fun n => rfl, fun o => ⟨rfl, rfl⟩,
    rfl, rfl, rfl, rfl, fun i => ⟨rfl, rfl⟩⟩

end Sys2Proof.Machine
end

section
/-!
PROOFS of `Obligations.OpticsAct` (O26): training, lanes, emitters and laser modules.
-/

namespace Sys2Proof.Machine

variable {s t u : State} {n k : Nat}

/-! ### Training (R226-R230) -/

/-- Before its fifth step a port that trains takes a codeword's lane, lock and mask, and no identity (R226, R227). -/
theorem exec_alignmentCodewordRx_training {lane : Nat} {cw : BitVec 256} (hn : n < 32) (hl : lane < 16)
    (sync : fld cw 255 208 = 0x5C3A91E60D47) (trains : (s.port n).state = 1) (early : (s.port n).step ≠ 5) :
    exec (.alignmentCodewordRx n lane cw) s = .next (s.updPort n fun p => { p with
      laneIn := AMap.set p.laneIn lane (fld cw 207 204), peerRxOk := BitVec.ofNat 16 (fld cw 199 184)
      rxMask := BitVec.ofNat 16 (fld cw 183 168) }) := by
  simp [exec, execAlignmentCodewordRx, sync, trains, early, hn, hl, State.port_updPort_same]

theorem exec_trainingRetryTimer (may : (s.port n).mayTrain = true) (served : s.isolated 5 (n / 2) = false) :
    exec (.trainingRetryTimer n) s =
      .next (s.updPort n fun p => { p.stopped with state := 1, check := 0, step := 2, cold := true }) := by
  simp only [exec, execTrainingRetryTimer, State.trainCold, may, served, Bool.not_false, Bool.and_self, if_true]

/-- Step 2 ends with four lit and locked lanes, unless a spare is awaited (R227). -/
theorem exec_trainingPhaseEnd_lock {lanes : Nat} (hn : n < 32) (step : (s.port n).step = 2)
    (locked : 4 ≤ popCount (BitVec.ofNat 16 lanes)) (ready : s.spareAwaited n = false) :
    ∃ f : PortS → PortS, (∀ p, (f p).step = 3) ∧ exec (.trainingPhaseEnd n true lanes) s = .next (s.updPort n f) := by
  simp only [exec, execTrainingPhaseEnd, Nat.not_le.mpr hn, step, Nat.not_lt.mpr locked, ready, decide_false, Bool.not_true,
    Bool.or_self, if_false, Bool.false_eq_true]
  exact ⟨_, fun _ => rfl, rfl⟩

theorem exec_trainingPhaseEnd_clean (hn : n < 32) (lanes : Nat) (step : (s.port n).step = 3) :
    exec (.trainingPhaseEnd n true lanes) s =
      .next (s.updPort n fun p => { p with step := 4, rxOk := BitVec.ofNat 16 lanes }) := by
  simp only [exec, execTrainingPhaseEnd, Nat.not_le.mpr hn, step, decide_false, Bool.false_or, Bool.not_true, if_false, Bool.false_eq_true]

/-- Step 4 ends with four lanes that both ends can use each way; the port then sends on those of its lit lanes that the peer reports
clean (R227). -/
theorem exec_trainingPhaseEnd_mask (hn : n < 32) (lanes : Nat) (step : (s.port n).step = 4)
    (out : 4 ≤ popCount (s.litLanes n &&& (s.port n).peerRxOk)) (inn : 4 ≤ popCount (s.port n).rxMask) :
    ∃ f : PortS → PortS, (∀ p, (f p).step = 5 ∧ (f p).state = 2 ∧ (f p).txMask = s.litLanes n &&& (s.port n).peerRxOk) ∧
      exec (.trainingPhaseEnd n true lanes) s = .next (s.updPort n f) := by
  simp only [exec, execTrainingPhaseEnd, Nat.not_le.mpr hn, step, Nat.not_lt.mpr out, Nat.not_lt.mpr inn, decide_false,
    Bool.not_true, Bool.or_self, if_false, Bool.false_eq_true]
  exact ⟨_, fun _ => ⟨rfl, rfl, rfl⟩, rfl⟩

theorem exec_trainingPhaseEnd_loop (hn : n < 32) (lanes : Nat) (step : (s.port n).step = 6) (echoed : 8 ≤ (s.port n).echoes) :
    exec (.trainingPhaseEnd n true lanes) s = .next (s.linkUp n) := by
  simp only [exec, execTrainingPhaseEnd, Nat.not_le.mpr hn, step, Nat.not_lt.mpr echoed, decide_false, Bool.false_or, Bool.not_true,
    if_false, Bool.false_eq_true]

theorem exec_trainingTimeout (hn : n < 32) (trains : (s.port n).step ≠ 0) :
    exec (.trainingTimeout n) s = .next ((s.trainFail n).portOut n 0) := by
  simp only [exec, execTrainingTimeout, trains, Nat.not_le.mpr hn, decide_false, Bool.or_self, if_false, Bool.false_eq_true]

/-- A port in service whose light is lost fails its training and goes out (R228). -/
theorem exec_lightLoss (hn : n < 32) (enabled : (s.port n).state ≠ 6) (up : (s.port n).state ≠ 0) :
    exec (.lightLoss n) s = .next (((s.updPort n fun p => { p with light := false }).trainFail n).portOut n 0) := by
  simp only [exec, execLightLoss, State.port_updPort_same hn, Nat.not_le.mpr hn, beq_eq_false_iff_ne.mpr enabled,
    beq_eq_false_iff_ne.mpr up, decide_false, Bool.or_self, if_false, Bool.false_eq_true]

/-- A port that has gone out of service to a state. -/
theorem State.port_portOut (hn : n < 32) (st : BitVec 4) : ((s.portOut n st).port n).state = st ∧
    ((s.portOut n st).port n).check = 4 ∧ ((s.portOut n st).port n).light = (s.port n).light := by
  have out := State.service_portOut (s := s) hn st
  simp only [PortS.service, PortS.mk.injEq] at out
  simp only [out, and_self]

/-- A port whose link has come up. -/
theorem State.port_linkUp (hn : n < 32) : ((s.linkUp n).port n).state = 3 ∧ ((s.linkUp n).port n).step = 0 := by
  have up := State.service_linkUp (s := s) hn
  simp only [PortS.service, PortS.mk.injEq] at up
  simp only [up, and_self]

theorem exec_laneDegrade {lane : Nat} (free : s.looped n = false) (hl : lane < 16) (up : (s.port n).state = 3) :
    exec (.laneDegrade n lane) s =
      .next ((s.updPort n fun p => { p with rxOk := setFld p.rxOk lane lane 0 }).retrain n) := by
  simp [exec, execLaneDegrade, State.laneOut, free, Nat.not_le.mpr hl, up]

theorem exec_widenTimer {lanes : Nat} (hn : n < 32) (up : (s.port n).state = 3)
    (more : BitVec.ofNat 16 lanes &&& s.litLanes n &&& ~~~(s.port n).txMask ≠ 0)
    (due : ∀ x, (s.port n).widenAt = some x → x + 60000000000 ≤ s.clockNs) :
    exec (.widenTimer n lanes) s = .next ((s.retrain n).updPort n fun p => { p with widenAt := some s.clockNs }) := by
  simp only [exec, execWidenTimer, Nat.not_le.mpr hn, up, more, bne_self_eq_false, decide_false, Bool.false_or]
  cases last : (s.port n).widenAt with
  | none => rfl
  | some x => simp only [due x last, decide_true, Bool.not_true, Bool.false_eq_true, if_false]

/-! ### Emitters (R223-R225) -/

/-- Of laser module `k` the failed and the lit emitters are the same, and so is every other module. -/
structure SameLasers (k : Nat) (s t : State) : Prop where
  failed : (t.elsm k).failed = (s.elsm k).failed
  lit : (t.elsm k).lit = (s.elsm k).lit
  others : ∀ j, j ≠ k → t.elsm j = s.elsm j

theorem SameLasers.refl (k : Nat) (s : State) : SameLasers k s s := ⟨rfl, rfl, fun _ _ => rfl⟩

theorem SameLasers.of_els (e : u.els = t.els) (h : SameLasers k s t) : SameLasers k s u := by
  have same := State.elsm_of_els e
  exact ⟨(same k).symm ▸ h.failed, (same k).symm ▸ h.lit, fun j hj => (same j).trans (h.others j hj)⟩

/-- The module is changed, but neither in its failed nor in its lit emitters. -/
theorem SameLasers.updEls {f : ElsS → ElsS} (hf : ∀ e, (f e).failed = e.failed ∧ (f e).lit = e.lit) (h : SameLasers k s t) :
    SameLasers k s (t.updEls k f) := by
  by_cases hk : k < 4
  · exact ⟨by rw [State.elsm_updEls_same hk, (hf _).1, h.failed], by rw [State.elsm_updEls_same hk, (hf _).2, h.lit],
      fun j hj => by rw [State.elsm_updEls_other hj, h.others j hj]⟩
  · rwa [State.updEls, if_neg hk]

/-- A group's ports retrain, and its modules stay as they are. -/
theorem SameLasers.groupRetrain (i g) (h : SameLasers k s t) : SameLasers k s (t.groupRetrain i g) :=
  State.each_keeps (fun n _ x hx => hx.of_els (x.retrain_els n)) h

theorem SameLasers.elsRec (i e r v) (h : SameLasers k s t) : SameLasers k s (t.elsRec i e r v) :=
  h.of_els ((SameService.refl 0 t).elsRec i e r v).modules

theorem SameLasers.ite {c : Prop} [Decidable c] (h : SameLasers k s t) (g : SameLasers k s u) : SameLasers k s (if c then t else u) := by
  split
  · exact h
  · exact g

/-- A group that loses a wavelength for good (R224). -/
theorem SameLasers.groupLoses (i g) (h : SameLasers k s t) : SameLasers k s ((t.elsRec k i 7 0).groupRetrain k g) :=
  (h.elsRec k i 7 0).groupRetrain k g

/-- A group for which a spare is started (R223). -/
theorem SameLasers.spareStarts (w i g) (h : SameLasers k s t) : SameLasers k s
    (((t.updEls k fun e => { e with starting := AMap.set e.starting w g }).elsRec k i 6 0).groupRetrain k g) :=
  .groupRetrain k g (.elsRec k i 6 0 (.updEls (fun _ => ⟨rfl, rfl⟩) h))

/-- An emitter in service that fails goes dark; whatever its group then does, no other emitter fails or goes dark (R223, R224). -/
theorem exec_emitterFail {e : Nat} (hk : k < 4) (he : e < 16) (runs : (s.elsm k).st = 2) (works : bitAt (s.elsm k).failed e = false) :
    ∃ t, exec (.emitterFail k e) s = .next t ∧
      SameLasers k (s.updEls k fun x => { x with failed := setFld x.failed e e 1, lit := setFld x.lit e e 0 }) t := by
  have dark := SameLasers.refl k (s.updEls k fun x => { x with failed := setFld x.failed e e 1, lit := setFld x.lit e e 0 })
  simp only [exec, execEmitterFail, Nat.not_le.mpr hk, Nat.not_le.mpr he, runs, works, bne_self_eq_false, decide_false, Bool.or_self,
    Bool.false_eq_true, if_false]
  refine ⟨_, rfl, ?_⟩
  refine .ite ?spare ?own
  case spare =>
    split
    · exact .groupLoses _ _ (.updEls (fun _ => ⟨rfl, rfl⟩) dark)
    · exact dark
    · exact .groupLoses _ _ (.updEls (fun _ => ⟨rfl, rfl⟩) dark)
  case own =>
    split
    · exact .ite ((dark.spareStarts _ _ _).groupLoses _ _) (dark.groupLoses _ _)
    · exact .ite (dark.spareStarts _ _ _) (dark.groupLoses _ _)

theorem exec_spareSwitched {w g : Nat} (hw : w < 4) (starting : AMap.get? (s.elsm k).starting w = some g) :
    exec (.spareSwitched k w) s = .next (s.updEls k fun e => { e.setSpare w g with
      starting := AMap.erase e.starting w, lit := setFld e.lit (4 * w + 3) (4 * w + 3) 1 }) := by
  simp only [exec, execSpareSwitched, starting, Nat.not_le.mpr hw, if_false]

/-! ### Laser modules (R231, R232) -/

theorem lt_of_mem_elsPorts (hk : k < 4) (h : n ∈ elsPorts k) : n < 32 := by
  have := List.mem_range'_1.mp h
  omega

/-- Training cold, or not, leaves what holds a port. -/
theorem State.els_trainCold (s : State) (j n : Nat) : ((s.trainCold j).port n).els = (s.port n).els := by
  unfold State.trainCold
  split
  · rw [State.port_updPort]
    split
    · next e => rw [e.1]; rfl
    · rfl
  · rfl

theorem State.modules_trainCold (s : State) (j : Nat) : (s.trainCold j).els = s.els := by
  unfold State.trainCold
  split
  · exact State.updPort_els ..
  · rfl

/-- The ports of a module that runs again are no longer held by it (R231). -/
theorem State.elsPorts_freed {f : PortS → PortS} (frees : ∀ p, (f p).els = false) (hk : k < 4) (hn : n ∈ elsPorts k) (s : State) :
    ((s.each (elsPorts k) fun n t => (t.updPort n f).trainCold n).port n).els = false := by
  refine State.each_settles (I := fun _ => True) (P := fun t => (t.port n).els = false) hn (fun _ _ _ h => h) ?_ ?_ trivial
  · intro x _
    rw [State.els_trainCold, State.port_updPort_same (lt_of_mem_elsPorts hk hn), frees]
  · intro j _ x hx
    rw [State.els_trainCold, State.port_updPort]
    split
    · exact frees _
    · exact hx

theorem State.elsPorts_modules {f : PortS → PortS} (s : State) (ks : Nats) :
    (s.each ks fun n t => (t.updPort n f).trainCold n).els = s.els :=
  State.each_keeps (P := fun t => t.els = s.els)
    (fun n _ _ hx => (State.modules_trainCold _ n).trans ((State.updPort_els ..).trans hx)) rfl

/-- A module that passes its self-test runs, and holds none of its ports (R231). -/
theorem elsSelfTestDone_passed (hk : k < 4) (starts : (s.elsm k).st = 1) (unasked : (s.elsm k).cmd = none) :
    ∃ t : State, exec (.elsSelfTestDone k true) s = .next t ∧ (t.elsm k).st = 2 ∧ ∀ n ∈ elsPorts k, (t.port n).els = false := by
  simp only [exec, execElsSelfTestDone, Nat.not_le.mpr hk, starts, unasked, bne_self_eq_false, decide_false, Bool.or_self,
    Bool.false_eq_true, if_false, if_true]
  refine ⟨_, rfl, ?_, fun n hn => State.elsPorts_freed (fun _ => rfl) hk hn _⟩
  rw [State.elsm_of_els (State.elsPorts_modules ..), State.elsm_updEls_same hk]

/-- A module that fails its self-test is held dark (R231). -/
theorem elsSelfTestDone_failed (hk : k < 4) (starts : (s.elsm k).st = 1) (unasked : (s.elsm k).cmd = none) :
    ∃ t : State, exec (.elsSelfTestDone k false) s = .next t ∧ (t.elsm k).st = 4 ∧ (t.elsm k).lit = 0 := by
  simp only [exec, execElsSelfTestDone, Nat.not_le.mpr hk, starts, unasked, bne_self_eq_false, decide_false, Bool.or_self,
    Bool.false_eq_true, if_false]
  refine ⟨_, rfl, ?_⟩
  rw [State.elsm_of_els ((SameService.refl 0 _).elsRec k 0xFF 8 0).modules, State.elsm_updEls_same hk]
  exact ⟨rfl, rfl⟩

theorem exec_elsInsert (empty : (s.elsm k).present = false ∨ (s.elsm k).st = 0) :
    exec (.elsInsert k) s = .next (s.updEls k fun _ => { present := true, st := 1 }) := by
  rcases empty with h | h <;> simp [exec, execElsInsert, h]

/-- Loop-backs that end with a module change no module, and no port that is not looped. -/
theorem SameService.elsLoopsEnd (free : s.looped n = false) (h : SameService n s t) : SameService n s (t.elsLoopsEnd k) :=
  State.each_keeps (fun _ _ _ hx => hx.lbStop (fun _ => free) true) h

/-- A port of the module goes out of service, unless it is disabled, and is held. -/
def State.elsPortOut (s : State) (st : BitVec 4) (n : Nat) : State :=
  (if (s.port n).state == 6 then s else s.portOut n st).updPort n fun p => { p with els := true }

theorem State.elsPortsOut_eq (s : State) (k : Nat) (st : BitVec 4) : s.elsPortsOut k st = s.each (elsPorts k) fun n t => t.elsPortOut st n :=
  rfl

/-- A port that is not disabled, as it goes out with its module. -/
theorem State.elsPortOut_same (hn : n < 32) (enabled : (s.port n).state ≠ 6) (st : BitVec 4) :
    ((s.elsPortOut st n).port n).state = st ∧ ((s.elsPortOut st n).port n).els = true := by
  unfold State.elsPortOut
  rw [if_neg (by simpa using enabled), State.port_updPort_same hn]
  obtain ⟨state, _⟩ := State.port_portOut (s := s) hn st
  dsimp only
  exact ⟨state, rfl⟩

theorem SameService.elsPortOut {j : Nat} (hj : j ≠ n) (st) (h : SameService n s t) : SameService n s (t.elsPortOut st j) :=
  .updPort j (fun e => absurd e hj) (.ite h (h.portOut hj st))

/-- Every port of a module that is not disabled goes out of service and is held (R232). -/
theorem State.elsPortsOut_down (hk : k < 4) (hn : n ∈ elsPorts k) (enabled : (s.port n).state ≠ 6) :
    ((s.elsPortsOut k 0).port n).state = 0 ∧ ((s.elsPortsOut k 0).port n).els = true := by
  have out : ∀ x : State, (x.port n).state ≠ 6 → ((x.elsPortOut 0 n).port n).state = 0 ∧ ((x.elsPortOut 0 n).port n).els = true :=
    fun x hx => State.elsPortOut_same (lt_of_mem_elsPorts hk hn) hx 0
  rw [State.elsPortsOut_eq]
  refine State.each_settles (I := fun t => (t.port n).state ≠ 6) (P := fun t => (t.port n).state = 0 ∧ (t.port n).els = true) hn
    ?_ out ?_ enabled
  · intro j _ x hx
    by_cases hj : j = n
    · rw [hj, (out x hx).1]; decide
    · rwa [((SameService.refl n x).elsPortOut hj 0).state]
  · intro j _ x hx
    by_cases hj : j = n
    · exact hj ▸ out x (by rw [hx.1]; decide)
    · have same := (SameService.refl n x).elsPortOut hj 0
      exact ⟨same.state.trans hx.1, same.held.trans hx.2⟩

/-- A module that is pulled: its loop-backs end, its ports go out unless it was released, and its bay is empty (R232). -/
def State.elsPulled (s : State) (k : Nat) : State :=
  ((s.elsLoopsEnd k).onIf ((s.elsm k).st != 3) (fun t => (t.elsPortsOut k 0).elsRec k 0xFF 9 0)).updEls k fun e =>
    { e with present := false, st := 0, lit := 0, starting := [], cmd := none }

/-- A removal is that, and ends the command that waited for the module. -/
theorem exec_elsRemoved (hk : k < 4) (there : (s.elsm k).present = true) :
    ∃ t : State, exec (.elsRemoved k) s = .next t ∧ Aside (s.elsPulled k) t ∧ ((s.elsm k).cmd = none → t = s.elsPulled k) := by
  simp only [exec, execElsRemoved, Nat.not_le.mpr hk, there, decide_false, Bool.not_true, Bool.or_self, Bool.false_eq_true, if_false]
  refine ⟨_, rfl, ?_, ?_⟩
  · split
    · exact (Aside.refl _).longEnd _ _ _
    · exact Aside.refl _
  · intro unasked
    rw [unasked]
    rfl

theorem State.elsm_elsPulled (hk : k < 4) (s : State) :
    ((s.elsPulled k).elsm k).present = false ∧ ((s.elsPulled k).elsm k).st = 0 ∧ ((s.elsPulled k).elsm k).lit = 0 := by
  rw [State.elsPulled, State.elsm_updEls_same hk]
  exact ⟨rfl, rfl, rfl⟩

/-- A port of a module that is pulled without a release goes out of service and is held (R232). -/
theorem State.port_elsPulled (hk : k < 4) (running : (s.elsm k).st ≠ 3) (hn : n ∈ elsPorts k) (enabled : (s.port n).state ≠ 6)
    (free : s.looped n = false) : ((s.elsPulled k).port n).state = 0 ∧ ((s.elsPulled k).port n).els = true := by
  have ended := (SameService.refl n s).elsLoopsEnd (k := k) free
  have down := State.elsPortsOut_down hk hn (s := s.elsLoopsEnd k) (by rwa [ended.state])
  have posted := (SameService.refl n ((s.elsLoopsEnd k).elsPortsOut k 0)).elsRec k 0xFF 9 0
  have pulled : (s.elsPulled k).ports = (((s.elsLoopsEnd k).elsPortsOut k 0).elsRec k 0xFF 9 0).ports := by
    simp only [State.elsPulled, State.updEls_ports, bne_iff_ne.mpr running, State.onIf, if_true]
  simp only [State.port, pulled]
  exact ⟨posted.state.trans down.1, posted.held.trans down.2⟩

/-- Settles O26: each command's branch, then what it leaves of the port and of the laser module it names. -/
theorem opticsAct : Obligations.OpticsAct := by
  unfold Obligations.OpticsAct
  refine ⟨?codeword, ?retry, ?light, ?lock, ?clean, ?mask, ?loop, ?timeout, ?loss, ?degrade, ?widen, ?emitter, ?spare, ?selfTest,
    ?insert, ?removed, ?samples⟩
  case codeword =>
    intro s n lane cw hn hl sync trains early
    exact ⟨_, exec_alignmentCodewordRx_training hn hl sync trains early, State.onlyPort_upd hn rfl⟩
  case retry =>
    intro s n hn may served
    exact ⟨_, exec_trainingRetryTimer may served, State.onlyPort_upd hn rfl⟩
  case light =>
    intro s n _
    rfl
  case lock =>
    intro s n lanes hn step locked ready
    obtain ⟨f, hf, ran⟩ := exec_trainingPhaseEnd_lock hn step locked ready
    obtain ⟨here, others, frame⟩ := State.onlyPort_upd (s := s) (f := f) hn rfl
    exact ⟨_, ran, here ▸ hf _, others, frame⟩
  case clean =>
    intro s n lanes hn step
    exact ⟨_, exec_trainingPhaseEnd_clean hn lanes step, State.onlyPort_upd hn rfl⟩
  case mask =>
    intro s n lanes hn step out inn
    obtain ⟨f, hf, ran⟩ := exec_trainingPhaseEnd_mask hn lanes step out inn
    obtain ⟨here, others, frame⟩ := State.onlyPort_upd (s := s) (f := f) hn rfl
    obtain ⟨next, state, mask⟩ := hf (s.port n)
    exact ⟨_, ran, here ▸ next, here ▸ state, here ▸ mask, others, frame⟩
  case loop =>
    intro s n lanes hn step echoed
    exact ⟨_, exec_trainingPhaseEnd_loop hn lanes step echoed, rfl, State.port_linkUp hn⟩
  case timeout =>
    intro s n hn trains
    obtain ⟨state, check, _⟩ := State.port_portOut (s := s.trainFail n) hn 0
    exact ⟨_, exec_trainingTimeout hn trains, rfl, state, check⟩
  case loss =>
    intro s n hn enabled up
    obtain ⟨state, check, light⟩ := State.port_portOut (s := (s.updPort n fun p => { p with light := false }).trainFail n) hn 0
    refine ⟨_, exec_lightLoss hn enabled up, light.trans ?_, state, check⟩
    rw [((SameService.refl n _).trainFail n).light, State.port_updPort_same hn]
  case degrade =>
    intro s n lane free hl up
    exact exec_laneDegrade free hl up
  case widen =>
    intro s n lanes hn up more due
    exact exec_widenTimer hn up more due
  case emitter =>
    intro s k e hk he runs works
    obtain ⟨t, ran, failed, lit, others⟩ := exec_emitterFail hk he runs works
    rw [State.elsm_updEls_same hk] at failed lit
    exact ⟨t, ran, failed, lit, fun j hj => (others j hj).trans (State.elsm_updEls_other hj _)⟩
  case spare =>
    intro s k w g hk hw starting
    exact ⟨_, exec_spareSwitched hw starting, State.elsm_updEls_same hk _, fun j hj => State.elsm_updEls_other hj _⟩
  case selfTest =>
    intro s k hk starts unasked
    exact ⟨elsSelfTestDone_passed hk starts unasked, elsSelfTestDone_failed hk starts unasked⟩
  case insert =>
    intro s k hk empty
    exact ⟨_, exec_elsInsert empty, State.elsm_updEls_same hk _, fun j hj => State.elsm_updEls_other hj _⟩
  case removed =>
    intro s k hk there
    obtain ⟨t, ran, aside, unasked⟩ := exec_elsRemoved hk there
    obtain ⟨present, st, lit⟩ := State.elsm_elsPulled hk s
    rw [← State.elsm_of_els (aside.fld State.els fun _ => rfl) k] at present st lit
    refine ⟨t, ran, present, st, lit, fun running idle n hn enabled free => ?_⟩
    rw [unasked idle]
    exact State.port_elsPulled hk running hn enabled free
  case samples =>
    intro s x xs
    rfl

end Sys2Proof.Machine
end

section
/-!
PROOFS of `Obligations.FabricPacketsGoOn` (O25): packets on their way, tape marks and the boundary of a tape epoch.
-/

namespace Sys2Proof.Machine

variable {s t u : State} {n : Nat} {p : Pkt}

/-! ### Forwarding (R37, R196, R203, R210) -/

/-- A packet for another device that may go on joins the output queue its route names. -/
theorem exec_packetForward_out {k : Nat} {detour : Bool} (hn : n < 32) (single : p.mcast = false)
    (other : (s.devidValid && p.dest = s.myId) = false) (taken : s.arrive n p = (u, true)) (valid : validId p.dest = true)
    (near : p.hops < 6) (aged : u.tapeAges = true) (young : (u.now.toNat + 2 ^ 32 - p.txTape) % 2 ^ 32 ≤ 196000)
    (way : u.routeBy true n p = .out k detour) :
    exec (.packetForward n p) s = .next (u.enqueue k { pkt := p, src := n, detour }) := by
  simp only [exec, execPacketForward, single, other, taken, valid, aged, way, Nat.not_le.mpr hn, Nat.not_le.mpr near,
    Nat.not_lt.mpr young, State.onIf_false, decide_false, Bool.or_self, Bool.and_false, Bool.not_true, Bool.false_eq_true, if_false]

/-- A packet past its sixth hop is dropped at its input and counted (R210). -/
theorem exec_packetForward_far (hn : n < 32) (single : p.mcast = false) (other : (s.devidValid && p.dest = s.myId) = false)
    (taken : s.arrive n p = (u, true)) (valid : validId p.dest = true) (far : 6 ≤ p.hops) :
    exec (.packetForward n p) s = .next ((u.cntRt 3 1).dropIn n p) := by
  simp only [exec, execPacketForward, single, other, taken, valid, far, Nat.not_le.mpr hn, decide_false, Bool.or_self, Bool.not_true,
    Bool.false_eq_true, if_false, if_true]

theorem exec_mcastPacket (group : p.mcast = true) :
    exec (.mcastPacket n p) s =
      .next (if (s.mcastArrive n p).2 then (s.mcastArrive n p).1.collTake p [] else (s.mcastArrive n p).1) := by
  simp only [exec, execMcastPacket, group, if_true]

/-! ### Congestion maps (R213) -/

theorem exec_mapPush (hn : n < 32) (proto : p.proto = 2) (push : fld p.hdr 511 504 = 2) (taken : s.takeHere n p = (u, true))
    (intact : p.crcOk = true) :
    exec (.mapPush n p) s = .next ((u.cntRt 10 1).updPort n fun q => { q with
      pushLvl := some (BitVec.ofNat 256 (fld p.hdr 255 0)), pushUp := BitVec.ofNat 32 (fld p.hdr 471 440), pushAge := 0 }) := by
  simp only [exec, execMapPush, proto, push, taken, intact, Nat.not_le.mpr hn, bne_self_eq_false, decide_false, Bool.or_self,
    Bool.not_true, Bool.false_eq_true, if_false]

/-! ### What keeps the marks of the ports (R372) -/

@[simp] theorem State.tapeView_marks (s : State) : s.tapeView.tape.marks = s.tape.marks := by
  unfold State.tapeView State.updTape
  dsimp only
  split
  · split <;> rfl
  · rfl

@[simp] theorem State.chooseUpstream_marks (s : State) : s.chooseUpstream.tape.marks = s.tape.marks := by
  unfold State.chooseUpstream
  dsimp only
  split
  · rfl
  · split
    · rfl
    · exact State.tapeView_marks _

@[simp] theorem State.tapeTo_marks (s : State) (st : BitVec 4) : (s.tapeTo st).tape.marks = s.tape.marks := State.tapeView_marks _

@[simp] theorem State.tapeRec_marks (s : State) (r : Nat) (v : Int) : (s.tapeRec r v).tape.marks = s.tape.marks :=
  ((Aside.refl s).postRec _).fld (fun x => x.tape.marks) fun _ => rfl

@[simp] theorem State.syncPut_marks (s : State) (o : Nat) (v : BitVec 64) : (s.syncPut o v).tape.marks = s.tape.marks :=
  State.syncPut_fld s o v (fun x => x.tape.marks) fun _ => rfl

@[simp] theorem State.eventFire_marks (s : State) (part : Nat) (e : Event) : (s.eventFire part e).tape.marks = s.tape.marks := by
  have woken : s.leaveIdle.tape.marks = s.tape.marks := by unfold State.leaveIdle State.onIf; split <;> rfl
  unfold State.eventFire
  dsimp only
  split
  · exact woken
  · split
    · rw [State.syncPut_marks, woken]
    · rw [State.syncAdd, State.syncPut_marks, woken]

@[simp] theorem State.stepEvents_marks (s : State) : s.stepEvents.tape.marks = s.tape.marks := by
  refine State.eachOf_keeps (P := fun t => t.tape.marks = s.tape.marks) (fun e _ x hx => ?_) rfl
  have fired := (State.eventFire_marks x e.1 e.2.2).trans hx
  dsimp only
  split
  · exact fired
  · exact fired

@[simp] theorem State.tapeStep_marks (s : State) (off : Int) (st : BitVec 4) : (s.tapeStep off st).tape.marks = s.tape.marks := by
  unfold State.tapeStep
  dsimp only
  split
  · rw [State.stepEvents_marks, State.tapeRec_marks, State.tapeTo_marks]; rfl
  · rw [State.tapeRec_marks, State.tapeTo_marks]; rfl

@[simp] theorem State.tapeCompare_marks (s : State) (off : Int) : (s.tapeCompare off).tape.marks = s.tape.marks := by
  unfold State.tapeCompare
  dsimp only
  split
  · split
    · exact State.tapeTo_marks _ _
    · split
      · exact State.tapeStep_marks _ _ _
      · rfl
  · split
    · exact State.tapeStep_marks _ _ _
    · rfl
  · split
    · exact State.tapeStep_marks _ _ _
    · exact State.tapeTo_marks _ _

/-- The mark that two words of a port hold (R371). -/
def TMark.ofWords (hi lo : BitVec 64) : TMark where
  refId := BitVec.ofNat 16 (fld hi 55 40)
  hops := BitVec.ofNat 6 (fld hi 39 34)
  cls := BitVec.ofNat 2 (fld hi 33 32)
  st := BitVec.ofNat 4 (fld hi 31 28)
  ns := BitVec.ofNat 64 (fld hi 23 0 * 2 ^ 40 + fld lo 55 16)
  frac := BitVec.ofNat 16 (fld lo 15 0)

/-- A checked port's mark is kept, whatever the tape then makes of it. -/
theorem exec_tapeMark_kept (hn : n < 32) (up : (s.port n).state = 3) (checked : (s.port n).check = 2) (hi lo : BitVec 64) :
    ∃ t : State, exec (.tapeMark n hi lo) s = .next t ∧ AMap.get? t.tape.marks n = some (TMark.ofWords hi lo) := by
  have kept : ((s.cntPort n 14 1).updTape (fun t => { t with marks := AMap.set t.marks n (TMark.ofWords hi lo) })).chooseUpstream.tape.marks =
      AMap.set (s.cntPort n 14 1).tape.marks n (TMark.ofWords hi lo) := State.chooseUpstream_marks _
  simp only [exec, execTapeMark, up, checked, Nat.not_le.mpr hn, bne_self_eq_false, beq_self_eq_true, decide_false, Bool.or_true,
    Bool.or_self, Bool.not_true, Bool.false_eq_true, if_false]
  refine ⟨_, rfl, ?_⟩
  split
  · rw [State.tapeCompare_marks, State.tapeView_marks]
    exact (congrArg (AMap.get? · n) kept).trans (AMap.get?_set_same _ _ _)
  · exact (congrArg (AMap.get? · n) kept).trans (AMap.get?_set_same _ _ _)

/-! ### The boundary of a tape epoch (R203, R213, R214, R377) -/

/-- Device memory and the sequence of the compiled map are the same. -/
structure SameMap (s t : State) : Prop where
  seq : t.route.mapSeq = s.route.mapSeq
  memory : t.devMem = s.devMem

theorem SameMap.refl (s : State) : SameMap s s := ⟨rfl, rfl⟩

theorem SameMap.trans (h : SameMap s t) (g : SameMap t u) : SameMap s u := ⟨g.seq.trans h.seq, g.memory.trans h.memory⟩

theorem SameMap.of_aside (h : Aside s t) : SameMap s t := ⟨h.fld (fun x => x.route.mapSeq) fun _ => rfl, h.fld State.devMem fun _ => rfl⟩

theorem SameMap.updPort (j f) (h : SameMap s t) : SameMap s (t.updPort j f) :=
  h.trans ⟨by rw [State.updPort_route], State.updPort_devMem ..⟩

theorem SameMap.updTp (f) (h : SameMap s t) : SameMap s (t.updTp f) := h.trans ⟨rfl, rfl⟩
theorem SameMap.cntRt (i k) (h : SameMap s t) : SameMap s (t.cntRt i k) := h.trans ⟨rfl, rfl⟩

theorem SameMap.ports {ks : Nats} {f : Nat → PortS → PortS} (h : SameMap s t) : SameMap s (t.each ks fun n x => x.updPort n (f n)) :=
  State.each_keeps (fun n _ _ hx => hx.updPort n (f n)) h

theorem SameMap.enqueue (j q) (h : SameMap s t) : SameMap s (t.enqueue j q) := by
  unfold State.enqueue State.onIf
  dsimp only
  split
  · exact .updPort j _ (.updTp _ (.updPort j _ (.updTp _ h)))
  · exact .updPort j _ (.updTp _ h)

theorem SameMap.sendPush (j) (h : SameMap s t) : SameMap s (t.sendPush j) := .cntRt 9 1 (h.enqueue j _)

theorem SameMap.bookBoundary (h : SameMap s t) : SameMap s t.bookBoundary := by
  have replied : ∀ {cmds : List Issue} {x : State}, SameMap s x → SameMap s (x.eachOf cmds fun c y => y.longEnd c 0x0821 { st := y }) :=
    fun hx => State.eachOf_keeps (fun c _ y hy => hy.trans (.of_aside ((Aside.refl y).longEnd _ _ _))) hx
  unfold State.bookBoundary
  dsimp only
  split
  · exact .ports (replied (.ports h))
  · exact replied (.ports h)

theorem SameMap.pushes {ks : Nats} (h : SameMap s t) : SameMap s (t.each ks fun n x => x.sendPush n) :=
  State.each_keeps (fun n _ _ hx => hx.sendPush n) h

theorem SameMap.setMap (m) (h : SameMap s t) : SameMap s (t.updRoute fun r => { r with map := m }) := h.trans ⟨rfl, rfl⟩

/-- What keeps the map once its sequence has advanced. -/
theorem SameMap.advanced {d} (h : SameMap (s.updRoute fun r => { r with mapSeq := r.mapSeq + 1, depth := d }) t) :
    t.route.mapSeq = s.route.mapSeq + 1 ∧ t.devMem = s.devMem :=
  ⟨h.seq, h.memory⟩

/-- A port as the boundary leaves it: its counts of the epoch begin again (R214). -/
def PortS.epochBegun (p : PortS) : PortS := { p with snapB := [], epochTx := 0, epochRx := 0, epochMark := 0, epochWait := 0 }

/-- At a boundary the map's sequence advances, and after all that the boundary sends the ports' counts begin again. -/
theorem exec_tapeEpochBoundary (running : s.tape.running = true) :
    ∃ u : State, exec .tapeEpochBoundary s = .next (u.each (List.range 32) fun n t => t.updPort n PortS.epochBegun) ∧
      u.route.mapSeq = s.route.mapSeq + 1 ∧ u.devMem = s.devMem := by
  have booked : SameMap s s.bookBoundary := (SameMap.refl s).bookBoundary
  simp only [exec, execTapeEpochBoundary, running, Bool.not_true, Bool.false_eq_true, if_false]
  rw [← booked.seq, ← booked.memory]
  exact ⟨_, rfl, SameMap.advanced (.setMap _ (.pushes (.ports (.refl _))))⟩

/-- Where every port is changed alike, each of the 32 has what the change always gives. -/
theorem State.port_each_updPort {P : PortS → Prop} {f : PortS → PortS} (hf : ∀ p, P (f p)) (hn : n < 32) (s : State) :
    P ((s.each (List.range 32) fun n t => t.updPort n f).port n) := by
  refine State.each_settles (I := fun _ => True) (P := fun t => P (t.port n)) (List.mem_range.mpr hn) (fun _ _ _ h => h) ?_ ?_ trivial
  · intro x _
    exact (State.port_updPort_same hn f).symm ▸ hf _
  · intro j _ x hx
    rw [State.port_updPort]
    split
    · exact hf _
    · exact hx

/-- Settles O25: each command's branch, and what the tape and the boundary of an epoch keep of marks and map. -/
theorem fabricPacketsGoOn : Obligations.FabricPacketsGoOn := by
  unfold Obligations.FabricPacketsGoOn
  refine ⟨?goesOn, ?far, ?multicast, ?push, ?mark, ?boundary⟩
  case goesOn =>
    intro s u n k p detour hn single other taken valid near aged young way
    exact exec_packetForward_out hn single other taken valid near aged young way
  case far =>
    intro s u n p hn single other taken valid far
    exact exec_packetForward_far hn single other taken valid far
  case multicast =>
    intro s u n p here group arrived
    rw [exec_mcastPacket group, arrived]
  case push =>
    intro s u n p hn proto push taken intact
    refine ⟨_, exec_mapPush hn proto push taken intact, ?_, ?_, ?_, fun m hm => State.port_updPort_other hm _⟩
    all_goals rw [State.port_updPort_same hn]
  case mark =>
    intro s n hi lo hn up checked
    obtain ⟨t, ran, kept⟩ := exec_tapeMark_kept hn up checked hi lo
    exact ⟨t, TMark.ofWords hi lo, ran, kept, rfl, rfl, rfl, rfl, rfl⟩
  case boundary =>
    intro s running
    obtain ⟨u, ran, seq, memory⟩ := exec_tapeEpochBoundary running
    have counted : SameMap u (u.each (List.range 32) fun n t => t.updPort n PortS.epochBegun) := .ports (.refl u)
    refine ⟨_, ran, counted.seq.trans seq, counted.memory.trans memory, fun n hn => ?_⟩
    exact State.port_each_updPort (P := fun p => p.epochTx = 0 ∧ p.epochRx = 0 ∧ p.epochMark = 0 ∧ p.snapB = [])
      (fun _ => ⟨rfl, rfl, rfl, rfl⟩) hn u

end Sys2Proof.Machine
end

section
/-!
PROOFS of `Obligations.SegmentCommandsReply` (O2): what each segment command does in its turn.
-/

namespace Sys2Proof.Machine

variable {s t : State} {h : Issue} {ctx seg : Nat}

/-! ### Commands on a context that no drain holds (R53, R56) -/

/-- On a context the issuer may name, with no command draining, a segment command takes its turn at once. -/
theorem segCmd_of_free (free : ctxFree s h ctx) (op : Nat) (v : BitVec 256) :
    segCmd op h ctx seg v s = segTurn op h ctx seg v s := by
  obtain ⟨undrained, p, owned, named⟩ := free
  have may : (h.part != 0 && h.part != p) = false := by
    rcases named with own | own <;> simp [own]
  simp only [segCmd, owned, may, undrained, Option.isSome_none, Bool.false_and, Bool.false_eq_true, if_false]

/-- A drain with nothing to wait for replies at once. -/
theorem State.drainOr_of_drained {segs : Nats} (drained : s.undrained ctx segs = []) (isStitch : Bool) :
    s.drainOr h ctx segs isStitch = Ans.ok s := by
  simp only [State.drainOr, drained, List.isEmpty_nil, if_true]

/-- A drain that waits for a transfer keeps its reply (R58). -/
theorem State.drainOr_of_undrained {segs : Nats} (held : s.undrained ctx segs ≠ []) (isStitch : Bool) :
    s.drainOr h ctx segs isStitch =
      Ans.wait (s.updCtx ctx fun c => { c with drain := some { issue := h, segs, isStitch } }) := by
  simp only [State.drainOr, List.isEmpty_eq_false_iff.mpr held, Bool.false_eq_true, if_false]

/-! ### Turns -/

/-- SEG_STITCH on a basting copy whose valid segments and header pass their checks (R54, R55). -/
theorem segTurn_stitch (v : BitVec 256) (id : s.devidValid = true)
    (sound : ∀ k < 16, segValid (AMap.get (s.ctx ctx).bast k 0) = true → s.segReason ((s.ctxOwner ctx).getD 64) ctx k = 0)
    (header : headerBad (s.ctx ctx).hdrBast = false) : segTurn 0x102 h ctx seg v s = s.stitch h ctx := by
  have noneBad : ((List.range 16).filter fun k => segValid (AMap.get (s.ctx ctx).bast k 0)).find?
      (fun k => s.segReason ((s.ctxOwner ctx).getD 64) ctx k != 0) = none := by
    refine List.find?_eq_none.mpr fun k hk => ?_
    obtain ⟨range, valid⟩ := List.mem_filter.mp hk
    simp [sound k (List.mem_range.mp range) valid]
  simp only [segTurn, id, noneBad, header, Nat.reduceEqDiff, Bool.not_true, Bool.and_false, Bool.false_eq_true, if_false, if_true]

/-- A command whose turn ends in a drain: it replies at once or keeps its reply. -/
theorem vuino_drain {op : Nat} {vals : Nats} {body : State → Ans} {segs : Nats} {isStitch : Bool}
    (ok : s.admits h op vals = true) (short : ∀ i, opInfo op = some i → i.long = false)
    (turn : body s = t.drainOr h ctx segs isStitch) :
    (t.undrained ctx segs = [] → vuino h op vals body s = t.answer h op (Ans.ok t) true) ∧
    (t.undrained ctx segs ≠ [] → vuino h op vals body s =
      (t.updCtx ctx fun c => { c with drain := some { issue := h, segs, isStitch } }).owe h) := by
  refine ⟨fun drained => ?_, fun held => ?_⟩
  · exact vuino_replies ok (turn.trans (State.drainOr_of_drained drained _)) rfl
  · exact vuino_owes ok (turn.trans (State.drainOr_of_undrained held _)) rfl short

/-- Settles O2: each command's turn on a free context, then its reply. -/
theorem segmentCommandsReply : Obligations.SegmentCommandsReply := by
  unfold Obligations.SegmentCommandsReply
  refine ⟨?write, ?header, ?stitch, ?unmap, ?query⟩
  case write =>
    intro s h ctx seg e ok free clean
    refine congrArg _ (vuino_replies ok ((segCmd_of_free free _ _).trans ?_) rfl)
    simp [segTurn, clean]
  case header =>
    intro s h ctx hd ok free high middle low
    have same : (hd.setWidth 256).setWidth 128 = hd := by simp
    refine congrArg _ (vuino_replies ok ((segCmd_of_free free _ _).trans ?_) rfl)
    simp [segTurn, same, high, middle, low]
  case stitch =>
    intro s h ctx ok free id sound header changed t
    have turn : segCmd 0x102 h ctx 0 0 s = t.drainOr h ctx changed true :=
      (segCmd_of_free free _ _).trans (segTurn_stitch 0 id sound header)
    obtain ⟨now, later⟩ := vuino_drain ok (by decide) turn
    exact ⟨fun drained => congrArg _ (now drained), fun held => congrArg _ (later held)⟩
  case unmap =>
    intro s h ctx seg ok free unset t
    have turn : segCmd 0x103 h ctx seg 0 s = t.drainOr h ctx [seg] false := segCmd_of_free free _ _
    obtain ⟨now, later⟩ := vuino_drain ok (by decide) turn
    exact ⟨fun drained => congrArg _ (now drained), fun held => congrArg _ (later held)⟩
  case query =>
    intro s h ctx seg hs free
    refine ⟨fun ok => ?_, fun ok => ?_⟩
    · refine congrArg _ (vuino_replies ok ((segCmd_of_free free _ _).trans ?_) rfl)
      simp [segTurn, Nat.mod_eq_of_lt hs, State.seg, State.segEpoch, hs]
    · refine congrArg _ (vuino_replies ok ((segCmd_of_free free _ _).trans ?_) rfl)
      simp [segTurn, Nat.mod_eq_of_lt hs, State.segEpoch, hs]

end Sys2Proof.Machine
end

section
/-!
PROOFS of `Obligations.DrainAndTransferEventsAct` (O14): drains, the segment cache, transfers, hot granules and idle contexts.
-/

namespace Sys2Proof.Machine

variable {s t u : State} {ctx seg id : Nat}

/-! ### Drains (R58, R59) -/

/-- A drain that is in progress ends with its reply, and the commands behind it go on. -/
theorem State.drainEnd_of_drain {d : Drain} (drains : (s.ctx ctx).drain = some d) (status : Nat) :
    s.drainEnd ctx status =
      let t := (s.updCtx ctx fun c => { c with drain := none }).answerLater d.issue (if d.isStitch then 0x102 else 0x103) status
      segResume ctx (t.ctx ctx).waiting.length t := by
  simp only [State.drainEnd, drains]

theorem exec_segDrainEnd {d : Drain} (drains : (s.ctx ctx).drain = some d) (drained : s.undrained ctx d.segs = []) :
    exec (.segDrainEnd ctx) s = .next (s.drainEnd ctx 0) := by
  simp only [exec, execSegDrainEnd, drains, drained, List.isEmpty_nil, if_true]

/-- A transfer that a reset of its engine cuts off: nothing of it is in flight, and it fails (R59). -/
def State.cutXfer (id : Nat) (t : State) : State :=
  match AMap.get? t.xfers id with
  | none => t
  | some x => if x.ended then t else (t.updXfer id fun y => { y with unacc := 0, flying := 0 }).xferFail id

/-- A forced drain faults every engine that holds a piece, one fault for each, and fails their transfers. -/
theorem exec_drainForced {d : Drain} (drains : (s.ctx ctx).drain = some d) (held : s.undrained ctx d.segs ≠ []) :
    ∃ fs : List FPend, fs.map (fun f => (f.kind, f.idx)) = ((s.undrained ctx d.segs).map fun e => xferBlock e.2).dedup ∧
      (∀ f ∈ fs, f.cls = 3 ∧ f.reason = 1) ∧
      exec (.drainForced ctx) s = .next (((s.eachOf fs fun f t => t.fault f).each
        ((s.undrained ctx d.segs).map Prod.fst) State.cutXfer).drainEnd ctx 22) := by
  simp only [exec, execDrainForced, drains, List.isEmpty_eq_false_iff.mpr held, Bool.false_eq_true, if_false]
  refine ⟨_, ?_, ?_, rfl⟩
  · rw [List.map_map]
    exact List.map_id _
  · intro f hf
    obtain ⟨b, _, rfl⟩ := List.mem_map.mp hf
    exact ⟨rfl, rfl⟩

/-! ### The segment cache (R61) -/

/-- A changed transfer leaves everything but the transfers. -/
theorem State.updXfer_frame (s : State) (id : Nat) (f : Xfer → Xfer) : { s.updXfer id f with xfers := s.xfers } = s := by
  unfold State.updXfer
  split <;> rfl

/-- A transfer that exists reads as changed. -/
theorem State.get?_updXfer_same {x : Xfer} (found : AMap.get? s.xfers id = some x) (f : Xfer → Xfer) :
    AMap.get? (s.updXfer id f).xfers id = some (f x) := by
  simp only [State.updXfer, found, AMap.get?_set_same]

/-- A miss that returns leaves the list of misses, and its pair becomes the most recent. -/
def State.missFilled (s : State) (ctx seg id : Nat) : State :=
  { s with segMiss := s.segMiss.erase (ctx, seg, id) }.segCached ctx seg

theorem exec_segCacheMissFill (outstanding : (ctx, seg, id) ∈ s.segMiss.take 64) :
    exec (.segCacheMissFill ctx seg id) s = .next (
      let t := s.missFilled ctx seg id
      if t.segMiss.any (fun m => m.2.2 == id) then t else t.updXfer id fun x => { x with missing := false }) := by
  simp only [exec, execSegCacheMissFill, List.contains_iff_mem.mpr outstanding, if_true]
  rfl

/-- What a filled miss leaves: its transfer goes on once it waits for no other pair. -/
theorem segCacheMissFill_acts (outstanding : (ctx, seg, id) ∈ s.segMiss.take 64) :
    ∃ t : State, exec (.segCacheMissFill ctx seg id) s = .next t ∧ t.segMiss = s.segMiss.erase (ctx, seg, id) ∧
      t.segCache = ((ctx, seg) :: s.segCache.filter (· != (ctx, seg))).take 4096 ∧
      ((∀ m ∈ t.segMiss, m.2.2 ≠ id) → ∀ y,
        AMap.get? s.xfers id = some y → AMap.get? t.xfers id = some { y with missing := false }) ∧
      { t with segMiss := s.segMiss, segCache := s.segCache, xfers := s.xfers } = s := by
  refine ⟨_, exec_segCacheMissFill outstanding, ?_⟩
  dsimp only
  split
  case isTrue waits =>
    refine ⟨rfl, rfl, fun free => ?_, rfl⟩
    obtain ⟨m, hm, same⟩ := List.any_eq_true.mp waits
    exact absurd (beq_iff_eq.mp same) (free m hm)
  case isFalse =>
    refine ⟨State.updXfer_segMiss .., State.updXfer_segCache .., fun _ y found => ?_, ?_⟩
    · exact State.get?_updXfer_same (s := s.missFilled ctx seg id) found _
    · exact congrArg (fun t : State => { t with segMiss := s.segMiss, segCache := s.segCache })
        (State.updXfer_frame (s.missFilled ctx seg id) id _)

/-! ### Pieces (R57) -/

/-- A transfer whose pairs are cached and whose epochs stand issues its next piece, translated first if it waited under FENCE and at the
row it has come to. -/
theorem exec_transferPiece_issues {x y : Xfer} (errs : WordErrs) (found : AMap.get? s.xfers id = some x) (goes : x.stopped = false)
    (unended : x.ended = false) (cached : x.missing = false) (turn : s.xferTurn id x = true)
    (ready : (if x.xlate then s.xlateNow id x else s).nextRow id = u) (next : AMap.get? u.xfers id = some y)
    (goesOn : y.stopped = false) (more : y.done < y.len) (whole : u.xferCut y = false)
    (stands : ∀ v ∈ y.vas, (y.ctx, v.1) ∈ u.segCache ∧ u.segEpoch y.ctx v.1 = v.2.2) (host : u.hostHeld y = false)
    (injects : u.injHeld = false ∨ 128 ≤ y.eng) :
    exec (.transferPiece id errs) s = .next ((u.eachOf y.vas fun v t => t.segCached y.ctx v.1).issuePiece id y errs) := by
  have here : y.vas.filter (fun v => !u.segCache.contains (y.ctx, v.1)) = [] := by
    refine List.filter_eq_nil_iff.mpr fun v hv => ?_
    simp [(stands v hv).1]
  have current : y.vas.any (fun v => u.segEpoch y.ctx v.1 != v.2.2) = false := by
    refine List.any_eq_false.mpr fun v hv => ?_
    simp [(stands v hv).2]
  have sends : (u.injHeld && decide (y.eng < 128)) = false := by
    rcases injects with free | transport
    · simp [free]
    · simp [Nat.not_lt.mpr transport]
  simp only [exec, execTransferPiece, found, goes, unended, cached, turn, ready, next, goesOn, Nat.not_le.mpr more, whole, here, current,
    host, sends, decide_false, Bool.not_true, Bool.or_self, Bool.false_eq_true, List.isEmpty_nil, if_false]

/-! ### Hot granules (R63, R64) -/

/-- `t` has the hot counters of `s`, and differs from it in contexts and on the host's side only. -/
structure SameHot (s t : State) : Prop where
  slots : t.hot = s.hot
  beyond : { t.beyond with ctxs := s.ctxs } = { s.beyond with ctxs := s.ctxs }

theorem SameHot.refl (s : State) : SameHot s s := ⟨rfl, rfl⟩

theorem SameHot.trans (h : SameHot s t) (g : SameHot t u) : SameHot s u :=
  ⟨g.slots.trans h.slots, (congrArg (fun x : State => { x with ctxs := s.ctxs }) g.beyond).trans h.beyond⟩

theorem SameHot.of_aside (h : Aside s t) : SameHot s t :=
  ⟨h.fld State.hot fun _ => rfl, congrArg (fun x : State => { x with ctxs := s.ctxs }) h.1⟩

theorem SameHot.updCtx (c f) (h : SameHot s t) : SameHot s (t.updCtx c f) := h.trans ⟨rfl, rfl⟩

theorem SameHot.onIf (b : Bool) {f : State → State} (g : ∀ x, SameHot x (f x)) (h : SameHot s t) : SameHot s (t.onIf b f) := by
  unfold State.onIf
  split
  · exact h.trans (g t)
  · exact h

/-- The end of an interval frees the context's slots; what it posts touches the host's side and the context's counters only. -/
theorem exec_hotIntervalEnd (ctx : Nat) (s : State) : ∃ t : State, exec (.hotIntervalEnd ctx) s = .next t ∧
    SameHot { s with hot := s.hot.filter fun e => e.1.1 != ctx } t := by
  refine ⟨_, rfl, ?_⟩
  refine State.eachOf_keeps (fun e _ t ht => ?_) (.updCtx _ _ (.refl _))
  dsimp only
  refine .onIf _ (fun x => .updCtx _ _ (.refl x)) ?_
  split
  · exact ht
  · exact ht.trans (.of_aside ((Aside.refl t).putEvent _ _))

/-! ### Connections (R97, R107) -/

/-- A context that is back takes up, in order, the packets and the descriptors that waited for it. -/
theorem exec_bobbinRefill {conn : Nat} (created : (s.conn conn).st ≠ 0) (awaited : (s.conn conn).refill = true) :
    exec (.bobbinRefill conn false) s = .next (
      let c := s.conn conn
      let u := (if c.resident then s else s.bobbinRoom).updConn conn fun c => { c with resident := true, refill := false, staged := [] }
      let v := (u.eachOf c.staged fun q t => t.rxHere conn q.1 q.2.1 q.2.2).updConn conn fun c => { c with waitD := [] }
      v.eachOf c.waitD fun w t =>
        if (t.conn conn).st = 2 then t.sendNow conn w.1 w.2.1 w.2.2.1 w.2.2.2
        else t.endAtOnce conn { op := w.2.2.2, d := w.2.2.1, q := w.1, work := w.2.1 } 16) := by
  simp only [exec, execBobbinRefill, created, awaited, decide_false, Bool.not_true, Bool.or_self, Bool.false_eq_true, if_false]

theorem exec_segmentConnIdle {conn : Nat} (own : (s.conn conn).seg = true) (created : (s.conn conn).st ≠ 0)
    (sends : (s.conn conn).tx = []) (receives : (s.conn conn).rx = []) :
    exec (.segmentConnIdle conn) s = .next (s.connDestroy conn) := by
  simp only [exec, execSegmentConnIdle, own, bne_iff_ne.mpr created, sends, receives, List.isEmpty_nil, Bool.and_self, if_true]

theorem State.get?_connDestroy (s : State) (conn : Nat) : AMap.get? (s.connDestroy conn).conns conn = none := by
  simp only [State.connDestroy, AMap.get?_erase, if_true]

/-- Settles O14: each command's branch, then what it leaves. -/
theorem drainAndTransferEventsAct : Obligations.DrainAndTransferEventsAct := by
  unfold Obligations.DrainAndTransferEventsAct
  refine ⟨?drained, ?forced, ?filled, ?piece, ?hot, ?refill, ?idle⟩
  case drained =>
    intro s ctx d drains drained
    exact (exec_segDrainEnd drains drained).trans (congrArg _ (State.drainEnd_of_drain drains 0))
  case forced =>
    intro s ctx d drains held
    exact exec_drainForced drains held
  case filled =>
    intro s ctx seg id outstanding
    exact segCacheMissFill_acts outstanding
  case piece =>
    intro s id x y errs found goes unended cached turn u next goesOn more whole stands host injects
    exact exec_transferPiece_issues errs found goes unended cached turn rfl next goesOn more whole stands host injects
  case hot =>
    intro s ctx
    obtain ⟨t, ran, slots, beyond⟩ := exec_hotIntervalEnd ctx s
    exact ⟨t, ran, slots, congrArg (fun x : State => { x with hot := s.hot }) beyond⟩
  case refill =>
    intro s conn created awaited
    exact exec_bobbinRefill created awaited
  case idle =>
    intro s conn own created sends receives
    exact ⟨_, exec_segmentConnIdle own created sends receives, State.get?_connDestroy s conn⟩

end Sys2Proof.Machine
end

section
/-!
PROOFS of `Obligations.CopiesAct` (O33): CPY, FSIG and the end of their transfers.
-/

namespace Sys2Proof.Machine

variable {s : State} {n id : Nat} {x : Upset} {i : Ins}

/-! ### Fields -/

/-- A field inside a field of zeros is zero. -/
theorem subfield_zero {v hi lo b a : Nat} (zero : v / 2 ^ lo % 2 ^ (hi + 1 - lo) = 0) (low : lo ≤ a) (high : b ≤ hi) :
    v / 2 ^ a % 2 ^ (b + 1 - a) = 0 := by
  refine Nat.eq_of_testBit_eq fun j => ?_
  have bit := congrArg (Nat.testBit · (a - lo + j)) zero
  have place : lo + (a - lo + j) = a + j := by omega
  simp only [Nat.testBit_mod_two_pow, Nat.testBit_div_two_pow, Nat.zero_testBit, place, Nat.add_comm _ lo, Bool.and_eq_false_iff,
    decide_eq_false_iff_not] at bit ⊢
  rw [Nat.add_comm j a]
  rcases bit with outside | clear
  · left; omega
  · exact .inr clear

/-! ### A needle that stands at an instruction -/

theorem State.stands.lt {op : Nat} (h : s.stands n op x i) : n < 512 := h.1

theorem State.stands.own {op : Nat} (h : s.stands n op x i) : i.n = n := h.2.1

theorem State.stands.runs {op : Nat} (h : s.stands n op x i) : (s.needle n).st = 1 := h.2.2.1

/-! ### Transfers that settle -/

/-- A transfer with bytes still to issue goes on. -/
theorem State.xferSettle_of_unfinished {y : Xfer} (found : AMap.get? s.xfers id = some y) (goes : y.stopped = false)
    (more : y.done < y.len) : s.xferSettle id = s := by
  simp only [State.xferSettle, found, goes, Nat.not_le.mpr more, decide_false, Bool.false_and, Bool.or_self, Bool.not_false,
    Bool.or_true, if_true]

/-- A needle's transfer with nothing left to issue or to wait for has ended. -/
theorem State.xferSettle_of_finished {y : Xfer} {m : Nat} (found : AMap.get? s.xfers id = some y) (own : y.who = .cpy m)
    (landed : y.flying = 0) (issued : y.len ≤ y.done) (last : y.more = []) :
    s.xferSettle id = s.updXfer id fun z => { z with ended := true } := by
  simp only [State.xferSettle, found, own, landed, issued, last, bne_self_eq_false, decide_true, List.isEmpty_nil, Bool.and_self,
    Bool.or_true, Bool.not_true, Bool.or_self, Bool.false_eq_true, if_false]

/-! ### CPY (R294) -/

/-- A new transfer joins those that the engines hold. -/
def State.xferBegun (s : State) (y : Xfer) : State := { s.takeId.2 with xfers := AMap.set s.xfers s.takeId.1 y }

/-- The transfer of a CPY, or the report of an FSIG, that names no object to raise. -/
def Ins.plainXfer (i : Ins) (eng len : Nat) (src dst : XEnd) : Xfer :=
  { who := .cpy i.n, eng, part := i.run.part, ctx := i.run.ctx, syIdx := 0x3FFF, run := some i.id, src, dst, len }

/-- A VA in its space traps nothing. -/
theorem CpyEnd.trap_of_va {e : CpyEnd} (va : e.va = true) (fits : e.addr < 2 ^ 48) (c rows bytes : Nat) :
    e.trap s c rows bytes = none := by
  simp only [CpyEnd.trap, va, fits, if_true]

/-- The one row of a CPY between two ends that are not both remote. -/
theorem cpyRows_one {src dst : CpyEnd} {ctx c bytes : Nat} {a b : XEnd} (ha : src.take s ctx c 0 bytes = .inl a)
    (hb : dst.take s ctx c 0 bytes = .inl b) (near : (a.remote s && b.remote s) = false) :
    cpyRows s src dst ctx c bytes (List.range 1) = .inl [(a, b)] := by
  simp only [List.range_one, cpyRows, ha, hb, near, Bool.false_eq_true, if_false]

/-- Needle `n` stands at a CPY of one row of `len` bytes between two VAs, with no object to raise. -/
structure State.PlainCpy (s : State) (n : Nat) (x : Upset) (i : Ins) (src dst : CpyEnd) (len : Nat) : Prop where
  stands : s.stands n 0x90 x i
  plain : i.f 63 36 = 0
  kind : i.f 10 8 = 3
  source : src = { va := true, addr := ((s.needle n).rs (i.f 20 16)).toNat, stride := 0, j := 0 }
  target : dst = { va := true, addr := ((s.needle n).rs (i.f 15 11)).toNat, stride := 0, j := 0 }
  oneRow : fld ((s.needle n).rs (i.f 25 21)) 63 32 = 0
  bytes : fld ((s.needle n).rs (i.f 25 21)) 31 0 = len
  fits : len ≤ 2 ^ 30
  nonempty : len ≠ 0
  sourceFits : src.addr < 2 ^ 48
  targetFits : dst.addr < 2 ^ 48
  unnamed : (s.needle n).rs (i.f 35 31) = 0x3FFF

/-- What such a CPY does: it stalls while its engine is full, and otherwise hands it its transfer. -/
theorem exec_cpy_plain {src dst : CpyEnd} {len : Nat} (h : s.PlainCpy n x i src dst len) :
    ∃ f : Ins → State → Did, exec (.cpy n x) s = .next (s.issue n 0x90 x f) ∧
      (32 ≤ s.engineLoad (s.copyEngine (clusterOf n)) → f i s = .stay s) ∧
      (∀ a b : XEnd, s.engineLoad (s.copyEngine (clusterOf n)) < 32 → src.take s i.run.ctx (clusterOf n) 0 len = .inl a →
        dst.take s i.run.ctx (clusterOf n) 0 len = .inl b → (a.remote s && b.remote s) = false →
        f i s = .ok (s.xferBegun (i.plainXfer (s.copyEngine (clusterOf n)) len a b))) := by
  obtain ⟨stands, plain, kind, source, target, oneRow, bytes, fits, nonempty, sourceFits, targetFits, unnamed⟩ := h
  have own : i.n = n := stands.own
  have reserved : i.f 63 42 = 0 := subfield_zero plain (by norm_num) (by norm_num)
  have sourceJ : i.f 41 39 = 0 := subfield_zero plain (by norm_num) (by norm_num)
  have targetJ : i.f 38 36 = 0 := subfield_zero plain (by norm_num) (by norm_num)
  have rows : fld ((s.needle n).rs (i.f 25 21)) 47 32 = 0 := subfield_zero oneRow (by norm_num) (by norm_num)
  have args : fld ((s.needle n).rs (i.f 25 21)) 63 48 = 0 := subfield_zero oneRow (by norm_num) (by norm_num)
  have sourceOk : src.trap s (clusterOf n) 1 len = none := CpyEnd.trap_of_va (source ▸ rfl) sourceFits _ _ _
  have targetOk : dst.trap s (clusterOf n) 1 len = none := CpyEnd.trap_of_va (target ▸ rfl) targetFits _ _ _
  have named : i.syBad s 0x3FFF = false := rfl
  refine ⟨_, rfl, ?_⟩
  simp only [Ins.rs, own, reserved, sourceJ, targetJ, rows, args, bytes, kind, unnamed, named, Ins.guard, Nat.zero_add, bne_self_eq_false,
    beq_self_eq_true, Bool.or_true, Bool.and_false, Bool.or_self, Nat.lt_irrefl, decide_false, Bool.false_eq_true, if_false,
    ← source, ← target, sourceOk, targetOk, Option.orElse_none, Nat.not_lt.mpr fits, nonempty]
  refine ⟨fun full => if_pos full, fun a b room ha hb near => ?_⟩
  simp only [Nat.not_le.mpr room, if_false, cpyRows_one ha hb near]
  exact congrArg Did.ok (State.xferSettle_of_unfinished (AMap.get?_set_same ..) rfl (Nat.pos_of_ne_zero nonempty))

/-! ### FSIG (R295) -/

/-- An FSIG to an object of this device adds to it, and its report has ended. -/
theorem exec_fsig_here {k f o : Nat} (stands : s.stands n 0x98 x i) (plain : i.f 63 28 = 0)
    (index : ((s.needle n).rs (i.f 17 13)).toNat < 2 ^ 14) (unnamed : (s.needle n).rs (i.f 27 23) = 0x3FFF)
    (mapped : s.translate i.run.ctx ((s.needle n).rs (i.f 12 8)).toNat 0 = .inl (k, f)) (here : fpaDev f = s.myId)
    (object : i.object s ((s.needle n).rs (i.f 17 13)) = some o) :
    exec (.fsig n x) s = .next (
      let t := s.takeId.2.syncAdd o ((s.needle n).rs (i.f 22 18))
      let reported : State := { t with xfers := AMap.set t.xfers s.takeId.1 (i.plainXfer 128 0 .pkt .pkt) }
      (reported.updXfer s.takeId.1 fun z => { z with ended := true }).updNeedle n fun d => d.past 0x98) := by
  have own : i.n = n := stands.own
  have named : i.syBad s 0x3FFF = false := rfl
  refine congrArg _ (State.issue_ok stands rfl ?_)
  simp only [Ins.rs, own, plain, Nat.not_le.mpr index, unnamed, named, mapped, here, object, Ins.guard, bne_self_eq_false,
    Bool.false_eq_true, if_false, if_true]
  exact congrArg Did.ok (State.xferSettle_of_finished (AMap.get?_set_same ..) rfl rfl (Nat.le_refl 0) rfl)

/-! ### The end of a copy (R294) -/

/-- The sync object of an ended copy rises by 1, if it names one. -/
def State.raised (s : State) : Option Nat → State
  | some o => s.syncAdd o 1
  | none => s

@[simp] theorem State.raised_xfers (s : State) (sync : Option Nat) : (s.raised sync).xfers = s.xfers := by
  cases sync with
  | none => rfl
  | some o => exact State.syncPut_fld s o _ State.xfers fun _ => rfl

/-- A copy whose run is over, and whose data nothing waits for, raises its object. -/
theorem exec_cpyDone_raises {y : Xfer} (found : AMap.get? s.xfers id = some y) (own : y.who = .cpy n) (ended : y.ended = true)
    (landed : y.path = .none) (gone : y.run = none) :
    exec (.cpyDone id) s = .next ({ s with xfers := AMap.erase s.xfers id }.raised y.sync) := by
  simp only [exec, execCpyDone, found, own, ended, landed, gone, Option.isSome_none, Bool.and_false, Bool.false_and, Bool.not_true,
    Bool.false_eq_true, if_false, State.onIf_false]
  cases y.sync <;> rfl

/-- A copy that failed, of a run that its needle still names, is noted in CPYST. -/
theorem exec_cpyDone_notes {y : Xfer} {r : Nat} (found : AMap.get? s.xfers id = some y) (own : y.who = .cpy n) (ended : y.ended = true)
    (landed : y.path = .none) (unnamed : y.sync = none) (run : y.run = some r) (here : (s.needle n).run = some r) (failed : y.status ≠ 0)
    (gone : AMap.get? s.runs r = none) :
    exec (.cpyDone id) s = .next ({ s with xfers := AMap.erase s.xfers id }.updNeedle n fun d =>
      { d with cpyst := cpystNote d.cpyst y.status.toNat y.syIdx }) := by
  have still : ({ s with xfers := AMap.erase s.xfers id } : State).needle n = s.needle n := rfl
  simp only [exec, execCpyDone, found, own, ended, landed, unnamed, run, still, here, bne_iff_ne.mpr failed, Option.isSome_some,
    beq_self_eq_true, Bool.and_self, Bool.not_true, Bool.false_eq_true, if_false, State.onIf, if_true, State.updRun,
    State.updNeedle_runs, gone, State.kernelEnd]

/-- Settles O33: what each instruction gives the needle and its engine, and what the end of a transfer raises or notes. -/
theorem copiesAct : Obligations.CopiesAct := by
  unfold Obligations.CopiesAct
  refine ⟨?cpy, ?fsig, ?raises, ?notes⟩
  case cpy =>
    intro s n x i stands plain kind d sl src dst oneRow fits nonempty sourceFits targetFits unnamed eng
    obtain ⟨f, ran, stalls, goes⟩ := exec_cpy_plain (s := s) (n := n) (x := x) (i := i) (src := src) (dst := dst)
      ⟨stands, plain, kind, rfl, rfl, oneRow, rfl, fits, nonempty, sourceFits, targetFits, unnamed⟩
    refine ⟨fun full => ?_, fun a b room ha hb near => ?_⟩
    · exact ran.trans (congrArg _ (State.issue_stay stands rfl (stalls full)))
    · refine ⟨_, ran.trans (congrArg _ (State.issue_ok stands rfl (goes a b room ha hb near))), State.updNeedle_self stands.lt, ?_, ?_⟩
      · rw [State.updNeedle_xfers]
        exact (AMap.get?_set_same ..).trans (by rw [Ins.plainXfer, stands.own])
      · exact congrArg (fun t : State => { t with xfers := s.xfers }) (State.updNeedle_frame (s := s.xferBegun _))
  case fsig =>
    intro s n k o x i f stands plain d so index unnamed mapped here object
    refine ⟨_, exec_fsig_here stands plain index unnamed mapped here object, ?_, ?_, ?_⟩
    · rw [State.updNeedle_obj, State.obj, State.updXfer_sync]
      exact (State.syncPut_obj s.takeId.2 o _).1
    · have running : (s.takeId.2.needle n).st ≠ 3 := ne_of_eq_of_ne stands.runs (by decide)
      rw [State.updNeedle_self stands.lt, State.needle, State.updXfer_needles]
      exact congrArg (fun d : NeedleS => d.pc + 8) (State.syncPut_needle s.takeId.2 o _ n running)
    · rw [State.updNeedle_devMem, State.updXfer_devMem]
      exact State.syncPut_fld s.takeId.2 o _ State.devMem fun _ => rfl
  case raises =>
    intro s id n y found own ended landed gone
    refine ⟨_, exec_cpyDone_raises found own ended landed gone, ?_, fun o sync => ?_⟩
    · rw [State.raised_xfers, AMap.get?_erase, if_pos rfl]
    · rw [sync]
      exact (State.syncPut_obj _ o _).1
  case notes =>
    intro s id n r y hn found own ended landed unnamed run here failed gone
    refine ⟨_, exec_cpyDone_notes found own ended landed unnamed run here failed gone, ?_⟩
    rw [State.updNeedle_self hn]
    rfl

end Sys2Proof.Machine
end

section
/-!
SUPPORT. What the operations of chapter 04 keep of the memory tiers and of everything else: one lemma for each that its events share.
-/

namespace Sys2Proof.Machine

variable {s t u : State} {α : Type} {f : MemS → α} {v w : α}

/-- `t` differs from `s` in the memory tiers and on the host's side only, and `f` reads `v` of its tiers. -/
structure TiersRead (f : MemS → α) (v : α) (s t : State) : Prop where
  read : f t.mem = v
  beyond : { t with mem := s.mem }.beyond = s.beyond

theorem TiersRead.refl (f : MemS → α) (s : State) : TiersRead f (f s.mem) s s := ⟨rfl, rfl⟩

/-- Device memory is no part of the tiers' tables. -/
theorem TiersRead.devMem (h : TiersRead f v s t) : t.devMem = s.devMem :=
  (congrArg State.devMem h.beyond :)

/-- What tells the host something leaves the tiers alone. -/
theorem TiersRead.aside (g : Aside t u) (h : TiersRead f v s t) : TiersRead f v s u :=
  ⟨(congrArg f (g.fld State.mem fun _ => rfl)).trans h.read, (congrArg (fun x : State => { x with mem := s.mem }) g.1).trans h.beyond⟩

theorem TiersRead.updMem {g : MemS → MemS} (hg : ∀ m, f m = v → f (g m) = w) (h : TiersRead f v s t) :
    TiersRead f w s (t.updMem g) :=
  ⟨hg _ h.read, h.beyond⟩

theorem TiersRead.onIf (b : Bool) {g : State → State} (hg : ∀ x, TiersRead f v s x → TiersRead f v s (g x)) (h : TiersRead f v s t) :
    TiersRead f v s (t.onIf b g) := by
  unfold State.onIf
  split
  · exact hg t h
  · exact h

theorem TiersRead.memRec (r o a) (h : TiersRead f v s t) : TiersRead f v s (t.memRec r o a) := h.aside ((Aside.refl t).postRec _)

/-- A granule marked DAMAGED changes the list of those alone (R84). -/
theorem TiersRead.damage (hf : ∀ m d, f { m with damaged := d } = f m) (g) (h : TiersRead f v s t) : TiersRead f v s (t.damage g) := by
  unfold State.damage
  split
  · exact h
  · exact .memRec _ _ _ (.updMem (fun m e => (hf m _).trans e) h)

/-- A word's reading counts at its channel and in the history of its row (R75, R78, R80). -/
theorem TiersRead.wordRead (hf : ∀ m c r, f { m with chans := c, rows := r } = f m) (l k o r) (h : TiersRead f v s t) :
    TiersRead f v s (t.wordRead l k o r) := by
  unfold State.wordRead
  dsimp only
  split
  · exact h
  · exact .updMem (fun m e => (hf m _ _).trans e) h
  · exact .memRec _ _ _ (.updMem (fun m e => (hf m _ _).trans e) h)
  · exact .onIf _ (fun x hx => .memRec _ _ _ hx) (.updMem (fun m e => (hf m _ _).trans e) h)

/-- A granule that moves off its frame changes the map, the moves, its own stored errors and the list of damaged granules (R81). -/
theorem TiersRead.moveOff (hf : ∀ m g b d i, f { m with gmap := g, badWords := b, damaged := d, migs := i } = f m) (g far lost)
    (h : TiersRead f v s t) : TiersRead f v s (t.moveOff g far lost).1 := by
  unfold State.moveOff State.mapTo
  split
  · exact h
  · refine .onIf _ (fun x hx => .memRec _ _ _ hx) (.onIf _ (fun x hx => .damage (fun m d => hf m _ _ d _) g hx) ?_)
    exact .updMem (fun m e => (hf m _ _ _ _).trans e) (.updMem (fun m e => (hf m _ _ _ _).trans e) h)

/-- A channel that retires leaves service, and the evacuation of its triple waits, or the retirement is posted (R82). -/
theorem TiersRead.retireChan (far c i)
    (hc : ∀ m, f m = v → f { m with chans := AMap.upd m.chans (chanKey far c) {} (fun x => { x with st := 2 }) } = w)
    (he : ∀ m e, f { m with evacs := e } = f m) (h : TiersRead f v s t) : TiersRead f w s (t.retireChan far c i) := by
  unfold State.retireChan
  dsimp only
  split
  · exact .aside ((Aside.refl _).postRec _) (.updMem hc h)
  · exact .updMem (fun m e => (he m _).trans e) (.updMem hc h)

/-- A new triple changes the triples and the states of its channels (R68). -/
theorem TiersRead.formTriple (hf : ∀ m r c, f { m with triples := r, chans := c } = f m) (far) (h : TiersRead f v s t) :
    TiersRead f v s (t.formTriple far) := by
  unfold State.formTriple
  split
  · split
    · exact h
    · exact .updMem (fun m e => (hf m _ _).trans e) h
  · exact h

theorem TiersRead.longProgress (i p n) (h : TiersRead f v s t) : TiersRead f v s (t.longProgress i p n) :=
  h.aside ((Aside.refl t).updPart _ _ fun _ => rfl)

/-- MEM_PINs that settle change the list of those in progress alone (R89). -/
theorem TiersRead.pinSettle (hf : ∀ m j, f { m with jobs := j } = f m) (h : TiersRead f v s t) : TiersRead f v s t.pinSettle := by
  refine State.eachOf_keeps (P := TiersRead f v s) (fun j _ x hx => ?_) h
  have noted : ∀ js : MemS → List MemJob, TiersRead f v s (x.updMem fun m => { m with jobs := js m }) :=
    fun js => .updMem (fun m e => (hf m _).trans e) hx
  dsimp only
  split
  · exact hx
  · split
    · exact .aside ((Aside.refl _).longEnd _ _ _) (.updMem (fun m e => (hf m _).trans e) (noted _))
    · exact .longProgress _ _ _ (noted _)

end Sys2Proof.Machine
end

section
/-!
PROOFS of `Obligations.MemoryCommandsReply` (O3): what each memory command leaves, then its reply.
-/

namespace Sys2Proof.Machine

variable {s : State} {h : Issue}

/-! ### Pins and damaged granules (R84, R89) -/

/-- Unpinning a range. -/
theorem exec_memPin_none {offset count : Nat} (range : s.granRangeOk h offset count = true)
    (ok : s.admits h 0x0202 [offset, count, 0] = true) :
    let keep (g : Nat) : Bool := !(List.range' (offset / 2 ^ 21) count).contains g
    let t := s.updMem fun m => { m with pins := AMap.keep m.pins fun g _ => keep g, pinOwner := AMap.keep m.pinOwner fun g _ => keep g }
    exec (.memPin h offset count 0) s = .next (t.answer h 0x0202 (Ans.ok t) true) := by
  refine congrArg _ (vuino_replies ok ?_ rfl)
  simp only [range, Bool.not_true, Nat.not_lt_zero, decide_false, Bool.or_self, Bool.false_eq_true, if_false, if_true]

/-- Granules pinned to the tier that they are in. -/
theorem exec_memPin_far {offset count : Nat} (range : s.granRangeOk h offset count = true)
    (ok : s.admits h 0x0202 [offset, count, 2] = true)
    (there : ∀ g ∈ List.range' (offset / 2 ^ 21) count, ∀ f, AMap.get? s.mem.gmap g = some f → f.far = true) :
    let gs := List.range' (offset / 2 ^ 21) count
    let t := s.updMem fun m => { m with
      pins := gs.foldl (fun x g => AMap.set x g true) m.pins
      pinOwner := gs.foldl (fun x g => AMap.set x g ((s.unitOwner offset).getD h.part)) m.pinOwner }
    exec (.memPin h offset count 2) s = .next (t.answer h 0x0202 (Ans.ok t) true) := by
  refine congrArg _ (vuino_replies ok ?_ rfl)
  have noneLeft : (List.range' (offset / 2 ^ 21) count).filter
      (fun g => match AMap.get? s.mem.gmap g with | some f => f.far != true | none => false) = [] := by
    refine List.filter_eq_nil_iff.mpr fun g hg => ?_
    cases found : AMap.get? s.mem.gmap g with
    | none => exact Bool.false_ne_true
    | some f => simp [there g hg f found]
  simp only [range, Bool.not_true, Nat.lt_irrefl, decide_false, Bool.or_self, Bool.false_eq_true, Nat.reduceEqDiff, beq_self_eq_true,
    Bool.false_and, State.updMem_mem, if_false]
  exact if_pos (List.isEmpty_iff.mpr noneLeft)

/-- A damaged granule that has a frame is zero there, and damaged no longer. -/
theorem exec_memClearDamaged_framed {offset g : Nat} {f : Frame3} (ok : s.admits h 0x0203 [offset, 1] = true)
    (range : s.granRangeOk h offset 1 = true) (named : g = offset / 2 ^ 21) (lost : s.mem.damaged.contains g = true)
    (framed : AMap.get? s.mem.gmap g = some f) :
    let t : State := { s with
      devMem := Memory.zero s.devMem (g * 2 ^ 21) (2 ^ 21)
      mem := { s.mem with
        gmap := AMap.set s.mem.gmap g f
        damaged := s.mem.damaged.filter (· != g)
        badWords := s.mem.badWords.filter fun w => w * 8 / 2 ^ 21 != g } }
    exec (.memClearDamaged h offset 1) s = .next (t.answer h 0x0203 { Ans.ok t with position := 1, permille := 1000 } true) := by
  have one : (List.range' (offset / 2 ^ 21) 1).filter (fun g => s.mem.damaged.contains g) = [g] := by
    rw [← named, List.range'_one, List.filter_singleton, lost]
    rfl
  refine congrArg _ (vuino_replies ok ?_ rfl)
  simp only [range, one, framed, State.mapTo, State.updMem, Bool.not_true, Bool.false_eq_true, List.foldl_cons, List.foldl_nil, if_false,
    if_true]

/-! ### Channels (R82) -/

/-- A channel that serves a triple retires once its triple is evacuated, and the reply comes with that. -/
theorem exec_memChanRetire_serving {tier chan : Nat} {x : Nat × Nats} (ok : s.admits h 0x0205 [tier, chan] = true)
    (ht : tier ≤ 1) (hc : chan ≤ 47) (works : (AMap.get s.mem.chans (chanKey (tier == 1) chan) {}).st ≠ 2)
    (serves : s.tripleOf (tier == 1) chan = some x) (room : (s.part h.part).running.length < 8) :
    let t := s.retireChan (tier == 1) chan (some h)
    exec (.memChanRetire h tier chan) s =
      .next ((t.longStart h 0x0205).answer h 0x0205 { Ans.wait t with status := 21 } false) := by
  refine congrArg _ (vuino_begins ok ?_ rfl (by decide) room)
  simp only [serves, Nat.not_lt.mpr ht, Nat.not_lt.mpr hc, beq_eq_false_iff_ne.mpr works, decide_false, Bool.or_self, Option.isNone_some,
    Bool.false_eq_true, if_false]

/-- The retirement of a channel that serves a triple queues the evacuation of the triple. -/
theorem State.retireChan_serving {far : Bool} {chan : Nat} {x : Nat × Nats} (serves : s.tripleOf far chan = some x) (i : Option Issue) :
    s.retireChan far chan i = s.updMem fun m => { m with
      chans := AMap.upd m.chans (chanKey far chan) {} fun c => { c with st := 2 }
      evacs := m.evacs ++ [{
        far, triple := x.1, chan
        left := (s.mem.gmap.filter fun e => e.2.far == far && e.2.triple == x.1).map Prod.fst
        total := (s.mem.gmap.filter fun e => e.2.far == far && e.2.triple == x.1).length
        issue := i }] } := by
  simp only [State.retireChan, serves, List.length_map]
  rfl

/-- Settles O3: each command's checks pass, so that its branch is the one that sets what it names. -/
theorem memoryCommandsReply : Obligations.MemoryCommandsReply := by
  unfold Obligations.MemoryCommandsReply
  refine ⟨?tier, ?bound, ?pin, ?clear, ?scrub, ?retire, ?query⟩
  case tier =>
    intro s h blk ok bwLow bwHigh hyLow hyHigh epLow epHigh reserved policy
    refine congrArg _ (vuino_replies ok ?_ rfl)
    simp only [zeroFld, reserved, Nat.not_lt.mpr bwHigh, Nat.not_lt.mpr hyLow, Nat.not_lt.mpr hyHigh, Nat.not_lt.mpr epHigh,
      Nat.not_lt.mpr policy, Nat.ne_of_gt bwLow, Nat.ne_of_gt epLow, beq_self_eq_true, Bool.not_true, decide_false, Bool.or_self,
      Bool.false_eq_true, if_false]
  case bound =>
    intro s h p lo hi ok hp order units near
    refine congrArg _ (vuino_replies ok ?_ rfl)
    simp only [Nat.not_le.mpr hp, Nat.not_lt.mpr order, Nat.not_lt.mpr units, Nat.not_lt.mpr near, decide_false, Bool.or_self,
      Bool.false_eq_true, if_false]
  case pin =>
    intro s h offset count range
    exact ⟨exec_memPin_none range, exec_memPin_far range⟩
  case clear =>
    intro s h offset g f ok range named lost framed
    exact exec_memClearDamaged_framed ok range named lost framed
  case scrub =>
    intro s h hours ok low high
    refine congrArg _ (vuino_replies ok ?_ rfl)
    simp only [Nat.not_lt.mpr high, Nat.ne_of_gt low, decide_false, Bool.or_self, Bool.false_eq_true, if_false]
  case retire =>
    intro s h tier chan x ok ht hc works serves room t
    have ran := exec_memChanRetire_serving ok ht hc works serves room
    rw [State.retireChan_serving serves] at ran
    exact ran
  case query =>
    intro s h tier chan ok ht hc c
    refine congrArg _ (vuino_replies ok ?_ rfl)
    exact if_neg (by simp only [Nat.not_lt.mpr ht, Nat.not_lt.mpr hc, decide_false, Bool.or_self, Bool.false_eq_true, not_false_eq_true])

end Sys2Proof.Machine
end

section
/-!
PROOFS of `Obligations.MemoryEventsAct` (O15): scrub, repair, retirement, evacuation, tiering, moves and MEMINIT_DONE.
-/

namespace Sys2Proof.Machine

variable {s t u : State} {v : List Evac}

/-! ### Scrub (R79) -/

/-- A channel in use that is scrubbed moves on to its next line; what the line held counts, and no data changes. From the last update
back: the end of a pass, its overrun, the position, the row that a corrected word marks, the words of the line. -/
theorem exec_scrubLine {tier chan : Nat} (errs : WordErrs) (ht : tier < 2) (hc : chan < 48) (runs : s.power.scrubPaused = false)
    (full : s.power.migHalved = false) (used : (s.tripleOf (tier == 1) chan).isSome = true) :
    ∃ t : State, exec (.scrubLine tier chan errs) s = .next t ∧ TiersRead MemS.scrubPos
      (AMap.set s.mem.scrubPos (chanKey (tier == 1) chan) ((AMap.get s.mem.scrubPos (chanKey (tier == 1) chan) 0 + 1) % 402653184)) s t := by
  simp only [exec, execScrubLine, Nat.not_le.mpr ht, Nat.not_le.mpr hc, runs, full, used, decide_false, Bool.not_true, Bool.or_self,
    Bool.false_eq_true, if_false]
  refine ⟨_, rfl, ?_⟩
  refine .onIf _ (fun x hx => .updMem (fun _ e => e) hx) ?_
  refine .onIf _ (fun x hx => .memRec _ _ _ (.updMem (fun _ e => e) hx)) ?_
  refine .updMem (v := s.mem.scrubPos) (fun m e => congrArg (AMap.set · _ _) e) ?_
  refine .onIf _ (fun x hx => .updMem (fun _ e => e) hx) ?_
  exact State.eachOf_keeps (P := TiersRead MemS.scrubPos s.mem.scrubPos s)
    (fun w _ x hx => .wordRead (fun _ _ _ => rfl) _ _ _ _ hx) (.refl _ s)

/-! ### Repair and retirement (R81) -/

/-- A row whose granules have moved off takes a spare row and starts again without errors. -/
theorem State.repairRow_cleared {row : Nat} (cleared : s.clearRow row = (u, true)) :
    TiersRead id { u.mem with
      rows := AMap.erase u.mem.rows row
      spares := AMap.upd u.mem.spares (bankOfRow row) 0 (· + 1)
      chans := AMap.upd u.mem.chans (chanOfRow row) {} fun c => { c with repaired := c.repaired + 1 }
      waiting := u.mem.waiting.filter fun w => w != (0, row) } u (s.repairRow row) := by
  simp only [State.repairRow, cleared, Bool.not_true, Bool.false_eq_true, if_false]
  refine .memRec _ _ _ (.updMem (fun m e => ?_) (.refl id u))
  obtain rfl : m = u.mem := e
  rfl

/-- A row whose granules have moved off is forgotten with its frames. -/
theorem State.retireRow_cleared {row : Nat} (cleared : s.clearRow row = (u, true)) :
    TiersRead MemS.rows (AMap.erase u.mem.rows row) u (s.retireRow row) := by
  simp only [State.retireRow, cleared, Bool.not_true, Bool.false_eq_true, if_false]
  refine .onIf _ (fun x hx => .retireChan _ _ _ (fun _ e => e) (fun _ _ => rfl) hx) (.memRec _ _ _ ?_)
  exact .updMem (fun m e => congrArg (AMap.erase · row) e) (.refl _ u)

theorem exec_rowRepair {row : Nat} (marked : (AMap.get s.mem.rows row {}).need = true) (spare : s.spareLeft row = true)
    (runs : s.power.scrubPaused = false) : exec (.rowRepair row) s = .next (s.repairRow row) := by
  simp only [exec, execRowRepair, marked, spare, runs, Bool.not_false, Bool.and_self, if_true]

theorem exec_frameRetired {row : Nat} (marked : (AMap.get s.mem.rows row {}).need = true) (spent : s.spareLeft row = false)
    (runs : s.power.scrubPaused = false) : exec (.frameRetired row) s = .next (s.retireRow row) := by
  simp only [exec, execFrameRetired, marked, spent, runs, Bool.not_false, Bool.and_self, if_true]

/-! ### Evacuation (R82) -/

/-- A granule of the triple finds a free frame, or loses its own and is damaged (R83, R84). -/
theorem TiersRead.evacuated (g far lost) (h : TiersRead MemS.evacs v s t) : TiersRead MemS.evacs v s
    (let r := t.moveOff g far lost
    if r.2 then r.1 else (t.updMem fun m => { m with gmap := AMap.erase m.gmap g }).onIf (decide (g < backing)) fun u => u.damage g) := by
  dsimp only
  split
  · exact .moveOff (fun _ _ _ _ _ => rfl) g far lost h
  · exact .onIf _ (fun x hx => .damage (fun _ _ => rfl) g hx) (.updMem (fun _ e => e) h)

/-- The triple is dissolved, its evacuation is over, and its channels may form another (R68, R82). -/
theorem TiersRead.dissolved {e : Evac} {g : MemS → MemS} (hg : ∀ m, (g m).evacs = m.evacs.erase e) (far r)
    (h : TiersRead MemS.evacs v s t) : TiersRead MemS.evacs (v.erase e) s (((t.updMem g).formTriple far).postRec r) :=
  .aside ((Aside.refl _).postRec _)
    (.formTriple (fun _ _ _ => rfl) far (.updMem (fun m read => (hg m).trans (congrArg (List.erase · e) read)) h))

/-- The end of an evacuation takes it off the list; what its granules, its triple and its channels come to changes no data. -/
theorem exec_evacuationEnd {tier : Nat} {e : Evac} (lost : Nats)
    (oldest : s.mem.evacs.find? (fun e => e.far == (tier == 1)) = some e) (runs : s.power.scrubPaused = false) :
    ∃ t : State, exec (.evacuationEnd tier lost) s = .next t ∧ TiersRead MemS.evacs (s.mem.evacs.erase e) s t := by
  simp only [exec, execEvacuationEnd, oldest, runs, Bool.false_eq_true, if_false]
  refine ⟨_, rfl, ?_⟩
  have moved := State.each_keeps (P := TiersRead MemS.evacs s.mem.evacs s) (ks := evacOrder s.mem.counts lost e.left)
    (fun g _ _ hx => .evacuated g (tier == 1) (lost.contains g) hx) (.refl _ s)
  split
  · exact .aside ((Aside.refl _).longEnd _ _ _) (.dissolved (fun _ => rfl) _ _ moved)
  · exact .dissolved (fun _ => rfl) _ _ moved

/-! ### Tiering (R86, R87) -/

/-- `t` is `s` but for the moves in progress. -/
def SameButMoves (s t : State) : Prop := { t with mem := { t.mem with migs := s.mem.migs } } = s

/-- A promotion or a swap only starts its move. -/
theorem SameButMoves.promote (hyst budget g cnt : Nat) (h : SameButMoves s t) : SameButMoves s (t.promote hyst budget g cnt).1 := by
  unfold State.promote
  dsimp only
  split
  · split
    · exact h
    · exact h
  · split
    · exact h
    · split
      · exact h
      · split
        · exact h
        · exact h

/-- The end of a tiering epoch starts what moves there is room for, starts the counts again and makes the basting block active. -/
theorem exec_tierEpochEnd (s : State) : ∃ u : State, SameButMoves s u ∧
    exec .tierEpochEnd s = .next (u.updMem fun m => { m with counts := [], tierAct := m.tierBast }) := by
  simp only [exec, execTierEpochEnd]
  refine ⟨_, ?_, rfl⟩
  split
  · rfl
  · exact List.foldlRecOn (motive := fun r : State × Nat => SameButMoves s r.1) _ _ rfl
      fun r hr e _ => .promote _ r.2 e.1 e.2 hr

/-! ### Moves (R77, R87) -/

/-- The tables as the end of a move without errors leaves them: the granule at its destination, a swap's other granule in its place. -/
def MemS.moved (x : MemS) (g : Nat) (m : Mig) (src : Frame3) : MemS :=
  let gmap := AMap.set x.gmap g m.dst
  { x with
    migs := AMap.erase x.migs g
    gmap := match m.swap with
      | some v => AMap.set gmap v src
      | none => gmap }

theorem exec_granuleMoveDone {g : Nat} {m : Mig} {src : Frame3} (moves : AMap.get? s.mem.migs g = some m)
    (framed : AMap.get? s.mem.gmap g = some src) (clean : s.hasBad g = false) (other : ∀ v, m.swap = some v → s.hasBad v = false) :
    exec (.granuleMoveDone g false) s = .next (s.updMem fun x => x.moved g m src).pinSettle := by
  have sound : ((m.swap.map s.hasBad).getD false) = false := by
    cases swap : m.swap with
    | none => rfl
    | some v => exact other v swap
  simp only [exec, execGranuleMoveDone, moves, framed, clean, sound, Bool.or_self, Bool.false_and, State.onIf_false, Bool.false_eq_true,
    if_false, MemS.moved]
  cases m.swap <;> rfl

theorem MemS.moved_dst (x : MemS) {g : Nat} {m : Mig} (src : Frame3) (apart : ∀ v, m.swap = some v → v ≠ g) :
    AMap.get? (x.moved g m src).gmap g = some m.dst := by
  unfold MemS.moved
  dsimp only
  split
  · next v swap => rw [AMap.get?_set_other _ _ (apart v swap).symm, AMap.get?_set_same]
  · exact AMap.get?_set_same _ _ _

theorem MemS.moved_swap (x : MemS) (g : Nat) {m : Mig} (src : Frame3) {v : Nat} (swap : m.swap = some v) :
    AMap.get? (x.moved g m src).gmap v = some src := by
  simp only [MemS.moved, swap, AMap.get?_set_same]

theorem MemS.moved_ends (x : MemS) (g : Nat) (m : Mig) (src : Frame3) : AMap.get? (x.moved g m src).migs g = none := by
  simp only [MemS.moved, AMap.get?_erase, if_true]

/-! ### MEMINIT_DONE (R91) -/

@[simp] theorem State.each_updClu_mem (s : State) (ks : Nats) (f : Nat → ClusS → ClusS) :
    (s.each ks fun c t => t.updClu c (f c)).mem = s.mem :=
  State.each_keeps (P := fun t => t.mem = s.mem) (fun _ _ _ hx => (State.updClu_mem ..).trans hx) rfl

/-- Placing a unit maps its granules, and changes nothing else of the tiers. -/
theorem State.placeUnit_init (s : State) (k : Nat) : (s.placeUnit k).mem.init = s.mem.init := by
  unfold State.placeUnit
  rw [State.updUnit_mem]
  refine State.each_keeps (P := fun t => t.mem.init = s.mem.init) (fun i _ x hx => ?_) rfl
  split
  · exact hx
  · exact hx

theorem State.takeUnit_init (s : State) (p k : Nat) : (s.takeUnit p k).mem.init = s.mem.init := by
  unfold State.takeUnit State.onIf
  rw [State.updUnit_mem]
  split
  · exact State.placeUnit_init s k
  · rfl

theorem State.takeUnits_init (s : State) (p : Nat) (ks : Nats) : (s.each ks fun k t => t.takeUnit p k).mem.init = s.mem.init :=
  State.each_keeps (P := fun t => t.mem.init = s.mem.init) (fun k _ x hx => (State.takeUnit_init x p k).trans hx) rfl

@[simp] theorem State.allot_mem (s : State) (p : Nat) (n : Nats) : (s.allot p n).mem = s.mem := rfl
@[simp] theorem State.objReset_mem (s : State) (p : Nat) : (s.objReset p).mem = s.mem := rfl
@[simp] theorem State.adminOff_mem (s : State) (p : Nat) : (s.adminOff p).mem = s.mem := rfl

/-- PART_CREATE gives units frames, and leaves MEMINIT_DONE as it was (R439). -/
theorem State.createNow_init (s : State) (p : Nat) (n : Nats) (mask map : Nat) : (s.createNow p n mask map).st.mem.init = s.mem.init := by
  have checked : ∀ {c : Prop} [Decidable c] {a b : Ans}, a.st.mem.init = s.mem.init → b.st.mem.init = s.mem.init →
      (if c then a else b).st.mem.init = s.mem.init := fun ha hb =>
    iteInduction (motive := fun a : Ans => a.st.mem.init = s.mem.init) (fun _ => ha) fun _ => hb
  unfold State.createNow
  refine checked rfl (checked rfl (checked rfl ?_))
  split; · rfl
  split; · rfl
  split; · rfl
  simp only [Ans.ok, apply_ite State.mem, State.updFunc_mem, State.adminOff_mem, State.objReset_mem,
    State.takeUnits_init, State.updRst_mem, State.each_updClu_mem, State.updPart_mem, State.allot_mem, ite_self]

/-- A PART_CREATE that goes on leaves memory initialized or not, as it was. -/
theorem State.createRetry_init (s : State) : s.createRetry.mem.init = s.mem.init := by
  refine State.eachOf_keeps (P := fun t => t.mem.init = s.mem.init) (fun w _ x hx => ?_) rfl
  dsimp only
  split
  · exact hx
  · refine (((Aside.refl _).answer _ _ _ _).fld (fun t => t.mem.init) fun _ => rfl).trans ?_
    exact (State.createNow_init _ _ _ _ _).trans hx

/-- Settles O15: each event's branch, then what it reads of the tiers and what it leaves alone. -/
theorem memoryEventsAct : Obligations.MemoryEventsAct := by
  unfold Obligations.MemoryEventsAct
  refine ⟨?scrub, ?repair, ?retire, ?waiting, ?failure, ?evacuated, ?epoch, ?moved, ?init⟩
  case scrub =>
    intro s tier chan errs ht hc runs full used
    obtain ⟨t, ran, scrubbed⟩ := exec_scrubLine errs ht hc runs full used
    exact ⟨t, ran, by rw [scrubbed.read, AMap.get_set_same], scrubbed.devMem⟩
  case repair =>
    intro s u row marked spare runs cleared
    have repaired := State.repairRow_cleared cleared
    exact ⟨_, exec_rowRepair marked spare runs, repaired.read, repaired.beyond⟩
  case retire =>
    intro s u row marked spent runs cleared
    have retired := State.retireRow_cleared cleared
    exact ⟨_, exec_frameRetired marked spent runs, retired.read, retired.beyond⟩
  case waiting =>
    intro s tier k row rest waits free
    simp only [exec, execFreeFrameAvailable, waits, Option.isNone_eq_false_iff.mpr free, Bool.false_eq_true, if_false, beq_iff_eq]
  case failure =>
    intro s tier chan ht hc works
    have failed : TiersRead (fun m => (AMap.get m.chans (chanKey (tier == 1) chan) {}).st) 2 s (s.retireChan (tier == 1) chan none) :=
      .retireChan _ _ _ (fun m _ => by rw [AMap.get_upd_same]) (fun _ _ => rfl) (.refl _ s)
    refine ⟨_, ?_, failed.read, failed.beyond⟩
    simp only [exec, execChannelFailure, Nat.not_le.mpr ht, Nat.not_le.mpr hc, beq_eq_false_iff_ne.mpr works, decide_false, Bool.or_self,
      Bool.false_eq_true, if_false]
  case evacuated =>
    intro s tier lost e oldest runs
    obtain ⟨t, ran, ended⟩ := exec_evacuationEnd lost oldest runs
    exact ⟨t, ran, ended.read, ended.devMem⟩
  case epoch =>
    intro s
    obtain ⟨u, same, ran⟩ := exec_tierEpochEnd s
    exact ⟨_, ran, rfl, congrArg (fun x => x.mem.tierBast) same, congrArg (fun x : State => { x with mem := s.mem }) same⟩
  case moved =>
    intro s g m src moves framed clean other
    let u := s.updMem fun x => x.moved g m src
    have settled : TiersRead (fun x => (x.gmap, x.migs)) (u.mem.gmap, u.mem.migs) u u.pinSettle := .pinSettle (fun _ _ => rfl) (.refl _ u)
    obtain ⟨gmap, migs⟩ := Prod.mk.inj settled.read
    refine ⟨_, exec_granuleMoveDone moves framed clean fun v swap => (other v swap).2, ?_, fun v swap => ?_, ?_, settled.devMem⟩
    · exact gmap ▸ MemS.moved_dst _ src fun v swap => (other v swap).1
    · exact gmap ▸ MemS.moved_swap _ g src swap
    · exact migs ▸ MemS.moved_ends _ g m src
  case init =>
    intro s low notCold uninit
    refine ⟨(s.updMem fun m => { m with init := true }).createRetry, ?_, State.createRetry_init _⟩
    simp only [exec, execMeminitDone, Nat.not_lt.mpr low, beq_eq_false_iff_ne.mpr notCold, uninit, decide_false, Bool.or_self,
      Bool.false_eq_true, if_false]

end Sys2Proof.Machine
end

section
/-!
PROOFS of `Obligations.ConnectionAndWindowCommandsReply` (O4): what each connection and window command leaves, then its reply.
-/

namespace Sys2Proof.Machine

variable {s : State} {h : Issue}

/-- A connection that starts again is INIT, or READY for a UD endpoint, with nothing sent or waiting (R95). -/
theorem State.conn_connRestart (s : State) (conn : Nat) :
    let c := (s.connRestart conn).conn conn
    c.st = (if c.ud then 2 else 1) ∧ c.outs = [] ∧ c.tx = [] ∧ c.rx = [] := by
  simp only [State.connRestart, State.conn, AMap.get_set_same, and_self, and_true]
  rfl

/-- A changed window leaves the requests validated under its key as they are (R111). -/
theorem State.winBusy_updWin (s : State) (w k : Nat) (f : WinS → WinS) : (s.updWin w f).winBusy k = s.winBusy k := rfl

/-- A connection just made becomes the most recent. -/
theorem State.touch_set (s : State) (cid : Nat) (c : ConnS) :
    State.touch { s with conns := AMap.set s.conns cid c } cid =
      { s with nextId := s.nextId + 1, conns := AMap.set s.conns cid { c with lru := s.nextId + 1 } } := by
  simp only [State.touch, State.updConn, AMap.upd, AMap.get_set_same, AMap.set_set]

/-- A free connection that gets its block: INIT, or READY for a UD endpoint, its context resident (R94, R95, R98). -/
def State.connMade (s : State) (p cid : Nat) (blk : BitVec 256) : State := { s with
  nextId := s.nextId + 1
  conns := AMap.set s.conns cid {
    part := p, blk, ud := fld blk 3 0 == 1, st := if fld blk 3 0 = 1 then 2 else 1, pinned := bitAt blk 8, resident := true
    lru := s.nextId + 1 } }

/-- CONN_CREATE past its checks: the block's format, its key, its shaper, its queues, and room for its pin (R96). -/
theorem exec_connCreate {blk : BitVec 256} {cid : Nat} {c : ConnS} (ok : s.admits h 0x0300 [blk.toNat] = true)
    (made : c = { part := h.part, blk })
    (format : (!(zeroFld blk 255 208 && zeroFld blk 127 12 && zeroFld blk 6 4) || decide (1 < fld blk 3 0) ||
      (fld blk 3 0 == 1 && c.encrypt)) = false)
    (key : (c.encrypt && (Ranges.item (s.part h.part).keys c.keySlot).isNone) = false)
    (shaper : (c.shaper != 0xFFFF && (Ranges.item (s.part h.part).shps c.shaper).isNone) = false)
    (queues : (!s.queueKind h.part c.cq 3 || (c.rq != 0xFFFF && !s.queueKind h.part c.rq 2) || !s.queueKind h.part c.sq 1) = false)
    (free : s.freeConn h.part = some cid) (pin : (bitAt blk 8 && !s.pinRoom h.part) = false) :
    exec (.connCreate h blk) s =
      let t := s.bobbinRoom.connMade h.part cid blk
      .next (t.answer h 0x0300 (Ans.ok t [(8, bytesLE 8 (cid + (s.bobbinRoom.gen cid).toNat * 2 ^ 32))]) true) := by
  subst made
  refine congrArg _ (vuino_replies ok ?_ rfl)
  refine (if_neg (Bool.eq_false_iff.mp format)).trans ?_
  refine (if_neg (Bool.eq_false_iff.mp key)).trans ?_
  refine (if_neg (Bool.eq_false_iff.mp shaper)).trans ?_
  refine (if_neg (Bool.eq_false_iff.mp queues)).trans ?_
  simp only [free, pin, Bool.false_eq_true, if_false, State.touch_set, beq_iff_eq]
  rfl

/-- An INIT connection in clear that gets its peer and PSNs: READY, its window at the initial window (R95). -/
def State.connected (s : State) (conn peerId peerConn peerGen sendPsn recvPsn : Nat) : State :=
  let c : ConnS := { s.conn conn with
    st := 2, peerId := BitVec.ofNat 16 peerId, peerConn := BitVec.ofNat 24 peerConn, peerGen := BitVec.ofNat 8 peerGen
    psn := BitVec.ofNat 32 sendPsn, c := BitVec.ofNat 32 recvPsn, fast := true, lastDec := none, key := none }
  { s with conns := AMap.set s.conns conn { c with cwnd := s.clampWin c (1024 * fld (s.part c.part).ccAct 63 48) } }

/-- CONN_CONNECT of such a connection, with a peer that the partition may have (R95). -/
theorem exec_connConnect {conn peerId peerConn peerGen sendPsn recvPsn : Nat}
    (ok : s.admits h 0x0301 [conn, peerId, peerConn, peerGen, sendPsn, recvPsn] = true) (owned : s.connOwned h.part conn = true)
    (init : (s.conn conn).st = 1) (reliable : (s.conn conn).ud = false) (clear : (s.conn conn).encrypt = false)
    (id : s.devidValid = true) (peer : validId peerId = true) (spine : idSpine peerId = true → h.part = 0) :
    exec (.connConnect h conn peerId peerConn peerGen sendPsn recvPsn) s =
      let t := s.connected conn peerId peerConn peerGen sendPsn recvPsn
      .next (t.answer h 0x0301 (Ans.ok t) true) := by
  refine congrArg _ (vuino_replies ok ?_ rfl)
  refine (if_neg (by simp [owned, init, reliable, id])).trans ?_
  refine (if_neg (by simpa [peer] using spine)).trans ?_
  refine (if_neg (by simp [clear])).trans ?_
  simp only [clear, Bool.false_eq_true, if_false]
  rfl

/-- Settles O4: each command's checks pass, so that its branch is the one that sets what it names. -/
theorem connectionAndWindowCommandsReply : Obligations.ConnectionAndWindowCommandsReply := by
  unfold Obligations.ConnectionAndWindowCommandsReply
  refine ⟨?create, ?connect, ?reset, ?destroy, ?pin, ?query, ?openWindow, ?revoke⟩
  case create =>
    intro s h blk cid ok high middle low kind clear c key shaper cq rq sq free pin
    have plain : fld blk 3 0 = 1 → c.encrypt = false := clear
    refine exec_connCreate (c := c) ok rfl ?_ ?_ ?_ ?_ free ?_
    · simpa [zeroFld, high, middle, low, Nat.not_lt.mpr kind] using plain
    · simpa [← Option.isSome_iff_ne_none] using key
    · simpa [or_iff_not_imp_left] using shaper
    · simpa [cq, sq, or_iff_not_imp_left] using rq
    · simpa using pin
  case connect =>
    intro s h conn peerId peerConn peerGen sendPsn recvPsn ok owned init reliable clear id peer spine
    refine ⟨_, exec_connConnect ok owned init reliable clear id peer spine, ?_⟩
    simp only [State.connected, State.conn, AMap.get_set_same, true_and, and_true]
    exact fun k other => (AMap.get_set ..).trans (if_neg other)
  case reset =>
    intro s h conn ok owned created
    refine ⟨s.connRestart conn, ?_, State.conn_connRestart s conn⟩
    refine congrArg _ (vuino_replies (a := Ans.ok (s.connRestart conn)) ok ?_ rfl)
    simp only [owned, created, decide_false, Bool.not_true, Bool.or_self, Bool.false_eq_true, if_false]
  case destroy =>
    intro s h conn ok owned created
    refine ⟨s.connDestroy conn, ?_, State.get?_connDestroy s conn⟩
    refine congrArg _ (vuino_replies (a := Ans.ok (s.connDestroy conn)) ok ?_ rfl)
    simp only [owned, created, decide_false, Bool.not_true, Bool.or_self, Bool.false_eq_true, if_false]
  case pin =>
    intro s h conn owned created
    refine ⟨fun ok => congrArg _ (vuino_replies ok ?_ rfl), fun ok unpinned room => congrArg _ (vuino_replies ok ?_ rfl)⟩
    · simp only [owned, created, Nat.not_lt_zero, decide_false, Bool.not_true, Bool.or_self, Bool.false_eq_true, if_false, if_true]
    · simp only [owned, created, unpinned, room, Nat.lt_irrefl, Nat.one_ne_zero, decide_false, Bool.not_true, Bool.or_self,
        Bool.false_eq_true, if_false]
  case query =>
    intro s h conn ok owned created
    refine congrArg _ (vuino_replies ok ?_ rfl)
    simp only [owned, created, decide_false, Bool.not_true, Bool.or_self, Bool.false_eq_true, if_false]
  case openWindow =>
    intro s h e w ok leaf sound free
    refine congrArg _ (vuino_replies ok ?_ rfl)
    simp only [leaf, sound, free, Bool.false_eq_true, if_false, State.win, State.updWin, AMap.get_upd_same]
  case revoke =>
    intro s h wkey w ok index opened gen held named t
    have key : (!(s.win w).st || (s.win w).gen.toNat != wkey % 2 ^ 12 || !Ranges.has (s.part (winPart (s.win w).entry)).wins w ||
        (h.part != 0 && winPart (s.win w).entry != h.part)) = false := by
      rcases named with zero | own
      · simp [opened, gen, held, zero]
      · simp [opened, gen, held, own]
    subst index
    refine ⟨fun idle => congrArg _ (vuino_replies (a := Ans.ok t) ok ?now rfl),
      fun busy => congrArg _ (vuino_owes (a := Ans.wait _) ok ?later rfl (by decide))⟩
    case now =>
      have placed : t.winBusy (wkey / 2 ^ 12) ≠ true := Bool.eq_false_iff.mp ((State.winBusy_updWin ..).trans idle)
      exact (if_neg (Bool.eq_false_iff.mp key)).trans (if_neg placed)
    case later =>
      have waits : t.winBusy (wkey / 2 ^ 12) = true := (State.winBusy_updWin ..).trans busy
      exact (if_neg (Bool.eq_false_iff.mp key)).trans (if_pos waits)

end Sys2Proof.Machine
end

section
/-!
PROOFS of `¬ Obligations.DescriptorsAreTaken` (O16): a COPY row does not put its own OP into the descriptor.
-/

namespace Sys2Proof.Machine

variable {s t : State}

/-- A malformed entry touches the host's side only (R422). -/
theorem Aside.malformed (p q slot first8 : Nat) (h : Aside s t) : Aside s (t.malformed p q slot first8) := by
  unfold State.malformed
  split
  · exact .updHost _ (.updFunc _ _ (.postRec _ h))
  · exact .postRec _ (.updFunc _ _ h)

/-- A COPY of another OP than 1 is malformed (R414, R421). -/
theorem exec_copy_otherOp {p q : Nat} {d : Desc} (queue : s.queueKind p q 5 = true) (other : fld d 23 16 ≠ 1) :
    exec (.copy p q d) s = .next (s.malformed p q (s.slotOf p q) (fld d 63 0)) := by
  simp only [exec, execCopy, State.copyDesc, queue, bne_iff_ne.mpr other, Bool.not_true, Bool.or_true, Bool.true_or, Bool.false_eq_true,
    if_false, if_true]

/-- Such a COPY leaves the transfers as they are. -/
theorem xfers_of_otherOp {p q : Nat} {d : Desc} (queue : s.queueKind p q 5 = true) (other : fld d 23 16 ≠ 1)
    (ran : exec (.copy p q d) s = .next t) : t.xfers = s.xfers := by
  rw [exec_copy_otherOp queue other] at ran
  injection ran with ran
  rw [← ran]
  exact ((Aside.refl s).malformed ..).fld State.xfers fun _ => rfl

/-- A copy descriptor under FENCE whose OP is 0 and whose other fields are all as R414 has them. -/
def opZeroCopy : Desc := pack 512 [(269, 256, 0x3FFF), (25, 25, 1), (15, 12, 5), (7, 0, 1)]

/-- Queue 5 of partition 0 is a COPY queue with one copy still going on. -/
def oneCopy : State := { queues := [(qkey 0 5, { kind := 5 })], xfers := [(0, { who := .copyQ 0 5 })], nextId := 1 }

/-- Refutes O16 by its COPY clause. The clause reads every field of the descriptor with OP 1 put in (log 4), but the command takes the
descriptor as it stands: `opZeroCopy` is malformed, and no transfer of it begins behind the copy that its FENCE waits for. -/
theorem not_descriptorsAreTaken : ¬ Obligations.DescriptorsAreTaken := by
  unfold Obligations.DescriptorsAreTaken
  rintro ⟨-, -, copies, -, -⟩
  refine absurd (xfers_of_otherOp (p := 0) (q := 5) (d := opZeroCopy) (s := oneCopy) ?_ ?_
    ((copies oneCopy 0 5 opZeroCopy ?_ ?_ ?_ ?_ ?_ ?_ ?_ ?_ ?_ ?_ ?_).1 ?_)) ?_ <;> decide +kernel

end Sys2Proof.Machine
end

section
/-!
PROOFS of `Obligations.NewRequestsTakeEffect` (O19): what a new request does at a READY connection.
-/

namespace Sys2Proof.Machine

variable {v w : State} {p : Pkt} {errs : WordErrs} {now : BitVec 32}

/-- The state that a new PSN within 256 of C leaves before its message is looked at: no tracker is taken, and the arrival is noted for the
next ACK (R131, R133). -/
def State.arrived (v : State) (p : Pkt) (now : BitVec 32) : State :=
  (v.updConn p.conn fun c => { c with tracker := c.tracker || false }).rxNote p.conn p now

/-- What an arrival changes of its connection. -/
theorem State.conn_arrived (v : State) (p : Pkt) (now : BitVec 32) :
    let c := v.conn p.conn
    (v.arrived p now).conn p.conn = { c with
      tracker := c.tracker || false, since := c.since + 1, marks := if p.mark then satAdd c.marks 1 else c.marks, uncovered := true
      echo := BitVec.ofNat 32 p.txTape, rxTape := now } := by
  simp only [State.arrived, State.rxNote, State.conn, State.updConn, AMap.get_upd_same]

/-- An arrival leaves the messages being received. -/
theorem State.rxMsg_arrived (v : State) (p : Pkt) (now : BitVec 32) (msn : BitVec 32) (op : Nat) :
    ((v.arrived p now).conn p.conn).rxMsg msn op = (v.conn p.conn).rxMsg msn op := by
  rw [State.conn_arrived]
  rfl

/-- A new request in range goes to its message: a SKIP settles it, any other packet is taken up. -/
theorem rxRequest_of_fresh (new : fresh v p) (errs : WordErrs) (now : BitVec 32) :
    let w := v.arrived p now
    v.rxRequest p.conn p errs now =
      if p.op = 0x44 then
        ((w.putRx p.conn { (v.conn p.conn).rxMsg p.msn p.op with
          settled := some (BitVec.ofNat 8 (fld p.hdr 43 36)), waitP := [], hq := [], reqs := [] }).rxRecord p.conn p).rxSettle p.conn false
      else (w.rxTake p.conn p errs).rxSettle p.conn p.isLast := by
  obtain ⟨range, unseen, current, open_, -, -, -, -, -⟩ := new
  have behind : ¬ 2 ^ 32 - 4096 ≤ (p.psn - (v.conn p.conn).c).toNat := by omega
  have near : ¬ 4096 ≤ (p.psn - (v.conn p.conn).c).toNat := by omega
  have tracked : ¬ 256 ≤ (p.psn - (v.conn p.conn).c).toNat := by omega
  have unseen : (v.conn p.conn).seen.contains p.psn = false := by simpa using unseen
  simp only [State.rxRequest, behind, near, tracked, unseen, current, open_, decide_false, Option.isSome_none, Bool.or_self,
    Bool.false_and, Bool.false_eq_true, if_false]
  rfl

/-- Nothing keeps a packet from being taken up by its kind: it waits nowhere yet, no handler is to copy it or has failed, and no earlier
message holds it back (R120, R313, R316). -/
structure State.Takes (w : State) (p : Pkt) : Prop where
  unheld : ((w.conn p.conn).rxMsg p.msn p.op).waitP.contains p = false
  unqueued : ((w.conn p.conn).rxMsg p.msn p.op).hq.any (fun q => q.psn == p.psn) = false
  noCopy : w.handlerOf p.conn 1 = none
  works : w.handlerBad p.conn = false
  inOrder : (p.ordered && (p.op == 1 || p.op == 2 || p.op == 4) && !(w.conn p.conn).earlierDone p.msn) = false

theorem takes_of_fresh (new : fresh v p) (now : BitVec 32) : (v.arrived p now).Takes p := by
  obtain ⟨-, -, -, -, unheld, unqueued, noCopy, works, inOrder⟩ := new
  refine ⟨?_, ?_, noCopy, works, ?_⟩
  · rw [State.rxMsg_arrived]
    simpa using unheld
  · rw [State.rxMsg_arrived]
    simpa using unqueued
  · cases ordered : p.ordered with
    | false => rfl
    | true =>
      have earlier : ((v.arrived p now).conn p.conn).earlierDone p.msn = true := by
        rw [State.conn_arrived]
        exact inOrder ordered
      rw [earlier, Bool.not_true, Bool.and_false]

/-- A SEND goes to the receive queue's buffers (R105). -/
theorem State.Takes.send (h : w.Takes p) (errs : WordErrs) (op : p.op = 4) : w.rxTake p.conn p errs = w.rxSend p.conn p := by
  simp only [State.rxTake, h.unheld, h.unqueued, h.noCopy, h.works, h.inOrder, Option.isSome_none, Bool.or_self, Bool.false_and,
    Bool.false_eq_true, if_false]
  exact if_pos op

/-- An INVOKE waits for a run of its handler, or without one settles its message (R141, R313). -/
theorem State.Takes.invoke (h : w.Takes p) (errs : WordErrs) (op : p.op = 8) : w.rxTake p.conn p errs =
    if (w.handlerOf p.conn 0).isSome then w.rxHold p.conn p fun m => { m with hq := m.hq ++ [p] } else w.settleRx p.conn p 9 0 := by
  have taken : w.rxTake p.conn p errs =
      if (w.handlerOf p.conn 0).isNone then w.settleRx p.conn p 9 0 else w.rxHold p.conn p fun m => { m with hq := m.hq ++ [p] } := by
    simp only [State.rxTake, h.unheld, h.unqueued, h.noCopy, h.works, h.inOrder, Option.isSome_none, Bool.or_self, Bool.false_and,
      Bool.false_eq_true, if_false]
    rw [if_neg (by omega), if_pos op]
  rw [taken]
  cases w.handlerOf p.conn 0 <;> rfl

/-- A packet for a window that passes its checks is placed, counted or recorded (R109, R136). -/
theorem State.Takes.passed (h : w.Takes p) (errs : WordErrs) (send : p.op ≠ 4) (invoke : p.op ≠ 8) (passes : w.winCheck p.conn p = .ok) :
    let m := (w.conn p.conn).rxMsg p.msn p.op
    w.rxTake p.conn p errs =
      if p.op = 1 || p.op = 2 then w.rxWrite p.conn p
      else if p.op = 7 then (w.putRx p.conn (m.counted p 0 (w.sigOf p))).rxRecord p.conn p
      else (w.putRx p.conn { m.counted p 0 none with reqs := m.reqs ++ [(p, errs)], served := false }).rxRecord p.conn p := by
  simp only [State.rxTake, h.unheld, h.unqueued, h.noCopy, h.works, h.inOrder, send, invoke, passes, Option.isSome_none, Bool.or_self,
    Bool.false_and, Bool.false_eq_true, if_false]

/-- Settles O19: a fresh request comes to its message, and its kind then chooses what is done with it. -/
theorem newRequestsTakeEffect : Obligations.NewRequestsTakeEffect := by
  unfold Obligations.NewRequestsTakeEffect
  intro v p errs now new
  have request := rxRequest_of_fresh new errs now
  have taken : (v.arrived p now).Takes p := takes_of_fresh new now
  refine ⟨?write, ?asked, ?syncAdd, ?send, ?invoke, ?skip⟩
  case write =>
    intro op passes
    rw [request, if_neg (by omega), taken.passed errs (by omega) (by omega) passes, if_pos (by simpa using op)]
    rfl
  case asked =>
    intro op passes
    rw [request, if_neg (by omega), taken.passed errs (by omega) (by omega) passes, if_neg (by simp; omega), if_neg (by omega),
      State.rxMsg_arrived]
    rfl
  case syncAdd =>
    intro op passes
    rw [request, if_neg (by omega), taken.passed errs (by omega) (by omega) passes, if_neg (by simp; omega), if_pos op,
      State.rxMsg_arrived]
    rfl
  case send =>
    intro op
    rw [request, if_neg (by omega), taken.send errs op]
    rfl
  case invoke =>
    intro op
    rw [request, if_neg (by omega), taken.invoke errs op]
    rfl
  case skip =>
    intro op
    rw [request, if_pos op]
    rfl

end Sys2Proof.Machine
end

section
/-!
PROOFS of `Obligations.TransportTimersAct` (O20): each timer that is due acts.
-/

namespace Sys2Proof.Machine

variable {s : State} {c : Nat}

/-- RTO_EXPIRY fails the connection whose oldest PSN has been sent again seven times (R139). -/
theorem exec_rtoExpiry_fails {o : TxPsn} {l : List TxPsn} (ready : (s.conn c).st = 2) (reliable : (s.conn c).ud = false)
    (free : (s.conn c).holdTo = none) (due : timeoutList (s.conn c) s.clockNs = o :: l) (spent : 7 ≤ o.tries) :
    exec (.rtoExpiry c) s = .next (s.connError c 14 (some o.msn) true) := by
  simp only [exec, execRtoExpiry, ready, reliable, free, due, spent, bne_self_eq_false, Option.isSome_none, Bool.or_self,
    Bool.false_eq_true, if_false, if_true]

/-- A PSN that has timed out is counted, taken out of the end-to-end count, keeps its entropy value out of the rotation, and is sent again
(R137, R139, R157). -/
def State.timedOut (c : Nat) (o : TxPsn) (t : State) : State :=
  ((((t.cntTp 9 1).onIf (o.pkt.counted && o.pkt.dest != t.myId) fun u => u.updTp fun x => { x with
    e2e := AMap.upd x.e2e o.pkt.dest {} fun e => { e with lost := e.lost + o.pkt.size } }).updConn c fun c => { c with
      skipEnt := (o.ent, 256) :: c.skipEnt.filter fun e => e.1 != o.ent }).resend c o true)

/-- RTO_EXPIRY before that cuts the window and sends what has timed out (R137, R153). -/
theorem exec_rtoExpiry_resends {o : TxPsn} {l : List TxPsn} (ready : (s.conn c).st = 2) (reliable : (s.conn c).ud = false)
    (free : (s.conn c).holdTo = none) (due : timeoutList (s.conn c) s.clockNs = o :: l) (left : o.tries < 7) :
    exec (.rtoExpiry c) s =
      .next ((s.lossCut c 1 2).eachOf ((o :: l).filter fun o => decide (o.tries < 7)) (State.timedOut c)) := by
  simp only [exec, execRtoExpiry, ready, reliable, free, due, Nat.not_le.mpr left, bne_self_eq_false, Option.isSome_none, Bool.or_self,
    Bool.false_eq_true, if_false]
  rfl

/-- Settles O20: each timer's guard holds, so that its branch is the one that acts. -/
theorem transportTimersAct : Obligations.TransportTimersAct := by
  unfold Obligations.TransportTimersAct
  refine ⟨?ack, ?hold, ?limit, ?noRecv, ?rto, ?notice⟩
  case ack =>
    intro s c ready uncovered
    simp only [exec, execAckDelayTimer, ready, uncovered, decide_true, Bool.and_self, if_true]
  case hold =>
    intro s c ready held
    simp only [exec, execCbusyHoldExpiry, ready, held, decide_true, Bool.and_self, if_true]
  case limit =>
    intro s c psn o ready busy
    simp only [exec, execCbusyLimit, ready, busy, if_true]
  case noRecv =>
    intro s c ready held
    simp only [exec, execNoRecvRetry, ready, held, decide_true, Bool.and_self, if_true]
  case rto =>
    intro s c o l ready reliable free due
    exact ⟨exec_rtoExpiry_fails ready reliable free due, exec_rtoExpiry_resends ready reliable free due⟩
  case notice =>
    intro s c failed unanswered first last
    simp only [exec, execErrorNoticeRepeat, failed, unanswered, first, last, decide_true, Bool.not_false, Bool.and_self, and_self, if_true]

end Sys2Proof.Machine
end

section
/-!
PROOFS of `Obligations.PacketsReachTheirConnection` (O18): a packet of a READY connection is taken up by its kind.
-/

namespace Sys2Proof.Machine

variable {s u : State} {n : Nat} {p : Pkt}

/-! ### From the port to the connection (R142-R147) -/

/-- A row of `packetRows` is the arrival of a transport packet of its opcode, with the word errors it carries. -/
theorem exec_packetRow {e : Nat × Bool × (Nat → Pkt → WordErrs → Instr)} (row : e ∈ packetRows) (errs : WordErrs) :
    exec (e.2.2 n p errs) s = .next (s.rxTransport n p e.1 (if e.2.1 then errs else [])) := by
  simp only [packetRows, List.mem_cons, List.not_mem_nil, or_false] at row
  rcases row with rfl | rfl | rfl | rfl | rfl | rfl | rfl | rfl | rfl | rfl | rfl | rfl | rfl | rfl | rfl <;> rfl

/-- The opcodes of the packet rows: requests, and what a peer answers with (R128). -/
theorem op_of_packetRow {e : Nat × Bool × (Nat → Pkt → WordErrs → Instr)} (row : e ∈ packetRows) :
    (1 ≤ e.1 ∧ e.1 ≤ 8) ∨ (0x40 ≤ e.1 ∧ e.1 ≤ 0x46) := by
  have known : ∀ op ∈ packetRows.map Prod.fst, (1 ≤ op ∧ op ≤ 8) ∨ (0x40 ≤ op ∧ op ≤ 0x46) := by decide
  exact known e.1 (List.mem_map_of_mem row)

/-- A packet taken off its port, well-formed, in clear and whole, goes to its connection's context where that is resident (R142). -/
theorem State.rxTransport_resident {op : Nat} (errs : WordErrs) (proto : p.proto = 0) (kind : p.op = op)
    (taken : s.takeHere n p = (u, true)) (works : u.isolated 2 (Config.engineOf p.conn) = false) (formed : pktMalformed p = false)
    (clear : p.enc = false) (whole : p.crcOk = true) (own : op = 0x43 → u.nakIsOwn p = true)
    (resident : (u.conn p.conn).resident = true) (unstaged : (u.conn p.conn).staged = []) :
    s.rxTransport n p op errs = u.rxHere p.conn p errs (BitVec.ofNat 32 u.now.toNat) := by
  have named : (decide (op = 0x43) && !u.nakIsOwn p) = false := by simpa using own
  simp only [State.rxTransport, proto, kind, taken, works, formed, clear, whole, named, resident, unstaged, bne_self_eq_false,
    Bool.or_self, Bool.not_true, Bool.not_false, Bool.and_false, List.isEmpty_nil, Bool.false_eq_true, if_false]

/-- A packet in clear and of the generation of a connection that is not encrypted is taken up by the connection's state (R147). -/
theorem State.rxHere_clear {c : Nat} (errs : WordErrs) (now : BitVec 32) (connected : p.op ≠ 9) (created : (s.conn c).st ≠ 0)
    (clear : p.enc = false) (plain : (s.conn c).encrypt = false) (current : p.gen = (s.gen c).toNat) :
    s.rxHere c p errs now = s.rxState c p errs now := by
  simp only [State.rxHere, connected, created, clear, plain, current, bne_self_eq_false, Bool.false_eq_true, if_false]

/-! ### What a READY connection does with it (R121, R131, R133, R134, R140) -/

/-- ERROR_NOTICE at a READY connection: the first of its sequence number fails the connection, and is acknowledged (R121). -/
def State.rxNotice (v : State) (p : Pkt) : State :=
  if (v.conn p.conn).ackSeen.contains (BitVec.ofNat 32 p.wkey) then v
  else ((v.updConn p.conn fun x => { x with ackSeen := (BitVec.ofNat 32 p.wkey :: x.ackSeen).take 64 }).connError
    p.conn 15 none true).sendNotice p.conn 0x46 (BitVec.ofNat 8 (fld p.hdr 43 36))

/-- Being reached leaves what a connection remembers of the notices it has had. -/
theorem State.ackSeen_reached (u : State) (p : Pkt) : ((u.reached p).conn p.conn).ackSeen = (u.conn p.conn).ackSeen := by
  simp only [State.reached, State.touch, State.conn, State.updConn, AMap.get_upd_same]

section
variable (errs : WordErrs) (now : BitVec 32) (ready : (u.conn p.conn).st = 2) (reliable : (u.conn p.conn).ud = false)
include ready reliable

/-- What bears a PSN is a request, data packet or SKIP, for the receiver's side (R131). -/
theorem State.rxState_request (bears : p.bearsPsn = true) (host : u.host.gone = false) :
    u.rxState p.conn p errs now = (u.reached p).rxRequest p.conn p errs now := by
  have here : (((u.touch p.conn).updConn p.conn fun c => { c with idle := false }).host.gone) = false := host
  simp only [State.rxState, ready, reliable, bears, here, Bool.false_and, Bool.false_eq_true, if_false, if_true,
    Nat.reduceEqDiff]
  rfl

/-- Any other packet is for the sender's side (R121, R133, R134, R140). -/
theorem State.rxState_answer (bears : p.bearsPsn = false) :
    let v := u.reached p
    u.rxState p.conn p errs now =
      if p.op = 0x42 then v.rxAck p.conn p
      else if p.op = 0x43 then v.rxNak p.conn p
      else if p.op = 0x40 ∨ p.op = 0x41 then v.rxResp p.conn p
      else if p.op = 0x45 then v.rxNotice p
      else v := by
  simp only [State.rxState, State.rxNotice, State.ackSeen_reached, ready, reliable, bears, Bool.false_eq_true, if_false,
    Bool.or_eq_true, decide_eq_true_eq, Nat.reduceEqDiff]
  rfl

/-- A READY connection takes a packet up by its opcode, whichever side it is for (R121, R131, R133, R134, R140). -/
theorem State.rxState_ready (host : u.host.gone = false) (known : (1 ≤ p.op ∧ p.op ≤ 8) ∨ (0x40 ≤ p.op ∧ p.op ≤ 0x46)) :
    let v := u.reached p
    u.rxState p.conn p errs now =
      if p.op ≤ 8 ∨ p.op = 0x44 then v.rxRequest p.conn p errs now
      else if p.op = 0x42 then v.rxAck p.conn p
      else if p.op = 0x43 then v.rxNak p.conn p
      else if p.op = 0x40 ∨ p.op = 0x41 then v.rxResp p.conn p
      else if p.op = 0x46 then v
      else v.rxNotice p := by
  by_cases request : p.op ≤ 8 ∨ p.op = 0x44
  · have bears : p.bearsPsn = true := by simp only [Pkt.bearsPsn, Bool.or_eq_true, decide_eq_true_eq, beq_iff_eq]; omega
    simp only [State.rxState_request errs now ready reliable bears host, request, if_true]
  · have bears : p.bearsPsn = false := by
      simp only [Pkt.bearsPsn, Bool.or_eq_false_iff, decide_eq_false_iff_not, beq_eq_false_iff_ne]; omega
    have kinds : p.op = 0x40 ∨ p.op = 0x41 ∨ p.op = 0x42 ∨ p.op = 0x43 ∨ p.op = 0x45 ∨ p.op = 0x46 := by omega
    rw [State.rxState_answer errs now ready reliable bears]
    rcases kinds with op | op | op | op | op | op <;> simp [op]

end

/-- Settles O18: what lands reaches its connection's state, where its kind decides; a UD_SEND needs no state and goes to its endpoint. -/
theorem packetsReachTheirConnection : Obligations.PacketsReachTheirConnection := by
  unfold Obligations.PacketsReachTheirConnection
  refine ⟨?connected, ?datagram⟩
  case connected =>
    intro e row s u n p errs landed host
    obtain ⟨proto, op, taken, works, formed, clear, whole, own, ready, reliable, plain, resident, unstaged, current⟩ := landed
    have known := op_of_packetRow row
    rw [exec_packetRow row, State.rxTransport_resident _ proto op taken works formed clear whole own resident unstaged]
    rw [← op] at known ⊢
    rw [State.rxHere_clear _ _ (by omega) (by omega) clear plain current, State.rxState_ready _ _ ready reliable host known]
    rfl
  case datagram =>
    intro s u n p proto op taken works formed clear whole resident unstaged
    have arrives : exec (.udSend n p) s = .next (s.rxTransport n p 9 []) := rfl
    rw [arrives, State.rxTransport_resident _ proto op taken works formed clear whole (by simp) resident unstaged]
    simp only [State.rxHere, op, clear, Bool.false_eq_true, if_false, if_true]

end Sys2Proof.Machine
end

section
/-!
PROOFS of `Obligations.CongestionCommandsReply` (O5): what each congestion, shaper and scheduler command leaves, then its reply.
-/

namespace Sys2Proof.Machine

variable {s : State} {h : Issue}

/-! ### OK with a result -/

theorem vuino_ok {op : Nat} {vals : Nats} {body : State → Ans} {t : State} {items : Items} (ok : s.admits h op vals = true)
    (done : body s = Ans.ok t items) : vuino h op vals body s = t.answer h op (Ans.ok t items) true :=
  vuino_replies ok done rfl

/-! ### One item of the state in a step done for many -/

/-- Where the step for an item changes the view of that item alone, every item of a list without repetition changes once. -/
theorem State.each_once {β : Type} {view : State → Nat → β} {change : Nat → β → β} {f : Nat → State → State} {ks : Nats} {k : Nat}
    (own : ∀ j x, view (f j x) j = change j (view x j)) (other : ∀ j i x, i ≠ j → view (f j x) i = view x i)
    (once : ks.Nodup) (hk : k ∈ ks) (s : State) : view (s.each ks f) k = change k (view s k) := by
  unfold State.each
  induction ks generalizing s with
  | nil => cases hk
  | cons j ks ih =>
    obtain ⟨fresh, once⟩ := List.nodup_cons.mp once
    rcases List.mem_cons.mp hk with rfl | hk
    · exact State.each_keeps (s := f k s) (ks := ks) (P := fun x => view x k = change k (view s k))
        (fun i hi x hx => (other i k x (ne_of_mem_of_not_mem hi fresh).symm).trans hx) (own k s)
    · exact (ih once hk (f j s)).trans (congrArg _ (other j k s (ne_of_mem_of_not_mem hk fresh)))

/-- A partition reads as changed where it is the one changed, and as before otherwise. -/
theorem State.part_updPart_same (s : State) (p : Nat) (f : PartS → PartS) : (s.updPart p f).part p = f (s.part p) := AMap.get_upd_same ..

theorem State.part_updPart_other (s : State) {p q : Nat} (hq : q ≠ p) (f : PartS → PartS) : (s.updPart p f).part q = s.part q :=
  (AMap.get_upd ..).trans (if_neg hq)

/-! ### Congestion windows (R156) -/

/-- CC_CONN_SET of a mode whose bounds pass: the override stands, and the window is held within it. -/
theorem exec_ccConnSet {conn mode lo fixed : Nat} {hi : BitVec 64} (ok : s.admits h 0x0402 [conn, mode, lo, hi.toNat, fixed] = true)
    (created : (s.conn conn).st ≠ 0) (known : mode ≤ 2) (bounds : mode = 1 → 4 ≤ lo ∧ lo ≤ hi.toNat ∧ hi.toNat ≤ 8192)
    (size : mode = 2 → 4 ≤ fixed ∧ fixed ≤ 8192) :
    let u := s.updConn conn fun c => { c with ovMode := mode, ovLo := lo, ovHi := hi.toNat, ovFix := fixed }
    let t := u.updConn conn fun c => { c with cwnd := if mode = 0 then c.cwnd else u.clampWin c c.cwnd }
    exec (.ccConnSet h conn mode lo hi fixed) s = .next (t.answer h 0x0402 (Ans.ok t) true) := by
  refine congrArg _ (vuino_ok ok ?_)
  refine (if_neg (by simp [created, known])).trans ?_
  refine (if_neg ?inBounds).trans ((if_neg (by simpa using size)).trans rfl)
  simp only [Bool.and_eq_true, decide_eq_true_eq, Bool.not_eq_true', Bool.and_eq_false_iff, decide_eq_false_iff_not]
  omega

/-! ### Shapers (R163, R164, R168) -/

/-- SHP_STITCH of shapers that the partition has: each takes its basting entry. -/
theorem exec_shpStitch {first count : Nat} (ok : s.admits h 0x0411 [first, count] = true) (least : 1 ≤ count) (few : count ≤ 4096)
    (own : ∀ i ∈ List.range' first count, (Ranges.item (s.part h.part).shps i).isSome = true) :
    let ns := (List.range' first count).filterMap fun i => Ranges.item (s.part h.part).shps i
    let t := s.each ns fun n t => t.updShp n fun x => x.stitched s.clockNs
    exec (.shpStitch h first count) s = .next (t.answer h 0x0411 (Ans.ok t) true) := by
  refine congrArg _ (vuino_ok ok ?_)
  have noneMissing : ((List.range' first count).map fun i => Ranges.item (s.part h.part).shps i).any (fun n => n.isNone) = false := by
    refine List.any_eq_false.mpr fun n hn => ?_
    obtain ⟨i, hi, rfl⟩ := List.mem_map.mp hn
    simp [← Option.not_isSome, own i hi]
  have within : min count 4097 = count := by omega
  simp only [within, noneMissing, Nat.ne_of_gt least, Nat.not_lt.mpr few, decide_false,
    Bool.or_self, Bool.false_eq_true, if_false, List.filterMap_map, Function.id_comp]

/-! ### Weights (R167) -/

/-- A weight's stitching, which leaves a partition alone whose weight stands already. -/
def State.weightStitched (p : Nat) (t : State) : State :=
  if (t.part p).wAct = (t.part p).wBast then t else t.updPart p fun x => { x with wAct := x.wBast }

theorem State.weightStitched_same (p : Nat) (t : State) :
    (t.weightStitched p).part p = { t.part p with wAct := (t.part p).wBast } := by
  unfold State.weightStitched
  split
  next stands => rw [← stands]
  next => exact State.part_updPart_same ..

theorem State.weightStitched_other (p q : Nat) (t : State) (hq : q ≠ p) : (t.weightStitched p).part q = t.part q := by
  unfold State.weightStitched
  split
  · rfl
  · exact State.part_updPart_other t hq _

theorem State.weightStitched_frame (p : Nat) (t : State) : { t.weightStitched p with parts := s.parts } = { t with parts := s.parts } := by
  unfold State.weightStitched
  split <;> rfl

/-- SCHED_STITCH changes the partitions alone, and of each its weight alone. -/
theorem exec_schedStitch (ok : s.admits h 0x0421 [] = true) :
    ∃ t : State, exec (.schedStitch h) s = .next (t.answer h 0x0421 (Ans.ok t) true) ∧ { t with parts := s.parts } = s ∧
      ∀ p < 64, t.part p = { s.part p with wAct := (s.part p).wBast } := by
  refine ⟨s.each (List.range 64) State.weightStitched, ?_, ?_, fun p hp => ?_⟩
  · exact congrArg _ (vuino_ok ok rfl)
  · exact State.each_keeps (P := fun t => { t with parts := s.parts } = s) (fun p _ t ht => (State.weightStitched_frame p t).trans ht) rfl
  · exact State.each_once (view := State.part) (change := fun _ x => { x with wAct := x.wBast }) State.weightStitched_same
      State.weightStitched_other List.nodup_range (List.mem_range.mpr hp) s

/-- Settles O5: each command's checks pass, so that its branch is the one that sets or answers what it names. -/
theorem congestionCommandsReply : Obligations.CongestionCommandsReply := by
  unfold Obligations.CongestionCommandsReply
  refine ⟨?ccSet, ?ccStitch, ?ccConn, ?shpWrite, ?shpStitch, ?shpQuery, ?weight, ?schedStitch, ?histograms⟩
  case ccSet =>
    intro s h p blk ok created good
    refine congrArg _ (vuino_ok ok ?_)
    simp only [created, good, Bool.not_true, Bool.or_self, Bool.false_eq_true, if_false]
  case ccStitch =>
    intro s h p ok created
    refine congrArg _ (vuino_ok ok ?_)
    simp only [created, Bool.not_true, Bool.false_eq_true, if_false]
  case ccConn =>
    intro s h conn mode lo hi fixed ok created known bounds size
    exact exec_ccConnSet ok created known bounds size
  case shpWrite =>
    intro s h k n e ok own good
    refine congrArg _ (vuino_ok ok ?_)
    simp only [own, good, Bool.false_eq_true, if_false]
  case shpStitch =>
    intro s h first count ok least few own
    exact exec_shpStitch ok least few own
  case shpQuery =>
    intro s h k n copy ok own known
    refine congrArg _ (vuino_ok ok ?_)
    simp only [own, Nat.not_lt.mpr known, if_false]
  case weight =>
    intro s h p w ok positive hp
    refine congrArg _ (vuino_ok ok ?_)
    simp only [Nat.ne_of_gt positive, Nat.not_le.mpr hp, decide_false, Bool.or_self, Bool.false_eq_true, if_false]
  case schedStitch =>
    intro s h ok
    exact exec_schedStitch ok
  case histograms =>
    intro s h q c ok hq hc
    have known : (decide (191 < q) || decide (1 < c)) = false := by simp only [Bool.or_eq_false_iff, decide_eq_false_iff_not]; omega
    exact congrArg _ (vuino_ok ok (if_neg (Bool.eq_false_iff.mp known)))

end Sys2Proof.Machine
end

section
/-!
PROOFS of `Obligations.SchedulersAndReturnsAct` (O21): the egress scheduler, the end-to-end count and the queue sampler.
-/

namespace Sys2Proof.Machine

variable {s u : State} {n : Nat}

/-! ### The egress scheduler (R165-R167, R179) -/

/-- With no replay ahead, and the VC's turn come, the packet that the scheduler picks leaves. -/
theorem exec_egressPacketSelect {vc src : Nat} {q : QPkt} (hn : n ≤ 32) (hv : vc ≤ 3)
    (noReplay : ((s.port n).replayFrom.isSome && !(s.port n).waitFack) = false) (turn : (s.admitAll.sendFirst n).vcTurn n vc = true)
    (picked : (s.admitAll.sendFirst n).pick n vc = some (src, q)) :
    exec (.egressPacketSelect n vc none) s = .next (((s.admitAll.sendFirst n).depart n vc src q).udLeft q) := by
  have unguarded (b : Bool) (t : State) : t.onIf b (fun t => t) = t := by cases b <;> rfl
  simp only [exec, execEgressPacketSelect, noReplay, turn, picked, unguarded, Nat.not_lt.mpr hn, Nat.not_lt.mpr hv, decide_false,
    Bool.not_true, Bool.or_self, Bool.false_eq_true, if_false]

/-! ### The end-to-end count (R158) -/

/-- The count towards a sender after its return: begun anew for a new incarnation, advanced for the known one, and left where the figure
does not advance. -/
def E2E.returned (e : E2E) (acc : BitVec 48) (inc : BitVec 16) : E2E :=
  if e.inc ≠ some inc then { sent := 0, acc := 0, lost := 0, raw := acc, inc := some inc }
  else if 0 < (acc - e.raw).toNat ∧ (acc - e.raw).toNat < 2 ^ 47 then { e with acc := e.acc + (acc - e.raw).toNat, raw := acc } else e

theorem E2E.returned_anew {e : E2E} {acc : BitVec 48} {inc : BitVec 16} (new : e.inc ≠ some inc) :
    e.returned acc inc = { sent := 0, acc := 0, lost := 0, raw := acc, inc := some inc } := if_pos new

theorem E2E.returned_advanced {e : E2E} {acc : BitVec 48} {inc : BitVec 16} (known : e.inc = some inc) (up : 0 < (acc - e.raw).toNat)
    (near : (acc - e.raw).toNat < 2 ^ 47) : e.returned acc inc = { e with acc := e.acc + (acc - e.raw).toNat, raw := acc } :=
  (if_neg (not_not.mpr known)).trans (if_pos ⟨up, near⟩)

/-- A sound return that arrives here sets the count towards its sender, and connections that waited for room are considered. -/
theorem exec_e2eReturn {p : Pkt} (proto : p.proto = 2) (kind : fld p.hdr 127 120 = 1) (taken : s.takeHere n p = (u, true))
    (high : fld p.fab 89 88 = 0) (low : fld p.fab 50 48 = 0) (len : p.flen = 16) (bare : p.payload = []) (intact : p.crcOk = true) :
    let e := (u.e2eOf p.src).returned (BitVec.ofNat 48 (fld p.hdr 95 48)) (BitVec.ofNat 16 (fld p.hdr 47 32))
    exec (.e2eReturn n p) s = .next ((u.updTp fun t => { t with e2e := AMap.set t.e2e p.src e }).admitAll) := by
  simp only [exec, execE2eReturn, E2E.returned, zeroFld, proto, kind, taken, high, low, len, bare, intact, bne_self_eq_false,
    beq_self_eq_true, List.isEmpty_nil, Bool.not_true, Bool.and_self, Bool.or_self, Bool.false_eq_true, if_false, bne_iff_ne,
    Bool.and_eq_true, decide_eq_true_eq]

theorem exec_e2eReturnTimer {src : Nat} (unreturned : (AMap.get s.tp.e2eR src {}).unret ≠ 0) :
    exec (.e2eReturnTimer src) s = .next (s.sendReturn src) := congrArg _ (if_neg unreturned)

theorem exec_e2eStale {dest : Nat} (flying : s.inflight dest ≠ 0) : exec (.e2eStale dest) s = .next
    (((s.updTp fun t => { t with e2e := AMap.upd t.e2e dest {} fun e => { e with sent := e.acc + e.lost } }).cntCc 5 1).admitAll) :=
  congrArg _ (if_neg flying)

/-! ### The queue sampler (R169) -/

/-- One queue's sample, as it is before the step, added to its histogram. -/
def State.sampleAdded (s : State) (n : Nat) (t : State) : State :=
  t.updTp fun x => { x with hist := AMap.upd x.hist n {} fun y => y.add (s.sampled n) s.now.toNat }

theorem State.hist_sampleAdded (s : State) (n m : Nat) (t : State) : AMap.get (s.sampleAdded n t).tp.hist m {} =
    if m = n then (AMap.get t.tp.hist n {}).add (s.sampled n) s.now.toNat else AMap.get t.tp.hist m {} := by
  simp only [State.sampleAdded, State.updTp, AMap.get_upd]

/-- QUEUE_SAMPLE changes the histograms alone, and adds to each the one sample that its queue gives before the step. -/
theorem exec_queueSample (s : State) :
    ∃ t : State, exec .queueSample s = .next t ∧ { t with tp := { t.tp with hist := s.tp.hist } } = s ∧
      ∀ n < 192, AMap.get t.tp.hist n {} = (AMap.get s.tp.hist n {}).add (s.sampled n) s.now.toNat := by
  refine ⟨s.each (List.range 192) s.sampleAdded, rfl, ?_, fun n hn => ?_⟩
  · exact State.each_keeps (P := fun t => { t with tp := { t.tp with hist := s.tp.hist } } = s) (fun _ _ _ ht => ht) rfl
  · exact State.each_once (view := fun t n => AMap.get t.tp.hist n {}) (change := fun n x => x.add (s.sampled n) s.now.toNat)
      (fun n t => (s.hist_sampleAdded n n t).trans (if_pos rfl)) (fun n m t other => (s.hist_sampleAdded n m t).trans (if_neg other))
      List.nodup_range (List.mem_range.mpr hn) s

/-- Settles O21: each event's guard holds, so that its branch is the one that acts. -/
theorem schedulersAndReturnsAct : Obligations.SchedulersAndReturnsAct := by
  unfold Obligations.SchedulersAndReturnsAct
  refine ⟨?egress, ?returns, ?timer, ?stale, exec_queueSample⟩
  case egress =>
    intro s n vc src q hn hv noReplay u turn picked
    exact exec_egressPacketSelect hn hv noReplay turn picked
  case returns =>
    intro s u n p proto kind taken high low len bare intact acc inc e adv
    have ran := exec_e2eReturn proto kind taken high low len bare intact
    refine ⟨fun new => ?anew, fun known up near => ?advanced⟩
    case anew => rw [ran, E2E.returned_anew new]
    case advanced => rw [ran, E2E.returned_advanced known up near]
  case timer => exact fun s src => exec_e2eReturnTimer
  case stale => exact fun s dest => exec_e2eStale

end Sys2Proof.Machine
end

section
/-!
SUPPORT. Ports whose link runs: when the guards of chapter 08 let a flit or a word pass, and what several changes of one port come to.
-/

namespace Sys2Proof.Machine

variable {s t : State} {n : Nat} {p : PortS}

/-! ### Guards -/

/-- A port that is UP or changes its mode takes flits and the words of retry (R178, R188). -/
theorem State.running_passes (hn : n < 32) (runs : (s.port n).state = 3 ∨ (s.port n).state = 4) :
    (decide (32 ≤ n) || !((s.port n).state == 3 || (s.port n).state == 4)) = false := by
  rcases runs with up | changes <;> simp [*]

/-- The same on a row or column port. -/
theorem State.running_rowCol_passes (hn : n < 32) (rc : s.rowCol n = true) (runs : (s.port n).state = 3 ∨ (s.port n).state = 4) :
    (decide (32 ≤ n) || !s.rowCol n || !((s.port n).state == 3 || (s.port n).state == 4)) = false := by
  rcases runs with up | changes <;> simp [*]

/-- A port from CHECK to REACH_EXCEEDED takes the words of the loop time (R185). -/
theorem State.looping_passes {lo : Nat} (hn : n < 32) (least : lo ≤ (s.port n).state.toNat) (most : (s.port n).state.toNat ≤ 5) :
    (decide (32 ≤ n) || decide ((s.port n).state.toNat < lo) || decide (5 < (s.port n).state.toNat)) = false := by
  simp only [Bool.or_eq_false_iff, decide_eq_false_iff_not]
  omega

theorem State.rowCol_of_creditMode (credit : s.creditMode n = true) : s.rowCol n = true := by
  unfold State.creditMode at credit
  simp only [Bool.and_eq_true] at credit
  exact credit.1.1

theorem State.spine_updPort (s : State) (m : Nat) (f : PortS → PortS) : (s.updPort m f).spine = s.spine := by
  simp only [State.spine, State.updPort_straps]

/-! ### Several changes of one port -/

theorem State.onlyPort.refl (s : State) (n : Nat) : s.onlyPort s n (s.port n) := ⟨rfl, fun _ _ => rfl, rfl⟩

theorem State.onlyPort.trans {u : State} {q : PortS} (h : s.onlyPort t n p) (g : t.onlyPort u n q) : s.onlyPort u n q := by
  obtain ⟨_, others, frame⟩ := h
  obtain ⟨here, others', frame'⟩ := g
  refine ⟨here, fun m hm => (others' m hm).trans (others m hm), ?_⟩
  exact (congrArg (fun x : State => { x with ports := s.ports }) frame').trans frame

theorem State.onlyPort.updPort (hn : n < 32) (f : PortS → PortS) (h : s.onlyPort t n p) : s.onlyPort (t.updPort n f) n (f p) :=
  h.trans (State.onlyPort_upd hn (congrArg f h.1))

/-- A control word joins the words that wait, and nothing else changes. -/
theorem State.onlyPort.sendWord (hn : n < 32) (w : BitVec 64) (h : s.onlyPort t n p) :
    s.onlyPort (t.sendWord n w) n { p with words := p.words ++ [w] } :=
  h.updPort hn _

/-- A counter rises, and nothing else changes (R193). -/
theorem State.onlyPort.cntPort (hn : n < 32) (i k : Nat) (h : s.onlyPort t n p) :
    s.onlyPort (t.cntPort n i k) n { p with cnt := AMap.upd p.cnt i 0 (satAdd · k) } :=
  h.updPort hn _

/-- The STOP bits that the port sends are set anew, and nothing else changes (R187). -/
theorem State.onlyPort.updStop (hn : n < 32) (h : s.onlyPort t n p) : ∃ stop, s.onlyPort (t.updStop n) n { p with stopTx := stop } :=
  ⟨_, h.updPort hn _⟩

end Sys2Proof.Machine
end

section
/-!
PROOFS of `Obligations.FlitsAreTaken` (O22): DATA and IDLE flits.
-/

namespace Sys2Proof.Machine

variable {s : State} {n : Nat} {f : Flit}

/-- A bad DATA flit is dropped (R175). -/
theorem exec_dataFlitRx_bad (hn : n < 32) (runs : (s.port n).state = 3 ∨ (s.port n).state = 4)
    (bad : flitBad f true (s.creditMode n) = true) : exec (.dataFlitRx n f) s = .next (s.badFlit n) := by
  simp only [exec, execDataFlitRx, State.running_passes hn runs, bad, Bool.false_eq_true, if_false, if_true]

/-- In credit mode a good flit in its order, for which a slot is free, is taken (R180, R186). -/
theorem exec_dataFlitRx_credit (hn : n < 32) (runs : (s.port n).state = 3 ∨ (s.port n).state = 4)
    (good : flitBad f true (s.creditMode n) = false) (credit : s.creditMode n = true) (next : fld f.head 15 0 = (s.port n).rxSeq.toNat)
    (room : AMap.get (s.port n).slots (fld f.head 29 28) 0 < (if fld f.head 29 28 = 3 then 256 else 1280)) :
    exec (.dataFlitRx n f) s = .next (s.takeFlit n (fld f.head 29 28) f) := by
  rw [credit] at good
  simp only [exec, execDataFlitRx, State.running_passes hn runs, good, credit, next, State.rowCol_of_creditMode credit, Nat.not_le.mpr room,
    State.onIf_false, bne_self_eq_false, decide_false, Bool.not_true, Bool.and_false, Bool.false_and, Bool.false_eq_true, if_false]

/-- In credit mode a good flit out of its order is discarded, and a retry asked for unless one is awaited (R180). -/
theorem exec_dataFlitRx_outOfOrder (hn : n < 32) (runs : (s.port n).state = 3 ∨ (s.port n).state = 4)
    (good : flitBad f true (s.creditMode n) = false) (credit : s.creditMode n = true) (gap : fld f.head 15 0 ≠ (s.port n).rxSeq.toNat) :
    exec (.dataFlitRx n f) s = .next (s.updPort n fun p => { p with
      discarding := true, words := if p.discarding then p.words else p.words ++ [p.retryWord] }) := by
  rw [credit] at good
  simp only [exec, execDataFlitRx, State.running_passes hn runs, good, credit, State.rowCol_of_creditMode credit, bne_iff_ne.mpr gap,
    State.onIf_false, Bool.not_true, Bool.and_self, Bool.false_eq_true, if_false, if_true]

/-- The STOP bits received do not tell the mode. -/
theorem State.creditMode_stopRx (s : State) (n : Nat) (stop : BitVec 4) :
    (s.updPort n fun p => { p with stopRx := stop }).creditMode n = s.creditMode n := by
  simp only [State.creditMode, State.rowCol, State.spine_updPort, State.port_updPort]
  split <;> rfl

/-- In on/off mode a good flit in its order, or on an S port one that no skipping passes over, is taken, and its STOP bits are obeyed
(R182, R187). -/
theorem exec_dataFlitRx_onOff (hn : n < 32) (runs : (s.port n).state = 3 ∨ (s.port n).state = 4)
    (good : flitBad f true (s.creditMode n) = false) (onOff : s.creditMode n = false)
    (next : s.rowCol n = true → fld f.head 15 0 = (s.port n).rxSeq.toNat)
    (start : s.rowCol n = false → (s.port n).skipTo.contains (fld f.head 29 28) = true → fld f.head 27 23 ≠ 31) :
    exec (.dataFlitRx n f) s =
      .next ((s.updPort n fun p => { p with stopRx := BitVec.ofNat 4 (fld f.head 21 18) }).takeFlit n (fld f.head 29 28) f) := by
  have inOrder : (s.rowCol n && fld f.head 15 0 != (s.port n).rxSeq.toNat) = false := by
    simpa using next
  have notSkipped : (!s.rowCol n && (s.port n).skipTo.contains (fld f.head 29 28) && fld f.head 27 23 == 31) = false := by
    simpa using start
  rw [onOff] at good
  simp only [exec, execDataFlitRx, State.running_passes hn runs, good, onOff, State.creditMode_stopRx, inOrder, notSkipped, State.onIf,
    Bool.not_false, Bool.false_and, Bool.false_eq_true, if_false, if_true]

/-- A bad IDLE flit is dropped (R175). -/
theorem exec_idleFlitRx_bad (hn : n < 32) (runs : (s.port n).state = 3 ∨ (s.port n).state = 4)
    (bad : flitBad f false (s.creditMode n) = true) : exec (.idleFlitRx n f) s = .next (s.badFlit n) := by
  simp only [exec, execIdleFlitRx, State.running_passes hn runs, bad, Bool.false_eq_true, if_false, if_true]

/-- In on/off mode the STOP bits of a good IDLE flit are obeyed (R187). -/
theorem exec_idleFlitRx_onOff (hn : n < 32) (runs : (s.port n).state = 3 ∨ (s.port n).state = 4)
    (good : flitBad f false (s.creditMode n) = false) (onOff : s.creditMode n = false) :
    exec (.idleFlitRx n f) s = .next (s.updPort n fun p => { p with stopRx := BitVec.ofNat 4 (fld f.head 21 18) }) := by
  rw [onOff] at good
  simp only [exec, execIdleFlitRx, State.running_passes hn runs, good, onOff, Bool.false_eq_true, if_false]

/-- Settles O22: which branch each flit meets, and what that changes of its port. -/
theorem flitsAreTaken : Obligations.FlitsAreTaken := by
  unfold Obligations.FlitsAreTaken
  refine ⟨fun s n f => exec_dataFlitRx_bad, fun s n f => exec_dataFlitRx_credit, fun s n f => exec_dataFlitRx_onOff, ?outOfOrder,
    fun s n f => exec_idleFlitRx_bad, ?idle⟩
  case outOfOrder =>
    intro s n f hn runs good credit gap
    refine ⟨_, exec_dataFlitRx_outOfOrder hn runs good credit gap, State.onlyPort_upd hn ?_⟩
    cases (s.port n).discarding <;> simp
  case idle =>
    intro s n f hn runs good onOff
    exact ⟨_, exec_idleFlitRx_onOff hn runs good onOff, State.onlyPort_upd hn rfl⟩

end Sys2Proof.Machine
end

section
/-!
PROOFS of `Obligations.ControlWordsAct` (O23): control words received.
-/

namespace Sys2Proof.Machine

variable {s : State} {n : Nat} {w : BitVec 64}

/-! ### Credits (R178, R186) -/

/-- A map made of an entry for each key of a list reads, at each of them, that entry. -/
theorem AMap.get_mapKeys {α : Type} {ks : Nats} {k : Nat} (hk : k ∈ ks) (g : Nat → α) (d : α) :
    AMap.get (ks.map fun i => (i, g i)) k d = g k := by
  unfold AMap.get
  induction ks with
  | nil => cases hk
  | cons j ks ih =>
    simp only [List.map_cons, AMap.get?]
    split
    next same => rw [same]; rfl
    next other => exact ih ((List.mem_cons.mp hk).resolve_left fun e => other e.symm)

/-- The slots of a VC that a CREDIT word says have been freed since the link came up. -/
def creditTold (w : BitVec 64) (vc : Nat) : BitVec 14 := BitVec.ofNat 14 (fld w (55 - 14 * vc) (42 - 14 * vc))

/-- The credits of a VC with what a CREDIT word adds. -/
def PortS.creditSum (p : PortS) (w : BitVec 64) (vc : Nat) : Nat :=
  p.creditsOf vc + (creditTold w vc - AMap.get p.creditRx vc 0).toNat

/-- A port with these credits, and these values that told of them. -/
def PortS.credited (p : PortS) (up : Nat → Nat) (val : Nat → BitVec 14) : PortS := { p with
  credits := (List.range 4).map fun vc => (vc, up vc), creditRx := (List.range 4).map fun vc => (vc, val vc) }

theorem PortS.credited_vc (p : PortS) (up : Nat → Nat) (val : Nat → BitVec 14) {vc : Nat} (hv : vc < 4) :
    (p.credited up val).creditsOf vc = up vc ∧ AMap.get (p.credited up val).creditRx vc 0 = val vc :=
  ⟨AMap.get_mapKeys (List.mem_range.mpr hv) up _, AMap.get_mapKeys (List.mem_range.mpr hv) val 0⟩

/-- CREDIT that gives no VC more than its slots adds what was freed since the last. -/
theorem exec_credit (hn : n < 32) (credit : s.creditMode n = true) (up : (s.port n).state = 3)
    (fits : ∀ vc < 4, (s.port n).creditSum w vc ≤ (if vc = 3 then 256 else 1280)) :
    exec (.credit n w) s = .next (s.updPort n fun p => p.credited ((s.port n).creditSum w) (creditTold w)) := by
  have within : (List.range 4).any (fun vc => decide ((if vc = 3 then 256 else 1280) < (s.port n).creditSum w vc)) = false :=
    List.any_eq_false.mpr fun vc hv => by simpa using fits vc (List.mem_range.mp hv)
  unfold PortS.creditSum creditTold at within
  simp only [exec, execCredit, Nat.not_le.mpr hn, credit, up, within, bne_self_eq_false, decide_false, Bool.not_true, Bool.or_self,
    Bool.false_eq_true, if_false]
  rfl

/-! ### The replay buffer (R180, R181) -/

/-- FACK of a flit in the replay buffer drops it and what was sent before it. -/
theorem exec_fack {a b : List (BitVec 16)} {f : BitVec 16} (hn : n < 32) (rc : s.rowCol n = true)
    (runs : (s.port n).state = 3 ∨ (s.port n).state = 4) (named : f = BitVec.ofNat 16 (fld w 15 0))
    (held : (s.port n).replay = a ++ f :: b) (first : f ∉ a) (unawaited : (s.port n).waitFack = false)
    (idle : (s.port n).replayFrom = none) :
    ∃ t : State, exec (.fack n w) s = .next t ∧ s.onlyPort t n { s.port n with
      replay := b, replayEnd := (s.port n).replayEnd.filter b.contains } := by
  have inside : (a ++ f :: b).contains f = true := by simp
  have left : ((a ++ f :: b).dropWhile (· != f)).drop 1 = b := by
    rw [List.dropWhile_append_of_pos fun x hx => bne_iff_ne.mpr (ne_of_mem_of_not_mem hx first)]
    simp
  simp only [exec, execFack, State.running_rowCol_passes hn rc runs, ← named, held, inside, left, Bool.false_eq_true, if_false, if_true]
  refine ⟨_, rfl, State.onlyPort_upd hn ?_⟩
  simp only [unawaited, idle, Bool.false_eq_true, if_false]

/-- RETRY_REQ of a flit in the replay buffer, the first to name it and with no replay in progress, starts a replay there. -/
theorem exec_retryReq_replays (hn : n < 32) (rc : s.rowCol n = true) (runs : (s.port n).state = 3 ∨ (s.port n).state = 4)
    (held : BitVec.ofNat 16 (fld w 15 0) ∈ (s.port n).replay) (idle : (s.port n).replayFrom = none) (first : (s.port n).retrySame = 0) :
    exec (.retryReq n w) s =
      .next (((s.updPort n fun p => { p with retrySame := 1, retryLast := BitVec.ofNat 16 (fld w 15 0) }).cntPort n 8 1).updPort n
        fun p => { p with replayFrom := some (BitVec.ofNat 16 (fld w 15 0)), replayQ := BitVec.ofNat 16 (fld w 15 0) }) := by
  have starts : ((s.port n).replayFrom == some (BitVec.ofNat 16 (fld w 15 0)) ||
      !(s.port n).replay.contains (BitVec.ofNat 16 (fld w 15 0))) = false := by
    simp [idle, held]
  simp only [exec, execRetryReq, State.running_rowCol_passes hn rc runs, starts, first, bne_self_eq_false, Bool.false_and,
    Bool.false_eq_true, if_false, Nat.reduceLeDiff]

/-- RETRY_REQ that names one flit for the eighth time in a row, or a later one, makes the link retrain. -/
theorem exec_retryReq_retrains (hn : n < 32) (rc : s.rowCol n = true) (runs : (s.port n).state = 3 ∨ (s.port n).state = 4)
    (often : 7 ≤ (s.port n).retrySame) (again : (s.port n).retryLast = BitVec.ofNat 16 (fld w 15 0)) :
    exec (.retryReq n w) s = .next
      ((s.updPort n fun p => { p with retrySame := (s.port n).retrySame + 1, retryLast := BitVec.ofNat 16 (fld w 15 0) }).retrain181 n) := by
  have counted : ((s.port n).retrySame != 0 && (s.port n).retryLast == BitVec.ofNat 16 (fld w 15 0)) = true := by
    simp only [again, beq_self_eq_true, Bool.and_true, bne_iff_ne]
    omega
  simp only [exec, execRetryReq, State.running_rowCol_passes hn rc runs, counted, Nat.succ_le_succ often, Bool.false_eq_true, if_false,
    if_true]

/-! ### The loop time (R185) -/

theorem exec_loopPing (hn : n < 32) (least : 2 ≤ (s.port n).state.toNat) (most : (s.port n).state.toNat ≤ 5) :
    exec (.loopPing n w) s = .next (s.sendWord n (pack 64 [(63, 56, 7), (47, 32, s.clockNs % 65536), (31, 0, fld w 31 0)])) := by
  simp only [exec, execLoopPing, State.looping_passes hn least most, Bool.false_eq_true, if_false]

/-- The ping `e` is answered, and its loop time kept if it is the largest. -/
def PortS.echoed (p : PortS) (e : BitVec 32 × Nat) (time : Nat) : PortS := { p with
  loopNs := BitVec.ofNat 16 (max p.loopNs.toNat (min 65535 time)), pings := p.pings.erase e, echoes := p.echoes + 1 }

/-- LOOP_ECHO of a ping within the limit answers it. -/
theorem exec_loopEcho_within {e : BitVec 32 × Nat} (hn : n < 32) (least : 2 ≤ (s.port n).state.toNat) (most : (s.port n).state.toNat ≤ 5)
    (pinged : (s.port n).pings.find? (fun e => e.1 == BitVec.ofNat 32 (fld w 31 0)) = some e)
    (near : s.clockNs - e.2 - fld w 47 32 ≤ (if n < 30 && !s.spine then 800 else 6000)) :
    exec (.loopEcho n w) s = .next (s.updPort n fun p => p.echoed e (s.clockNs - e.2 - fld w 47 32)) := by
  simp only [exec, execLoopEcho, State.looping_passes hn least most, pinged, State.spine_updPort, Nat.not_lt.mpr near, decide_false,
    Bool.false_and, Bool.false_eq_true, if_false]
  rfl

/-- LOOP_ECHO of a ping over the limit takes a port that is UP to REACH_EXCEEDED. -/
theorem exec_loopEcho_over {e : BitVec 32 × Nat} (hn : n < 32) (up : (s.port n).state = 3)
    (pinged : (s.port n).pings.find? (fun e => e.1 == BitVec.ofNat 32 (fld w 31 0)) = some e)
    (far : (if n < 30 && !s.spine then 800 else 6000) < s.clockNs - e.2 - fld w 47 32) :
    exec (.loopEcho n w) s = .next ((((((s.updPort n fun p => p.echoed e (s.clockNs - e.2 - fld w 47 32)).leaveMatch n).linkRec n 3).updPort n
      fun p => { p with state := 5, step := 0 }).chooseUpstream).linkReply n) := by
  have passes := State.looping_passes (lo := 2) hn (by rw [up]; decide) (by rw [up]; decide)
  have leaves : (decide ((if n < 30 && !s.spine then 800 else 6000) < s.clockNs - e.2 - fld w 47 32) && (s.port n).state != 5) = true := by
    rw [decide_eq_true far, up]
    decide
  simp only [exec, execLoopEcho, passes, pinged, State.spine_updPort, leaves, Bool.false_eq_true, if_false, if_true]
  rfl

/-! ### The change of mode (R188) -/

/-- MODE_ACK(1). -/
abbrev modeAckWord : BitVec 64 := pack 64 [(63, 56, 9), (0, 0, 1)]

/-- MODE_REQ is answered, and the change to on/off mode begins. -/
theorem exec_modeReq (hn : n < 32) (rc : s.rowCol n = true) (asked : bitAt w 0 = true) (up : (s.port n).state = 3)
    (credit : (s.port n).onoff ≠ some true) :
    exec (.modeReq n w) s = .next (((s.updPort n fun p => { p with
      state := 4, onoff := some true, sentMode := true, reqMode := false }).sendWord n modeAckWord).updStop n) := by
  simp only [exec, execModeReq, Nat.not_le.mpr hn, rc, asked, up, beq_eq_false_iff_ne.mpr credit, beq_self_eq_true, decide_false,
    Bool.true_or, Bool.not_true, Bool.or_self, Bool.and_false, Bool.false_eq_true, if_false]

/-- MODE_ACK ends the change, and is answered by the end that has not sent one. -/
theorem exec_modeAck (hn : n < 32) (rc : s.rowCol n = true) (told : bitAt w 0 = true) (changes : (s.port n).state = 4) :
    exec (.modeAck n w) s = .next (((s.onIf (!(s.port n).sentMode) fun t => t.sendWord n modeAckWord).updPort n fun p => { p with
      state := 3, onoff := some true, sentMode := true }).updStop n) := by
  simp only [exec, execModeAck, Nat.not_le.mpr hn, rc, told, changes, beq_self_eq_true, decide_false, Bool.not_true, Bool.or_self,
    Bool.false_eq_true, if_false, if_true]

/-- The answer to MODE_ACK joins the words that wait, where one is owed. -/
theorem State.onlyPort_modeAnswered (hn : n < 32) : s.onlyPort (s.onIf (!(s.port n).sentMode) fun t => t.sendWord n modeAckWord) n
    { s.port n with words := (s.port n).words ++ (if (s.port n).sentMode then [] else [modeAckWord]) } := by
  cases (s.port n).sentMode
  case false => exact (State.onlyPort.refl s n).sendWord hn modeAckWord
  case true =>
    simp only [Bool.not_true, State.onIf_false, if_true, List.append_nil]
    exact State.onlyPort.refl s n

/-- Settles O23: the branch that each word takes, and what that changes of its port. -/
theorem controlWordsAct : Obligations.ControlWordsAct := by
  unfold Obligations.ControlWordsAct
  refine ⟨?credit, ?fack, ?replays, fun s n w => exec_retryReq_retrains, ?ping, ?within, ?exceeded, ?modeReq, ?modeAck⟩
  case credit =>
    intro s n w hn credit run val up fits
    obtain ⟨here, others, frame⟩ := (State.onlyPort.refl s n).updPort hn fun p =>
      p.credited ((s.port n).creditSum w) (creditTold w)
    refine ⟨_, exec_credit hn credit run fits, frame, others, fun vc hv => ?_⟩
    rw [here]
    exact PortS.credited_vc _ up val hv
  case fack =>
    intro s n w a b f hn rc runs named held first unawaited idle
    exact exec_fack hn rc runs named held first unawaited idle
  case replays =>
    intro s n w hn rc runs held idle first
    obtain ⟨here, others, frame⟩ := (((State.onlyPort.refl s n).updPort hn _).cntPort hn 8 1).updPort hn _
    refine ⟨_, exec_retryReq_replays hn rc runs held idle first, ?_, ?_, others, frame⟩ <;> rw [here]
  case ping =>
    intro s n w hn least most
    exact ⟨_, exec_loopPing hn least most, (State.onlyPort.refl s n).sendWord hn _⟩
  case within =>
    intro s n w e hn least most pinged near
    refine ⟨_, exec_loopEcho_within hn least most pinged near, State.onlyPort_upd hn ?_⟩
    have small : s.clockNs - e.2 - fld w 47 32 ≤ 65535 := near.trans (by split <;> omega)
    rw [PortS.echoed, Nat.min_eq_right small]
  case exceeded =>
    intro s n w e hn up pinged far
    refine ⟨_, exec_loopEcho_over hn up pinged far, ((SameService.refl n _).chooseUpstream.linkReply n).state.trans ?_⟩
    rw [State.port_updPort_same hn]
  case modeReq =>
    intro s n w hn rc asked up credit
    obtain ⟨_, here, others, frame⟩ := (((State.onlyPort.refl s n).updPort hn _).sendWord hn modeAckWord).updStop hn
    refine ⟨_, exec_modeReq hn rc asked up credit, ?_, ?_, ?_, others, frame⟩ <;> rw [here]
  case modeAck =>
    intro s n w hn rc told changes
    obtain ⟨_, here, others, frame⟩ := ((State.onlyPort_modeAnswered (s := s) hn).updPort hn _).updStop hn
    refine ⟨_, exec_modeAck hn rc told changes, ?_, ?_, ?_, others, frame⟩ <;> rw [here]

end Sys2Proof.Machine
end

section
/-!
PROOFS of `Obligations.LinkTimersAct` (O24): the links' timers.
-/

namespace Sys2Proof.Machine

variable {s : State} {n : Nat}

/-! ### The change of mode (R188) -/

/-- CREDIT_LOSS_TIMER at an end in credit mode asks for the change. -/
theorem exec_creditLossTimer (rc : s.rowCol n = true) (credit : (s.port n).onoff ≠ some true) (up : (s.port n).state = 3) :
    exec (.creditLossTimer n) s = .next (((s.updPort n fun p => { p with state := 4, reqMode := true }).sendWord n
      (pack 64 [(63, 56, 8), (0, 0, 1)])).updStop n) := by
  simp only [exec, execCreditLossTimer, State.startModeChange, rc, up, bne_iff_ne.mpr credit, beq_self_eq_true, Bool.and_self, if_true]

/-- MODE_REQ_REPEAT sends again the word that is unanswered. -/
theorem exec_modeReqRepeat (changes : (s.port n).state = 4) : exec (.modeReqRepeat n) s =
    .next (s.sendWord n (pack 64 [(63, 56, if (s.port n).sentMode then 9 else 8), (0, 0, 1)])) := by
  simp only [exec, execModeReqRepeat, changes, beq_self_eq_true, if_true]

theorem exec_modeChangeTimeout (changes : (s.port n).state = 4) : exec (.modeChangeTimeout n) s = .next (s.retrain181 n) := by
  simp only [exec, execModeChangeTimeout, changes, beq_self_eq_true, if_true]

/-! ### Words that are owed (R178, R180) -/

theorem exec_fackTimer (rc : s.rowCol n = true) (owed : (s.port n).unacked ≠ 0) :
    exec (.fackTimer n) s = .next (s.updPort n fun p => { p with unacked := 0, words := p.words ++ [p.fackWord] }) := by
  simp only [exec, execFackTimer, rc, bne_iff_ne.mpr owed, Bool.and_self, if_true]

theorem exec_creditTimer (credit : s.creditMode n = true) (up : (s.port n).state = 3) :
    exec (.creditTimer n) s = .next (s.updPort n fun p => { p with freedNew := [], words := p.words ++ [p.creditWord] }) := by
  simp only [exec, execCreditTimer, credit, up, beq_self_eq_true, Bool.and_self, if_true]

theorem exec_retryReqTimer (rc : s.rowCol n = true) (awaited : (s.port n).discarding = true)
    (runs : (s.port n).state = 3 ∨ (s.port n).state = 4) :
    exec (.retryReqTimer n) s = .next (s.sendWord n (s.port n).retryWord) := by
  have running : ((s.port n).state == 3 || (s.port n).state == 4) = true := by simpa using runs
  simp only [exec, execRetryReqTimer, rc, awaited, running, Bool.and_self, if_true]

/-! ### Retraining (R181) -/

theorem exec_fackStall (rc : s.rowCol n = true) (unacked : (s.port n).replay ≠ []) :
    exec (.fackStall n) s = .next (s.retrain181 n) := by
  simp only [exec, execFackStall, rc, List.isEmpty_eq_false_iff.mpr unacked, Bool.not_false, Bool.and_self, if_true]

/-- A port that runs or changes its mode, and retrains, is in RETRAIN at step 2 (R227). -/
theorem State.port_retrain (hn : n < 32) (runs : (s.port n).state = 3 ∨ (s.port n).state = 4) :
    ((s.retrain n).port n).state = 7 ∧ ((s.retrain n).port n).step = 2 := by
  have goes : ((s.port n).state == 3 || (s.port n).state == 4 || (s.port n).state == 5) = true := by
    rcases runs with up | changes <;> simp [*]
  have kept := (SameService.refl n (((s.cntPort n 15 1).dropPartial n).updPort n fun p => { p.stopped with
    state := 7, step := 2, cold := false, replayFrom := none })).chooseUpstream.service
  rw [State.port_updPort_same hn] at kept
  simp only [PortS.service, PortS.mk.injEq] at kept
  simp only [State.retrain, goes, if_true, kept, and_self]

/-- A running port that is not looped retrains, its record posted (R181, R528). -/
theorem State.port_retrain181 (hn : n < 32) (free : s.looped n = false) (runs : (s.port n).state = 3 ∨ (s.port n).state = 4) :
    ((s.retrain181 n).port n).state = 7 ∧ ((s.retrain181 n).port n).step = 2 := by
  have counts : (s.looped n || !(s.port n).state.toNat.beq 3 && !(s.port n).state.toNat.beq 4) = false := by
    rcases runs with up | changes <;> simp [*]
  have posted := ((SameService.refl n s).linkRec n 2).state
  simp only [State.retrain181, counts, Bool.false_eq_true, if_false]
  exact State.port_retrain hn (by rwa [posted])

/-! ### The loop time (R185) -/

theorem exec_loopMeasureTimer (hn : n < 32) (least : 3 ≤ (s.port n).state.toNat) (most : (s.port n).state.toNat ≤ 5) :
    exec (.loopMeasureTimer n) s = .next (s.sendPings n) := by
  simp only [exec, execLoopMeasureTimer, State.looping_passes hn least most, Bool.false_eq_true, if_false]

/-- A measurement sends eight pings, none of them echoed yet. -/
theorem State.onlyPort_sendPings (hn : n < 32) : ∃ p, s.onlyPort (s.sendPings n) n p ∧ p.pings.length = 8 ∧ p.echoes = 0 ∧
    p.words.length = (s.port n).words.length + 8 :=
  ⟨_, State.onlyPort_upd hn rfl, by simp, rfl, by simp⟩

/-! ### Tape marks (R190) -/

/-- A port takes a mark: it is UP, its neighbour expected or not yet known, and it is not looped. -/
def PortS.takesMark (p : PortS) (looped : Bool) : Bool := p.state == 3 && (p.check == 1 || p.check == 2) && !looped

/-- One port's mark, ahead of the words that wait. -/
def State.markSent (ws : List (BitVec 64)) (n : Nat) (t : State) : State :=
  if (t.port n).takesMark (t.looped n) then t.updPort n fun p => { p with words := ws ++ p.words } else t

theorem exec_tapeMarkSend (runs : s.tape.running = true) :
    exec .tapeMarkSend s = .next (s.each (List.range 32) (State.markSent s.markWords)) := by
  simp only [exec, execTapeMarkSend, runs, Bool.not_true, Bool.false_eq_true, if_false]
  rfl

theorem State.markSent_frame (ws : List (BitVec 64)) (n : Nat) {t : State} (same : { t with ports := s.ports } = s) :
    { t.markSent ws n with ports := s.ports } = s := by
  unfold State.markSent State.updPort
  split
  · split <;> exact same
  · exact same

theorem State.looped_updPort (s : State) (m n : Nat) (f : PortS → PortS) : (s.updPort m f).looped n = s.looped n := by
  simp only [State.looped, State.updPort_lbPrior]

/-- Of the ports, sending a mark on one changes that one alone, and none becomes looped. -/
theorem State.markSent_view (ws : List (BitVec 64)) (n m : Nat) (t : State) : (t.markSent ws n).looped m = t.looped m ∧
    (t.markSent ws n).port m =
      if m = n ∧ n < 32 ∧ (t.port n).takesMark (t.looped n) = true then { t.port n with words := ws ++ (t.port n).words } else t.port m := by
  unfold State.markSent
  split
  next takes => simp only [State.looped_updPort, State.port_updPort, takes, and_true]
  next passes => simp only [passes, Bool.false_eq_true, and_false, if_false, and_self]

/-- Marks sent on every port reach each that takes one, once. -/
theorem State.port_marksSent (ws : List (BitVec 64)) (hn : n < 32) (s : State) :
    (s.each (List.range 32) (State.markSent ws)).port n =
      if (s.port n).takesMark (s.looped n) then { s.port n with words := ws ++ (s.port n).words } else s.port n := by
  have marked := State.each_once (f := State.markSent ws) (view := fun t m => (t.port m, t.looped m))
    (change := fun m x => (if m < 32 ∧ x.1.takesMark x.2 = true then { x.1 with words := ws ++ x.1.words } else x.1, x.2))
    (fun m t => Prod.ext ((State.markSent_view ws m m t).2.trans (by simp only [true_and])) (State.markSent_view ws m m t).1)
    (fun m j t other => Prod.ext ((State.markSent_view ws m j t).2.trans (if_neg fun h => other h.1)) (State.markSent_view ws m j t).1)
    List.nodup_range (List.mem_range.mpr hn) s
  simpa only [hn, true_and] using congrArg Prod.fst marked

/-- Settles O24: the branch that each timer takes, and what that changes of its port. -/
theorem linkTimersAct : Obligations.LinkTimersAct := by
  unfold Obligations.LinkTimersAct
  refine ⟨?creditLoss, ?modeChange, ?fack, ?credit, ?retry, fun s n => exec_fackStall, ?retrain, ?pings, ?marks⟩
  case creditLoss =>
    intro s n hn rc credit up
    obtain ⟨_, here, others, frame⟩ := (((State.onlyPort.refl s n).updPort hn _).sendWord hn _).updStop hn
    refine ⟨_, exec_creditLossTimer rc credit up, ?_, ?_, ?_, others, frame⟩ <;> rw [here]
  case modeChange =>
    intro s n hn changes
    exact ⟨⟨_, exec_modeReqRepeat changes, (State.onlyPort.refl s n).sendWord hn _⟩, exec_modeChangeTimeout changes⟩
  case fack =>
    intro s n hn rc owed
    exact ⟨_, exec_fackTimer rc owed, State.onlyPort_upd hn rfl⟩
  case credit =>
    intro s n hn credit up
    exact ⟨_, exec_creditTimer credit up, State.onlyPort_upd hn rfl⟩
  case retry =>
    intro s n hn rc awaited runs
    exact ⟨_, exec_retryReqTimer rc awaited runs, (State.onlyPort.refl s n).sendWord hn _⟩
  case retrain =>
    intro s n free runs hn
    exact ⟨_, rfl, State.port_retrain181 hn free runs⟩
  case pings =>
    intro s n hn least most
    obtain ⟨_, ⟨rfl, others, frame⟩, pings, echoes, words⟩ := State.onlyPort_sendPings (s := s) hn
    exact ⟨_, exec_loopMeasureTimer hn least most, pings, echoes, words, others, frame⟩
  case marks =>
    intro s runs
    refine ⟨_, exec_tapeMarkSend runs, ?_, fun n hn => State.port_marksSent _ hn s⟩
    exact State.each_keeps (P := fun t => { t with ports := s.ports } = s) (fun n _ _ same => State.markSent_frame _ n same) rfl

end Sys2Proof.Machine
end

section
/-!
PROOFS of `Obligations.LinkLaserAndClockCommandsReply` (O7): the commands of ports, laser modules and needle clocks.
-/

namespace Sys2Proof.Machine

variable {s : State} {h : Issue} {n k : Nat}

/-! ### LINK_SET (R194) -/

/-- DISABLE of a port in service takes it out. -/
theorem exec_linkSet_disable (ok : s.admits h 0x0500 [n, 1] = true) (hn : n < 32) (idle : (s.port n).linkCmd = none)
    (enabled : (s.port n).state ≠ 6) :
    exec (.linkSet h n 1) s = .next ((s.portOut n 6).answer h 0x0500 (Ans.ok (s.portOut n 6)) true) := by
  refine congrArg _ (vuino_ok ok ?_)
  simp only [Nat.not_le.mpr hn, idle, beq_eq_false_iff_ne.mpr enabled, Nat.one_ne_zero, decide_false, Bool.false_or,
    Option.isSome_none, Bool.false_eq_true, if_false, if_true]
  rfl

/-- Either form of RETRAIN, of a port there is, passes LINK_SET's checks and is neither ENABLE nor DISABLE. -/
theorem linkSet_retrain_passes {a : Nat} (hn : n < 32) (retrains : a = 2 ∨ a = 3) :
    (decide (32 ≤ n) || decide (3 < a)) = false ∧ a ≠ 0 ∧ a ≠ 1 := by
  simp only [Bool.or_eq_false_iff, decide_eq_false_iff_not]
  omega

/-- RETRAIN of a port that is DOWN or DISABLED changes nothing. -/
theorem exec_linkSet_outOfService {a : Nat} (ok : s.admits h 0x0500 [n, a] = true) (hn : n < 32) (retrains : a = 2 ∨ a = 3)
    (idle : (s.port n).linkCmd = none) (out : (s.port n).state = 0 ∨ (s.port n).state = 6) :
    exec (.linkSet h n a) s = .next (s.answer h 0x0500 (Ans.ok s) true) := by
  obtain ⟨passes, notEnable, notDisable⟩ := linkSet_retrain_passes hn retrains
  have stays : ((s.port n).state == 0 || (s.port n).state == 6) = true := by simpa using out
  refine congrArg _ (vuino_ok ok ?_)
  simp only [passes, notEnable, notDisable, idle, stays, Option.isSome_none, Bool.false_eq_true, if_false, if_true]

/-- The port retrains to the mode asked for, and keeps the command. -/
def State.retrainAsked (s : State) (h : Issue) (n a : Nat) : State :=
  (s.retrain n).updPort n fun p => { p with
    wantOnOff := decide (a = 3) && s.rowCol n, linkCmd := some (h, BitVec.ofNat 4 a) }

/-- RETRAIN of any other port begins, and the reply waits for the link. -/
theorem exec_linkSet_retrain {a : Nat} (ok : s.admits h 0x0500 [n, a] = true) (hn : n < 32) (retrains : a = 2 ∨ a = 3)
    (idle : (s.port n).linkCmd = none) (up : (s.port n).state ≠ 0) (enabled : (s.port n).state ≠ 6) :
    exec (.linkSet h n a) s = .next ((s.retrainAsked h n a).owe h) := by
  obtain ⟨passes, notEnable, notDisable⟩ := linkSet_retrain_passes hn retrains
  refine congrArg _ (vuino_owes (a := Ans.wait (s.retrainAsked h n a)) ok ?_ rfl (by decide))
  simp only [passes, notEnable, notDisable, idle, beq_eq_false_iff_ne.mpr up, beq_eq_false_iff_ne.mpr enabled, Bool.or_self,
    Option.isSome_none, Bool.false_eq_true, if_false]
  rfl

/-! ### Laser modules (R231, R236) -/

/-- The module's ports leave the candidate sets, its loop-backs over. -/
def State.elsHeld (s : State) (k : Nat) : State :=
  (s.elsLoopsEnd k).each (elsPorts k) fun n t => t.updPort n fun p => { p with els := true }

/-- ELS_RELEASE of a module whose ports have drained: they are disabled, and it is dark. -/
theorem exec_elsRelease_drained (ok : s.admits h 0x0530 [k] = true) (hk : k < 4) (there : (s.elsm k).st ≠ 0)
    (held : (s.elsm k).st ≠ 3) (idle : (s.elsm k).cmd = none) (drained : (s.elsHeld k).elsDrained k = true) :
    let t := ((s.elsHeld k).elsPortsOut k 6).updEls k fun e => { e with st := 3, lit := 0, starting := [] }
    exec (.elsRelease h k) s = .next (t.answer h 0x0530 (Ans.ok t) true) := by
  refine congrArg _ (vuino_ok ok ?_)
  unfold State.elsHeld at drained
  simp only [Nat.not_lt.mpr (Nat.le_of_lt_succ hk), beq_eq_false_iff_ne.mpr there, beq_eq_false_iff_ne.mpr held, idle, drained,
    decide_false, Bool.or_self, Option.isSome_none, Bool.false_eq_true, if_false, if_true]
  rfl

/-- ELS_RELEASE of a module whose ports still hold packets keeps its final reply. -/
theorem exec_elsRelease_waits (ok : s.admits h 0x0530 [k] = true) (hk : k < 4) (there : (s.elsm k).st ≠ 0)
    (held : (s.elsm k).st ≠ 3) (idle : (s.elsm k).cmd = none) (room : (s.part h.part).running.length < 8)
    (full : (s.elsHeld k).elsDrained k = false) :
    let t := (s.elsHeld k).updEls k fun e => { e with cmd := some h }
    exec (.elsRelease h k) s = .next ((t.longStart h 0x0530).answer h 0x0530 { Ans.wait t with status := 21 } false) := by
  intro t
  refine congrArg _ (vuino_begins ok (a := Ans.wait t) ?_ rfl (by decide) room)
  unfold State.elsHeld at full
  simp only [Nat.not_lt.mpr (Nat.le_of_lt_succ hk), beq_eq_false_iff_ne.mpr there, beq_eq_false_iff_ne.mpr held, idle, full,
    decide_false, Bool.or_self, Option.isSome_none, Bool.false_eq_true, if_false]
  rfl

/-- ELS_START of a module that is released or failed starts it, and keeps its final reply. -/
theorem exec_elsStart (ok : s.admits h 0x0531 [k] = true) (hk : k < 4) (dark : (s.elsm k).st = 3 ∨ (s.elsm k).st = 5)
    (idle : (s.elsm k).cmd = none) (room : (s.part h.part).running.length < 8) :
    let t := s.updEls k fun e => { e with st := 1, cmd := some h }
    exec (.elsStart h k) s = .next ((t.longStart h 0x0531).answer h 0x0531 { Ans.wait t with status := 21 } false) := by
  have may : ((s.elsm k).st == 3 || (s.elsm k).st == 5) = true := by simpa using dark
  intro t
  refine congrArg _ (vuino_begins ok (a := Ans.wait t) ?_ rfl (by decide) room)
  simp only [Nat.not_lt.mpr (Nat.le_of_lt_succ hk), may, idle, decide_false, Bool.not_true, Bool.or_self, Option.isSome_none,
    Bool.false_eq_true, if_false]
  rfl

theorem exec_optQuery {kind : Nat} {o : Outside} (ok : s.admits h 0x0532 [kind, k] = true)
    (known : kind = 0 ∧ k < 32 ∨ kind = 1 ∧ k < 4) : exec (.optQuery h kind k o) s =
      .next (s.answer h 0x0532 (Ans.ok s [listItem (o.telem.map fun v => [sc 8 (v % 2 ^ 64)])]) true) := by
  refine congrArg _ (vuino_ok ok (if_neg ?_))
  simp only [Bool.or_eq_true, Bool.and_eq_true, decide_eq_true_eq]
  omega

/-! ### Needle clocks (R264, R265) -/

/-- A die reads as changed, where it exists and is the one changed, and as before otherwise. -/
theorem State.die_updDie (s : State) (d e : Nat) (f : DieS → DieS) :
    (s.updDie d f).die e = if e = d ∧ d < 4 then f (s.die d) else s.die e := by
  unfold State.updDie State.die
  by_cases hd : d < 4
  · simp only [hd, if_true, and_true, AMap.get_upd]
  · simp only [hd, if_false, and_false]

/-- The dies that NDIE_CLK_SET names: one, or all. -/
def diesNamed (die : Nat) : Nats := if die = 15 then [0, 1, 2, 3] else [die]

theorem diesNamed_nodup (die : Nat) : (diesNamed die).Nodup := by
  unfold diesNamed
  split <;> simp

theorem mem_diesNamed {die d : Nat} (hd : d < 4) : d ∈ diesNamed die ↔ d = die ∨ die = 15 := by
  unfold diesNamed
  split
  next all => simp only [all, List.mem_cons, List.not_mem_nil, or_false, or_true, iff_true]; omega
  next one => simp only [one, List.mem_singleton, or_false]

/-- A die with new bounds: its clock stands at the upper one while nothing holds it below. -/
def DieS.bounded (lo hi : Nat) (x : DieS) : DieS := { x with
  minM := lo, maxM := hi, cur := if x.cur = 0 then 0 else if x.limit = 0 then hi else min x.cur hi }

/-- NDIE_CLK_SET of bounds in range sets them for each die it names. -/
theorem exec_ndieClkSet {die lo hi : Nat} (ok : s.admits h 0x0600 [die, lo, hi] = true) (known : die < 4 ∨ die = 15)
    (loStep : lo % 100 = 0) (hiStep : hi % 100 = 0) (least : 1200 ≤ lo) (ordered : lo ≤ hi) (most : hi ≤ 4000) :
    let t := s.each (diesNamed die) fun d t => t.updDie d (DieS.bounded lo hi)
    exec (.ndieClkSet h die lo hi) s = .next (t.answer h 0x0600 (Ans.ok t) true) := by
  refine congrArg _ (vuino_ok ok ((if_neg ?_).trans rfl))
  simp only [Bool.or_eq_true, Bool.not_eq_true', Bool.or_eq_false_iff, decide_eq_true_eq, decide_eq_false_iff_not, bne_iff_ne,
    beq_eq_false_iff_ne]
  omega

/-- Bounds set for some dies change those that exist, once. -/
theorem State.die_each_bounded {ds : Nats} (lo hi : Nat) (once : ds.Nodup) (s : State) (d : Nat) :
    (s.each ds fun d t => t.updDie d (DieS.bounded lo hi)).die d = if d ∈ ds ∧ d < 4 then (s.die d).bounded lo hi else s.die d := by
  by_cases named : d ∈ ds
  · have set := State.each_once (f := fun d t => t.updDie d (DieS.bounded lo hi)) (view := State.die)
      (change := fun d x => if d < 4 then x.bounded lo hi else x)
      (fun d t => (State.die_updDie t d d _).trans (by simp only [true_and]))
      (fun d e t other => (State.die_updDie t d e _).trans (if_neg fun h => other h.1)) once named s
    simpa only [named, true_and] using set
  · rw [if_neg fun h => named h.1]
    exact State.each_keeps (P := fun t => t.die d = s.die d) (fun e he t kept =>
      (State.die_updDie t e d _).trans ((if_neg fun own : d = e ∧ e < 4 => named (own.1 ▸ he)).trans kept)) rfl

theorem State.updDie_frame {t : State} (d : Nat) (f : DieS → DieS) (same : { t with dies := s.dies } = s) :
    { t.updDie d f with dies := s.dies } = s := by
  unfold State.updDie
  split <;> exact same

/-- Settles O7: each command's checks pass, so that its branch is the one that sets or answers what it names. -/
theorem linkLaserAndClockCommandsReply : Obligations.LinkLaserAndClockCommandsReply := by
  unfold Obligations.LinkLaserAndClockCommandsReply
  refine ⟨?disable, fun s h n a => exec_linkSet_outOfService, ?retrain, ?release, fun s h k => exec_elsStart,
    fun s h kind k o => exec_optQuery, ?clocks⟩
  case disable =>
    intro s h n ok hn idle enabled
    obtain ⟨state, _⟩ := State.port_portOut (s := s) hn 6
    exact ⟨exec_linkSet_disable ok hn idle enabled, state⟩
  case retrain =>
    intro s h n a ok hn retrains idle up enabled
    exact ⟨_, exec_linkSet_retrain ok hn retrains idle up enabled, by rw [State.retrainAsked, State.port_updPort_same hn]⟩
  case release =>
    intro s h k ok hk there held idle room
    refine ⟨fun drained => ⟨_, exec_elsRelease_drained ok hk there held idle drained, ?_⟩,
      fun full => exec_elsRelease_waits ok hk there held idle room full⟩
    rw [State.elsm_updEls_same hk]
    exact ⟨rfl, rfl⟩
  case clocks =>
    intro s h die lo hi ok known loStep hiStep least ordered most
    refine ⟨_, exec_ndieClkSet ok known loStep hiStep least ordered most, ?_, fun d => ?_⟩
    · exact State.each_keeps (P := fun t => { t with dies := s.dies } = s) (fun d _ _ same => State.updDie_frame d _ same) rfl
    · rw [State.die_each_bounded lo hi (diesNamed_nodup die)]
      split
      next set => rw [if_pos ⟨(mem_diesNamed set.2).mpr set.1, set.2⟩]; exact ⟨rfl, rfl⟩
      next kept => exact if_neg fun h => kept ⟨(mem_diesNamed h.2).mp h.1, h.2⟩

end Sys2Proof.Machine
end

section
/-!
PROOFS of `Obligations.RoutingCommandsReply` (O6): which checks routing banks and multicast groups pass, and what is then set or answered.
-/

namespace Sys2Proof.Machine

variable {s : State} {h : Issue} {bank : Nat}

/-! ### Which bank a command may change (R209), and which entries it may name (R216) -/

/-- The idle bank may be changed once 200 µs have passed since the last flip. -/
theorem State.bankGuard_idle (idle : decide (bank = 1) ≠ s.route.inj) (settled : 200 ≤ s.sinceFlip) : s.bankGuard bank = 0 := by
  unfold State.bankGuard
  rw [if_neg (by simpa using idle), if_neg (Nat.not_lt.mpr settled)]

theorem rtRange_of_bounds {kind first count : Nat} (hb : bank ≤ 1) (hk : kind ≤ 2) (least : 1 ≤ count) (few : count ≤ 32)
    (fits : first + count ≤ rtSize kind) : rtRange bank kind first count = true := by
  simp only [rtRange, hb, hk, least, few, fits, and_self, decide_true, Bool.and_self]

/-! ### Routing banks (R202, R207, R209, R216) -/

/-- A bank after RT_WRITE: WRITING, with the named entries over those it held, or over none where it was EMPTY. -/
def BankS.written (base : Nat) (es : Nats) (b : BankS) : BankS where
  st := 1
  ents := ((List.range' base es.length).zip es).foldl (fun m e => AMap.set m e.1 (BitVec.ofNat 64 e.2)) (if b.st == 0 then [] else b.ents)

/-- RT_WRITE of a bank that may be changed, of entries in range. -/
theorem exec_rtWrite {kind first : Nat} {es : Nats} (ok : s.admits h 0x0510 [bank, kind, first, es.length] = true)
    (inRange : rtRange bank kind first es.length = true) (free : s.bankGuard bank = 0) :
    let t := s.updBank bank (BankS.written (rtBase kind + first) es)
    exec (.rtWrite h bank kind first es.length es) s = .next (t.answer h 0x0510 (Ans.ok t) true) := by
  refine congrArg _ (vuino_ok ok ?_)
  simp only [inRange, free, Bool.not_true, bne_self_eq_false, Bool.false_eq_true, if_false]
  rfl

/-- RT_STITCH of a WRITING bank whose entries all pass. -/
theorem exec_rtStitch (ok : s.admits h 0x0511 [bank] = true) (hb : bank ≤ 1) (named : s.devidValid = true)
    (writing : (s.route.bank (bank == 1)).st = 1) (sound : s.bankFault (s.route.bank (bank == 1)) = none) :
    let t := s.updBank bank fun b => { b with st := 2 }
    exec (.rtStitch h bank) s = .next (t.answer h 0x0511 (Ans.ok t) true) := by
  refine congrArg _ (vuino_ok ok ?_)
  simp only [Nat.not_lt.mpr hb, named, writing, sound, Bool.not_true, bne_self_eq_false, Bool.false_eq_true, if_false]

/-- RT_CLEAR of a bank that may be changed. -/
theorem exec_rtClear (ok : s.admits h 0x0512 [bank] = true) (hb : bank ≤ 1) (free : s.bankGuard bank = 0) :
    let t := s.updBank bank fun _ => {}
    exec (.rtClear h bank) s = .next (t.answer h 0x0512 (Ans.ok t) true) := by
  refine congrArg _ (vuino_ok ok ?_)
  simp only [Nat.not_lt.mpr hb, free, if_false]

/-- RT_FLIP to the other bank, where that is not WRITING. -/
theorem exec_rtFlip (ok : s.admits h 0x0513 [bank] = true) (hb : bank ≤ 1) (whole : (s.route.bank (bank == 1)).st ≠ 1)
    (other : decide (bank = 1) ≠ s.route.inj) :
    let t := s.updRoute fun r => { r with inj := decide (bank = 1), flipAt := some s.clockNs }
    exec (.rtFlip h bank) s = .next (t.answer h 0x0513 (Ans.ok t) true) := by
  refine congrArg _ (vuino_ok ok ?_)
  simp only [Nat.not_lt.mpr hb, beq_eq_false_iff_ne.mpr whole, beq_eq_false_iff_ne.mpr other, Bool.false_eq_true, if_false]

/-- RT_QUERY of entries in range. -/
theorem exec_rtQuery {kind first count : Nat} (ok : s.admits h 0x0514 [bank, kind, first, count] = true)
    (inRange : rtRange bank kind first count = true) :
    let b := s.route.bank (bank == 1)
    exec (.rtQuery h bank kind first count) s = .next (s.answer h 0x0514
      (Ans.ok s [sc 1 b.st.toNat, listItem ((List.range' (rtBase kind + first) count).map
        fun i => [blkItem 8 (AMap.get b.ents i 0).toNat])]) true) := by
  refine congrArg _ (vuino_ok ok ?_)
  simp only [inRange, Bool.not_true, Bool.false_eq_true, if_false]

/-! ### Multicast groups (R211) -/

/-- MCAST_SET of an adapter's group, of an entry whose reserved bits are 0. -/
theorem exec_mcastSet {group : Nat} {e : BitVec 64} (ok : s.admits h 0x0520 [group, e.toNat] = true) (adapter : s.spine = false)
    (hg : group < 4096) (reserved : fld e 15 0 = 0) :
    let t := s.updRoute fun r => { r with mcast := if e = 0 then AMap.erase r.mcast group else AMap.set r.mcast group e }
    exec (.mcastSet h group e) s = .next (t.answer h 0x0520 (Ans.ok t) true) := by
  refine congrArg _ (vuino_ok ok ?_)
  simp only [adapter, Nat.not_lt.mpr (Nat.le_of_lt_succ hg), zeroFld, reserved, beq_self_eq_true, Bool.not_true, Bool.false_eq_true,
    if_false]

/-- MCAST_QUERY of an adapter's group. -/
theorem exec_mcastQuery {group : Nat} (ok : s.admits h 0x0521 [group] = true) (adapter : s.spine = false) (hg : group < 4096) :
    exec (.mcastQuery h group) s =
      .next (s.answer h 0x0521 (Ans.ok s [blkItem 8 (AMap.get s.route.mcast group 0).toNat]) true) := by
  refine congrArg _ (vuino_ok ok ?_)
  simp only [adapter, Nat.not_lt.mpr (Nat.le_of_lt_succ hg), decide_false, Bool.or_self, Bool.false_eq_true, if_false]

/-- Settles O6: each command's checks pass, so that its branch is the one that sets or answers what it names. -/
theorem routingCommandsReply : Obligations.RoutingCommandsReply := by
  unfold Obligations.RoutingCommandsReply
  refine ⟨?write, fun s h bank => exec_rtStitch, ?clear, fun s h bank => exec_rtFlip, ?query, fun s h group e => exec_mcastSet,
    fun s h group => exec_mcastQuery⟩
  case write =>
    intro s h bank kind first count es ok hb hk least few fits whole idle settled
    subst whole
    exact exec_rtWrite ok (rtRange_of_bounds hb hk least few fits) (State.bankGuard_idle idle settled)
  case clear =>
    intro s h bank ok hb idle settled
    exact exec_rtClear ok hb (State.bankGuard_idle idle settled)
  case query =>
    intro s h bank kind first count ok hb hk least few fits
    exact exec_rtQuery ok (rtRange_of_bounds hb hk least few fits)

end Sys2Proof.Machine
end

section
/-!
PROOFS of `Obligations.PowerActs` (O48): waking, the power states, the power cap and the temperature limits.
-/

namespace Sys2Proof.Machine

variable {s : State}

/-! ### Waking, and IDLE (R475, R495) -/

/-- WAKE_N held low long enough wakes DORMANT. -/
theorem exec_wakeN_dormant {ns : Nat} (powered : s.pins.powered = true) (long : 1000 ≤ ns) (dormant : s.rst.dormant = true) :
    exec (.wakeN ns) s = .next (s.coldTrigger 7) := by
  simp only [exec, execWakeN, Nat.not_lt.mpr long, powered, dormant, decide_false, Bool.not_true, Bool.or_self, Bool.false_eq_true,
    if_false, if_true]

/-- WAKE_N held low long enough begins to leave SLUMBER, with no command to reply to. -/
theorem exec_wakeN_slumber {ns : Nat} (powered : s.pins.powered = true) (long : 1000 ≤ ns) (up : s.rst.dormant = false)
    (asleep : s.power.state = 2) : exec (.wakeN ns) s = .next (s.wakeBegin none) := by
  simp only [exec, execWakeN, Nat.not_lt.mpr long, powered, up, asleep, decide_false, Bool.not_true, Bool.or_self, beq_self_eq_true,
    Bool.false_eq_true, if_false, if_true]

/-- A good frame that matches a wake pattern wakes DORMANT. -/
theorem exec_wakeFrame_hits {bs : Bytes} (dormant : s.rst.dormant = true) (hit : s.mgmt.wakes.any (fun w => w.2.hits bs) = true) :
    exec (.wakeFrame bs true) s = .next (s.coldTrigger 7) := by
  simp only [exec, execWakeFrame, dormant, hit, Bool.and_self, if_true]

/-- With every queue empty and nothing at work, IDLE is entered. -/
theorem exec_idleEntry (released : s.rst.stage = 6) (running : s.power.state = 0) (noRun : s.runs = []) (noXfer : s.xfers = [])
    (noLaunch : s.launches = []) (noWork : ∀ e ∈ s.queues, e.2.work = []) :
    exec .idleEntry s = .next (s.updPower fun p => { p with state := 1 }) := by
  have drained : s.queues.all (fun e => e.2.work.isEmpty) = true :=
    List.all_eq_true.mpr fun e he => List.isEmpty_iff.mpr (noWork e he)
  simp only [exec, execIdleEntry, released, running, noRun, noXfer, noLaunch, drained, List.isEmpty_nil, beq_self_eq_true,
    Bool.and_self, if_true]

/-! ### Power states (R231, R496) -/

/-- The 1 ms wait ends for the modules' releases, and for a sleep in progress too. -/
theorem exec_queueDrainLimit (s : State) (ports : Nats) : exec (.queueDrainLimit ports) s =
    .next (if s.power.state = 3 ∧ s.power.target ≠ some 0 then (s.elsDrainLimit ports).sleepPorts ports
      else s.elsDrainLimit ports) := by
  simp only [exec, execQueueDrainLimit, State.onIf, Bool.and_eq_true, beq_iff_eq, bne_iff_ne]

theorem exec_powerTransitionEnd_dormant (moving : s.power.state = 3) (target : s.power.target = some 3) :
    exec .powerTransitionEnd s = .next s.goDormant := by
  simp only [exec, execPowerTransitionEnd, moving, target]
  rfl

/-- The power manager heads nowhere any more, and no command waits for it. -/
def State.transitionOver (s : State) : State := s.updPower fun p => { p with target := none, issue := none }

section
variable (moving : s.power.state = 3) (unasked : s.power.issue = none)
include moving unasked

theorem exec_powerTransitionEnd_slumber (target : s.power.target = some 2) :
    exec .powerTransitionEnd s = .next s.transitionOver.slumber := by
  simp only [exec, execPowerTransitionEnd, moving, target, unasked]
  rfl

theorem exec_powerTransitionEnd_awake (target : s.power.target = some 0) :
    exec .powerTransitionEnd s = .next s.transitionOver.awake := by
  simp only [exec, execPowerTransitionEnd, moving, target, unasked]
  rfl

end

theorem State.power_trainCold (s : State) (n : Nat) : (s.trainCold n).power = s.power := by
  unfold State.trainCold
  split
  · exact State.updPort_power ..
  · rfl

theorem State.power_each {ks : Nats} {f : Nat → State → State} (keeps : ∀ k t, (f k t).power = t.power) (s : State) :
    (s.each ks f).power = s.power :=
  State.each_keeps (P := fun t => t.power = s.power) (fun k _ t kept => (keeps k t).trans kept) rfl

theorem State.slumber_power (s : State) : s.slumber.power.state = 2 ∧ s.slumber.power.scrubPaused = true := by
  unfold State.slumber
  rw [State.updPower_power]
  exact ⟨rfl, rfl⟩

/-- The ports that train again leave the power manager as awaking set it. -/
theorem State.awake_power (s : State) : s.awake.power.state = 0 ∧ s.awake.power.scrubPaused = false := by
  unfold State.awake
  rw [State.power_each fun n t => by split <;> simp only [State.power_trainCold, State.updPort_power], State.updPower_power]
  exact ⟨rfl, rfl⟩

/-! ### The power cap (R497) -/

/-- The power manager after a sample of at most 1,150 W that is not 20 W below the cap: `overs` samples in a row lie over the cap. -/
def PowerS.sampled (a v overs : Nat) (p : PowerS) : PowerS := { p with
  inputW := BitVec.ofNat 16 (min a 65535), inputV := BitVec.ofNat 8 v, overNs := overs, under := 0, hiNs := 0 }

/-- Samples over the cap in a row, this one with them, counted up to the tenth, at which the cap acts. -/
def State.overWith (s : State) (a : Nat) : Nat := if s.power.capW.toNat < a then min 10 (s.power.overNs + 1) else 0

section
variable {a v : Nat} (w : Nat) (alive : s.alive = true) (railed : 2 ≤ s.rst.stage.toNat) (near : s.power.capW.toNat ≤ a + 20)
  (bounded : a ≤ 1150) (hv : v ≤ 255)
include alive railed near bounded hv

/-- A sample of at most 1,150 W that is not 20 W below the cap is shown, and acts where it is the tenth over the cap. -/
theorem exec_powerSample : exec (.powerSample w a v) s =
    .next (if s.overWith a = 10 then (s.updPower (PowerS.sampled a v (s.overWith a))).powerAct
      else s.updPower (PowerS.sampled a v (s.overWith a))) := by
  have notUnder : ¬ a + 20 < s.power.capW.toNat := Nat.not_lt.mpr near
  have notHigh : ¬ 1150 < a := Nat.not_lt.mpr bounded
  have noUndo : ¬ 10 ≤ 0 := by decide
  have notHundredth : (0 == 100) = false := rfl
  simp only [exec, execPowerSample, alive, Nat.not_lt.mpr railed, notUnder, notHigh, noUndo, notHundredth, Nat.min_eq_left hv,
    State.onIf_false, decide_false, Bool.not_true, Bool.or_self, Bool.false_eq_true, if_false]
  rfl

end

/-! ### Temperature (R498) -/

/-- Every sensor read. -/
def State.sensed (s : State) (ts : Nats) : State :=
  (((s.updPower fun p => { p with hotC := BitVec.ofNat 8 (min 255 (ts.foldl max 0)) }).eachOf (List.zip (List.range 7) ts)
    fun e t => t.tempOne e.1 e.2).tempMem ts).clkView

section
variable {ts : Nats} (alive : s.alive = true) (railed : 2 ≤ s.rst.stage.toNat)
include alive railed

/-- Readings of which none is critical are taken, and nothing more. -/
theorem exec_tempSample_safe (safe : ∀ e ∈ List.zip (List.range 7) ts, tempLevel e.1 e.2 ≠ 3) :
    exec (.tempSample ts) s = .next (s.sensed ts) := by
  have noCritical : (List.zip (List.range 7) ts).find? (fun e => tempLevel e.1 e.2 == 3) = none :=
    List.find?_eq_none.mpr fun e he => by simpa using safe e he
  simp only [exec, execTempSample, alive, Nat.not_lt.mpr railed, noCritical, decide_false, Bool.not_true, Bool.or_self,
    Bool.false_eq_true, if_false]
  rfl

/-- The first critical reading is recorded, and triggers a warm reset with the cause THERMAL. -/
theorem exec_tempSample_critical {k t : Nat}
    (critical : (List.zip (List.range 7) ts).find? (fun e => tempLevel e.1 e.2 == 3) = some (k, t)) :
    exec (.tempSample ts) s = .next (((s.sensed ts).powerRec 4 t k (if (s.sensed ts).warmRefused then 5 else 4)).warmTrigger 5
      ((s.sensed ts).faults.nextSeq.toNat, 13, 4)) := by
  simp only [exec, execTempSample, alive, Nat.not_lt.mpr railed, critical, decide_false, Bool.not_true, Bool.or_self,
    Bool.false_eq_true, if_false]
  rfl

end

/-- Settles O48: each command's guards pass, so that it takes the branch named; the cap acts or not as the samples over it count. -/
theorem powerActs : Obligations.PowerActs := by
  unfold Obligations.PowerActs
  refine ⟨fun s ns powered long => ⟨exec_wakeN_dormant powered long, exec_wakeN_slumber powered long⟩, fun s bs => exec_wakeFrame_hits,
    fun s => exec_idleEntry, exec_queueDrainLimit, ?transition,
    fun s => ⟨s.slumber_power.1, s.slumber_power.2, s.awake_power.1, s.awake_power.2, rfl, rfl⟩, ?within, ?tenth, ?temperature⟩
  case transition =>
    exact fun s moving unasked => ⟨exec_powerTransitionEnd_dormant moving, exec_powerTransitionEnd_slumber moving unasked,
      exec_powerTransitionEnd_awake moving unasked⟩
  case within =>
    intro s w a v alive railed capped near bounded hv
    have noneOver : s.overWith a = 0 := if_neg (Nat.not_lt.mpr capped)
    have sampled := exec_powerSample w alive railed near bounded hv
    rw [noneOver] at sampled
    exact ⟨_, sampled, rfl, rfl⟩
  case tenth =>
    intro s w a v alive railed exceeds ninth bounded hv
    have ten : s.overWith a = 10 := (if_pos exceeds).trans (Nat.min_eq_left (Nat.succ_le_succ ninth))
    have sampled := exec_powerSample w alive railed (Nat.le_add_right_of_le exceeds.le) bounded hv
    rwa [ten] at sampled
  case temperature =>
    exact fun s ts k t alive railed => ⟨exec_tempSample_safe alive railed, exec_tempSample_critical alive railed⟩

end Sys2Proof.Machine
end

section
/-!
PROOFS of `Obligations.NeedleMemoriesAreSeparate` (O55): the data space of a needle, read and written.
-/

namespace Sys2Proof.Machine

variable {s : State} {n m a b len len' k : Nat} {bs : Bytes}

/-! ### Bytes of a memory -/

/-- Memories that agree on a range read alike there. -/
theorem Memory.rds_congr {x y : Memory} (len : Nat) {a : Nat} (same : ∀ k, a ≤ k → k < a + len → Memory.rd x k = Memory.rd y k) :
    Memory.rds x a len = Memory.rds y a len := by
  induction len generalizing a with
  | zero => rfl
  | succ len ih =>
    have rest : Memory.rds x (a + 1) len = Memory.rds y (a + 1) len := ih fun k low high => same k (by omega) (by omega)
    simp only [Memory.rds, same a (by omega) (by omega), rest]

/-- What is written outside a range does not change it. -/
theorem Memory.rds_wrs_apart (x : Memory) (apart : a + bs.length ≤ b ∨ b + len ≤ a) :
    Memory.rds (Memory.wrs x a bs) b len = Memory.rds x b len :=
  Memory.rds_congr len fun k low high => by rw [Memory.rd_wrs, if_neg (by omega)]

/-! ### Where an address of a needle's data space lies (R237, R238) -/

/-- The key of an address of needle `n`'s data space, in local memory or in the shared memory of its cluster. -/
def dataKey (n a : Nat) : Nat := if isLocal a then localKey n a else sharedKey (clusterOf n) a

theorem dataKey_of_local (loc : isLocal a = true) : dataKey n a = localKey n a := if_pos loc

theorem dataKey_of_not_local (shd : isLocal a = false) : dataKey n a = sharedKey (clusterOf n) a := if_neg (by simp [shd])

theorem localKey_of_isLocal (loc : isLocal a = true) : localKey n a = n * 2 ^ 20 + a := by
  have : a ≤ 0xFFFFF := of_decide_eq_true loc
  unfold localKey; omega

theorem sharedKey_of_isShared (shd : isShared a = true) : sharedKey k a + 0x01000000 = k * 2 ^ 22 + a := by
  have : 0x01000000 ≤ a ∧ a ≤ 0x013FFFFF := of_decide_eq_true shd
  unfold sharedKey; omega

theorem isLocal_of_isShared (shd : isShared a = true) : isLocal a = false := by
  have : 0x01000000 ≤ a ∧ a ≤ 0x013FFFFF := of_decide_eq_true shd
  exact decide_eq_false (by omega)

/-! ### A store to a needle's data space -/

/-- Bytes stored are read back. -/
theorem State.dataRead_dataWrite_same (s : State) (n a : Nat) (bs : Bytes) : (s.dataWrite n a bs).dataRead n a bs.length = bs := by
  unfold State.dataRead State.dataWrite
  split <;> exact Memory.rds_wrs ..

/-- A store is not seen at addresses of the other kind of memory, nor at keys outside its own. -/
theorem State.dataRead_dataWrite_apart
    (apart : isLocal a ≠ isLocal b ∨ dataKey n a + bs.length ≤ dataKey m b ∨ dataKey m b + len ≤ dataKey n a) :
    (s.dataWrite n a bs).dataRead m b len = s.dataRead m b len := by
  unfold State.dataRead State.dataWrite
  cases la : isLocal a <;> cases lb : isLocal b <;>
    simp only [la, lb, dataKey, ne_eq, not_true_eq_false, false_or, Bool.false_eq_true, if_false, if_true] at apart ⊢
  · exact Memory.rds_wrs_apart _ apart
  · exact Memory.rds_wrs_apart _ apart

/-- Local memory outside the range of a store is as before. -/
theorem State.localM_dataWrite (out : ¬(isLocal a = true ∧ localKey n a ≤ k ∧ k < localKey n a + bs.length)) :
    Memory.rd (s.dataWrite n a bs).localM k = Memory.rd s.localM k := by
  unfold State.dataWrite
  split
  next loc => exact (Memory.rd_wrs ..).trans (if_neg fun range => out ⟨loc, range⟩)
  next => rfl

/-- Shared memory outside the range of a store is as before. -/
theorem State.shared_dataWrite
    (out : ¬(isLocal a = false ∧ sharedKey (clusterOf n) a ≤ k ∧ k < sharedKey (clusterOf n) a + bs.length)) :
    Memory.rd (s.dataWrite n a bs).shared k = Memory.rd s.shared k := by
  unfold State.dataWrite
  split
  next => rfl
  next shd => exact (Memory.rd_wrs ..).trans (if_neg fun range => out ⟨Bool.eq_false_iff.mpr shd, range⟩)

/-- A store changes local and shared memory alone. -/
theorem State.dataWrite_frame (s : State) (n a : Nat) (bs : Bytes) :
    { s.dataWrite n a bs with localM := s.localM, shared := s.shared } = s := by
  unfold State.dataWrite
  split <;> rfl

/-- A part of the state beside local and shared memory is as before a store. -/
theorem State.dataWrite_fld {α : Type} (s : State) (n a : Nat) (bs : Bytes) (f : State → α)
    (blind : ∀ (t : State) (l h : Memory), f { t with localM := l, shared := h } = f t) : f (s.dataWrite n a bs) = f s := by
  rw [← blind (s.dataWrite n a bs) s.localM s.shared, State.dataWrite_frame]

/-- A store keeps the memories in their canonical form. -/
theorem State.memoriesOk_dataWrite (n a : Nat) (bs : Bytes) (ok : s.memoriesOk = true) : (s.dataWrite n a bs).memoriesOk = true := by
  simp only [State.memoriesOk, Bool.and_eq_true] at ok ⊢
  obtain ⟨⟨⟨dev, shd⟩, loc⟩, imem⟩ := ok
  unfold State.dataWrite
  split
  · exact ⟨⟨⟨dev, shd⟩, Memory.wf_wrs bs _ _ loc⟩, imem⟩
  · exact ⟨⟨⟨dev, Memory.wf_wrs bs _ _ shd⟩, loc⟩, imem⟩

/-! ### Two ranges of addresses -/

/-- The bytes of a range lie within local memory, or within shared memory. -/
def WithinSpace (a len : Nat) : Prop :=
  (isLocal a = true ∧ isLocal (a + len - 1) = true) ∨ (isShared a = true ∧ isShared (a + len - 1) = true)

/-- Ranges of two needles, of two clusters or of two parts of one space have no key in common. -/
theorem dataKeys_apart (wa : WithinSpace a len) (wb : WithinSpace b len') (pos : 0 < len) (pos' : 0 < len')
    (other : (isLocal a = true ∧ isLocal b = true ∧ n ≠ m) ∨ isLocal a ≠ isLocal b ∨
      (isLocal a = false ∧ isLocal b = false ∧ clusterOf n ≠ clusterOf m) ∨ (a + len ≤ b ∨ b + len' ≤ a)) :
    isLocal a ≠ isLocal b ∨ dataKey n a + len ≤ dataKey m b ∨ dataKey m b + len' ≤ dataKey n a := by
  rcases wa with ⟨la, la'⟩ | ⟨sa, sa'⟩ <;> rcases wb with ⟨lb, lb'⟩ | ⟨sb, sb'⟩
  case inl.inl =>
    have : a + len - 1 ≤ 0xFFFFF := of_decide_eq_true la'
    have : b + len' - 1 ≤ 0xFFFFF := of_decide_eq_true lb'
    simp only [la, lb, true_and, ne_eq, not_true_eq_false, Bool.true_eq_false, false_and, false_or] at other
    rw [dataKey_of_local la, dataKey_of_local lb, localKey_of_isLocal la, localKey_of_isLocal lb]
    right; omega
  case inl.inr => exact .inl (by simp [la, isLocal_of_isShared sb])
  case inr.inl => exact .inl (by simp [lb, isLocal_of_isShared sa])
  case inr.inr =>
    have : 0x01000000 ≤ a + len - 1 ∧ a + len - 1 ≤ 0x013FFFFF := of_decide_eq_true sa'
    have : b + len' - 1 ≤ 0x013FFFFF := (of_decide_eq_true sb' : _ ∧ _).2
    have : 0x01000000 ≤ a ∧ a ≤ 0x013FFFFF := of_decide_eq_true sa
    have : 0x01000000 ≤ b ∧ b ≤ 0x013FFFFF := of_decide_eq_true sb
    have la := isLocal_of_isShared sa
    have lb := isLocal_of_isShared sb
    simp only [la, lb, Bool.false_eq_true, false_and, true_and, ne_eq, not_true_eq_false, false_or] at other
    have ka := sharedKey_of_isShared (k := clusterOf n) sa
    have kb := sharedKey_of_isShared (k := clusterOf m) sb
    rw [dataKey_of_not_local la, dataKey_of_not_local lb]
    right; omega

/-- Settles O55: a store is read back, and ranges that share no key are untouched by it. -/
theorem needleMemoriesAreSeparate : Obligations.NeedleMemoriesAreSeparate := by
  unfold Obligations.NeedleMemoriesAreSeparate
  intro s n m a b len bs hn hm within bytes within' pos t
  have stored : 0 < bs.length := List.length_pos_of_ne_nil bytes
  refine ⟨State.dataRead_dataWrite_same s n a bs, fun other => ?_, ?_, ?_, State.memoriesOk_dataWrite n a bs⟩
  · exact State.dataRead_dataWrite_apart (dataKeys_apart within within' stored pos other)
  · exact State.dataWrite_fld s n a bs State.imem fun _ _ _ => rfl
  · exact State.dataWrite_fld s n a bs State.devMem fun _ _ _ => rfl

end Sys2Proof.Machine
end

section
/-!
PROOFS of `Obligations.RegisterInstructionsAct` (O27): each instruction that only changes its needle's registers, row by row.
-/

namespace Sys2Proof.Machine

variable {s : State} {n : Nat} {x : Upset} {i : Ins}

/-! ### The fields of an instruction (R272) -/

theorem Ins.guard_of_legal {bad : Bool} (legal : bad = false) (i : Ins) (k : Did) : i.guard bad k = k := by
  rw [legal]; rfl

theorem Ins.guard_of_illegal {bad : Bool} (illegal : bad = true) (i : Ins) (k : Did) : i.guard bad k = i.illegal := by
  rw [illegal]; rfl

/-- Two checks in turn are one check of both. -/
theorem Ins.guard_guard (i : Ins) (a b : Bool) (k : Did) : i.guard a (i.guard b k) = i.guard (a || b) k := by
  cases a <;> rfl

theorem Ins.guard_congr {a b : Bool} {k l : Did} (bad : a = b) (did : k = l) : i.guard a k = i.guard b l := by rw [bad, did]

/-! ### Rows -/

/-- What one row of the register instructions does. -/
def RowActs (e : RegRow) : Prop :=
  ∀ (s : State) (n : Nat) (x : Upset) (i : Ins), s.stands n e.op x i →
    (e.legal i = true → ∃ t : State, exec (e.cmd n x) s = .next t ∧ s.onlyNeedle t n ((e.after s i (s.needle n)).past e.op)) ∧
    (e.illegal i = true → exec (e.cmd n x) s = .next (s.trap n 1 (i.w % 2 ^ 32)))

section Row

variable {e : RegRow}

/-- A row acts where its command issues a meaning that changes the needle as the row says, or answers ILLEGAL. -/
theorem RowActs.of_meaning (f : Ins → State → Did) (ran : ∀ s n x, exec (e.cmd n x) s = .next (s.issue n e.op x f))
    (named : opNamed e.op = true) (good : ∀ s i, e.legal i = true → f i s = i.set s (e.after s i))
    (bad : ∀ s i, e.illegal i = true → f i s = i.illegal) : RowActs e := by
  intro s n x i stands
  refine ⟨fun legal => ⟨_, ran s n x, ?_⟩, fun illegal => (ran s n x).trans (congrArg _ ?_)⟩
  · exact State.row_ok stands named (good s i legal) rfl
  · exact State.row_bad stands named (bad s i illegal)

/-- The same of a command that checks its fields, however it does so, and then changes the needle. -/
theorem RowActs.of_checks (f : Ins → State → Did) (ran : ∀ s n x, exec (e.cmd n x) s = .next (s.issue n e.op x f))
    (named : opNamed e.op = true) (checks : ∀ s i, f i s = i.guard (!e.legal i) (i.set s (e.after s i)))
    (otherwise : e.illegal = fun i => !e.legal i) : RowActs e :=
  .of_meaning f ran named
    (fun s i legal => (checks s i).trans (Ins.guard_of_legal (by rw [legal]; rfl) i _))
    (fun s i illegal => (checks s i).trans (Ins.guard_of_illegal (by rw [← congrFun otherwise i, illegal]) i _))

/-- The same of a command that makes one check. -/
theorem RowActs.of_guard (bad : Ins → Bool)
    (ran : ∀ s n x, exec (e.cmd n x) s = .next (s.issue n e.op x fun i s => i.guard (bad i) (i.set s (e.after s i))))
    (named : opNamed e.op = true) (format : ∀ i, bad i = !e.legal i) (otherwise : e.illegal = fun i => !e.legal i) : RowActs e :=
  .of_checks _ ran named (fun _ i => by rw [format]) otherwise

/-- The same of a command for which any fields are legal. -/
theorem RowActs.of_set (ran : ∀ s n x, exec (e.cmd n x) s = .next (s.issue n e.op x fun i s => i.set s (e.after s i)))
    (named : opNamed e.op = true) (never : ∀ i, e.illegal i = false) : RowActs e :=
  .of_meaning _ ran named (fun _ _ _ => rfl) fun _ i illegal => absurd illegal (by rw [never]; decide)

end Row

/-- The scalar instructions, one by one (R274-R276, R296, R298, R299). -/
theorem scalarRowsAct : regRowsAct scalarRows := by
  show ∀ e ∈ scalarRows, RowActs e
  simp only [scalarRows, List.forall_mem_cons]
  refine ⟨?sarith, ?addi, ?andi, ?ori, ?xori, ?slli, ?srli, ?srai, ?slti, ?lui, ?mfsr, ?mtsr, ?sqstat, ?tape, ?fence, nofun⟩
  case addi | andi | ori | xori | slti | lui => exact .of_set (fun _ _ _ => rfl) rfl fun _ => rfl
  case slli | srli | srai | sqstat => exact .of_guard _ (fun _ _ _ => rfl) rfl (fun _ => rfl) rfl
  case sarith =>
    refine .of_guard _ (fun _ _ _ => rfl) rfl (fun i => ?_) rfl
    rw [Bool.eq_iff_iff]; simp; omega
  case tape =>
    refine .of_guard _ (fun _ _ _ => rfl) rfl (fun i => ?_) rfl
    rw [Bool.eq_iff_iff]; simp
  case mfsr =>
    refine .of_meaning _ (fun _ _ _ => rfl) rfl (fun s i legal => ?_) fun s i illegal => Ins.guard_of_illegal illegal i _
    simp only [Bool.and_eq_true, beq_iff_eq, decide_eq_true_eq, bne_iff_ne] at legal
    obtain ⟨⟨form, known⟩, timeless⟩ := legal
    rw [Ins.guard_of_legal (by simp [form, known])]
    have : i.f 31 18 = 0 ∨ i.f 31 18 = 1 ∨ i.f 31 18 = 2 ∨ i.f 31 18 = 4 := by omega
    rcases this with k | k | k | k <;> simp only [k]
  case mtsr =>
    have format (i : Ins) : (i.s1 != 0 || !(i.f 31 18 == 0 || i.f 31 18 == 1 || i.f 31 18 == 4)) =
        !(i.s1 == 0 && (i.f 31 18 == 0 || i.f 31 18 == 1 || i.f 31 18 == 4)) := by rw [Bool.not_and]; rfl
    refine .of_meaning _ (fun _ _ _ => rfl) rfl (fun s i legal => ?_) fun s i illegal =>
      Ins.guard_of_illegal ((format i).trans illegal) i _
    refine (Ins.guard_of_legal ((format i).trans (congrArg Bool.not legal)) i _).trans ?_
    simp only [Bool.and_eq_true, Bool.or_eq_true, beq_iff_eq] at legal
    obtain ⟨-, (k | k) | k⟩ := legal <;> simp [k]
  case fence =>
    intro s n x i stands
    have ran : exec (.fence n x) s = .next (s.issue n 0x70 x fun i s => i.guard (i.f 31 8 != 0) (.ok s)) := rfl
    refine ⟨fun legal => ⟨_, ran.trans (congrArg _ (State.issue_ok stands rfl ?_)), State.onlyNeedle_upd stands.lt rfl⟩,
      fun illegal => ran.trans (congrArg _ (State.row_bad stands rfl (Ins.guard_of_illegal illegal i _)))⟩
    exact Ins.guard_of_legal (congrArg Bool.not legal) i _

/-- The vector instructions and predicates, one by one (R282-R284, R286, R290). -/
theorem vectorRowsAct : regRowsAct vectorRows := by
  show ∀ e ∈ vectorRows, RowActs e
  simp only [vectorRows, List.forall_mem_cons]
  refine ⟨?varith, ?vlogic, ?vcmp, ?vmisc, ?plogic, ?vtopk, ?tmisc, nofun⟩
  case vtopk => exact .of_set (fun _ _ _ => rfl) rfl fun _ => rfl
  case varith | vlogic =>
    refine .of_guard _ (fun _ _ _ => rfl) rfl (fun i => ?_) rfl
    simp [etFloat]; grind
  case vcmp | plogic =>
    refine .of_guard _ (fun _ _ _ => rfl) rfl (fun i => ?_) rfl
    grind
  case vmisc =>
    refine .of_checks _ (fun _ _ _ => rfl) rfl (fun s i => ?_) rfl
    rcases op : i.vop with _ | _ | _ | _ | _ | _ | k <;> simp only [op, Ins.guard_guard]
    -- no operation above 5 is known
    case succ.succ.succ.succ.succ.succ => simp [Ins.guard]
    all_goals
      refine Ins.guard_congr ?_ rfl
      rw [Bool.eq_iff_iff]
      simp [etFloat]
  case tmisc =>
    refine .of_checks _ (fun _ _ _ => rfl) rfl (fun s i => ?_) rfl
    rcases op : i.fn with _ | _ | _ | k <;> simp only [op, Ins.guard_guard]
    -- nor one above 2 here
    case succ.succ.succ => simp [Ins.guard]
    all_goals
      refine Ins.guard_congr ?_ rfl
      rw [Bool.eq_iff_iff]
      simp

/-! ### The register that does not stand still (R276) -/

/-- The needle after `v` more cycles, their count read into s register `k`. -/
def NeedleS.cyclesRead (k v : Nat) (d : NeedleS) : NeedleS :=
  { d with cycles := d.cycles + v }.ws k (BitVec.ofNat 64 (d.cycles + v))

theorem exec_mfsr_cycles (stands : s.stands n 0x0C x i) (form : i.s1 = 0) (which : i.f 31 18 = 3) :
    exec (.mfsr n x) s = .next ((s.freshVal.2.updNeedle n (NeedleS.cyclesRead i.d s.freshVal.1.toNat)).updNeedle n
      fun d => d.past 0x0C) := by
  refine congrArg _ (State.issue_ok stands rfl ?_)
  simp only [form, which, stands.own, Ins.set]
  rfl

/-- Settles O27: row by row, then MFSR of CYCLES, whose count has not fallen. -/
theorem registerInstructionsAct : Obligations.RegisterInstructionsAct := by
  unfold Obligations.RegisterInstructionsAct
  refine ⟨scalarRowsAct, vectorRowsAct, fun s n x i stands form which => ?_⟩
  obtain ⟨own, others, frame⟩ := State.onlyNeedle_upd2 (s := s.freshVal.2) (f := NeedleS.cyclesRead i.d s.freshVal.1.toNat)
    (g := fun d => d.past 0x0C) stands.lt rfl
  refine ⟨_, _, exec_mfsr_cycles stands form which, Nat.le_add_right _ _, own, others, ?_⟩
  exact congrArg (fun t : State => { t with fresh := s.fresh }) frame

end Sys2Proof.Machine
end

section
/-!
PROOFS of `Obligations.LoadsAct` (O30): what a load finds at its address, and the traps it meets.
-/

namespace Sys2Proof.Machine

variable {s : State} {n op a size c : Nat} {x : Upset} {i : Ins} {f : Ins → State → Did}

/-! ### What an access meets (R242, R278) -/

/-- What costs an access nothing is not counted. -/
theorem Did.ce_of_uncounted (free : x ≠ .ce ∨ isLocal a = false) (d : Did) : d.ce n a x = d := by
  refine if_neg fun counted => ?_
  obtain ⟨ce, loc⟩ := (Bool.and_eq_true _ _).mp counted
  rcases free with other | shd
  · exact other (beq_iff_eq.mp ce)
  · simp [shd] at loc

theorem uncounted_of_calm (calm : x.calm a) : x ≠ .ce ∨ isLocal a = false := by
  rcases calm with rfl | ⟨-, shd⟩
  · exact .inl (by decide)
  · exact .inr shd

theorem not_lost_of_calm (calm : x.calm a) : (x == .data) = false := by
  rcases calm with rfl | ⟨rfl, -⟩ <;> rfl

theorem Ins.load_calm {loc : Bool} {k : Nat → Did} (ok : addrTrap a size loc true = none) (calm : x.calm a) :
    i.load s x a size loc k = k (natLE (s.dataRead i.n a size)) := by
  simp only [Ins.load, ok, not_lost_of_calm calm, Did.ce_of_uncounted (uncounted_of_calm calm), Bool.false_eq_true, if_false]

theorem Ins.load_trap {loc : Bool} {k : Nat → Did} (bad : addrTrap a size loc true = some c) :
    i.load s x a size loc k = .trap c a := by
  simp only [Ins.load, bad]

theorem Ins.load_lost {loc : Bool} {k : Nat → Did} (ok : addrTrap a size loc true = none) :
    i.load s .data a size loc k = .lost a := by
  simp only [Ins.load, ok]; rfl

/-! ### The end of an instruction that does not complete -/

theorem State.issue_trap (h : s.stands n op x i) (named : opNamed op = true) (did : f i s = .trap c a) :
    s.issue n op x f = s.trap n c a := by
  rw [State.issue_stands h named, did]

/-- A double-bit error outside local memory leaves the needle in service. -/
theorem State.issue_lost_shared (h : s.stands n op x i) (named : opNamed op = true) (did : f i s = .lost a)
    (shd : isLocal a = false) : s.issue n op x f = (s.needleRec 4 (clusterOf n) (needleSlot n) a).trap n 3 a := by
  simp only [State.issue_stands h named, did, shd, Bool.false_eq_true, if_false]

/-- An instruction of one word moves the PC on by 4 (R270). -/
theorem NeedleS.past_short (short : op < 128) (d : NeedleS) : d.past op = d.past 0 := by
  simp only [NeedleS.past, Nat.not_le.mpr short, if_false, show ¬128 ≤ 0 by decide]

/-! ### Loads -/

/-- The scalar loads: command, OP, width, and whether the value is sign-extended (R279). -/
def scalarLoads : List ((Nat → Upset → Instr) × Nat × Nat × Bool) :=
  [(.lb, 0x10, 1, true), (.lbu, 0x11, 1, false), (.lh, 0x12, 2, true), (.lhu, 0x13, 2, false), (.lw, 0x14, 4, true),
    (.lwu, 0x15, 4, false), (.ld, 0x16, 8, false)]

theorem exec_scalarLoad : ∀ e ∈ scalarLoads, opNamed e.2.1 = true ∧ e.2.1 < 128 ∧
    ∀ s n x, exec (e.1 n x) s = .next (s.scalarLoad n e.2.1 x e.2.2.1 e.2.2.2) := by
  simp only [scalarLoads, List.forall_mem_cons]
  exact ⟨⟨rfl, by decide, fun _ _ _ => rfl⟩, ⟨rfl, by decide, fun _ _ _ => rfl⟩, ⟨rfl, by decide, fun _ _ _ => rfl⟩,
    ⟨rfl, by decide, fun _ _ _ => rfl⟩, ⟨rfl, by decide, fun _ _ _ => rfl⟩, ⟨rfl, by decide, fun _ _ _ => rfl⟩,
    ⟨rfl, by decide, fun _ _ _ => rfl⟩, nofun⟩

/-- A register with the word of each active lane loaded into it. -/
def Ins.gathered (i : Ins) (s : State) (n : Nat) (old : BitVec 1024) : BitVec 1024 :=
  ((s.needle n).lanes32 i.pr).foldl (fun v l => setFld v (32 * l + 31) (32 * l) (natLE (s.dataRead n (i.laneAddr s l) 4))) old

/-- A gather whose lanes trap nothing loads them all. -/
theorem exec_vgather (stands : s.stands n 0x33 .none i) (form : i.f 31 28 = 0) (ok : i.laneTrap s = none) :
    ∃ t : State, exec (.vgather n .none) s = .next t ∧
      s.onlyNeedle t n (((s.needle n).wv i.d (i.gathered s n ((s.needle n).rv i.d))).past 0) := by
  refine ⟨_, rfl, State.row_ok stands rfl (g := fun d => d.wv i.d (i.gathered s n (d.rv i.d))) ?_ rfl⟩
  have calm (a : Nat) (d : Did) : d.ce n a .none = d := Did.ce_of_uncounted (.inl (by decide)) d
  have read : (Upset.none == Upset.data) = false := rfl
  simp only [form, ok, calm, read, ite_self, stands.own, Ins.set, Ins.guard_of_legal, bne_self_eq_false, Bool.false_and,
    Bool.false_eq_true, if_false]
  rfl

/-- Settles O30: a calm load completes, and any other traps or loses what it reads. -/
theorem loadsAct : Obligations.LoadsAct := by
  unfold Obligations.LoadsAct
  refine ⟨fun e mem s n x i stands => ?scalar, fun s n x i stands => ?vector, fun s n i => exec_vgather⟩
  case scalar =>
    obtain ⟨named, short, ran⟩ := exec_scalarLoad e mem
    intro a v
    refine ⟨fun ok calm => ⟨_, ran s n x, ?_⟩, fun c bad => (ran s n x).trans (congrArg _ ?_), fun ok lost shd => ?_⟩
    · rw [← NeedleS.past_short short]
      exact State.row_ok stands named (Ins.load_calm ok calm) (by rw [stands.own])
    · exact State.issue_trap stands named (Ins.load_trap bad)
    · subst lost
      exact (ran s n .data).trans (congrArg _ (State.issue_lost_shared stands named (Ins.load_lost ok) shd))
  case vector =>
    intro a ok calm
    exact ⟨_, rfl, State.row_ok stands rfl (Ins.load_calm ok calm) (by rw [stands.own])⟩

end Sys2Proof.Machine
end

section
/-!
PROOFS of `Obligations.StoresAct` (O31): the bytes that a store changes, and the words that a scatter leaves.
-/

namespace Sys2Proof.Machine

variable {s t : State} {n op a b size c k : Nat} {x : Upset} {i : Ins} {f : Ins → State → Did} {bs : Bytes}

/-! ### One store (R278, R279) -/

theorem State.needle_updNeedle_other {m : Nat} (hm : m ≠ n) (f : NeedleS → NeedleS) : (s.updNeedle n f).needle m = s.needle m := by
  unfold State.updNeedle State.needle
  split
  · exact (AMap.get_upd ..).trans (if_neg hm)
  · rfl

theorem State.stored_dataWrite (s : State) (n a : Nat) (bs : Bytes) : s.storedOnly (s.dataWrite n a bs) n a bs := by
  refine ⟨State.dataRead_dataWrite_same s n a bs, ?dev, ?imem, fun _ => State.localM_dataWrite, fun _ => State.shared_dataWrite, ?frame, ?others⟩
  case dev => exact State.dataWrite_fld s n a bs State.devMem fun _ _ _ => rfl
  case imem => exact State.dataWrite_fld s n a bs State.imem fun _ _ _ => rfl
  case frame => exact congrArg (fun t : State => { t with needles := s.needles }) (State.dataWrite_frame s n a bs)
  case others => exact fun m _ => State.dataWrite_fld s n a bs (fun t => t.needle m) fun _ _ _ => rfl

/-- The needle's own registers are no part of what it stores. -/
theorem State.storedOnly.updNeedle (h : s.storedOnly t n a bs) (f : NeedleS → NeedleS) : s.storedOnly (t.updNeedle n f) n a bs := by
  obtain ⟨same, dev, imem, loc, shd, frame, others⟩ := h
  refine ⟨?_, (State.updNeedle_devMem ..).trans dev, (State.updNeedle_imem ..).trans imem, fun k out => ?_, fun k out => ?_, ?_, fun m hm => ?_⟩
  · simpa only [State.dataRead, State.updNeedle_localM, State.updNeedle_shared] using same
  · rw [State.updNeedle_localM]; exact loc k out
  · rw [State.updNeedle_shared]; exact shd k out
  · exact (congrArg (fun u : State => { u with localM := s.localM, shared := s.shared, needles := s.needles })
      (State.updNeedle_frame (s := t) (f := f))).trans frame
  · exact (State.needle_updNeedle_other hm _).trans (others m hm)

theorem Ins.store_ok (ok : addrTrap a size true true = none) (free : x ≠ .ce ∨ isLocal a = false) :
    i.store s x a size bs = .ok (s.dataWrite i.n a bs) := by
  simp only [Ins.store, ok, Did.ce_of_uncounted free]

theorem Ins.store_trap (bad : addrTrap a size true true = some c) : i.store s x a size bs = .trap c a := by
  simp only [Ins.store, bad]

/-- An instruction that stores once leaves its bytes, and its needle at the next instruction. -/
theorem State.issue_store (h : s.stands n op x i) (named : opNamed op = true) (short : op < 128)
    (did : f i s = .ok (s.dataWrite i.n a bs)) :
    s.storedOnly (s.issue n op x f) n a bs ∧ (s.issue n op x f).needle n = (s.needle n).past 0 := by
  rw [State.issue_ok h named did, h.own]
  refine ⟨(State.stored_dataWrite s n a bs).updNeedle _, (State.updNeedle_self h.lt).trans ?_⟩
  rw [NeedleS.past_short short]
  exact congrArg (NeedleS.past · 0) (State.dataWrite_fld s n a bs (fun t => t.needle n) fun _ _ _ => rfl)

theorem length_bytesLE (n v : Nat) : (bytesLE n v).length = n := by
  induction n generalizing v with
  | zero => rfl
  | succ n ih => exact congrArg (· + 1) (ih _)

/-- The scalar stores: command, OP and width (R279). -/
def scalarStores : List ((Nat → Upset → Instr) × Nat × Nat) := [(.sb, 0x18, 1), (.sh, 0x19, 2), (.sw, 0x1A, 4), (.sd, 0x1B, 8)]

theorem exec_scalarStore : ∀ e ∈ scalarStores, opNamed e.2.1 = true ∧ e.2.1 < 128 ∧
    ∀ s n x, exec (e.1 n x) s = .next (s.scalarStore n e.2.1 x e.2.2) := by
  simp only [scalarStores, List.forall_mem_cons]
  exact ⟨⟨rfl, by decide, fun _ _ _ => rfl⟩, ⟨rfl, by decide, fun _ _ _ => rfl⟩, ⟨rfl, by decide, fun _ _ _ => rfl⟩,
    ⟨rfl, by decide, fun _ _ _ => rfl⟩, nofun⟩

/-! ### Scatters (R285) -/

section Scatter

variable {ls : Nats} {addr : Nat → Nat} {word : Nat → Bytes}

/-- A word for each lane, stored in the order of the lanes. -/
def State.scattered (s : State) (n : Nat) (ls : Nats) (addr : Nat → Nat) (word : Nat → Bytes) : State :=
  s.each ls fun l t => t.dataWrite n (addr l) (word l)

/-- A store to local memory changes local memory alone. -/
theorem State.dataWrite_local_frame (loc : isLocal a = true) : { s.dataWrite n a bs with localM := s.localM } = s := by
  rw [State.dataWrite, if_pos loc]

theorem State.scattered_frame (loc : ∀ l ∈ ls, isLocal (addr l) = true) :
    { s.scattered n ls addr word with localM := s.localM } = s :=
  State.each_keeps (P := fun t => { t with localM := s.localM } = s) (fun l hl t same =>
    (congrArg (fun u : State => { u with localM := s.localM }) (State.dataWrite_local_frame (s := t) (loc l hl))).trans same) rfl

theorem State.needle_scattered (m : Nat) : (s.scattered n ls addr word).needle m = s.needle m :=
  State.each_keeps (P := fun t => t.needle m = s.needle m)
    (fun l _ t same => (State.dataWrite_fld t n (addr l) (word l) (fun u => u.needle m) fun _ _ _ => rfl).trans same) rfl

/-- What is as before but for local memory is so, but for needles too, when a needle changes. -/
theorem State.updNeedle_local_frame (same : { t with localM := s.localM } = s) (f : NeedleS → NeedleS) :
    { t.updNeedle n f with localM := s.localM, needles := s.needles } = s := by
  unfold State.updNeedle
  split <;> exact congrArg (fun u : State => { u with needles := s.needles }) same

/-- A byte of local memory that no lane's word covers is as before. -/
theorem State.localM_scattered
    (out : ∀ l ∈ ls, ¬(localKey n (addr l) ≤ k ∧ k < localKey n (addr l) + (word l).length)) :
    Memory.rd (s.scattered n ls addr word).localM k = Memory.rd s.localM k :=
  State.each_keeps (P := fun t => Memory.rd t.localM k = Memory.rd s.localM k)
    (fun l hl _ same => (State.localM_dataWrite fun range => out l hl range.2).trans same) rfl

/-- A word that no later lane's word overlaps is read back. -/
theorem State.dataRead_scattered {l : Nat} (hl : l ∈ ls) (rising : ls.Pairwise (· < ·))
    (later : ∀ j ∈ ls, l < j → dataKey n (addr j) + (word j).length ≤ dataKey n (addr l) ∨
      dataKey n (addr l) + (word l).length ≤ dataKey n (addr j)) :
    (s.scattered n ls addr word).dataRead n (addr l) (word l).length = word l := by
  induction ls generalizing s with
  | nil => cases hl
  | cons j ls ih =>
    obtain ⟨above, rising⟩ := List.pairwise_cons.mp rising
    rcases List.mem_cons.mp hl with rfl | hl
    · exact State.each_keeps (s := s.dataWrite n (addr l) (word l)) (ks := ls)
        (P := fun t => t.dataRead n (addr l) (word l).length = word l)
        (fun j hj t same => (State.dataRead_dataWrite_apart (.inr (later j (List.mem_cons_of_mem _ hj) (above j hj)))).trans same)
        (State.dataRead_dataWrite_same s n (addr l) (word l))
    · exact ih hl rising fun j hj => later j (List.mem_cons_of_mem _ hj)

/-- Two words of local memory at different aligned addresses have no byte in common. -/
theorem words_apart (la : isLocal a = true) (lb : isLocal b = true) (wa : a % 4 = 0) (wb : b % 4 = 0) (other : a ≠ b) :
    dataKey n a + 4 ≤ dataKey n b ∨ dataKey n b + 4 ≤ dataKey n a := by
  rw [dataKey_of_local la, dataKey_of_local lb, localKey_of_isLocal la, localKey_of_isLocal lb]
  omega

end Scatter

/-- Lanes that trap nothing name aligned words of local memory. -/
theorem Ins.lane_ok (ok : i.laneTrap s = none) {l : Nat} (hl : l ∈ (s.needle i.n).lanes32 i.pr) :
    isLocal (i.laneAddr s l) = true ∧ i.laneAddr s l % 4 = 0 := by
  have free : addrTrap (i.laneAddr s l) 4 true false = none :=
    Option.map_eq_none_iff.mp (List.findSome?_eq_none_iff.mp ok l hl)
  unfold addrTrap at free
  cases loc : isLocal (i.laneAddr s l) <;> simp_all

theorem NeedleS.lanes32_rising (d : NeedleS) (pr : Nat) : (d.lanes32 pr).Pairwise (· < ·) :=
  List.pairwise_lt_range.filter _

/-- The word of a lane of a register. -/
def laneWord (v : BitVec 1024) (l : Nat) : Bytes := bytesLE 4 (fld v (32 * l + 31) (32 * l))

/-- A scatter whose lanes trap nothing stores them all. -/
theorem exec_vscatter (stands : s.stands n 0x34 .none i) (form : i.f 31 28 = 0) (ok : i.laneTrap s = none) :
    exec (.vscatter n .none) s = .next ((s.scattered n ((s.needle n).lanes32 i.pr) (i.laneAddr s)
      (laneWord ((s.needle n).rv i.d))).updNeedle n fun d => d.past 0x34) := by
  refine congrArg _ (State.issue_ok stands rfl ?_)
  have calm (a : Nat) (d : Did) : d.ce n a .none = d := Did.ce_of_uncounted (.inl (by decide)) d
  simp only [form, ok, calm, ite_self, stands.own, Ins.guard_of_legal, bne_self_eq_false]
  rfl

/-! ### Atomic operations (R280) -/

theorem exec_amo (stands : s.stands n 0x1C .none i) (form : i.pr = 0) (known : i.fn ≤ 6)
    (ok : addrTrap ((s.needle n).rs i.s1).toNat 8 false true = none) :
    exec (.amo n .none) s = .next (
      let old := BitVec.ofNat 64 (natLE (s.dataRead n ((s.needle n).rs i.s1).toNat 8))
      ((s.dataWrite n ((s.needle n).rs i.s1).toNat (bytesLE 8 (amoOp i.fn old ((s.needle n).rs i.s2) ((s.needle n).rs i.d)).toNat)).updNeedle
        n fun d => d.ws i.d old).updNeedle n fun d => d.past 0x1C) := by
  refine congrArg _ (State.issue_ok stands rfl ?_)
  simp only [Ins.rs, stands.own, form, Nat.not_lt.mpr known, Ins.guard_of_legal, bne_self_eq_false, decide_false, Bool.or_self]
  exact (Ins.load_calm ok (.inl rfl)).trans (by simp only [Ins.set, stands.own])

/-- Settles O31: a store that traps nothing leaves its bytes and every other byte as it was. -/
theorem storesAct : Obligations.StoresAct := by
  unfold Obligations.StoresAct
  refine ⟨fun e mem s n x i stands => ?scalar, fun s n x i stands => ?vector, fun s n x i stands form op => ?masked,
    fun s n x i stands form ok calm => ?scatter, fun s n x i stands form known => ?atomic⟩
  case scalar =>
    obtain ⟨named, short, ran⟩ := exec_scalarStore e mem
    intro a
    refine ⟨fun ok free => ⟨_, ran s n x, ?_⟩, fun c bad => (ran s n x).trans (congrArg _ ?_)⟩
    · refine State.issue_store stands named short ((Ins.store_ok ok free).trans ?_)
      rw [Ins.rs, stands.own]
    · exact State.issue_trap stands named (Ins.store_trap bad)
  case vector =>
    intro a ok free
    refine ⟨_, rfl, State.issue_store stands rfl (by decide) ((Ins.store_ok ok free).trans ?_)⟩
    rw [stands.own]
  case masked =>
    intro a mixed ok free
    refine ⟨_, rfl, State.issue_store stands rfl (by decide) ?_⟩
    simp only [Ins.rs, stands.own, form, op, Ins.guard_of_legal, bne_self_eq_false, Bool.or_self]
    exact (Ins.store_ok ok free).trans (by rw [stands.own])
  case scatter =>
    subst calm
    intro ls
    have own := stands.own
    have lane l (hl : l ∈ ls) : isLocal (i.laneAddr s l) = true ∧ i.laneAddr s l % 4 = 0 := Ins.lane_ok ok (by rw [own]; exact hl)
    refine ⟨_, exec_vscatter stands form ok, ?_, fun k out => ?_, ?_, fun m hm => ?_, fun l hl last => ?_⟩
    · rw [State.updNeedle_self stands.lt, NeedleS.past_short (by decide), State.needle_scattered]
    · rw [State.updNeedle_localM]
      exact State.localM_scattered fun l hl => by rw [laneWord, length_bytesLE]; exact out l hl
    · exact State.updNeedle_local_frame (State.scattered_frame fun l hl => (lane l hl).1) _
    · exact (State.needle_updNeedle_other hm _).trans (State.needle_scattered m)
    · have apart j (hj : j ∈ ls) (above : l < j) := words_apart (n := n) (lane j hj).1 (lane l hl).1 (lane j hj).2 (lane l hl).2 (last j hj above)
      have read := State.dataRead_scattered (s := s) (n := n) (addr := i.laneAddr s) (word := laneWord ((s.needle n).rv i.d)) hl
        (NeedleS.lanes32_rising ..) (by simpa only [laneWord, length_bytesLE] using apart)
      rw [laneWord, length_bytesLE] at read
      simpa only [State.dataRead, State.updNeedle_localM, State.updNeedle_shared] using read
  case atomic =>
    intro a old ok calm
    subst calm
    refine ⟨_, exec_amo stands form known ok, ((State.stored_dataWrite s n a _).updNeedle _).updNeedle _, ?_⟩
    rw [State.updNeedle_self stands.lt, State.updNeedle_self stands.lt, NeedleS.past_short (by decide)]
    exact congrArg (fun d : NeedleS => (d.ws i.d old).past 0) (State.dataWrite_fld s n a _ (fun t => t.needle n) fun _ _ _ => rfl)

end Sys2Proof.Machine
end

section
/-!
PROOFS of `Obligations.StreamsAndSyncAct` (O32): stream queues and sync objects as needles use them.
-/

namespace Sys2Proof.Machine

variable {s : State} {n o : Nat} {x : Upset} {i : Ins}

/-! ### Stream queues (R249-R252, R296) -/

theorem State.updSq_same {c : Nat} (hc : c < 64) (s : State) (q : Nat) (f : SQ → SQ) : (s.updSq c q f).sq c q = f (s.sq c q) :=
  (State.updSq_sq s c q c q f hc).trans (if_pos ⟨rfl, rfl⟩)

theorem SQ.push_open {q : SQ} (opened : q.draining = false) (item : BitVec 72) :
    q.push item = { q with items := q.items ++ [item], timer := if q.items = [] then q.us != 0 else q.timer } := by
  simp only [SQ.push, opened, Bool.false_eq_true, if_false, List.isEmpty_iff]

theorem SQ.full_of_room {q : SQ} (room : q.items.length < 64) : q.full = false := by
  simp only [SQ.full, Nat.not_le.mpr room, decide_false, Bool.and_false]

theorem SQ.full_of_full {q : SQ} (opened : q.draining = false) (full : 64 ≤ q.items.length) : q.full = true := by
  simp only [SQ.full, opened, full, decide_true, Bool.not_false, Bool.and_self]

theorem State.updNeedle_updNeedle (s : State) (n : Nat) (f g : NeedleS → NeedleS) :
    (s.updNeedle n f).updNeedle n g = s.updNeedle n fun d => g (f d) := by
  unfold State.updNeedle
  split
  · simp only [AMap.upd, AMap.get_set_same, AMap.set_set]
  · rfl

/-- What a queue instruction that completes leaves: the queue as changed, the needle as changed and at the next instruction. -/
theorem State.queue_then_needle {c q : Nat} (hn : n < 512) (hc : c < 64) (f : SQ → SQ) (g : NeedleS → NeedleS) :
    let t := (s.updSq c q f).updNeedle n g
    t.sq c q = f (s.sq c q) ∧ t.needle n = g (s.needle n) ∧ { t with clus := s.clus, needles := s.needles } = s ∧
      (∀ k, k ≠ q → t.sq c k = s.sq c k) ∧ (∀ d, d ≠ c → t.clu d = s.clu d) := by
  refine ⟨State.updNeedle_sq.trans (State.updSq_same hc ..), ?_, both_frame State.updNeedle_frame State.updSq_frame, fun k hk => ?_,
    fun d hd => ?_⟩
  · rw [State.updNeedle_self hn, State.updSq_needle]
  · exact State.updNeedle_sq.trans ((State.updSq_sq s c q c k f hc).trans (if_neg fun same => hk same.2))
  · rw [State.clu, State.updNeedle_clus]; exact State.updSq_clu hd

/-- The item that SQPUSH makes of its fields and of s[S2] (R296). -/
def Ins.item (i : Ins) (s : State) (n : Nat) : BitVec 72 :=
  pack 72 [(71, 71, i.f 30 30), (70, 64, i.f 29 23), (63, 0, ((s.needle n).rs i.s2).toNat)]

theorem exec_sqpush_room (stands : s.stands n 0x60 x i) (form : i.f 31 31 = 0) (plain : i.d = 0) (typed : i.f 29 23 ≠ 0)
    (room : (s.sq (clusterOf n) i.s1).items.length < 64) :
    exec (.sqpush n x) s = .next ((s.updSq (clusterOf n) i.s1 fun u => u.push (i.item s n)).updNeedle n fun d => d.past 0x60) := by
  refine congrArg _ (State.issue_ok stands rfl ?_)
  simp only [Ins.rs, stands.own, form, plain, beq_eq_false_iff_ne.mpr typed, SQ.full_of_room room, Ins.guard_of_legal,
    bne_self_eq_false, Bool.or_self, Bool.false_eq_true, if_false]
  rfl

theorem exec_sqpush_full (stands : s.stands n 0x60 x i) (form : i.f 31 31 = 0) (plain : i.d = 0) (typed : i.f 29 23 ≠ 0)
    (opened : (s.sq (clusterOf n) i.s1).draining = false) (full : 64 ≤ (s.sq (clusterOf n) i.s1).items.length) :
    exec (.sqpush n x) s = .next ((s.updSq (clusterOf n) i.s1 fun u => { u with stalled := u.stalled ++ [n] }).updNeedle n
      fun d => { d with st := 2, pushQ := i.s1, pushI := i.item s n }) := by
  refine congrArg _ (State.issue_stay stands rfl ?_)
  simp only [Ins.rs, stands.own, form, plain, beq_eq_false_iff_ne.mpr typed, SQ.full_of_full opened full, Ins.guard_of_legal,
    bne_self_eq_false, Bool.or_self, if_true]
  rfl

theorem exec_sqpushResume (waits : (s.needle n).st = 2) (room : (s.sq (clusterOf n) (s.needle n).pushQ).items.length < 64) :
    exec (.sqpushResume n) s = .next (s.resumePush (clusterOf n) (s.needle n).pushQ n) := by
  simp only [exec, execSqpushResume, waits, SQ.full_of_room room, decide_true, Bool.not_false, Bool.and_self, if_true]

/-- SQPOP's destinations differ, or take nothing (R296). -/
theorem Ins.pop_form (form : i.f 31 23 = 0) (apart : i.d ≠ i.s2 ∨ i.d = 0) : (i.f 31 23 != 0 || (i.d == i.s2 && i.d != 0)) = false := by
  rcases apart with other | none <;> simp [*]

theorem exec_sqpop_item {it : BitVec 72} {rest : List (BitVec 72)} (stands : s.stands n 0x61 x i) (form : i.f 31 23 = 0)
    (apart : i.d ≠ i.s2 ∨ i.d = 0) (opened : (s.sq (clusterOf n) i.s1).draining = false)
    (items : (s.sq (clusterOf n) i.s1).items = it :: rest) :
    exec (.sqpop n x) s = .next (((s.updSq (clusterOf n) i.s1 fun u =>
      { u with items := rest, timer := u.us != 0 && !rest.isEmpty }).updNeedle n
        fun d => (d.ws i.d (it.setWidth 64)).ws i.s2 (BitVec.ofNat 64 (fld it 71 64))).updNeedle n fun d => d.past 0x61) := by
  refine congrArg _ (State.issue_ok stands rfl ?_)
  simp only [stands.own, Ins.guard_of_legal (Ins.pop_form form apart), opened, items, Ins.set, Bool.false_eq_true, if_false]

theorem exec_sqpop_idle (stands : s.stands n 0x61 x i) (form : i.f 31 23 = 0) (apart : i.d ≠ i.s2 ∨ i.d = 0)
    (idle : (s.sq (clusterOf n) i.s1).draining = true ∨ (s.sq (clusterOf n) i.s1).items = []) :
    ∃ t : State, exec (.sqpop n x) s = .next t ∧ s.onlyNeedle t n ((((s.needle n).ws i.d 0).ws i.s2 0).past 0) := by
  refine ⟨_, rfl, State.row_ok stands rfl (g := fun d => (d.ws i.d 0).ws i.s2 0) ?_ rfl⟩
  have nothing : (if (s.sq (clusterOf n) i.s1).draining then [] else (s.sq (clusterOf n) i.s1).items) = [] := by
    rcases idle with drains | empty
    · exact if_pos drains
    · rw [empty, ite_self]
  simp only [stands.own, Ins.guard_of_legal (Ins.pop_form form apart), Ins.set, nothing]

theorem exec_sqflush {it : BitVec 72} (stands : s.stands n 0x62 x i) (form : i.f 31 18 = 0) (plain : i.d = 0)
    (opened : (s.sq (clusterOf n) i.s1).draining = false) (last : (s.sq (clusterOf n) i.s1).items.getLast? = some it)
    (none : (s.sq (clusterOf n) i.s1).stalled = []) :
    exec (.sqflush n x) s = .next ((s.updSq (clusterOf n) i.s1 fun u =>
      { u with items := [], draining := !it.msb, timer := false }).updNeedle n fun d => d.past 0x62) := by
  refine congrArg _ (State.issue_ok stands rfl ?_)
  simp only [stands.own, form, plain, Ins.guard_of_legal, bne_self_eq_false, Bool.or_self, opened, last, none, Bool.false_eq_true, if_false]
  rfl

/-! ### Sync objects (R297) -/

theorem Ins.sync_ok {bad : Bool} {k : Nat → Did} (plain : i.pr = 0) (fn : i.fn = 0) (ok : bad = false)
    (object : i.object s (i.rs s i.s1) = some o) : i.sync s bad k = k o := by
  simp only [Ins.sync, plain, fn, ok, object, Ins.guard_of_legal, bne_self_eq_false, Bool.or_self]

theorem exec_syadd (stands : s.stands n 0x68 x i) (plain : i.pr = 0) (fn : i.fn = 0) (form : i.d = 0)
    (object : i.object s ((s.needle n).rs i.s1) = some o) :
    exec (.syadd n x) s = .next ((s.syncAdd o ((s.needle n).rs i.s2)).updNeedle n fun d => d.past 0x68) := by
  have own := stands.own
  subst own
  exact congrArg _ (State.issue_ok stands rfl (Ins.sync_ok plain fn (by rw [form]; rfl) object))

theorem exec_syrd (stands : s.stands n 0x6A x i) (plain : i.pr = 0) (fn : i.fn = 0) (form : i.s2 = 0)
    (object : i.object s ((s.needle n).rs i.s1) = some o) :
    ∃ t : State, exec (.syrd n x) s = .next t ∧ s.onlyNeedle t n (((s.needle n).ws i.d (s.obj o).val).past 0) := by
  have own := stands.own
  subst own
  exact ⟨_, rfl, State.row_ok stands rfl (Ins.sync_ok plain fn (by rw [form]; rfl) object) rfl⟩

theorem exec_sywait_satisfied (stands : s.stands n 0x69 x i) (plain : i.pr = 0) (fn : i.fn = 0)
    (object : i.object s ((s.needle n).rs i.s1) = some o) (reached : ((s.needle n).rs i.s2).toNat ≤ (s.obj o).val.toNat) :
    ∃ t : State, exec (.sywait n x) s = .next t ∧ s.onlyNeedle t n (((s.needle n).ws i.d (s.obj o).val).past 0) := by
  have own := stands.own
  subst own
  exact ⟨_, rfl, State.row_ok stands rfl ((Ins.sync_ok plain fn rfl object).trans (if_pos reached)) rfl⟩

theorem exec_sywait_waits (stands : s.stands n 0x69 x i) (plain : i.pr = 0) (fn : i.fn = 0)
    (object : i.object s ((s.needle n).rs i.s1) = some o) (below : (s.obj o).val.toNat < ((s.needle n).rs i.s2).toNat) :
    exec (.sywait n x) s = .next (s.updNeedle n fun d => { d with
      st := 3, waitObj := o, waitT := (s.needle n).rs i.s2, waitD := BitVec.ofNat 5 i.d, waitOk := none }) := by
  have own := stands.own
  subst own
  exact congrArg _ (State.issue_stay stands rfl ((Ins.sync_ok plain fn rfl object).trans (if_neg (Nat.not_le.mpr below))))

/-- A register written and the PC moved on, in either order. -/
theorem NeedleS.ws_past (d : NeedleS) (k : Nat) (v : BitVec 64) : { d with pc := d.pc + 4 }.ws k v = (d.ws k v).past 0 := by
  unfold NeedleS.ws
  split <;> rfl

theorem exec_sywaitResume {v : BitVec 64} (hn : n < 512) (waits : (s.needle n).st = 3) (satisfied : (s.needle n).waitOk = some v) :
    ∃ t : State, exec (.sywaitResume n) s = .next t ∧
      s.onlyNeedle t n (({ s.needle n with st := 1, waitOk := none }.ws (s.needle n).waitD.toNat v).past 0) := by
  have ran : exec (.sywaitResume n) s = .next (s.updNeedle n fun d =>
      { d with st := 1, waitOk := none, pc := d.pc + 4 }.ws d.waitD.toNat v) := by
    simp only [exec, execSywaitResume, waits, satisfied, if_true]
  exact ⟨_, ran, State.onlyNeedle_upd hn (NeedleS.ws_past { s.needle n with st := 1, waitOk := none } _ _)⟩

/-! ### Stale tails (R252) -/

/-- The object that a queue raises as it goes stale, if its cluster's partition has one. -/
def State.staleObj (s : State) (c q : Nat) : Option Nat :=
  (s.clu c).owner.bind fun p => if (s.sq c q).sync = 0x3FFF then none else Ranges.item (s.part p).syncs (s.sq c q).sync

theorem State.raised_sq (s : State) (sync : Option Nat) (c q : Nat) : (s.raised sync).sq c q = s.sq c q := by
  cases sync with
  | none => rfl
  | some o => exact State.syncPut_fld s o _ (fun t => t.sq c q) fun _ => rfl

theorem exec_staleTailFire {c q : Nat} (hc : c < 64) (hq : q < 32) (timed : (s.sq c q).timer = true)
    (holds : (s.sq c q).items ≠ []) (opened : (s.sq c q).draining = false) :
    exec (.staleTailFire c q) s = .next ((s.updSq c q fun u => { u with stale := true, timer := false }).raised (s.staleObj c q)) := by
  have some : (s.sq c q).items.isEmpty = false := List.isEmpty_eq_false_iff.mpr holds
  have owner : ((s.updSq c q fun u => { u with stale := true, timer := false }).clu c).owner = (s.clu c).owner := by
    rw [State.updSq, State.clu_updClu, if_pos ⟨rfl, hc⟩]
  have part (p : Nat) : (s.updSq c q fun u => { u with stale := true, timer := false }).part p = s.part p := by
    rw [State.part, State.updSq, State.updClu_parts]; rfl
  simp only [exec, execStaleTailFire, hc, hq, timed, opened, some, owner, part, decide_true, Bool.not_false, Bool.and_self, if_true]
  unfold State.staleObj
  split
  next found => rw [found]; rfl
  next found => rw [found]; rfl

/-- Settles O32: each instruction's branch, then what it leaves of its queue or object and of its needle. -/
theorem streamsAndSyncAct : Obligations.StreamsAndSyncAct := by
  unfold Obligations.StreamsAndSyncAct
  refine ⟨?push, ?resume, ?pop, ?idle, ?flush, ?add, ?read, ?wait, ?goesOn, ?stale⟩
  case push =>
    intro s n x i stands form plain typed q item
    have own := clusterOf_lt stands.lt
    refine ⟨fun opened room => ?_, fun opened full => ?_⟩
    · obtain ⟨queue, needle, frame, queues, clusters⟩ := State.queue_then_needle (s := s) (q := i.s1) stands.lt own
        (fun u => u.push (i.item s n)) (fun d => d.past 0x60)
      exact ⟨_, exec_sqpush_room stands form plain typed room, queue.trans (SQ.push_open opened _), needle, frame, queues, clusters⟩
    · obtain ⟨queue, needle, -⟩ := State.queue_then_needle (s := s) (q := i.s1) stands.lt own
        (fun u => { u with stalled := u.stalled ++ [n] }) (fun d => { d with st := 2, pushQ := i.s1, pushI := i.item s n })
      exact ⟨_, exec_sqpush_full stands form plain typed opened full, by rw [queue], by rw [queue], needle⟩
  case resume =>
    intro s n d q hn hd waits hq opened room
    subst hd hq
    obtain ⟨queue, needle, -⟩ := State.queue_then_needle (s := s) (q := (s.needle n).pushQ) hn (clusterOf_lt hn)
      (fun u => { u.push (s.needle n).pushI with stalled := u.stalled.erase n }) (fun d => { d with st := 1, pc := d.pc + 4 })
    exact ⟨_, exec_sqpushResume waits room, (congrArg SQ.items queue).trans (congrArg SQ.items (SQ.push_open opened _)),
      congrArg SQ.stalled queue, needle⟩
  case pop =>
    intro s n x i it rest stands form apart opened items
    obtain ⟨queue, needle, frame, -⟩ := State.queue_then_needle (s := s) (q := i.s1) stands.lt (clusterOf_lt stands.lt)
      (fun u => { u with items := rest, timer := u.us != 0 && !rest.isEmpty })
      (fun d => ((d.ws i.d (it.setWidth 64)).ws i.s2 (BitVec.ofNat 64 (fld it 71 64))).past 0x61)
    refine ⟨_, exec_sqpop_item stands form apart opened items, ?_⟩
    rw [State.updNeedle_updNeedle]
    exact ⟨congrArg SQ.items queue, needle, frame⟩
  case idle =>
    intro s n x i
    exact exec_sqpop_idle
  case flush =>
    intro s n x i it stands form plain opened last none
    obtain ⟨queue, needle, frame, -⟩ := State.queue_then_needle (s := s) (q := i.s1) stands.lt (clusterOf_lt stands.lt)
      (fun u => { u with items := [], draining := !it.msb, timer := false }) (fun d => d.past 0x62)
    exact ⟨_, exec_sqflush stands form plain opened last none, congrArg SQ.items queue, congrArg SQ.draining queue,
      congrArg SQ.timer queue, needle, frame⟩
  case add =>
    intro s n o x i stands plain fn form object
    refine ⟨_, exec_syadd stands plain fn form object, ?_, ?_⟩
    · rw [State.updNeedle_obj]
      exact (State.syncPut_obj s o _).1
    · have running : (s.needle n).st ≠ 3 := ne_of_eq_of_ne stands.runs (by decide)
      rw [State.updNeedle_self stands.lt]
      exact congrArg (NeedleS.past · 0) (State.syncPut_needle s o _ n running)
  case read =>
    intro s n o x i
    exact exec_syrd
  case wait =>
    intro s n o x i stands plain fn object
    exact ⟨exec_sywait_satisfied stands plain fn object, fun below =>
      ⟨_, exec_sywait_waits stands plain fn object below, State.onlyNeedle_upd stands.lt rfl⟩⟩
  case goesOn =>
    intro s n v
    exact exec_sywaitResume
  case stale =>
    intro s c q hc hq timed holds opened
    refine ⟨_, exec_staleTailFire hc hq timed holds opened, ?_, fun p o owner named object => ?_⟩
    · rw [State.raised_sq, State.updSq_same hc]
    · have obj : s.staleObj c q = some o := by simp only [State.staleObj, owner, Option.bind_some, named, if_false, object]
      rw [obj]
      refine (State.syncPut_obj _ o _).1.trans ?_
      rw [State.obj, State.updSq, State.updClu_sync]
      rfl

end Sys2Proof.Machine
end

section
/-!
PROOFS of `Obligations.ClustersAndRunsAct` (O34): clusters cleared and repaired, runs started and faulted.
-/

namespace Sys2Proof.Machine

variable {s : State} {n c j id : Nat}

/-! ### Repairs (R266) -/

theorem Aside.needleRec {t : State} (reason c slot addr : Nat) (h : Aside s t) : Aside s (t.needleRec reason c slot addr) := h.postRec _

section Blind

variable {α : Type} {f : State → α} (aside : ∀ x : State, f x.beyond = f x) (blind : ∀ (x : State) d g, f (x.updClu d g) = f x)
include aside blind

/-- A part of the state that shows neither clusters nor the host's side is as before the repairs of a cluster. -/
theorem repairNext_fld (k c : Nat) (s : State) : f (repairNext c k s) = f s := by
  induction k generalizing s with
  | zero => rfl
  | succ k ih =>
    cases repair : (s.clu c).repair with
    | nil =>
      simp only [repairNext, repair]
      split
      · exact blind ..
      · rfl
    | cons j rest =>
      simp only [repairNext, repair]
      split
      · exact blind ..
      · exact (ih _).trans (((Aside.needleRec 3 c j 0 (Aside.refl _)).fld f aside).trans (blind ..))

theorem State.clusterSettle_fld (c : Nat) (s : State) : f (s.clusterSettle c) = f s := by
  unfold State.clusterSettle
  dsimp only
  split
  · rfl
  split
  · exact blind ..
  · refine (repairNext_fld aside blind 9 c _).trans ?_
    unfold State.onIf
    split
    · exact blind ..
    · rfl

end Blind

/-- A cluster with nothing to repair shows READY or UNALLOTTED again, if it was under repair. -/
theorem repairNext_of_repaired (k : Nat) (repaired : (s.clu c).repair = []) :
    repairNext c (k + 1) s = if (s.clu c).st = 4 then s.updClu c (fun u => { u with st := if u.owner.isSome then 2 else 0 }) else s := by
  simp only [repairNext, repaired]

/-! ### Clearing (R243) -/

/-- The memories of a cluster zeroed and the cluster READY, its repairs still to come. -/
def State.cleared (s : State) (c : Nat) : State :=
  { s with
    shared := Memory.zero s.shared (c * 2 ^ 22) (2 ^ 22)
    imem := Memory.zero s.imem (c * 2 ^ 18) (2 ^ 18)
    localM := Memory.zero s.localM (c * 2 ^ 23) (2 ^ 23) }.updClu c fun u => { u with st := 2 }

theorem exec_clusterClearDone (hc : c < 64) (clearing : (s.clu c).st = 1) :
    exec (.clusterClearDone c) s = .next ((s.cleared c).clusterSettle c) := by
  simp only [exec, execClusterClearDone, hc, clearing, decide_true, Bool.and_self, if_true]
  rfl

theorem State.clu_cleared (hc : c < 64) (s : State) : (s.cleared c).clu c = { s.clu c with st := 2 } :=
  (State.clu_updClu ..).trans (if_pos ⟨rfl, hc⟩)

/-- An idle READY cluster with nothing to repair stays as it is. -/
theorem State.clusterSettle_of_ready (ready : (s.clu c).st = 2) (untested : (s.clu c).bist = false) (idle : s.clusterBusy c = false)
    (repaired : (s.clu c).repair = []) : s.clusterSettle c = s := by
  simp [State.clusterSettle, State.onIf, repairNext_of_repaired, ready, untested, idle, repaired]

/-! ### Failing needles and spares (R266) -/

theorem exec_needleFailed (hn : n < 512) (there : bitAt (s.clu (clusterOf n)).present (needleSlot n) = true)
    (free : (s.needle n).run = none) :
    exec (.needleFailed n) s = .next ((((s.updClu (clusterOf n) fun u => { u with
      present := u.present &&& ~~~(1#8 <<< needleSlot n), repair := u.repair ++ [needleSlot n] }).needleRec 1 (clusterOf n)
        (needleSlot n) 0)).clusterSettle (clusterOf n)) := by
  simp only [exec, execNeedleFailed, State.failNeedle, State.runLost, hn, there, free, if_true, Bool.not_true, Bool.false_eq_true, if_false]

/-- A spare stands in slot `j` of cluster `c`, its local memory zeroed. -/
def State.spared (s : State) (c j : Nat) : State :=
  ({ s with
      localM := Memory.zero s.localM ((8 * c + j) * 2 ^ 20) (2 ^ 20)
      needles := AMap.erase s.needles (8 * c + j) }.updDie (c / 16) fun d => { d with spares := d.spares - 1 }).updClu c fun u =>
    { u with present := u.present ||| (1#8 <<< j), repair := [] }

theorem exec_needleSpared (hc : c < 64) (repairs : (s.clu c).st = 4) (failed : (s.clu c).repair = [j])
    (spare : (s.die (c / 16)).spares ≠ 0) :
    exec (.needleSpared c) s = .next (repairNext c 9 ((s.spared c j).needleRec 2 c j 0)) := by
  simp only [exec, execNeedleSpared, hc, repairs, failed, bne_iff_ne.mpr spare, decide_true, Bool.and_self, if_true]
  rfl

theorem State.clu_spared (hc : c < 64) (s : State) (j : Nat) :
    (s.spared c j).clu c = { s.clu c with present := (s.clu c).present ||| (1#8 <<< j), repair := [] } := by
  rw [State.spared, State.clu_updClu, if_pos ⟨rfl, hc⟩, State.clu, State.updDie_clus]
  rfl

/-- The state in which the spare's coming is recorded and its cluster is out of repair. -/
def State.spareIn (s : State) (c j : Nat) : State :=
  ((s.spared c j).needleRec 2 c j 0).updClu c fun u => { u with st := if u.owner.isSome then 2 else 0 }

theorem State.clu_recorded (s : State) (j : Nat) : ((s.spared c j).needleRec 2 c j 0).clu c = (s.spared c j).clu c :=
  (Aside.needleRec 2 c j 0 (Aside.refl _)).fld (fun t => t.clu c) fun _ => rfl

/-- With its one failed slot filled, a cluster has no repair left. -/
theorem repairNext_spared (hc : c < 64) (repairs : (s.clu c).st = 4) :
    repairNext c 9 ((s.spared c j).needleRec 2 c j 0) = s.spareIn c j := by
  have shown := (State.clu_recorded s j).trans (State.clu_spared hc s j)
  exact (repairNext_of_repaired 8 (by rw [shown])).trans (if_pos (by rw [shown]; exact repairs))

theorem State.clu_spareIn (hc : c < 64) (s : State) (j : Nat) : (s.spareIn c j).clu c = { s.clu c with
    present := (s.clu c).present ||| (1#8 <<< j), repair := [], st := if (s.clu c).owner.isSome then 2 else 0 } := by
  rw [State.spareIn, State.clu_updClu, if_pos ⟨rfl, hc⟩, State.clu_recorded, State.clu_spared hc]

/-- A part of the state that shows neither clusters nor the host's side is as the spare found it. -/
theorem State.spareIn_fld {α : Type} {f : State → α} (aside : ∀ x : State, f x.beyond = f x)
    (blind : ∀ (x : State) d g, f (x.updClu d g) = f x) : f (s.spareIn c j) = f (s.spared c j) :=
  (blind ..).trans ((Aside.needleRec 2 c j 0 (Aside.refl _)).fld f aside)

theorem State.die_spareIn (hc : c < 64) (s : State) (j : Nat) :
    (s.spareIn c j).die (c / 16) = { s.die (c / 16) with spares := (s.die (c / 16)).spares - 1 } := by
  rw [State.die, State.spareIn_fld (fun _ => rfl) (fun _ _ _ => State.updClu_dies ..), State.spared, State.updClu_dies]
  exact (State.die_updDie ..).trans (if_pos ⟨rfl, by omega⟩)

/-- Bit `j` of a byte, once set, is seen. -/
theorem bitAt_or_shiftLeft (b : BitVec 8) (hj : j < 8) : bitAt (b ||| (1#8 <<< j)) j = true := by
  simp [bitAt, hj]

/-! ### Launches (R310) -/

section Launch

variable {l : LaunchW} {d : Desc}

variable (one : s.launches = [l]) (launch : l.launch = some d)
include one launch

/-- A launch that completes without a run. -/
theorem exec_launchStart_ends {st : Nat} (goes : s.launchGo l d = .ends st) :
    exec .launchStart s = .next (
      let t := { s with launches := [] }.computeDone l.q l.work (launchCqe (fld d 191 128) 0 0 0 0 0 (qnum l.q) st) 0 [] none
      startHeads (t.launches.length + 1) t) := by
  simp only [exec, execLaunchStart, one, launch, Option.getD_some, goes, List.find?_cons, beq_self_eq_true, List.filter_cons,
    Option.isSome_some, Bool.and_self, if_true, List.filter_nil, Bool.not_false, List.erase_cons_head]

/-- A launch that starts. -/
theorem exec_launchStart_on {g : Prog} {cs : Nats} (goes : s.launchGo l d = .on g cs) :
    exec .launchStart s = .next (
      let t := { s with launches := [] }.kernelStart l d g cs
      startHeads t.launches.length.succ t) := by
  simp only [exec, execLaunchStart, one, launch, Option.getD_some, goes, List.find?_cons, beq_self_eq_true, List.filter_cons,
    Option.isSome_some, Bool.and_self, if_true, List.filter_nil, Bool.not_false, List.erase_cons_head]

end Launch

/-! ### Runs (R309, R311, R313, R314, R344) -/

/-- A run that has run its budget down faults on the needle it lists first (R314). -/
theorem exec_runBudgetExpiry {r : RunS} {rest : Nats} (found : AMap.get? s.runs id = some r) (left : r.left = n :: rest) :
    exec (.runBudgetExpiry id) s =
      .next ({ s with fresh := s.fresh + 1 }.runFault id n 1 8 (s.needle n).pc.toNat s.freshVal.1.toNat) := by
  simp only [exec, execRunBudgetExpiry, found, left]
  rfl

/-- Settles O34: each command's branch, then what it leaves of the cluster; a run that starts is what its command makes of it. -/
theorem clustersAndRunsAct : Obligations.ClustersAndRunsAct := by
  unfold Obligations.ClustersAndRunsAct
  refine ⟨?clear, fun s n => exec_needleFailed, ?spare, ?budget, ?ends, ?starts, ?chunk, ?handler, ?hook⟩
  case clear =>
    intro s c hc clearing
    refine ⟨_, exec_clusterClearDone hc clearing, fun k => ?_, fun k => ?_, fun k => ?_, fun untested idle repaired => ?_⟩
    · rw [State.clusterSettle_fld (f := State.shared) (fun _ => rfl) (fun _ _ _ => State.updClu_shared ..), State.cleared, State.updClu_shared]
      exact Memory.rd_zero ..
    · rw [State.clusterSettle_fld (f := State.imem) (fun _ => rfl) (fun _ _ _ => State.updClu_imem ..), State.cleared, State.updClu_imem]
      exact Memory.rd_zero ..
    · rw [State.clusterSettle_fld (f := State.localM) (fun _ => rfl) (fun _ _ _ => State.updClu_localM ..), State.cleared, State.updClu_localM]
      exact Memory.rd_zero ..
    · have shown := State.clu_cleared hc s
      have busy : (s.cleared c).clusterBusy c = false := by
        rw [State.clusterBusy, State.cleared, State.updClu_runs]; exact idle
      rw [State.clusterSettle_of_ready (by rw [shown]) (by rw [shown]; exact untested) busy (by rw [shown]; exact repaired), shown]
  case spare =>
    intro s c j hc repairs failed hj spare
    refine ⟨_, (exec_needleSpared hc repairs failed spare).trans (congrArg _ (repairNext_spared hc repairs)), ?_, ?_, ?_, ?_, ?_⟩
    · rw [State.clu_spareIn hc]
      exact bitAt_or_shiftLeft _ hj
    · rw [State.clu_spareIn hc]
    · rw [State.die_spareIn hc]
      exact Nat.sub_add_cancel (Nat.pos_of_ne_zero spare)
    · rw [State.needle, State.spareIn_fld (fun _ => rfl) (fun _ _ _ => State.updClu_needles ..), State.spared, State.updClu_needles,
        State.updDie_needles, AMap.get, AMap.get?_erase, if_pos rfl]
      rfl
    · intro k low high
      rw [State.spareIn_fld (f := State.localM) (fun _ => rfl) (fun _ _ _ => State.updClu_localM ..), State.spared, State.updClu_localM,
        State.updDie_localM]
      exact (Memory.rd_zero ..).trans (if_pos ⟨low, high⟩)
  case budget =>
    intro s id n rest r found left
    exact ⟨_, _, exec_runBudgetExpiry found left⟩
  case ends =>
    intro s l d st one launch goes
    exact exec_launchStart_ends one launch goes
  case starts =>
    intro s l d g cs one launch goes
    exact exec_launchStart_on one launch goes
  case chunk =>
    intro s cid chunk at_ n msn m b message bound slot free read unread fresh len
    simp only [exec, execTransformChunkReady, BitVec.ofNat_toNat, BitVec.setWidth_eq, message, bound, slot, free, read, unread, fresh,
      Option.isSome_none, Bool.or_self, Bool.false_eq_true, if_false]
    rfl
  case handler =>
    intro s cid c k n msn m b p rest message bound waits slot free sound stays data a u
    have uninvoked : ¬p.op = 8 := by rw [data]; decide
    have unsent : ¬p.op = 4 := by rw [data]; decide
    simp only [exec, execHandlerRunStart, BitVec.ofNat_toNat, BitVec.setWidth_eq, message, bound, waits, slot, free, sound, stays,
      uninvoked, unsent, Option.isSome_none, decide_false, Bool.false_and, Bool.or_self, Bool.false_eq_true, if_false]
    rw [data]
    rfl
  case hook =>
    intro s slot chunk cl k n ph bd c hooked bound runs fresh free needle x b a u
    have hooked : ((s.coll slot).chunk chunk).hook = some ph := hooked
    have free : s.pickSlot bd (cbDepth (s.coll slot).act) = some (cl, k) := free
    have goes : (s.coll slot).run.isNone = false := by rw [Option.isNone_eq_false_iff]; exact runs
    simp only [exec, execHookRunStart, hooked, bound, goes, fresh, free, needle, Bool.or_self, Bool.false_eq_true, if_false]
    rfl

end Sys2Proof.Machine
end

section
/-!
PROOFS of `Obligations.StepsTakeOneCommand` (O59), `Obligations.StepRunsTheFrontCommand` (O51) and `Obligations.FusesAreOnlyBlown` (O60).

What outlasts every step is gathered in `State.lasting`: the queue of waiting commands and the fuses. One lemma for each operation of the
model says that it leaves them alone; only the end of a fuse pulse and KEK_ROTATE blow fuses, and for these `State.Since` says that
nothing is taken back. The lemmas stand in the order of the model's files.
-/

namespace Sys2Proof.Machine

/-- What no step takes back: the queue of waiting commands, the anti-rollback counter, the key epoch and slot 0's revocation. -/
def State.lasting (s : State) : List Instr × BitVec 8 × BitVec 5 × Bool :=
  (s.pending, s.thimble.svnFuse, s.thimble.kekEpoch, s.thimble.slot0Revoked)

/-- A state written out field by field: what lasts is in its first field and its thimble. -/
@[simp] theorem State.lasting_mk {p x1 x2 x3 x4 x5 x6 x7 x8 x9 x10 h x12 x13 x14 x15 x16 x17 x18 x19 x20 x21 x22 x23 x24 x25 x26 x27 x28
    x29 x30 x31 x32 x33 x34 x35 x36 x37 x38 x39 x40 x41 x42 x43 x44 x45 x46 x47 x48 x49 x50 x51 x52} :
    (State.mk p x1 x2 x3 x4 x5 x6 x7 x8 x9 x10 h x12 x13 x14 x15 x16 x17 x18 x19 x20 x21 x22 x23 x24 x25 x26 x27 x28 x29 x30 x31 x32
      x33 x34 x35 x36 x37 x38 x39 x40 x41 x42 x43 x44 x45 x46 x47 x48 x49 x50 x51 x52).lasting =
    (p, h.svnFuse, h.kekEpoch, h.slot0Revoked) := by simp only [State.lasting]

/-- The fields of a state gathered again. -/
@[simp] theorem State.lasting_fold (s : State) :
    (s.pending, s.thimble.svnFuse, s.thimble.kekEpoch, s.thimble.slot0Revoked) = s.lasting := rfl

@[simp] theorem State.lasting_ite {c : Prop} [Decidable c] (a b : State) :
    (if c then a else b).lasting = if c then a.lasting else b.lasting := apply_ite _ _ _ _

@[simp] theorem Ans.st_ite {c : Prop} [Decidable c] (a b : Ans) : (if c then a else b).st = if c then a.st else b.st :=
  apply_ite _ _ _ _

@[simp] theorem fst_ite {c : Prop} [Decidable c] {α β : Type} (a b : α × β) : (if c then a else b).1 = if c then a.1 else b.1 :=
  apply_ite _ _ _ _

@[simp] theorem afterOut_next (s t : State) : afterOut s (.next t) = t := rfl

/-! ### Repeated steps -/

theorem foldl_lasting {α : Type} {f : State → α → State} (h : ∀ t a, (f t a).lasting = t.lasting) {xs : List α} {s : State} :
    (xs.foldl f s).lasting = s.lasting := by
  induction xs generalizing s with
  | nil => rfl
  | cons a xs ih => exact ih.trans (h s a)

theorem foldl_fst_lasting {α β : Type} {f : State × β → α → State × β} (h : ∀ r a, (f r a).1.lasting = r.1.lasting) {xs : List α}
    {r : State × β} : (xs.foldl f r).1.lasting = r.1.lasting := by
  induction xs generalizing r with
  | nil => rfl
  | cons a xs ih => exact ih.trans (h r a)

/-! ### What an instruction leaves -/

/-- The state that an instruction leaves, `s` where it traps or ends. -/
def Did.after (s : State) : Did → State
  | .ok t => t
  | .jump t _ => t
  | .trap _ _ => s
  | .stay t => t
  | .lost _ => s

@[simp] theorem Did.after_ite {c : Prop} [Decidable c] (s : State) (a b : Did) :
    (if c then a else b).after s = if c then a.after s else b.after s := apply_ite (Did.after s) _ _ _

@[simp] theorem Did.after_ok (s t : State) : (Did.ok t).after s = t := rfl
@[simp] theorem Did.after_jump (s t : State) (n : Nat) : (Did.jump t n).after s = t := rfl
@[simp] theorem Did.after_trap (s : State) (n m : Nat) : (Did.trap n m).after s = s := rfl
@[simp] theorem Did.after_stay (s t : State) : (Did.stay t).after s = t := rfl
@[simp] theorem Did.after_lost (s : State) (n : Nat) : (Did.lost n).after s = s := rfl

variable {s : State}


/-! ### `Ops` -/

@[simp] theorem State.updMgmt_lasting (s : State) (f : MgmtS → MgmtS) : (s.updMgmt f).lasting = s.lasting := by simp [State.updMgmt]
@[simp] theorem State.cntMgmt_lasting (s : State) (i n : Nat) : (s.cntMgmt i n).lasting = s.lasting := by simp [State.cntMgmt]
@[simp] theorem State.macTick_lasting (s : State) : s.macTick.lasting = s.lasting := by fun_cases State.macTick s <;> simp +zetaDelta
@[simp] theorem tick_lasting (s : State) : (tick s).lasting = s.lasting := by simp [tick]
@[simp] theorem State.onIf_lasting {b : Bool} {f : State → State} (h : ∀ x, (f x).lasting = x.lasting) :
    (s.onIf b f).lasting = s.lasting := by
  simp [State.onIf, h]
@[simp] theorem State.updFunc_lasting (s : State) (p : Nat) (f : FuncS → FuncS) : (s.updFunc p f).lasting = s.lasting := by
  simp [State.updFunc]

/-! ### `Operands` -/

@[simp] theorem State.adminSettle_lasting (s : State) (p : Nat) : (s.adminSettle p).lasting = s.lasting := by simp [State.adminSettle]

/-! ### `Ops` -/

@[simp] theorem State.updPart_lasting (s : State) (p : Nat) (f : PartS → PartS) : (s.updPart p f).lasting = s.lasting := by
  simp [State.updPart]

/-! ### `Operands` -/

@[simp] theorem State.paid_lasting (s : State) (h : Issue) : (s.paid h).lasting = s.lasting := by
  fun_cases State.paid s h <;> simp +zetaDelta

/-! ### `Ops` -/

@[simp] theorem State.updHost_lasting (s : State) (f : HostS → HostS) : (s.updHost f).lasting = s.lasting := by simp [State.updHost]
@[simp] theorem State.cntHost_lasting (s : State) (i n : Nat) : (s.cntHost i n).lasting = s.lasting := by simp [State.cntHost]

/-! ### `HostIO` -/

@[simp] theorem State.issueReq_lasting (s : State) (r : HReq) : (s.issueReq r).lasting = s.lasting := by simp [State.issueReq]
@[simp] theorem State.hostReq_lasting (s : State) (r : HReq) : (s.hostReq r).lasting = s.lasting := by simp [State.hostReq]
@[simp] theorem State.hostWrite_lasting (s : State) (func addr : Nat) (data : Bytes) :
    (s.hostWrite func addr data).lasting = s.lasting := by simp [State.hostWrite]

/-! ### `Ops` -/

@[simp] theorem State.updQueue_lasting (s : State) (k : Nat) (f : QueueS → QueueS) : (s.updQueue k f).lasting = s.lasting := by
  fun_cases State.updQueue s k f <;> simp +zetaDelta
@[simp] theorem State.updFaults_lasting (s : State) (f : FaultS → FaultS) : (s.updFaults f).lasting = s.lasting := by simp [State.updFaults]
@[simp] theorem State.each_lasting {ks : Nats} {f : Nat → State → State} (h : ∀ k x, (f k x).lasting = x.lasting) :
    (s.each ks f).lasting = s.lasting :=
  foldl_lasting fun t k => h k t

/-! ### `HostIO` -/

@[simp] theorem State.msix_lasting (s : State) (func vec : Nat) : (s.msix func vec).lasting = s.lasting := by simp [State.msix]
@[simp] theorem State.ringNotify_lasting (s : State) (k : Nat) : (s.ringNotify k).lasting = s.lasting := by simp [State.ringNotify]
@[simp] theorem State.ringPi_lasting (s : State) (k : Nat) (pi : BitVec 32) : (s.ringPi k pi).lasting = s.lasting := by simp [State.ringPi]
@[simp] theorem State.hostFlush_lasting (s : State) (func addr : Nat) : (s.hostFlush func addr).lasting = s.lasting := by
  simp [State.hostFlush]
@[simp] theorem State.ringPutNow_lasting (s : State) (k : Nat) (e : BitVec 512) : (s.ringPutNow k e).lasting = s.lasting := by
  simp [State.ringPutNow]
@[simp] theorem State.putEvent_lasting (s : State) (k : Nat) (e : BitVec 512) : (s.putEvent k e).1.lasting = s.lasting := by
  fun_cases State.putEvent s k e <;> simp +zetaDelta
@[simp] theorem State.postSummary_lasting (s : State) (p : Nat) : (s.postSummary p).lasting = s.lasting := by
  fun_cases State.postSummary s p <;> simp +zetaDelta
@[simp] theorem State.faultLost_lasting (s : State) (p cls : Nat) (seq : BitVec 32) : (s.faultLost p cls seq).lasting = s.lasting := by
  simp [State.faultLost]
@[simp] theorem State.recTo_lasting (s : State) (p cls : Nat) (seq : BitVec 32) (r : FaultRec) :
    (s.recTo p cls seq r).1.lasting = s.lasting := by fun_cases State.recTo s p cls seq r <;> simp +zetaDelta
@[simp] theorem State.recToManager_lasting (s : State) (r : Rec) (seq : BitVec 32) (now : BitVec 64) (logged copy : Bool) :
    (s.recToManager r seq now logged copy).lasting = s.lasting := by simp [State.recToManager]
@[simp] theorem State.postRec_lasting (s : State) (r : Rec) : (s.postRec r).lasting = s.lasting := by
  fun_cases State.postRec s r <;> simp +zetaDelta
@[simp] theorem State.ringPut_lasting (s : State) (k : Nat) (e : BitVec 256) : (s.ringPut k e).lasting = s.lasting := by
  fun_cases State.ringPut s k e <;> simp +zetaDelta

/-! ### `Ops` -/

@[simp] theorem State.updObj_lasting (s : State) (k : Nat) (f : SyncS → SyncS) : (s.updObj k f).lasting = s.lasting := by
  simp [State.updObj]

/-! ### `HostIO` -/

@[simp] theorem State.hostWaiter_lasting (s : State) (obj : Nat) (val : BitVec 64) : (s.hostWaiter obj val).lasting = s.lasting := by
  unfold State.hostWaiter
  dsimp only
  (repeat' split) <;> simp
@[simp] theorem State.needleWaiters_lasting (s : State) (obj : Nat) (val : BitVec 64) : (s.needleWaiters obj val).lasting = s.lasting := by
  simp [State.needleWaiters]
@[simp] theorem State.syncPut_lasting (s : State) (obj : Nat) (val : BitVec 64) : (s.syncPut obj val).lasting = s.lasting := by
  simp [State.syncPut]
@[simp] theorem State.syncAdd_lasting (s : State) (obj : Nat) (v : BitVec 64) : (s.syncAdd obj v).lasting = s.lasting := by
  simp [State.syncAdd]
@[simp] theorem State.entryNow_lasting (s : State) (k : Nat) (e : BitVec 256) (sig : Option Nat) :
    (s.entryNow k e sig).lasting = s.lasting := by fun_cases State.entryNow s k e sig <;> simp +zetaDelta
@[simp] theorem State.complete_lasting (s : State) (k : Nat) (e : BitVec 256) (d : DataPath) (sig : Option Nat) :
    (s.complete k e d sig).lasting = s.lasting := by fun_cases State.complete s k e d sig <;> simp +zetaDelta

/-! ### `Operands` -/

@[simp] theorem State.setA2H_lasting (s : State) (func : Nat) (bits : BitVec 32) : (s.setA2H func bits).lasting = s.lasting := by
  simp [State.setA2H]
@[simp] theorem State.replyMbox_lasting (s : State) (func : Nat) (r : Reply) : (s.replyMbox func r).lasting = s.lasting := by
  simp [State.replyMbox]
@[simp] theorem State.replyOob_lasting (s : State) (seq : Nat) (r : Reply) (res : Bytes) : (s.replyOob seq r res).lasting = s.lasting := by
  simp [State.replyOob]
@[simp] theorem State.sendReply_lasting (s : State) (h : Issue) (r : Reply) (res : Bytes) (first : Bool) :
    (s.sendReply h r res first).lasting = s.lasting := by unfold State.sendReply; dsimp only; (repeat' split) <;> simp
@[simp] theorem State.answer_lasting (s : State) (h : Issue) (op : Nat) (a : Ans) (final : Bool) :
    (s.answer h op a final).lasting = s.lasting := by simp [State.answer]
@[simp] theorem Ans.busy_lasting (s : State) (index : Nat) : (Ans.busy s index).st.lasting = s.lasting := by simp [Ans.busy]
@[simp] theorem Ans.bad_lasting (s : State) (index reason : Nat) : (Ans.bad s index reason).st.lasting = s.lasting := by simp [Ans.bad]
@[simp] theorem State.owe_lasting (s : State) (h : Issue) : (s.owe h).lasting = s.lasting := by fun_cases State.owe s h <;> simp +zetaDelta
@[simp] theorem State.longStart_lasting (s : State) (h : Issue) (op : Nat) : (s.longStart h op).lasting = s.lasting := by
  simp [State.longStart]
@[simp] theorem vuino_lasting {h : Issue} {op : Nat} {vals : Nats} {body : State → Ans} (hb : ∀ x, (body x).st.lasting = x.lasting) :
    (vuino h op vals body s).lasting = s.lasting := by
  unfold vuino
  split
  · simp
  · dsimp only
    (repeat' split) <;> simp [hb]
theorem vuino_after {h : Issue} {op : Nat} {vals : Nats} {body : State → Ans} (hb : ∀ x, (body x).st.lasting = x.lasting) :
    (afterOut s (.next (vuino h op vals body s))).lasting = s.lasting := vuino_lasting hb
@[simp] theorem Ans.ok_lasting (s : State) (items : Items) : (Ans.ok s items).st.lasting = s.lasting := by simp [Ans.ok]

/-! ### `Queues` -/

@[simp] theorem execNop_lasting (h : Issue) (s : State) : (afterOut s (execNop h s)).lasting = s.lasting := by simp [execNop]
@[simp] theorem execIdentify_lasting (h : Issue) (s : State) : (afterOut s (execIdentify h s)).lasting = s.lasting := by simp [execIdentify]
@[simp] theorem execCmdProgress_lasting (h : Issue) (tag : Nat) (s : State) : (afterOut s (execCmdProgress h tag s)).lasting = s.lasting :=
  vuino_after fun s => by split <;> simp
@[simp] theorem execQCreate_lasting (h : Issue) (blk : BitVec 256) (s : State) : (afterOut s (execQCreate h blk s)).lasting = s.lasting :=
  vuino_after fun s => by split <;> simp
@[simp] theorem execQDestroy_lasting (h : Issue) (qnum : Nat) (s : State) : (afterOut s (execQDestroy h qnum s)).lasting = s.lasting :=
  vuino_after fun s => by dsimp only; split <;> simp
@[simp] theorem execQQuery_lasting (h : Issue) (qnum : Nat) (s : State) : (afterOut s (execQQuery h qnum s)).lasting = s.lasting := by
  simp [execQQuery]

/-! ### `Operands` -/

@[simp] theorem Ans.wait_lasting (s : State) : (Ans.wait s).st.lasting = s.lasting := by simp [Ans.wait]

/-! ### `Ops` -/

@[simp] theorem State.updCtx_lasting (s : State) (c : Nat) (f : CtxS → CtxS) : (s.updCtx c f).lasting = s.lasting := by simp [State.updCtx]

/-! ### `Segments` -/

@[simp] theorem State.newEpochs_lasting (s : State) (ctx : Nat) (segs : Nats) : (s.newEpochs ctx segs).lasting = s.lasting := by
  simp [State.newEpochs]
@[simp] theorem State.drainOr_lasting (s : State) (h : Issue) (ctx : Nat) (segs : Nats) (isStitch : Bool) :
    (s.drainOr h ctx segs isStitch).st.lasting = s.lasting := by simp [State.drainOr]
@[simp] theorem State.stitch_lasting (s : State) (h : Issue) (ctx : Nat) : (s.stitch h ctx).st.lasting = s.lasting := by simp [State.stitch]
@[simp] theorem segTurn_lasting (op : Nat) (h : Issue) (ctx seg : Nat) (v : BitVec 256) (s : State) :
    (segTurn op h ctx seg v s).st.lasting = s.lasting := by fun_cases segTurn op h ctx seg v s <;> simp +zetaDelta
@[simp] theorem segCmd_lasting (op : Nat) (h : Issue) (ctx seg : Nat) (v : BitVec 256) (s : State) :
    (segCmd op h ctx seg v s).st.lasting = s.lasting := by fun_cases segCmd op h ctx seg v s <;> simp +zetaDelta
@[simp] theorem execSegWrite_lasting (h : Issue) (ctx seg : Nat) (entry : BitVec 256) (s : State) :
    (afterOut s (execSegWrite h ctx seg entry s)).lasting = s.lasting := by simp [execSegWrite]
@[simp] theorem execCtxWrite_lasting (h : Issue) (ctx : Nat) (hdr : BitVec 128) (s : State) :
    (afterOut s (execCtxWrite h ctx hdr s)).lasting = s.lasting := by simp [execCtxWrite]
@[simp] theorem execSegStitch_lasting (h : Issue) (ctx : Nat) (s : State) : (afterOut s (execSegStitch h ctx s)).lasting = s.lasting := by
  simp [execSegStitch]
@[simp] theorem execSegUnmap_lasting (h : Issue) (ctx seg : Nat) (s : State) :
    (afterOut s (execSegUnmap h ctx seg s)).lasting = s.lasting := by simp [execSegUnmap]
@[simp] theorem execSegQuery_lasting (h : Issue) (ctx seg copy : Nat) (s : State) :
    (afterOut s (execSegQuery h ctx seg copy s)).lasting = s.lasting := by simp [execSegQuery]

/-! ### `Operands` -/

@[simp] theorem State.answerLater_lasting (s : State) (h : Issue) (op status : Nat) (items : Items) :
    (s.answerLater h op status items).lasting = s.lasting := by simp [State.answerLater]

/-! ### `Segments` -/

@[simp] theorem segResume_lasting (ctx a1 : Nat) (a2 : State) : (segResume ctx a1 a2).lasting = a2.lasting := by
  induction a1 generalizing a2 with
  | zero => rfl
  | succ n ih => unfold segResume; split <;> simp [ih]
@[simp] theorem State.drainEnd_lasting (s : State) (ctx status : Nat) : (s.drainEnd ctx status).lasting = s.lasting := by
  fun_cases State.drainEnd s ctx status <;> simp +zetaDelta
@[simp] theorem execSegDrainEnd_lasting (ctx : Nat) (s : State) : (afterOut s (execSegDrainEnd ctx s)).lasting = s.lasting := by
  unfold execSegDrainEnd
  simp only [afterOut_next]
  split <;> simp

/-! ### `Ops` -/

@[simp] theorem State.eachOf_lasting {α : Type} {xs : List α} {f : α → State → State} (h : ∀ k x, (f k x).lasting = x.lasting) :
    (s.eachOf xs f).lasting = s.lasting :=
  foldl_lasting fun t k => h k t
@[simp] theorem State.updRst_lasting (s : State) (f : ResetS → ResetS) : (s.updRst f).lasting = s.lasting := by simp [State.updRst]

/-! ### `Faults` -/

@[simp] theorem State.ladderRec_lasting (s : State) (f : FPend) (act rung : Nat) : (s.ladderRec f act rung).lasting = s.lasting := by
  simp [State.ladderRec]

/-! ### `Ops` -/

@[simp] theorem State.updConn_lasting (s : State) (c : Nat) (f : ConnS → ConnS) : (s.updConn c f).lasting = s.lasting := by
  simp [State.updConn]
@[simp] theorem State.updTp_lasting (s : State) (f : TpS → TpS) : (s.updTp f).lasting = s.lasting := by simp [State.updTp]

/-! ### `Conns` -/

@[simp] theorem State.dropWaiting_lasting (s : State) (cid : Nat) : (s.dropWaiting cid).lasting = s.lasting := by simp [State.dropWaiting]
@[simp] theorem State.dropSources_lasting (s : State) (cid : Nat) : (s.dropSources cid).lasting = s.lasting := by simp [State.dropSources]

/-! ### `Pieces` -/

@[simp] theorem copyRetire_lasting (p q a2 : Nat) (a3 : State) : (copyRetire p q a2 a3).lasting = a3.lasting := by
  induction a2 generalizing a3 with
  | zero => rfl
  | succ n ih => unfold copyRetire; dsimp only; (repeat' split) <;> simp [ih]

/-! ### `Ops` -/

@[simp] theorem State.updXfer_lasting (s : State) (x : Nat) (f : Xfer → Xfer) : (s.updXfer x f).lasting = s.lasting := by
  fun_cases State.updXfer s x f <;> simp +zetaDelta

/-! ### `Pieces` -/

@[simp] theorem State.xferSettle_lasting (s : State) (id : Nat) : (s.xferSettle id).lasting = s.lasting := by
  fun_cases State.xferSettle s id <;> simp +zetaDelta
@[simp] theorem State.pieceDone_lasting (s : State) (id off st : Nat) : (s.pieceDone id off st).lasting = s.lasting := by
  simp [State.pieceDone]

/-! ### `Conns` -/

@[simp] theorem State.workDone_lasting (s : State) (q work : Nat) : (s.workDone q work).lasting = s.lasting := by simp [State.workDone]
@[simp] theorem State.reportMsg_lasting (s : State) (cid : Nat) (m : TxMsg) : (s.reportMsg cid m).lasting = s.lasting := by
  fun_cases State.reportMsg s cid m <;> simp +zetaDelta
@[simp] theorem txRetire_lasting (cid a1 : Nat) (a2 : State) : (txRetire cid a1 a2).lasting = a2.lasting := by
  induction a1 generalizing a2 with
  | zero => rfl
  | succ n ih => unfold txRetire; split <;> simp [ih]
@[simp] theorem State.retire_lasting (s : State) (cid : Nat) : (s.retire cid).lasting = s.lasting := by simp [State.retire]
@[simp] theorem State.flushWaitD_lasting (s : State) (cid : Nat) : (s.flushWaitD cid).lasting = s.lasting := by simp [State.flushWaitD]
@[simp] theorem State.flushTx_lasting (s : State) (cid : Nat) (cur : Option (BitVec 32)) (status : Nat) :
    (s.flushTx cid cur status).lasting = s.lasting := by simp [State.flushTx]

/-! ### `Operands` -/

@[simp] theorem State.longEnd_lasting (s : State) (h : Issue) (op : Nat) (a : Ans) : (s.longEnd h op a).lasting = s.lasting := by
  simp [State.longEnd]

/-! ### `Conns` -/

@[simp] theorem State.programsSettle_lasting (s : State) : s.programsSettle.lasting = s.lasting := by
  unfold State.programsSettle
  dsimp only
  rw [State.eachOf_lasting, State.eachOf_lasting]
  · intro e t; split <;> simp
  · intro e t; split <;> simp

/-! ### `Ops` -/

@[simp] theorem State.takeId_lasting (s : State) : s.takeId.2.lasting = s.lasting := by simp [State.takeId]

/-! ### `Pieces` -/

@[simp] theorem State.updBind_lasting (s : State) (k : Nat) (f : Bind → Bind) : (s.updBind k f).lasting = s.lasting := by
  fun_cases State.updBind s k f <;> simp +zetaDelta

/-! ### `Conns` -/

@[simp] theorem giveChunks_lasting (qk a1 : Nat) (a2 : State) : (giveChunks qk a1 a2).lasting = a2.lasting := by
  induction a1 generalizing a2 with
  | zero => rfl
  | succ n ih => unfold giveChunks; dsimp only; (repeat' split) <;> simp [ih]
@[simp] theorem State.assignChunks_lasting (s : State) (qk : Nat) : (s.assignChunks qk).lasting = s.lasting := by simp [State.assignChunks]
@[simp] theorem State.dropSlots_lasting (s : State) (cid : Nat) : (s.dropSlots cid).lasting = s.lasting := by simp [State.dropSlots]
@[simp] theorem State.recvCqe_lasting (s : State) (cid : Nat) (b : RBuf) (bytes imm msn src status : Nat) (d : DataPath) :
    (s.recvCqe cid b bytes imm msn src status d).lasting = s.lasting := by simp [State.recvCqe]
@[simp] theorem State.flushRecv_lasting (s : State) (cid : Nat) : (State.flushRecv s cid).lasting = s.lasting := by
  unfold State.flushRecv
  rw [State.updConn_lasting, State.eachOf_lasting]
  intro m t; split <;> simp

/-! ### `Wire` -/

@[simp] theorem State.usedSeq_lasting (s : State) (cid kind : Nat) (seq : BitVec 32) : (s.usedSeq cid kind seq).lasting = s.lasting := by
  simp [State.usedSeq]

/-! ### `Ops` -/

@[simp] theorem State.updPort_lasting (s : State) (n : Nat) (f : PortS → PortS) : (s.updPort n f).lasting = s.lasting := by
  simp [State.updPort]
@[simp] theorem State.cntCc_lasting (s : State) (i n : Nat) : (s.cntCc i n).lasting = s.lasting := by simp [State.cntCc]

/-! ### `Routing` -/

@[simp] theorem State.updOutq_lasting (s : State) (port vc : Nat) (f : List QPkt → List QPkt) :
    (s.updOutq port vc f).lasting = s.lasting := by simp [State.updOutq]
@[simp] theorem State.enqueue_lasting (s : State) (port : Nat) (q : QPkt) : (s.enqueue port q).lasting = s.lasting := by
  simp [State.enqueue]

/-! ### `Ops` -/

@[simp] theorem State.updRoute_lasting (s : State) (f : RouteS → RouteS) : (s.updRoute f).lasting = s.lasting := by simp [State.updRoute]
@[simp] theorem State.cntRt_lasting (s : State) (i n : Nat) : (s.cntRt i n).lasting = s.lasting := by simp [State.cntRt]

/-! ### `Wire` -/

@[simp] theorem State.assign_lasting (s : State) (q : QPkt) : (s.assign q).lasting = s.lasting := by
  fun_cases State.assign s q <;> simp +zetaDelta
@[simp] theorem State.admitReady_lasting (s : State) (cid : Nat) : (s.admitReady cid).lasting = s.lasting := by
  fun_cases State.admitReady s cid <;> simp +zetaDelta
@[simp] theorem State.inject_lasting (s : State) (cid : Nat) (pkt : Pkt) (psn : Option (BitVec 32)) (ctl : Bool) :
    (s.inject cid pkt psn ctl).lasting = s.lasting := by simp [State.inject]

/-! ### `Conns` -/

@[simp] theorem State.sendNotice_lasting (s : State) (cid op : Nat) (status : BitVec 8) :
    (s.sendNotice cid op status).lasting = s.lasting := by simp [State.sendNotice]
@[simp] theorem State.connError_lasting (s : State) (cid status : Nat) (cur : Option (BitVec 32)) (notice : Bool) :
    (s.connError cid status cur notice).lasting = s.lasting := by simp [State.connError]

/-! ### `Sending` -/

@[simp] theorem State.unqueue_lasting (s : State) (cid : Nat) (psns : List (BitVec 32)) : (s.unqueue cid psns).lasting = s.lasting := by
  simp [State.unqueue]
@[simp] theorem State.updMsg_lasting (s : State) (cid : Nat) (msn : BitVec 32) (f : TxMsg → TxMsg) :
    (s.updMsg cid msn f).lasting = s.lasting := by simp [State.updMsg]
@[simp] theorem State.pumpUd_lasting (s : State) (cid : Nat) : (s.pumpUd cid).lasting = s.lasting := by
  fun_cases State.pumpUd s cid <;> simp +zetaDelta
@[simp] theorem State.usePsn_lasting (s : State) (cid : Nat) : (s.usePsn cid).lasting = s.lasting := by simp [State.usePsn]
@[simp] theorem State.formRead_lasting (s : State) (cid : Nat) (m : TxMsg) (k : Nat) : (s.formRead cid m k).lasting = s.lasting := by
  simp [State.formRead]
@[simp] theorem State.formPacket_lasting (s : State) (cid : Nat) (m : TxMsg) (i n : Nat) (payload : Bytes) :
    (s.formPacket cid m i n payload).lasting = s.lasting := by simp [State.formPacket]
@[simp] theorem pumpLoop_lasting (cid a1 : Nat) (a2 : State) : (pumpLoop cid a1 a2).lasting = a2.lasting := by
  induction a1 generalizing a2 with
  | zero => rfl
  | succ n ih => unfold pumpLoop; dsimp only; (repeat' split) <;> simp [ih]
@[simp] theorem State.pump_lasting (s : State) (cid : Nat) : (s.pump cid).lasting = s.lasting := by simp [State.pump]
@[simp] theorem State.revokedMsg_lasting (s : State) (cid : Nat) (m : TxMsg) (st : Nat) : (s.revokedMsg cid m st).lasting = s.lasting := by
  simp [State.revokedMsg]

/-! ### `Transfers` -/

@[simp] theorem State.sourceFailed_lasting (s : State) (id off st : Nat) : (s.sourceFailed id off st).lasting = s.lasting := by
  unfold State.sourceFailed
  dsimp only
  (repeat' split) <;> simp
@[simp] theorem State.xferFail_lasting (s : State) (id : Nat) : (s.xferFail id).lasting = s.lasting := by
  fun_cases State.xferFail s id <;> simp +zetaDelta

/-! ### `Faults` -/

@[simp] theorem State.engineFail_lasting (s : State) : s.engineFail.lasting = s.lasting := by simp [State.engineFail]

/-! ### `Ops` -/

@[simp] theorem State.cntPort_lasting (s : State) (n i k : Nat) : (s.cntPort n i k).lasting = s.lasting := by simp [State.cntPort]

/-! ### `Links` -/

@[simp] theorem State.dropOwn_lasting (s : State) (q : QPkt) : (s.dropOwn q).lasting = s.lasting := by
  fun_cases State.dropOwn s q <;> simp +zetaDelta

/-! ### `Faults` -/

@[simp] theorem State.engineDrop_lasting (s : State) (idx : Nat) : (s.engineDrop idx).lasting = s.lasting := by simp [State.engineDrop]

/-! ### `Ops` -/

@[simp] theorem State.freshVal_lasting (s : State) : s.freshVal.2.lasting = s.lasting := by simp [State.freshVal]

/-! ### `Runs` -/

@[simp] theorem State.updProg_lasting (s : State) (part handle : Nat) (f : Prog → Prog) :
    (s.updProg part handle f).lasting = s.lasting := by simp [State.updProg]

/-! ### `Needles` -/

@[simp] theorem State.progRec_lasting (s : State) (r : RunS) (reason n code pc info : Nat) :
    (s.progRec r reason n code pc info).lasting = s.lasting := by simp [State.progRec]

/-! ### `Ops` -/

@[simp] theorem State.updClu_lasting (s : State) (c : Nat) (f : ClusS → ClusS) : (s.updClu c f).lasting = s.lasting := by
  simp [State.updClu]

/-! ### `Pieces` -/

@[simp] theorem State.needleRec_lasting (s : State) (reason c slot addr : Nat) : (s.needleRec reason c slot addr).lasting = s.lasting := by
  simp [State.needleRec]

/-! ### `Runs` -/

@[simp] theorem repairNext_lasting (c a1 : Nat) (a2 : State) : (repairNext c a1 a2).lasting = a2.lasting := by
  induction a1 generalizing a2 with
  | zero => rfl
  | succ n ih => unfold repairNext; dsimp only; (repeat' split) <;> simp [ih]
@[simp] theorem State.clusterSettle_lasting (s : State) (c : Nat) : (s.clusterSettle c).lasting = s.lasting := by simp [State.clusterSettle]
@[simp] theorem State.dropRun_lasting (s : State) (id : Nat) : (s.dropRun id).lasting = s.lasting := by
  fun_cases State.dropRun s id <;> simp +zetaDelta
@[simp] theorem computeRetire_lasting (k a1 : Nat) (a2 : State) : (computeRetire k a1 a2).lasting = a2.lasting := by
  induction a1 generalizing a2 with
  | zero => rfl
  | succ n ih => unfold computeRetire; dsimp only; (repeat' split) <;> simp [ih]
@[simp] theorem State.computeDone_lasting (s : State) (k work : Nat) (e : BitVec 256) (host : Nat) (lines : List (BitVec 64)) (sig : Option Nat) :
    (s.computeDone k work e host lines sig).lasting = s.lasting := by simp [State.computeDone]

/-! ### `Needles` -/

@[simp] theorem State.transformFault_lasting (s : State) (cid : Nat) (msn : BitVec 32) :
    (s.transformFault cid msn).lasting = s.lasting := by simp [State.transformFault]

/-! ### `Rx` -/

@[simp] theorem State.putRx_lasting (s : State) (cid : Nat) (m : RxMsg) : (s.putRx cid m).lasting = s.lasting := by simp [State.putRx]

/-! ### `Ops` -/

@[simp] theorem State.cntTp_lasting (s : State) (i n : Nat) : (s.cntTp i n).lasting = s.lasting := by simp [State.cntTp]

/-! ### `Rx` -/

@[simp] theorem State.sendNak_lasting (s : State) (cid : Nat) (psn msn : BitVec 32) (code hint placed : Nat) :
    (s.sendNak cid psn msn code hint placed).lasting = s.lasting := by simp [State.sendNak]
@[simp] theorem State.rxRecord_lasting (s : State) (cid : Nat) (p : Pkt) : (s.rxRecord cid p).lasting = s.lasting := by
  simp [State.rxRecord]
@[simp] theorem State.settleRx_lasting (s : State) (cid : Nat) (p : Pkt) (code bufSt : Nat) :
    (s.settleRx cid p code bufSt).lasting = s.lasting := by simp [State.settleRx]
@[simp] theorem State.updRxMsg_lasting (s : State) (cid : Nat) (msn : BitVec 32) (f : RxMsg → RxMsg) :
    (s.updRxMsg cid msn f).lasting = s.lasting := by simp [State.updRxMsg]

/-! ### `Needles` -/

@[simp] theorem State.settleNoHandler_lasting (s : State) (cid : Nat) (m : RxMsg) : (s.settleNoHandler cid m).lasting = s.lasting := by
  fun_cases State.settleNoHandler s cid m <;> simp +zetaDelta

/-! ### `Ops` -/

@[simp] theorem State.updWin_lasting (s : State) (w : Nat) (f : WinS → WinS) : (s.updWin w f).lasting = s.lasting := by simp [State.updWin]

/-! ### `Rx` -/

@[simp] theorem State.winSettle_lasting (s : State) : s.winSettle.lasting = s.lasting :=
  State.eachOf_lasting fun e t => by split <;> simp
@[simp] theorem State.ackNow_lasting (s : State) (cid : Nat) : (s.ackNow cid).lasting = s.lasting := by simp [State.ackNow]
@[simp] theorem State.ackIf_lasting (s : State) (cid : Nat) (last : Bool) (was : BitVec 32) :
    (s.ackIf cid last was).lasting = s.lasting := by simp [State.ackIf]
@[simp] theorem State.rxHold_lasting (s : State) (cid : Nat) (p : Pkt) (f : RxMsg → RxMsg) : (s.rxHold cid p f).lasting = s.lasting := by
  fun_cases State.rxHold s cid p f <;> simp +zetaDelta
@[simp] theorem State.assignBufs_lasting (s : State) (cid : Nat) (msn) : (s.assignBufs cid msn).lasting = s.lasting :=
  State.eachOf_lasting fun e t => by split <;> simp

/-! ### `Ops` -/

@[simp] theorem State.updMem_lasting (s : State) (f : MemS → MemS) : (s.updMem f).lasting = s.lasting := by simp [State.updMem]

/-! ### `Tiers` -/

@[simp] theorem State.countLines_lasting (s : State) (o n : Nat) : (s.countLines o n).lasting = s.lasting := by simp [State.countLines]
@[simp] theorem State.memRec_lasting (s : State) (reason : Nat) (o : Option Nat) (folded : Nat) :
    (s.memRec reason o folded).lasting = s.lasting := by simp [State.memRec]
@[simp] theorem State.wordRead_lasting (s : State) (l : LineAt) (word : Nat) (o : Option Nat) (r : EccOut) :
    (s.wordRead l word o r).lasting = s.lasting := by fun_cases State.wordRead s l word o r <;> simp +zetaDelta
@[simp] theorem State.wordsRead_lasting (s : State) (ws) : (s.wordsRead ws).lasting = s.lasting :=
  State.eachOf_lasting fun e t => by split <;> simp
@[simp] theorem State.memWrite_lasting (s : State) (o : Nat) (bs : Bytes) : (s.memWrite o bs).1.lasting = s.lasting := by
  simp [State.memWrite]

/-! ### `HostIO` -/

@[simp] theorem State.cacheEvict_lasting (s : State) (line : Nat) : (s.cacheEvict line).lasting = s.lasting := by
  fun_cases State.cacheEvict s line <;> simp +zetaDelta
@[simp] theorem State.cacheRoom_lasting (s : State) (line : Nat) : (s.cacheRoom line).lasting = s.lasting := by
  fun_cases State.cacheRoom s line <;> simp +zetaDelta
@[simp] theorem State.cohWriteLine_lasting (s : State) (func line off : Nat) (bs : Bytes) :
    (s.cohWriteLine func line off bs).lasting = s.lasting := by fun_cases State.cohWriteLine s func line off bs <;> simp +zetaDelta
@[simp] theorem State.cohWrite_lasting (s : State) (func addr : Nat) (bs : Bytes) : (s.cohWrite func addr bs).lasting = s.lasting := by
  simp [State.cohWrite]

/-! ### `Pieces` -/

@[simp] theorem State.putLocal_lasting (s : State) (part ctx seg cq fpa : Nat) (bs : Bytes) :
    (s.putLocal part ctx seg cq fpa bs).1.lasting = s.lasting := by simp [State.putLocal]

/-! ### `Rx` -/

@[simp] theorem State.placeBuf_lasting (s : State) (part cq : Nat) (b : RBuf) (off : Nat) (bs : Bytes) :
    (s.placeBuf part cq b off bs).1.lasting = s.lasting := by fun_cases State.placeBuf s part cq b off bs <;> simp +zetaDelta
@[simp] theorem State.countBusy_lasting (s : State) (hint : Nat) : (s.countBusy hint).lasting = s.lasting := by simp [State.countBusy]
@[simp] theorem State.handlerCopy_lasting (s : State) (cid : Nat) (p : Pkt) : (s.handlerCopy cid p).lasting = s.lasting := by
  simp [State.handlerCopy]
@[simp] theorem State.rxSend_lasting (s : State) (cid : Nat) (p : Pkt) : (s.rxSend cid p).lasting = s.lasting := by
  fun_cases State.rxSend s cid p <;> simp +zetaDelta
@[simp] theorem State.placeWin_lasting (s : State) (cid : Nat) (p : Pkt) : (s.placeWin cid p).1.lasting = s.lasting := by
  simp [State.placeWin]
@[simp] theorem State.rxWrite_lasting (s : State) (cid : Nat) (p : Pkt) : (s.rxWrite cid p).lasting = s.lasting := by simp [State.rxWrite]
@[simp] theorem State.rxTake_lasting (s : State) (cid : Nat) (p : Pkt) (errs : WordErrs) : (s.rxTake cid p errs).lasting = s.lasting := by
  fun_cases State.rxTake s cid p errs <;> simp +zetaDelta
@[simp] theorem State.sendResp_lasting (s : State) (cid : Nat) (p : Pkt) (i : Nat) (bs : Bytes) :
    (s.sendResp cid p i bs).lasting = s.lasting := by simp [State.sendResp]

/-! ### `Tiers` -/

@[simp] theorem State.memRead_lasting (s : State) (o n : Nat) (errs : WordErrs) : (s.memRead o n errs).1.lasting = s.lasting := by
  simp [State.memRead]

/-! ### `Rx` -/

@[simp] theorem State.hostRead_lasting (s : State) (use : HUse) (func addr len : Nat) (coh own : Bool) :
    (s.hostRead use func addr len coh own).lasting = s.lasting := by simp [State.hostRead]
@[simp] theorem State.serveRead_lasting (s : State) (cid : Nat) (p : Pkt) (e) : (State.serveRead s cid p e).lasting = s.lasting := by
  fun_cases State.serveRead s cid p e
  case case4 => exact State.each_lasting fun i t => by split <;> simp
  all_goals simp
@[simp] theorem State.sendAtom_lasting (s : State) (cid : Nat) (p : Pkt) (old : BitVec 64) :
    (s.sendAtom cid p old).lasting = s.lasting := by simp [State.sendAtom]
@[simp] theorem State.cachePut_lasting (s : State) (addr : Nat) (bs : Bytes) : (s.cachePut addr bs).lasting = s.lasting := by
  simp [State.cachePut]
@[simp] theorem State.serveAtomic_lasting (s : State) (cid : Nat) (p : Pkt) (errs : WordErrs) :
    (s.serveAtomic cid p errs).lasting = s.lasting := by fun_cases State.serveAtomic s cid p errs <;> simp +zetaDelta
@[simp] theorem State.rxFinish_lasting (s : State) (cid : Nat) (m : RxMsg) : (s.rxFinish cid m).lasting = s.lasting := by
  unfold State.rxFinish
  dsimp only
  (repeat' split) <;> simp
@[simp] theorem State.rxFlush_lasting (s : State) (cid : Nat) (m : RxMsg) : (s.rxFlush cid m).lasting = s.lasting := by
  fun_cases State.rxFlush s cid m <;> simp +zetaDelta
@[simp] theorem rxPump_lasting (cid a1 : Nat) (a2 : State) : (rxPump cid a1 a2).lasting = a2.lasting := by
  induction a1 generalizing a2 with
  | zero => rfl
  | succ n ih => unfold rxPump; dsimp only; (repeat' split) <;> simp [ih]
@[simp] theorem State.rxSettle_lasting (s : State) (cid : Nat) (last : Bool) : (s.rxSettle cid last).lasting = s.lasting := by
  simp [State.rxSettle]

/-! ### `Needles` -/

@[simp] theorem State.dropHandlerWaits_lasting (s : State) (cid : Nat) : (s.dropHandlerWaits cid).lasting = s.lasting := by
  simp [State.dropHandlerWaits]
@[simp] theorem State.handlerFault_lasting (s : State) (k cid : Nat) (msn : BitVec 32) :
    (s.handlerFault k cid msn).lasting = s.lasting := by simp [State.handlerFault]

/-! ### `Wire` -/

@[simp] theorem State.sendLoose_lasting (s : State) (part : Nat) (pkt : Pkt) (ctl : Bool) :
    (s.sendLoose part pkt ctl).lasting = s.lasting := by simp [State.sendLoose]

/-! ### `Colls` -/

@[simp] theorem State.collSend_lasting (s : State) (k rank : Nat) (h : CHead) : (s.collSend k rank h).lasting = s.lasting := by
  simp [State.collSend]
@[simp] theorem State.sendChunkAck_lasting (s : State) (k n rank : Nat) (bits : BitVec 64) :
    (s.sendChunkAck k n rank bits).lasting = s.lasting := by simp [State.sendChunkAck]

/-! ### `CollRows` -/

@[simp] theorem State.limitNews_lasting (s : State) (k) (b) : (s.limitNews k b).lasting = s.lasting :=
  State.each_lasting fun t u => State.each_lasting fun q v => by dsimp only; split <;> [rfl; split <;> simp]

/-! ### `Ops` -/

@[simp] theorem State.updColl_lasting (s : State) (k : Nat) (f : CollS → CollS) : (s.updColl k f).lasting = s.lasting := by
  simp [State.updColl]

/-! ### `Colls` -/

@[simp] theorem State.updCrun_lasting (s : State) (k : Nat) (f : CollRun → CollRun) : (s.updCrun k f).lasting = s.lasting := by
  simp [State.updCrun]
@[simp] theorem State.drainCheck_lasting (s : State) (k : Nat) : (s.drainCheck k).lasting = s.lasting := by
  fun_cases State.drainCheck s k <;> simp +zetaDelta
@[simp] theorem State.collComplete_lasting (s : State) (k : Nat) : (s.collComplete k).lasting = s.lasting := by
  fun_cases State.collComplete s k <;> simp +zetaDelta
@[simp] theorem State.sendSeal_lasting (s : State) (k t : Nat) (sl : Nat × BitVec 64) (ranks : Nats) :
    (s.sendSeal k t sl ranks).lasting = s.lasting := by simp [State.sendSeal]
@[simp] theorem State.sealTree_lasting (s : State) (k t : Nat) : (s.sealTree k t).lasting = s.lasting := by
  fun_cases State.sealTree s k t <;> simp +zetaDelta
@[simp] theorem State.arriveTree_lasting (s : State) (k t : Nat) : (s.arriveTree k t).lasting = s.lasting := by
  fun_cases State.arriveTree s k t <;> simp +zetaDelta
@[simp] theorem State.updChunk_lasting (s : State) (k n : Nat) (f : CChunk → CChunk) : (s.updChunk k n f).lasting = s.lasting := by
  simp [State.updChunk]
@[simp] theorem State.sendChunk_lasting (s : State) (k n rank ctype : Nat) (wire : Bytes) (is : Nats) :
    (s.sendChunk k n rank ctype wire is).lasting = s.lasting := by simp [State.sendChunk]
@[simp] theorem State.sendReady_lasting (s : State) (k) : (s.sendReady k).lasting = s.lasting := by
  fun_cases State.sendReady s k
  · rfl
  · exact State.eachOf_lasting fun e t => by split <;> simp
@[simp] theorem State.collPump_lasting (s : State) (k : Nat) : (s.collPump k).lasting = s.lasting := by simp [State.collPump]
@[simp] theorem State.dropHooks_lasting (s : State) (k : Nat) : (s.dropHooks k).lasting = s.lasting := by simp [State.dropHooks]
@[simp] theorem State.collLeave_lasting (s : State) (k : Nat) : (s.collLeave k).lasting = s.lasting := by
  unfold State.collLeave
  dsimp only
  split <;> simp
@[simp] theorem State.sendAbort_lasting (s : State) (k rank : Nat) : (s.sendAbort k rank).lasting = s.lasting := by simp [State.sendAbort]
@[simp] theorem State.collAbort_lasting (s : State) (k status chunk : Nat) (again : Bool) :
    (s.collAbort k status chunk again).lasting = s.lasting := by simp [State.collAbort]
@[simp] theorem State.collBegin_lasting (s : State) (k : Nat) : (s.collBegin k).lasting = s.lasting := by simp [State.collBegin]
@[simp] theorem State.collStart_lasting (s : State) (k : Nat) (l : LaunchW) (d : Desc) : (s.collStart k l d).lasting = s.lasting := by
  simp [State.collStart]
@[simp] theorem startHeads_lasting (a0 : Nat) (a1 : State) : (startHeads a0 a1).lasting = a1.lasting := by
  induction a0 generalizing a1 with
  | zero => rfl
  | succ n ih => unfold startHeads; dsimp only; (repeat' split) <;> simp [ih]

/-! ### `CollRows` -/

@[simp] theorem State.collDo_lasting {k : Nat} {f : State → State} (h : ∀ x, (f x).lasting = x.lasting) :
    (s.collDo k f).lasting = s.lasting := by
  simp [State.collDo, h]

/-! ### `Needles` -/

@[simp] theorem State.runFault_lasting (s : State) (id n reason code pc info : Nat) :
    (s.runFault id n reason code pc info).lasting = s.lasting := by fun_cases State.runFault s id n reason code pc info <;> simp +zetaDelta
@[simp] theorem State.runLost_lasting (s : State) (n : Nat) : (s.runLost n).lasting = s.lasting := by
  fun_cases State.runLost s n <;> simp +zetaDelta

/-! ### `Faults` -/

@[simp] theorem State.clusterFail_lasting (s : State) (c : Nat) : (s.clusterFail c).lasting = s.lasting := by simp [State.clusterFail]

/-! ### `Routing` -/

@[simp] theorem State.updStop_lasting (s : State) (n : Nat) : (s.updStop n).lasting = s.lasting := by simp [State.updStop]
@[simp] theorem State.freeSlots_lasting (s : State) (port vc n : Nat) : (s.freeSlots port vc n).lasting = s.lasting := by
  simp [State.freeSlots]

/-! ### `Links` -/

@[simp] theorem State.dropPartial_lasting (s : State) (n : Nat) : (s.dropPartial n).lasting = s.lasting := by simp [State.dropPartial]
@[simp] theorem State.dropReplay_lasting (s : State) (n : Nat) : (s.dropReplay n).lasting = s.lasting := by simp [State.dropReplay]
@[simp] theorem State.dropQueued_lasting (s : State) (n : Nat) : (s.dropQueued n).lasting = s.lasting := by simp [State.dropQueued]
@[simp] theorem State.leaveMatch_lasting (s : State) (n : Nat) : (s.leaveMatch n).lasting = s.lasting := by simp [State.leaveMatch]
@[simp] theorem State.linkReply_lasting (s : State) (n : Nat) : (s.linkReply n).lasting = s.lasting := by
  fun_cases State.linkReply s n <;> simp +zetaDelta

/-! ### `Ops` -/

@[simp] theorem State.updTape_lasting (s : State) (f : TapeS → TapeS) : (s.updTape f).lasting = s.lasting := by simp [State.updTape]

/-! ### `Tape` -/

@[simp] theorem State.tapeView_lasting (s : State) : s.tapeView.lasting = s.lasting := by simp [State.tapeView]
@[simp] theorem State.chooseUpstream_lasting (s : State) : s.chooseUpstream.lasting = s.lasting := by simp [State.chooseUpstream]

/-! ### `Links` -/

@[simp] theorem State.portOut_lasting (s : State) (n : Nat) (st : BitVec 4) : (s.portOut n st).lasting = s.lasting := by
  simp [State.portOut]
@[simp] theorem State.lbEnd_lasting (s : State) (j errors units : Nat) (failed : Bool) :
    (s.lbEnd j errors units failed).lasting = s.lasting := by fun_cases State.lbEnd s j errors units failed <;> simp +zetaDelta
@[simp] theorem State.lbStop_lasting (s : State) (j : Nat) (failed : Bool) : (s.lbStop j failed).lasting = s.lasting := by
  simp [State.lbStop]

/-! ### `Faults` -/

@[simp] theorem State.portCut_lasting (s : State) (n : Nat) : (s.portCut n).lasting = s.lasting := by simp [State.portCut]

/-! ### `Conns` -/

@[simp] theorem State.bobbinRoom_lasting (s : State) : s.bobbinRoom.lasting = s.lasting := by
  fun_cases State.bobbinRoom s <;> simp +zetaDelta
@[simp] theorem State.touch_lasting (s : State) (cid : Nat) : (s.touch cid).lasting = s.lasting := by simp [State.touch]

/-! ### `Transfers` -/

@[simp] theorem State.segConn_lasting (s : State) (part dev : Nat) : (s.segConn part dev).1.lasting = s.lasting := by
  fun_cases State.segConn s part dev <;> simp +zetaDelta
@[simp] theorem State.segSend_lasting (s : State) (cid op wkey roff len : Nat) (bs : Bytes) (x off : Nat) (extra : List Fld) :
    (s.segSend cid op wkey roff len bs x off extra).lasting = s.lasting := by simp [State.segSend]

/-! ### `Pieces` -/

@[simp] theorem State.putEnd_lasting (s : State) (id off : Nat) (bs : Bytes) : (s.putEnd id off bs).1.lasting = s.lasting := by
  fun_cases State.putEnd s id off bs <;> simp +zetaDelta

/-! ### `Transfers` -/

@[simp] theorem State.dataTo_lasting (s : State) (id off : Nat) (bs : Bytes) : (s.dataTo id off bs).1.lasting = s.lasting := by
  fun_cases State.dataTo s id off bs <;> simp +zetaDelta

/-! ### `Pieces` -/

@[simp] theorem State.pieceAccepted_lasting (s : State) (id : Nat) : (s.pieceAccepted id).lasting = s.lasting := by
  simp [State.pieceAccepted]

/-! ### `Transfers` -/

@[simp] theorem State.pieceBytes_lasting (s : State) (id off : Nat) (bs : Bytes) : (s.pieceBytes id off bs).lasting = s.lasting := by
  simp [State.pieceBytes]
@[simp] theorem State.pieceLost_lasting (s : State) (id off st : Nat) : (s.pieceLost id off st).lasting = s.lasting := by
  simp [State.pieceLost]

/-! ### `Rx` -/

@[simp] theorem State.servedOne_lasting (s : State) (cid : Nat) (msn : BitVec 32) : (s.servedOne cid msn).lasting = s.lasting := by
  simp [State.servedOne]

/-! ### `HostLink` -/

@[simp] theorem State.readDone_lasting (s : State) (r : HRead) (bs : Option Bytes) : (s.readDone r bs).lasting = s.lasting := by
  fun_cases State.readDone s r bs <;> simp +zetaDelta

/-! ### `Faults` -/

@[simp] theorem State.dmaFail_lasting (s : State) (idx : Nat) : (s.dmaFail idx).lasting = s.lasting := by simp [State.dmaFail]
@[simp] theorem State.processorFail_lasting (s : State) (idx : Nat) : (s.processorFail idx).lasting = s.lasting := by
  simp [State.processorFail]
@[simp] theorem State.closeBlock_lasting (s : State) (kind idx : Nat) : (s.closeBlock kind idx).lasting = s.lasting := by
  fun_cases State.closeBlock s kind idx <;> simp +zetaDelta
@[simp] theorem State.recoveryStart_lasting (s : State) (rung dom kind idx : Nat) (seq : BitVec 32) :
    (s.recoveryStart rung dom kind idx seq).lasting = s.lasting := by simp [State.recoveryStart]
@[simp] theorem State.absorbPending_lasting (s : State) (rung dom : Nat) : (s.absorbPending rung dom).lasting = s.lasting := by
  simp [State.absorbPending]

/-! ### `Parts` -/

@[simp] theorem State.resetBegin_lasting (s : State) (p : Nat) (destroying : Bool) : (s.resetBegin p destroying).lasting = s.lasting := by
  simp [State.resetBegin]
@[simp] theorem State.resetTrigger_lasting (s : State) (p : Nat) (from_ : Option Issue) : (s.resetTrigger p from_).lasting = s.lasting := by
  fun_cases State.resetTrigger s p from_ <;> simp +zetaDelta

/-! ### `Tiers` -/

@[simp] theorem State.retireChan_lasting (s : State) (far : Bool) (c : Nat) (h : Option Issue) :
    (s.retireChan far c h).lasting = s.lasting := by fun_cases State.retireChan s far c h <;> simp +zetaDelta

/-! ### `HostIO` -/

@[simp] theorem State.secRec_lasting (s : State) (reason d0 : Nat) : (s.secRec reason d0).lasting = s.lasting := by simp [State.secRec]

/-! ### `Ops` -/

@[simp] theorem State.updThimble_lasting (s : State) (f : ThimbleS → ThimbleS) :
  (s.updThimble f).lasting = (s.pending, (f s.thimble).svnFuse, (f s.thimble).kekEpoch, (f s.thimble).slot0Revoked) := rfl

/-! ### `HostIO` -/

@[simp] theorem State.bulkLost_lasting (s : State) (i : Nat) : (s.bulkLost i).lasting = s.lasting := by simp [State.bulkLost]

/-! ### `Faults` -/

@[simp] theorem State.retireBlock_lasting (s : State) (kind idx : Nat) : (s.retireBlock kind idx).lasting = s.lasting := by
  fun_cases State.retireBlock s kind idx <;> simp +zetaDelta

/-! ### `Reset` -/

@[simp] theorem State.coldClear_lasting (s : State) (cause : BitVec 4) : (s.coldClear cause).lasting = s.lasting := by
  simp [State.coldClear]
@[simp] theorem State.powerRec_lasting (s : State) (reason d0 d1 act : Nat) : (s.powerRec reason d0 d1 act).lasting = s.lasting := by
  simp [State.powerRec]
@[simp] theorem State.sampleStraps_lasting (s : State) : s.sampleStraps.lasting = s.lasting := by simp [State.sampleStraps]
@[simp] theorem State.coldReset_lasting (s : State) (cause : Nat) : (s.coldReset cause).lasting = s.lasting := by simp [State.coldReset]
@[simp] theorem State.coldTrigger_lasting (s : State) (cause : Nat) : (s.coldTrigger cause).lasting = s.lasting := by
  simp [State.coldTrigger]
@[simp] theorem State.warmClear_lasting (s : State) : s.warmClear.lasting = s.lasting := by simp [State.warmClear]
@[simp] theorem State.haltEnter_lasting (s : State) (cause : Nat) (why : Because) : (s.haltEnter cause why).lasting = s.lasting := by
  simp [State.haltEnter]
@[simp] theorem State.warmReset_lasting (s : State) (cause : Nat) (why : Because) : (s.warmReset cause why).lasting = s.lasting := by
  simp [State.warmReset]
@[simp] theorem State.warmTrigger_lasting (s : State) (cause : Nat) (why : Because) : (s.warmTrigger cause why).lasting = s.lasting := by
  simp [State.warmTrigger]

/-! ### `Faults` -/

@[simp] theorem State.handleFault_lasting (s : State) (f : FPend) : (s.handleFault f).lasting = s.lasting := by
  fun_cases State.handleFault s f <;> simp +zetaDelta
@[simp] theorem State.fault_lasting (s : State) (f : FPend) : (s.fault f).lasting = s.lasting := by
  fun_cases State.fault s f <;> simp +zetaDelta
@[simp] theorem execDrainForced_lasting (ctx : Nat) (s : State) : (afterOut s (execDrainForced ctx s)).lasting = s.lasting := by
  unfold execDrainForced
  rw [afterOut_next]
  split
  · rfl
  · dsimp only
    split
    · rfl
    · rw [State.drainEnd_lasting, State.each_lasting, State.eachOf_lasting]
      · simp
      · intro id t; split <;> simp

/-! ### `Segments` -/

@[simp] theorem State.segCached_lasting (s : State) (ctx seg : Nat) : (s.segCached ctx seg).lasting = s.lasting := by simp [State.segCached]
@[simp] theorem execSegCacheMissFill_lasting (ctx seg xfer : Nat) (s : State) :
    (afterOut s (execSegCacheMissFill ctx seg xfer s)).lasting = s.lasting := by simp [execSegCacheMissFill]

/-! ### `Transfers` -/

@[simp] theorem State.xlateNow_lasting (s : State) (id : Nat) (x : Xfer) : (s.xlateNow id x).lasting = s.lasting := by
  fun_cases State.xlateNow s id x <;> simp +zetaDelta
@[simp] theorem State.nextRow_lasting (s : State) (id : Nat) : (s.nextRow id).lasting = s.lasting := by simp [State.nextRow]

/-! ### `Segments` -/

@[simp] theorem State.hotAdd_lasting (s : State) (ctx seg g n : Nat) : (s.hotAdd ctx seg g n).lasting = s.lasting := by simp [State.hotAdd]
@[simp] theorem State.hotCount_lasting (s : State) (ctx seg va n : Nat) : (s.hotCount ctx seg va n).lasting = s.lasting := by
  simp [State.hotCount]

/-! ### `Transfers` -/

@[simp] theorem State.clusterPiece_lasting (s : State) (id off) (errs) (m cluster slot addr key n) :
    (State.clusterPiece s id off errs m cluster slot addr key n).lasting = s.lasting := by
  fun_cases State.clusterPiece s id off errs m cluster slot addr key n
  case case3 ps _ t whole _ u =>
    have h : u.lasting = t.lasting := State.eachOf_lasting fun p t => by split <;> simp
    simp [h, t]
  all_goals simp +zetaDelta

/-! ### `Ops` -/

@[simp] theorem State.updNeedle_lasting (s : State) (n : Nat) (f : NeedleS → NeedleS) : (s.updNeedle n f).lasting = s.lasting := by
  simp [State.updNeedle]

/-! ### `Pieces` -/

@[simp] theorem State.countCe_lasting (s : State) (n : Nat) : (s.countCe n).lasting = s.lasting := by simp [State.countCe]

/-! ### `Transfers` -/

@[simp] theorem State.issuePiece_lasting (s : State) (id) (x) (errs) : (State.issuePiece s id x errs).lasting = s.lasting := by
  fun_cases State.issuePiece s id x errs
  case case7 off n _ t _ _ _ _ _ _ _ _ r _ _ _ _ u =>
    have h : u.lasting = r.1.lasting := State.eachOf_lasting fun p t => by split <;> simp
    rw [State.pieceDone_lasting, State.pieceAccepted_lasting, h]
    simp +zetaDelta
  all_goals simp +zetaDelta
@[simp] theorem execTransferPiece_lasting (xfer : Nat) (errs : WordErrs) (s : State) :
    (afterOut s (execTransferPiece xfer errs s)).lasting = s.lasting := by
  unfold execTransferPiece
  simp only [afterOut_next]
  (repeat' split) <;> simp

/-! ### `Segments` -/

@[simp] theorem execHotIntervalEnd_lasting (ctx : Nat) (s : State) : (afterOut s (execHotIntervalEnd ctx s)).lasting = s.lasting := by
  simp [execHotIntervalEnd]

/-! ### `Tiers` -/

@[simp] theorem execMemTierSet_lasting (h : Issue) (blk : BitVec 64) (s : State) :
    (afterOut s (execMemTierSet h blk s)).lasting = s.lasting := by simp [execMemTierSet]

/-! ### `Operands` -/

@[simp] theorem Ans.noRes_lasting (s : State) (index : Nat) : (Ans.noRes s index).st.lasting = s.lasting := by simp [Ans.noRes]

/-! ### `Tiers` -/

@[simp] theorem execMemBound_lasting (h : Issue) (part nearMin nearMax : Nat) (s : State) :
    (afterOut s (execMemBound h part nearMin nearMax s)).lasting = s.lasting := by simp [execMemBound]
@[simp] theorem execMemPin_lasting (h : Issue) (offset count tier : Nat) (s : State) :
    (afterOut s (execMemPin h offset count tier s)).lasting = s.lasting := by
  refine vuino_after fun s => ?_
  dsimp only
  split
  · simp
  split
  · simp
  split
  · simp
  split
  · simp
  · simp only [Ans.wait, State.updMem_lasting]
    exact (State.each_lasting fun g t => by split <;> [skip; split] <;> simp).trans (State.updMem_lasting ..)
@[simp] theorem State.mapTo_lasting (s : State) (g : Nat) (f : Frame3) : (s.mapTo g f).lasting = s.lasting := by simp [State.mapTo]
@[simp] theorem execMemClearDamaged_lasting (h : Issue) (offset count : Nat) (s : State) :
    (afterOut s (execMemClearDamaged h offset count s)).lasting = s.lasting := by
  refine vuino_after fun s => ?_
  split
  · simp
  · extract_lets gs r
    have h : r.1.lasting = s.lasting := foldl_fst_lasting fun r g => by dsimp only; split <;> simp
    split <;> exact h
@[simp] theorem execMemScrubSet_lasting (h : Issue) (hours : Nat) (s : State) :
    (afterOut s (execMemScrubSet h hours s)).lasting = s.lasting := by simp [execMemScrubSet]
@[simp] theorem execMemChanRetire_lasting (h : Issue) (tier chan : Nat) (s : State) :
    (afterOut s (execMemChanRetire h tier chan s)).lasting = s.lasting := by simp [execMemChanRetire]
@[simp] theorem execMemQuery_lasting (h : Issue) (tier chan : Nat) (s : State) :
    (afterOut s (execMemQuery h tier chan s)).lasting = s.lasting := by simp [execMemQuery]
@[simp] theorem execScrubLine_lasting (tier chan : Nat) (errs : WordErrs) (s : State) :
    (afterOut s (execScrubLine tier chan errs s)).lasting = s.lasting := by simp [execScrubLine]
@[simp] theorem State.damage_lasting (s : State) (g : Nat) : (s.damage g).lasting = s.lasting := by simp [State.damage]
@[simp] theorem State.moveOff_lasting (s : State) (g : Nat) (far lost : Bool) : (s.moveOff g far lost).1.lasting = s.lasting := by
  fun_cases State.moveOff s g far lost <;> simp +zetaDelta
@[simp] theorem State.clearRow_lasting (s : State) (row) : (State.clearRow s row).1.lasting = s.lasting :=
  foldl_fst_lasting fun r f => by
    split
    · rfl
    · split <;> simp
@[simp] theorem State.retirePending_lasting (s : State) (kind row : Nat) : (s.retirePending kind row).lasting = s.lasting := by
  simp [State.retirePending]
@[simp] theorem State.repairRow_lasting (s : State) (row : Nat) : (s.repairRow row).lasting = s.lasting := by simp [State.repairRow]
@[simp] theorem execRowRepair_lasting (row : Nat) (s : State) : (afterOut s (execRowRepair row s)).lasting = s.lasting := by
  simp [execRowRepair]
@[simp] theorem State.retireRow_lasting (s : State) (row : Nat) : (s.retireRow row).lasting = s.lasting := by simp [State.retireRow]
@[simp] theorem execFrameRetired_lasting (row : Nat) (s : State) : (afterOut s (execFrameRetired row s)).lasting = s.lasting := by
  simp [execFrameRetired]
@[simp] theorem execFreeFrameAvailable_lasting (tier : Nat) (s : State) :
    (afterOut s (execFreeFrameAvailable tier s)).lasting = s.lasting := by
  unfold execFreeFrameAvailable
  simp only [afterOut_next]
  split <;> simp
@[simp] theorem execChannelFailure_lasting (tier chan : Nat) (s : State) :
    (afterOut s (execChannelFailure tier chan s)).lasting = s.lasting := by simp [execChannelFailure]
@[simp] theorem State.formTriple_lasting (s : State) (far : Bool) : (s.formTriple far).lasting = s.lasting := by
  fun_cases State.formTriple s far <;> simp +zetaDelta
@[simp] theorem execEvacuationEnd_lasting (tier : Nat) (lost : Nats) (s : State) :
    (afterOut s (execEvacuationEnd tier lost s)).lasting = s.lasting := by
  unfold execEvacuationEnd
  simp only [afterOut_next]
  (repeat' split) <;> simp
@[simp] theorem State.promote_lasting (s : State) (hyst budget g cnt : Nat) : (s.promote hyst budget g cnt).1.lasting = s.lasting := by
  fun_cases State.promote s hyst budget g cnt <;> simp +zetaDelta
@[simp] theorem execTierEpochEnd_lasting (s : State) : (afterOut s (execTierEpochEnd s)).lasting = s.lasting := by
  have h : ∀ l b n, (List.foldl (fun r (e : Nat × Nat) => r.1.promote n r.2 e.1 e.2) (s, b) l).1.lasting = s.lasting :=
    fun l b n => foldl_fst_lasting fun r e => by simp
  simp [execTierEpochEnd, h]

/-! ### `Operands` -/

@[simp] theorem State.longProgress_lasting (s : State) (h : Issue) (permille position : Nat) :
    (s.longProgress h permille position).lasting = s.lasting := by simp [State.longProgress]

/-! ### `Tiers` -/

@[simp] theorem State.pinSettle_lasting (s : State) : s.pinSettle.lasting = s.lasting := by simp [State.pinSettle]
@[simp] theorem execGranuleMoveDone_lasting (granule : Nat) (uncorrectable : Bool) (s : State) :
    (afterOut s (execGranuleMoveDone granule uncorrectable s)).lasting = s.lasting := by
  unfold execGranuleMoveDone
  simp only [afterOut_next]
  (repeat' split) <;> simp

/-! ### `Parts` -/

@[simp] theorem State.allot_lasting (s : State) (p : Nat) (n : Nats) : (s.allot p n).lasting = s.lasting := by simp [State.allot]

/-! ### `Ops` -/

@[simp] theorem State.updUnit_lasting (s : State) (u : Nat) (f : UnitS → UnitS) : (s.updUnit u f).lasting = s.lasting := by
  simp [State.updUnit]

/-! ### `Tiers` -/

@[simp] theorem State.placeUnit_lasting (s : State) (u : Nat) : (State.placeUnit s u).lasting = s.lasting := by
  unfold State.placeUnit
  rw [State.updUnit_lasting, State.each_lasting]
  intro i t
  split <;> simp

/-! ### `Parts` -/

@[simp] theorem State.takeUnit_lasting (s : State) (p u : Nat) : (s.takeUnit p u).lasting = s.lasting := by simp [State.takeUnit]
@[simp] theorem State.adminOff_lasting (s : State) (p : Nat) : (s.adminOff p).lasting = s.lasting := by simp [State.adminOff]
@[simp] theorem State.objReset_lasting (s : State) (p : Nat) : (s.objReset p).lasting = s.lasting := by simp [State.objReset]
@[simp] theorem State.createNow_lasting (s : State) (p : Nat) (n : Nats) (mask map : Nat) :
    (s.createNow p n mask map).st.lasting = s.lasting := by fun_cases State.createNow s p n mask map <;> simp +zetaDelta
@[simp] theorem State.createRetry_lasting (s : State) : s.createRetry.lasting = s.lasting := by simp [State.createRetry]
@[simp] theorem execMeminitDone_lasting (s : State) : (afterOut s (execMeminitDone s)).lasting = s.lasting := by simp [execMeminitDone]

/-! ### `Conns` -/

@[simp] theorem execConnCreate_lasting (h : Issue) (blk : BitVec 256) (s : State) :
    (afterOut s (execConnCreate h blk s)).lasting = s.lasting := vuino_after fun s => by dsimp only; (repeat' split) <;> simp
@[simp] theorem execConnConnect_lasting (h : Issue) (conn peerId peerConn peerGen sendPsn recvPsn : Nat) (s : State) :
    (afterOut s (execConnConnect h conn peerId peerConn peerGen sendPsn recvPsn s)).lasting = s.lasting := by simp [execConnConnect]
@[simp] theorem State.connFlush_lasting (s : State) (cid : Nat) : (s.connFlush cid).lasting = s.lasting := by simp [State.connFlush]
@[simp] theorem State.connRestart_lasting (s : State) (cid : Nat) : (s.connRestart cid).lasting = s.lasting := by simp [State.connRestart]
@[simp] theorem execConnReset_lasting (h : Issue) (conn : Nat) (s : State) : (afterOut s (execConnReset h conn s)).lasting = s.lasting := by
  simp [execConnReset]
@[simp] theorem State.connDestroy_lasting (s : State) (cid : Nat) : (s.connDestroy cid).lasting = s.lasting := by simp [State.connDestroy]
@[simp] theorem execConnDestroy_lasting (h : Issue) (conn : Nat) (s : State) :
    (afterOut s (execConnDestroy h conn s)).lasting = s.lasting := by simp [execConnDestroy]
@[simp] theorem execConnPin_lasting (h : Issue) (conn pin : Nat) (s : State) :
    (afterOut s (execConnPin h conn pin s)).lasting = s.lasting := by simp [execConnPin]
@[simp] theorem execConnQuery_lasting (h : Issue) (conn : Nat) (s : State) : (afterOut s (execConnQuery h conn s)).lasting = s.lasting := by
  simp [execConnQuery]

/-! ### `Rx` -/

@[simp] theorem State.looseNak_lasting (s : State) (p : Pkt) (code : Nat) : (s.looseNak p code).lasting = s.lasting := by
  simp [State.looseNak]

/-! ### `Peer` -/

@[simp] theorem State.errorAnswer_lasting (s : State) (cid : Nat) (p : Pkt) : (s.errorAnswer cid p).lasting = s.lasting := by
  simp [State.errorAnswer]

/-! ### `Rx` -/

@[simp] theorem State.rxUd_lasting (s : State) (cid : Nat) (p : Pkt) : (s.rxUd cid p).lasting = s.lasting := by
  fun_cases State.rxUd s cid p <;> simp +zetaDelta

/-! ### `Peer` -/

@[simp] theorem State.authFail_lasting (s : State) (cid : Nat) : (s.authFail cid).lasting = s.lasting := by simp [State.authFail]

/-! ### `Rx` -/

@[simp] theorem State.rxAgain_lasting (s : State) (cid : Nat) (p : Pkt) (errs : WordErrs) : (s.rxAgain cid p errs).lasting = s.lasting := by
  unfold State.rxAgain
  dsimp only
  (repeat' split) <;> simp
@[simp] theorem State.rxNote_lasting (s : State) (cid : Nat) (p : Pkt) (tape : BitVec 32) : (s.rxNote cid p tape).lasting = s.lasting := by
  simp [State.rxNote]
@[simp] theorem State.rxRequest_lasting (s : State) (cid : Nat) (p : Pkt) (errs : WordErrs) (tape : BitVec 32) :
    (s.rxRequest cid p errs tape).lasting = s.lasting := by simp [State.rxRequest]

/-! ### `Sending` -/

@[simp] theorem State.windowAck_lasting (s : State) (cid owd marks pkts acked : Nat) :
    (s.windowAck cid owd marks pkts acked).lasting = s.lasting := by simp [State.windowAck]
@[simp] theorem State.lossCut_lasting (s : State) (cid num den : Nat) : (s.lossCut cid num den).lasting = s.lasting := by
  simp [State.lossCut]
@[simp] theorem State.injectFront_lasting (s : State) (cid : Nat) (pkt : Pkt) (psn : BitVec 32) :
    (s.injectFront cid pkt psn).lasting = s.lasting := by simp [State.injectFront]
@[simp] theorem State.resend_lasting (s : State) (cid : Nat) (o : TxPsn) (count : Bool) : (s.resend cid o count).lasting = s.lasting := by
  simp [State.resend]
@[simp] theorem State.freeChunks_lasting (s : State) (cid : Nat) : (s.freeChunks cid).lasting = s.lasting := by simp [State.freeChunks]
@[simp] theorem State.finishMsgs_lasting (s : State) (cid : Nat) : (s.finishMsgs cid).lasting = s.lasting := by simp [State.finishMsgs]

/-! ### `Peer` -/

@[simp] theorem State.rxAck_lasting (s : State) (cid : Nat) (p : Pkt) : (s.rxAck cid p).lasting = s.lasting := by simp [State.rxAck]
@[simp] theorem State.busyHold_lasting (s : State) (hint : Nat) : (s.busyHold hint).2.lasting = s.lasting := by simp [State.busyHold]

/-! ### `Sending` -/

@[simp] theorem State.settleTx_lasting (s : State) (cid : Nat) (msn : BitVec 32) (status placed : Nat) :
    (s.settleTx cid msn status placed).lasting = s.lasting := by simp [State.settleTx]

/-! ### `Peer` -/

@[simp] theorem State.rxNak_lasting (s : State) (cid : Nat) (p : Pkt) : (s.rxNak cid p).lasting = s.lasting := by
  fun_cases State.rxNak s cid p <;> simp +zetaDelta
@[simp] theorem State.landResp_lasting (s : State) (cid : Nat) (m : TxMsg) (off : Nat) (bs : Bytes) :
    (s.landResp cid m off bs).lasting = s.lasting := by fun_cases State.landResp s cid m off bs <;> simp +zetaDelta
@[simp] theorem State.rxResp_lasting (s : State) (cid : Nat) (p : Pkt) : (s.rxResp cid p).lasting = s.lasting := by
  fun_cases State.rxResp s cid p <;> simp +zetaDelta
@[simp] theorem State.rxState_lasting (s : State) (cid : Nat) (p : Pkt) (errs : WordErrs) (tape : BitVec 32) :
    (s.rxState cid p errs tape).lasting = s.lasting := by simp [State.rxState]
@[simp] theorem State.rxHere_lasting (s : State) (cid : Nat) (p : Pkt) (errs : WordErrs) (tape : BitVec 32) :
    (s.rxHere cid p errs tape).lasting = s.lasting := by fun_cases State.rxHere s cid p errs tape <;> simp +zetaDelta

/-! ### `Sending` -/

@[simp] theorem State.endAtOnce_lasting (s : State) (cid : Nat) (m : TxMsg) (status : Nat) :
    (s.endAtOnce cid m status).lasting = s.lasting := by simp [State.endAtOnce]
@[simp] theorem State.sendNow_lasting (s : State) (cid qk work : Nat) (d : Desc) (op : BitVec 8) :
    (s.sendNow cid qk work d op).lasting = s.lasting := by fun_cases State.sendNow s cid qk work d op <;> simp +zetaDelta

/-! ### `Peer` -/

@[simp] theorem execBobbinRefill_lasting (conn : Nat) (uncorrectable : Bool) (s : State) :
    (afterOut s (execBobbinRefill conn uncorrectable s)).lasting = s.lasting := by simp [execBobbinRefill]

/-! ### `Conns` -/

@[simp] theorem execSegmentConnIdle_lasting (conn : Nat) (s : State) : (afterOut s (execSegmentConnIdle conn s)).lasting = s.lasting := by
  simp [execSegmentConnIdle]

/-! ### `Peer` -/

@[simp] theorem execWinOpen_lasting (h : Issue) (entry : BitVec 256) (s : State) :
    (afterOut s (execWinOpen h entry s)).lasting = s.lasting := vuino_after fun s => by dsimp only; (repeat' split) <;> simp
@[simp] theorem State.winClose_lasting (s : State) (w : Nat) : (s.winClose w).lasting = s.lasting := by simp [State.winClose]
@[simp] theorem execWinRevoke_lasting (h : Issue) (wkey : Nat) (s : State) : (afterOut s (execWinRevoke h wkey s)).lasting = s.lasting := by
  simp [execWinRevoke]

/-! ### `Sending` -/

@[simp] theorem State.malformed_lasting (s : State) (p q slot first8 : Nat) : (s.malformed p q slot first8).lasting = s.lasting := by
  simp [State.malformed]
@[simp] theorem State.sendDesc_lasting (s : State) (p q slot : Nat) (d : Desc) : (s.sendDesc p q slot d).lasting = s.lasting := by
  simp [State.sendDesc]
@[simp] theorem execWrite_lasting (part q : Nat) (d : Desc) (s : State) : (afterOut s (execWrite part q d s)).lasting = s.lasting := by
  simp [execWrite]
@[simp] theorem execWriteSig_lasting (part q : Nat) (d : Desc) (s : State) :
    (afterOut s (execWriteSig part q d s)).lasting = s.lasting := by simp [execWriteSig]
@[simp] theorem execRead_lasting (part q : Nat) (d : Desc) (s : State) : (afterOut s (execRead part q d s)).lasting = s.lasting := by
  simp [execRead]
@[simp] theorem execSend_lasting (part q : Nat) (d : Desc) (s : State) : (afterOut s (execSend part q d s)).lasting = s.lasting := by
  simp [execSend]
@[simp] theorem execFetchAdd_lasting (part q : Nat) (d : Desc) (s : State) :
    (afterOut s (execFetchAdd part q d s)).lasting = s.lasting := by simp [execFetchAdd]
@[simp] theorem execCmpSwap_lasting (part q : Nat) (d : Desc) (s : State) : (afterOut s (execCmpSwap part q d s)).lasting = s.lasting := by
  simp [execCmpSwap]
@[simp] theorem execSyncAdd_lasting (part q : Nat) (d : Desc) (s : State) : (afterOut s (execSyncAdd part q d s)).lasting = s.lasting := by
  simp [execSyncAdd]
@[simp] theorem execInvoke_lasting (part q : Nat) (d : Desc) (s : State) : (afterOut s (execInvoke part q d s)).lasting = s.lasting := by
  simp [execInvoke]

/-! ### `Peer` -/

@[simp] theorem execRecvBufferPost_lasting (part q : Nat) (d : Desc) (s : State) :
    (afterOut s (execRecvBufferPost part q d s)).lasting = s.lasting := by simp [execRecvBufferPost]

/-! ### `Routing` -/

@[simp] theorem State.dropIn_lasting (s : State) (port : Nat) (p : Pkt) : (s.dropIn port p).lasting = s.lasting := by simp [State.dropIn]
@[simp] theorem State.arrive_lasting (s : State) (port : Nat) (p : Pkt) : (s.arrive port p).1.lasting = s.lasting := by simp [State.arrive]

/-! ### `Peer` -/

@[simp] theorem State.sendReturn_lasting (s : State) (src : Nat) : (s.sendReturn src).lasting = s.lasting := by simp [State.sendReturn]
@[simp] theorem State.e2eAccept_lasting (s : State) (port : Nat) (p : Pkt) : (s.e2eAccept port p).lasting = s.lasting := by
  simp [State.e2eAccept]

/-! ### `Ops` -/

@[simp] theorem State.updPower_lasting (s : State) (f : PowerS → PowerS) : (s.updPower f).lasting = s.lasting := by simp [State.updPower]
@[simp] theorem State.leaveIdle_lasting (s : State) : s.leaveIdle.lasting = s.lasting := by simp [State.leaveIdle]

/-! ### `Peer` -/

@[simp] theorem State.takeHere_lasting (s : State) (port : Nat) (p : Pkt) : (s.takeHere port p).1.lasting = s.lasting := by
  simp [State.takeHere]

/-! ### `HostIO` -/

@[simp] theorem State.bulkMismatch_lasting (s : State) (i : Nat) : (s.bulkMismatch i).lasting = s.lasting := by simp [State.bulkMismatch]

/-! ### `Peer` -/

@[simp] theorem State.cipherLoss_lasting (s : State) (port : Nat) (p : Pkt) (i : Nat) : (s.cipherLoss port p i).lasting = s.lasting := by
  simp [State.cipherLoss]
@[simp] theorem State.rxLooseNak_lasting (s : State) (p : Pkt) : (s.rxLooseNak p).lasting = s.lasting := by
  fun_cases State.rxLooseNak s p <;> simp +zetaDelta
@[simp] theorem State.rxStage_lasting (s : State) (cid : Nat) (p : Pkt) (errs : WordErrs) (tape : BitVec 32) :
    (s.rxStage cid p errs tape).lasting = s.lasting := by fun_cases State.rxStage s cid p errs tape <;> simp +zetaDelta
@[simp] theorem State.rxTransport_lasting (s : State) (port : Nat) (p : Pkt) (op : Nat) (errs : WordErrs) :
    (s.rxTransport port p op errs).lasting = s.lasting := by simp [State.rxTransport]
@[simp] theorem execWritePacket_lasting (port : Nat) (pkt : Pkt) (guard : Mismatch) (s : State) :
    (afterOut s (execWritePacket port pkt guard s)).lasting = s.lasting := by
  unfold execWritePacket
  simp only [afterOut_next]
  split <;> simp
@[simp] theorem execWriteSigPacket_lasting (port : Nat) (pkt : Pkt) (s : State) :
    (afterOut s (execWriteSigPacket port pkt s)).lasting = s.lasting := by simp [execWriteSigPacket]
@[simp] theorem execReadReq_lasting (port : Nat) (pkt : Pkt) (errs : WordErrs) (s : State) :
    (afterOut s (execReadReq port pkt errs s)).lasting = s.lasting := by simp [execReadReq]
@[simp] theorem execSendPacket_lasting (port : Nat) (pkt : Pkt) (s : State) :
    (afterOut s (execSendPacket port pkt s)).lasting = s.lasting := by simp [execSendPacket]
@[simp] theorem execFetchAddPacket_lasting (port : Nat) (pkt : Pkt) (errs : WordErrs) (s : State) :
    (afterOut s (execFetchAddPacket port pkt errs s)).lasting = s.lasting := by simp [execFetchAddPacket]
@[simp] theorem execCmpSwapPacket_lasting (port : Nat) (pkt : Pkt) (errs : WordErrs) (s : State) :
    (afterOut s (execCmpSwapPacket port pkt errs s)).lasting = s.lasting := by simp [execCmpSwapPacket]
@[simp] theorem execSyncAddPacket_lasting (port : Nat) (pkt : Pkt) (s : State) :
    (afterOut s (execSyncAddPacket port pkt s)).lasting = s.lasting := by simp [execSyncAddPacket]
@[simp] theorem execInvokePacket_lasting (port : Nat) (pkt : Pkt) (s : State) :
    (afterOut s (execInvokePacket port pkt s)).lasting = s.lasting := by simp [execInvokePacket]
@[simp] theorem execUdSend_lasting (port : Nat) (pkt : Pkt) (s : State) : (afterOut s (execUdSend port pkt s)).lasting = s.lasting := by
  simp [execUdSend]
@[simp] theorem execReadResp_lasting (port : Nat) (pkt : Pkt) (s : State) : (afterOut s (execReadResp port pkt s)).lasting = s.lasting := by
  simp [execReadResp]
@[simp] theorem execAtomicResp_lasting (port : Nat) (pkt : Pkt) (s : State) :
    (afterOut s (execAtomicResp port pkt s)).lasting = s.lasting := by simp [execAtomicResp]
@[simp] theorem execAck_lasting (port : Nat) (pkt : Pkt) (s : State) : (afterOut s (execAck port pkt s)).lasting = s.lasting := by
  simp [execAck]
@[simp] theorem execAckDelayTimer_lasting (conn : Nat) (s : State) : (afterOut s (execAckDelayTimer conn s)).lasting = s.lasting := by
  simp [execAckDelayTimer]
@[simp] theorem execNak_lasting (port : Nat) (pkt : Pkt) (s : State) : (afterOut s (execNak port pkt s)).lasting = s.lasting := by
  simp [execNak]
@[simp] theorem execSkip_lasting (port : Nat) (pkt : Pkt) (s : State) : (afterOut s (execSkip port pkt s)).lasting = s.lasting := by
  simp [execSkip]
@[simp] theorem execCbusyHoldExpiry_lasting (conn : Nat) (s : State) : (afterOut s (execCbusyHoldExpiry conn s)).lasting = s.lasting := by
  simp [execCbusyHoldExpiry]
@[simp] theorem execCbusyLimit_lasting (conn psn : Nat) (s : State) : (afterOut s (execCbusyLimit conn psn s)).lasting = s.lasting := by
  unfold execCbusyLimit
  simp only [afterOut_next]
  split <;> simp
@[simp] theorem execNoRecvRetry_lasting (conn : Nat) (s : State) : (afterOut s (execNoRecvRetry conn s)).lasting = s.lasting := by
  simp [execNoRecvRetry]

/-! ### `Sending` -/

@[simp] theorem execRtoExpiry_lasting (conn : Nat) (s : State) : (afterOut s (execRtoExpiry conn s)).lasting = s.lasting := by
  unfold execRtoExpiry
  simp only [afterOut_next]
  (repeat' split) <;> simp

/-! ### `Peer` -/

@[simp] theorem execErrorNotice_lasting (port : Nat) (pkt : Pkt) (s : State) :
    (afterOut s (execErrorNotice port pkt s)).lasting = s.lasting := by simp [execErrorNotice]
@[simp] theorem execNoticeAck_lasting (port : Nat) (pkt : Pkt) (s : State) :
    (afterOut s (execNoticeAck port pkt s)).lasting = s.lasting := by simp [execNoticeAck]

/-! ### `Conns` -/

@[simp] theorem execErrorNoticeRepeat_lasting (conn : Nat) (s : State) :
    (afterOut s (execErrorNoticeRepeat conn s)).lasting = s.lasting := by simp [execErrorNoticeRepeat]

/-! ### `Links` -/

@[simp] theorem State.sendWords_lasting (s : State) (n : Nat) : (s.sendWords n).lasting = s.lasting := by simp [State.sendWords]
@[simp] theorem State.sendReplay_lasting (s : State) (n : Nat) : (s.sendReplay n).lasting = s.lasting := by
  fun_cases State.sendReplay s n <;> simp +zetaDelta
@[simp] theorem State.sendFirst_lasting (s : State) (n : Nat) : (s.sendFirst n).lasting = s.lasting := by simp [State.sendFirst]

/-! ### `Wire` -/

@[simp] theorem State.admitAll_lasting (s : State) : s.admitAll.lasting = s.lasting := by simp [State.admitAll]

/-! ### `Congestion` -/

@[simp] theorem State.udLeft_lasting (s : State) (q : QPkt) : (s.udLeft q).lasting = s.lasting := by
  fun_cases State.udLeft s q <;> simp +zetaDelta

/-! ### `Wire` -/

@[simp] theorem State.served_lasting (s : State) (port vc src : Nat) (q : QPkt) : (s.served port vc src q).lasting = s.lasting := by
  simp [State.served]

/-! ### `Ops` -/

@[simp] theorem State.updShp_lasting (s : State) (n : Nat) (f : ShpS → ShpS) : (s.updShp n f).lasting = s.lasting := by simp [State.updShp]

/-! ### `Wire` -/

@[simp] theorem State.takeTokens_lasting (s : State) (cid : Option Nat) (p : Pkt) : (s.takeTokens cid p).lasting = s.lasting := by
  fun_cases State.takeTokens s cid p <;> simp +zetaDelta
@[simp] theorem State.sentRecord_lasting (s : State) (q : QPkt) : (s.sentRecord q).lasting = s.lasting := by
  fun_cases State.sentRecord s q <;> simp +zetaDelta
@[simp] theorem State.portSend_lasting (s : State) (port vc : Nat) (p : Pkt) : (s.portSend port vc p).lasting = s.lasting := by
  simp [State.portSend]
@[simp] theorem State.depart_lasting (s : State) (port vc src : Nat) (q : QPkt) : (s.depart port vc src q).lasting = s.lasting := by
  fun_cases State.depart s port vc src q <;> simp +zetaDelta

/-! ### `Congestion` -/

@[simp] theorem execEgressPacketSelect_lasting (port vc : Nat) (guard : Mismatch) (s : State) :
    (afterOut s (execEgressPacketSelect port vc guard s)).lasting = s.lasting := by
  unfold execEgressPacketSelect
  simp only [afterOut_next]
  (repeat' split) <;> simp
@[simp] theorem execE2eReturn_lasting (port : Nat) (pkt : Pkt) (s : State) :
    (afterOut s (execE2eReturn port pkt s)).lasting = s.lasting := by simp [execE2eReturn]
@[simp] theorem execE2eReturnTimer_lasting (src : Nat) (s : State) : (afterOut s (execE2eReturnTimer src s)).lasting = s.lasting := by
  simp [execE2eReturnTimer]
@[simp] theorem execE2eStale_lasting (dest : Nat) (s : State) : (afterOut s (execE2eStale dest s)).lasting = s.lasting := by
  simp [execE2eStale]
@[simp] theorem execCcParamSet_lasting (h : Issue) (part : Nat) (blk : BitVec 128) (s : State) :
    (afterOut s (execCcParamSet h part blk s)).lasting = s.lasting := by simp [execCcParamSet]
@[simp] theorem execCcStitch_lasting (h : Issue) (part : Nat) (s : State) : (afterOut s (execCcStitch h part s)).lasting = s.lasting := by
  simp [execCcStitch]
@[simp] theorem execCcConnSet_lasting (h : Issue) (conn mode lo : Nat) (hi : BitVec 64) (fixed : Nat) (s : State) :
    (afterOut s (execCcConnSet h conn mode lo hi fixed s)).lasting = s.lasting := by simp [execCcConnSet]
@[simp] theorem execShpWrite_lasting (h : Issue) (shaper : Nat) (entry : BitVec 256) (s : State) :
    (afterOut s (execShpWrite h shaper entry s)).lasting = s.lasting := vuino_after fun s => by split <;> simp
@[simp] theorem execShpStitch_lasting (h : Issue) (first count : Nat) (s : State) :
    (afterOut s (execShpStitch h first count s)).lasting = s.lasting := by simp [execShpStitch]
@[simp] theorem execShpQuery_lasting (h : Issue) (shaper copy : Nat) (s : State) :
    (afterOut s (execShpQuery h shaper copy s)).lasting = s.lasting := vuino_after fun s => by split <;> simp
@[simp] theorem execSchedWeightSet_lasting (h : Issue) (part w : Nat) (s : State) :
    (afterOut s (execSchedWeightSet h part w s)).lasting = s.lasting := by simp [execSchedWeightSet]
@[simp] theorem execSchedStitch_lasting (h : Issue) (s : State) : (afterOut s (execSchedStitch h s)).lasting = s.lasting := by
  simp [execSchedStitch]
@[simp] theorem execHistRead_lasting (h : Issue) (queue clear : Nat) (s : State) :
    (afterOut s (execHistRead h queue clear s)).lasting = s.lasting := by simp [execHistRead]
@[simp] theorem execQueueSample_lasting (s : State) : (afterOut s (execQueueSample s)).lasting = s.lasting := by simp [execQueueSample]

/-! ### `Links` -/

@[simp] theorem State.retrain_lasting (s : State) (n : Nat) : (s.retrain n).lasting = s.lasting := by simp [State.retrain]
@[simp] theorem State.linkRec_lasting (s : State) (n reason : Nat) : (s.linkRec n reason).lasting = s.lasting := by simp [State.linkRec]
@[simp] theorem State.retrain181_lasting (s : State) (n : Nat) : (s.retrain181 n).lasting = s.lasting := by simp [State.retrain181]
@[simp] theorem State.badFlit_lasting (s : State) (n : Nat) : (s.badFlit n).lasting = s.lasting := by simp [State.badFlit]
@[simp] theorem State.sendWord_lasting (s : State) (n : Nat) (w : BitVec 64) : (s.sendWord n w).lasting = s.lasting := by
  simp [State.sendWord]
@[simp] theorem State.startModeChange_lasting (s : State) (n : Nat) : (s.startModeChange n).lasting = s.lasting := by
  simp [State.startModeChange]
@[simp] theorem State.takeFlit_lasting (s : State) (n vc : Nat) (f : Flit) : (s.takeFlit n vc f).lasting = s.lasting := by
  simp [State.takeFlit]
@[simp] theorem execDataFlitRx_lasting (port : Nat) (flit : Flit) (s : State) :
    (afterOut s (execDataFlitRx port flit s)).lasting = s.lasting := by simp [execDataFlitRx]
@[simp] theorem execIdleFlitRx_lasting (port : Nat) (flit : Flit) (s : State) :
    (afterOut s (execIdleFlitRx port flit s)).lasting = s.lasting := by simp [execIdleFlitRx]
@[simp] theorem execCredit_lasting (port : Nat) (word : BitVec 64) (s : State) :
    (afterOut s (execCredit port word s)).lasting = s.lasting := by simp [execCredit]
@[simp] theorem execFack_lasting (port : Nat) (word : BitVec 64) (s : State) : (afterOut s (execFack port word s)).lasting = s.lasting := by
  simp [execFack]
@[simp] theorem execRetryReq_lasting (port : Nat) (word : BitVec 64) (s : State) :
    (afterOut s (execRetryReq port word s)).lasting = s.lasting := by simp [execRetryReq]

/-! ### `Tape` -/

@[simp] theorem State.tapeTo_lasting (s : State) (st : BitVec 4) : (s.tapeTo st).lasting = s.lasting := by simp [State.tapeTo]
@[simp] theorem State.tapeRec_lasting (s : State) (reason : Nat) (step : ℤ) : (s.tapeRec reason step).lasting = s.lasting := by
  simp [State.tapeRec]
@[simp] theorem State.eventFire_lasting (s : State) (part : Nat) (e : Event) : (s.eventFire part e).lasting = s.lasting := by
  fun_cases State.eventFire s part e <;> simp +zetaDelta
@[simp] theorem State.updEvent_lasting (s : State) (part ev : Nat) (f : Event → Event) : (s.updEvent part ev f).lasting = s.lasting := by
  simp [State.updEvent]
@[simp] theorem State.stepEvents_lasting (s : State) : s.stepEvents.lasting = s.lasting := by simp [State.stepEvents]
@[simp] theorem State.tapeStep_lasting (s : State) (off : ℤ) (st : BitVec 4) : (s.tapeStep off st).lasting = s.lasting := by
  simp [State.tapeStep]
@[simp] theorem State.tapeCompare_lasting (s : State) (off : ℤ) : (s.tapeCompare off).lasting = s.lasting := by
  fun_cases State.tapeCompare s off <;> simp +zetaDelta
@[simp] theorem execTapeMark_lasting (port : Nat) (hi lo : BitVec 64) (s : State) :
    (afterOut s (execTapeMark port hi lo s)).lasting = s.lasting := by simp [execTapeMark]

/-! ### `Links` -/

@[simp] theorem execLoopPing_lasting (port : Nat) (word : BitVec 64) (s : State) :
    (afterOut s (execLoopPing port word s)).lasting = s.lasting := by simp [execLoopPing]
@[simp] theorem execLoopEcho_lasting (port : Nat) (word : BitVec 64) (s : State) :
    (afterOut s (execLoopEcho port word s)).lasting = s.lasting := by
  unfold execLoopEcho
  simp only [afterOut_next]
  (repeat' split) <;> simp
@[simp] theorem execModeReq_lasting (port : Nat) (word : BitVec 64) (s : State) :
    (afterOut s (execModeReq port word s)).lasting = s.lasting := by simp [execModeReq]
@[simp] theorem execModeAck_lasting (port : Nat) (word : BitVec 64) (s : State) :
    (afterOut s (execModeAck port word s)).lasting = s.lasting := by simp [execModeAck]
@[simp] theorem execCreditLossTimer_lasting (port : Nat) (s : State) : (afterOut s (execCreditLossTimer port s)).lasting = s.lasting := by
  simp [execCreditLossTimer]
@[simp] theorem execModeReqRepeat_lasting (port : Nat) (s : State) : (afterOut s (execModeReqRepeat port s)).lasting = s.lasting := by
  simp [execModeReqRepeat]
@[simp] theorem execModeChangeTimeout_lasting (port : Nat) (s : State) :
    (afterOut s (execModeChangeTimeout port s)).lasting = s.lasting := by simp [execModeChangeTimeout]
@[simp] theorem execFackTimer_lasting (port : Nat) (s : State) : (afterOut s (execFackTimer port s)).lasting = s.lasting := by
  simp [execFackTimer]
@[simp] theorem execCreditTimer_lasting (port : Nat) (s : State) : (afterOut s (execCreditTimer port s)).lasting = s.lasting := by
  simp [execCreditTimer]
@[simp] theorem execRetryReqTimer_lasting (port : Nat) (s : State) : (afterOut s (execRetryReqTimer port s)).lasting = s.lasting := by
  simp [execRetryReqTimer]
@[simp] theorem execFackStall_lasting (port : Nat) (s : State) : (afterOut s (execFackStall port s)).lasting = s.lasting := by
  simp [execFackStall]
@[simp] theorem State.sendPings_lasting (s : State) (n : Nat) : (s.sendPings n).lasting = s.lasting := by simp [State.sendPings]
@[simp] theorem execLoopMeasureTimer_lasting (port : Nat) (s : State) : (afterOut s (execLoopMeasureTimer port s)).lasting = s.lasting := by
  simp [execLoopMeasureTimer]

/-! ### `Tape` -/

@[simp] theorem execTapeMarkSend_lasting (s : State) : (afterOut s (execTapeMarkSend s)).lasting = s.lasting := by simp [execTapeMarkSend]

/-! ### `Links` -/

@[simp] theorem State.trainCold_lasting (s : State) (n : Nat) : (s.trainCold n).lasting = s.lasting := by simp [State.trainCold]
@[simp] theorem execLinkSet_lasting (h : Issue) (port action : Nat) (s : State) :
    (afterOut s (execLinkSet h port action s)).lasting = s.lasting := vuino_after fun s => by simp

/-! ### `Peer` -/

@[simp] theorem execPacketForward_lasting (port : Nat) (pkt : Pkt) (s : State) :
    (afterOut s (execPacketForward port pkt s)).lasting = s.lasting := by
  unfold execPacketForward
  simp only [afterOut_next]
  (repeat' split) <;> simp

/-! ### `RouteCmds` -/

@[simp] theorem State.mcastCopy_lasting (s : State) (n src part : Nat) (relay : Bool) (p : Pkt) :
    (s.mcastCopy n src part relay p).lasting = s.lasting := by simp [State.mcastCopy]
@[simp] theorem State.mcastArrive_lasting (s : State) (port : Nat) (p : Pkt) : (s.mcastArrive port p).1.lasting = s.lasting := by
  simp [State.mcastArrive]

/-! ### `CollRows` -/

@[simp] theorem State.collDiscard_lasting (s : State) (k : Nat) : (s.collDiscard k).lasting = s.lasting := by simp [State.collDiscard]

/-! ### `Colls` -/

@[simp] theorem State.collWrite_lasting (s : State) (k va : Nat) (bs : Bytes) : (s.collWrite k va bs).1.lasting = s.lasting := by
  fun_cases State.collWrite s k va bs <;> simp +zetaDelta
@[simp] theorem State.writeResid_lasting (s : State) (k n : Nat) (rs : Nats) : (s.writeResid k n rs).lasting = s.lasting := by
  simp [State.writeResid]
@[simp] theorem State.retain_lasting (s : State) (k n : Nat) (wire : Bytes) : (s.retain k n wire).1.lasting = s.lasting := by
  simp [State.retain]

/-! ### `RouteCmds` -/

@[simp] theorem State.mcastSend_lasting (s : State) (part : Nat) (p : Pkt) : (s.mcastSend part p).lasting = s.lasting := by
  simp [State.mcastSend]

/-! ### `Colls` -/

@[simp] theorem State.collMcast_lasting (s : State) (k : Nat) (h : CHead) : (s.collMcast k h).lasting = s.lasting := by
  simp [State.collMcast]
@[simp] theorem State.placeResult_lasting (s : State) (k n : Nat) (bs : Bytes) : (s.placeResult k n bs).lasting = s.lasting := by
  simp [State.placeResult]
@[simp] theorem State.deliverResult_lasting (s : State) (k n : Nat) (wire : Bytes) : (s.deliverResult k n wire).lasting = s.lasting := by
  simp [State.deliverResult]
@[simp] theorem State.originResult_lasting (s : State) (k n : Nat) (wire : Bytes) : (s.originResult k n wire).lasting = s.lasting := by
  simp [State.originResult]
@[simp] theorem State.formChunk_lasting (s : State) (k n : Nat) : (s.formChunk k n).lasting = s.lasting := by simp [State.formChunk]

/-! ### `CollRows` -/

@[simp] theorem State.collUp_lasting (s : State) (k : Nat) (p : Pkt) : (s.collUp k p).lasting = s.lasting := by simp [State.collUp]
@[simp] theorem State.dodCheck_lasting (s : State) (k t : Nat) : (s.dodCheck k t).lasting = s.lasting := by
  fun_cases State.dodCheck s k t <;> simp +zetaDelta

/-! ### `Colls` -/

@[simp] theorem State.resultWhole_lasting (s : State) (k n : Nat) : (s.resultWhole k n).lasting = s.lasting := by
  fun_cases State.resultWhole s k n <;> simp +zetaDelta

/-! ### `CollRows` -/

@[simp] theorem State.collDown_lasting (s : State) (k : Nat) (p : Pkt) : (s.collDown k p).lasting = s.lasting := by simp [State.collDown]
@[simp] theorem State.collAck_lasting (s : State) (k : Nat) (p : Pkt) : (s.collAck k p).lasting = s.lasting := by simp [State.collAck]

/-! ### `Pieces` -/

@[simp] theorem State.ctxRead_lasting (s : State) (part ctx va n : Nat) (errs : WordErrs) (data : Bytes) (rd : ReadEnd) :
    (s.ctxRead part ctx va n errs data rd).1.lasting = s.lasting := by
  fun_cases State.ctxRead s part ctx va n errs data rd <;> simp +zetaDelta

/-! ### `Colls` -/

@[simp] theorem State.collRead_lasting (s : State) (k va n : Nat) (errs : WordErrs) (data : Bytes) (rd : ReadEnd) :
    (s.collRead k va n errs data rd).1.lasting = s.lasting := by simp [State.collRead]

/-! ### `CollRows` -/

@[simp] theorem State.serveWork_lasting (s : State) (k n q : Nat) (is : Nats) (errs : WordErrs) :
    (s.serveWork k n q is errs).lasting = s.lasting := by fun_cases State.serveWork s k n q is errs <;> simp +zetaDelta
@[simp] theorem State.collFetch_lasting (s : State) (k : Nat) (p : Pkt) (errs : WordErrs) : (s.collFetch k p errs).lasting = s.lasting := by
  simp [State.collFetch]
@[simp] theorem State.sendFetch_lasting (s : State) (k n : Nat) : (s.sendFetch k n).lasting = s.lasting := by
  fun_cases State.sendFetch s k n <;> simp +zetaDelta
@[simp] theorem State.collSeal_lasting (s : State) (k : Nat) (p : Pkt) : (s.collSeal k p).lasting = s.lasting := by
  fun_cases State.collSeal s k p <;> simp +zetaDelta
@[simp] theorem State.collSealAck_lasting (s : State) (k : Nat) (p : Pkt) : (s.collSealAck k p).lasting = s.lasting := by
  simp [State.collSealAck]

/-! ### `Colls` -/

@[simp] theorem State.collAborted_lasting (s : State) (k : Nat) (p : Pkt) : (s.collAborted k p).lasting = s.lasting := by
  simp [State.collAborted]

/-! ### `CollRows` -/

@[simp] theorem State.collArrive_lasting (s : State) (k : Nat) (p : Pkt) : (s.collArrive k p).lasting = s.lasting := by
  simp [State.collArrive]
@[simp] theorem State.collRefused_lasting (s : State) (k : Nat) (p : Pkt) : (s.collRefused k p).lasting = s.lasting := by
  unfold State.collRefused
  dsimp only
  (repeat' split) <;> simp
@[simp] theorem State.collHandle_lasting (s : State) (k : Nat) (p : Pkt) (errs : WordErrs) :
    (s.collHandle k p errs).lasting = s.lasting := by fun_cases State.collHandle s k p errs <;> simp +zetaDelta
@[simp] theorem State.collTake_lasting (s : State) (p : Pkt) (errs : WordErrs) : (s.collTake p errs).lasting = s.lasting := by
  simp [State.collTake]
@[simp] theorem execMcastPacket_lasting (port : Nat) (pkt : Pkt) (s : State) :
    (afterOut s (execMcastPacket port pkt s)).lasting = s.lasting := by simp [execMcastPacket]

/-! ### `Tape` -/

@[simp] theorem State.bookBoundary_lasting (s : State) : s.bookBoundary.lasting = s.lasting := by simp [State.bookBoundary]

/-! ### `RouteCmds` -/

@[simp] theorem State.sendPush_lasting (s : State) (n : Nat) : (s.sendPush n).lasting = s.lasting := by simp [State.sendPush]
@[simp] theorem execTapeEpochBoundary_lasting (s : State) : (afterOut s (execTapeEpochBoundary s)).lasting = s.lasting := by
  simp [execTapeEpochBoundary]
@[simp] theorem execMapPush_lasting (port : Nat) (pkt : Pkt) (s : State) : (afterOut s (execMapPush port pkt s)).lasting = s.lasting := by
  simp [execMapPush]
@[simp] theorem State.updBank_lasting (s : State) (bank : Nat) (f : BankS → BankS) : (s.updBank bank f).lasting = s.lasting := by
  simp [State.updBank]
@[simp] theorem execRtWrite_lasting (h : Issue) (bank kind first count : Nat) (entries : Nats) (s : State) :
    (afterOut s (execRtWrite h bank kind first count entries s)).lasting = s.lasting :=
  vuino_after fun s => by dsimp only; (repeat' split) <;> simp
@[simp] theorem execRtStitch_lasting (h : Issue) (bank : Nat) (s : State) : (afterOut s (execRtStitch h bank s)).lasting = s.lasting :=
  vuino_after fun s => by dsimp only; (repeat' split) <;> simp
@[simp] theorem execRtClear_lasting (h : Issue) (bank : Nat) (s : State) : (afterOut s (execRtClear h bank s)).lasting = s.lasting := by
  refine vuino_after fun s => ?_
  split
  · simp
  · split <;> simp
@[simp] theorem execRtFlip_lasting (h : Issue) (bank : Nat) (s : State) : (afterOut s (execRtFlip h bank s)).lasting = s.lasting := by
  simp [execRtFlip]
@[simp] theorem execRtQuery_lasting (h : Issue) (bank kind first count : Nat) (s : State) :
    (afterOut s (execRtQuery h bank kind first count s)).lasting = s.lasting := by simp [execRtQuery]
@[simp] theorem execMcastSet_lasting (h : Issue) (group : Nat) (entry : BitVec 64) (s : State) :
    (afterOut s (execMcastSet h group entry s)).lasting = s.lasting := by simp [execMcastSet]
@[simp] theorem execMcastQuery_lasting (h : Issue) (group : Nat) (s : State) :
    (afterOut s (execMcastQuery h group s)).lasting = s.lasting := by simp [execMcastQuery]

/-! ### `Links` -/

@[simp] theorem State.checkPort_lasting (s : State) (n : Nat) : (s.checkPort n).lasting = s.lasting := by simp [State.checkPort]

/-! ### `Optics` -/

@[simp] theorem State.exchange_lasting (s : State) (n : Nat) : (s.exchange n).lasting = s.lasting := by
  fun_cases State.exchange s n <;> simp +zetaDelta
@[simp] theorem execAlignmentCodewordRx_lasting (port lane : Nat) (cw : BitVec 256) (s : State) :
    (afterOut s (execAlignmentCodewordRx port lane cw s)).lasting = s.lasting := by
  unfold execAlignmentCodewordRx
  simp only [afterOut_next]
  (repeat' split) <;> simp
@[simp] theorem execLightDetect_lasting (port : Nat) (s : State) : (afterOut s (execLightDetect port s)).lasting = s.lasting := by
  simp [execLightDetect]

/-! ### `Links` -/

@[simp] theorem State.linkUp_lasting (s : State) (n : Nat) : (s.linkUp n).lasting = s.lasting := by simp [State.linkUp]

/-! ### `Optics` -/

@[simp] theorem execTrainingPhaseEnd_lasting (port : Nat) (ok : Bool) (lanes : Nat) (s : State) :
    (afterOut s (execTrainingPhaseEnd port ok lanes s)).lasting = s.lasting := by
  unfold execTrainingPhaseEnd
  simp only [afterOut_next]
  (repeat' split) <;> simp
@[simp] theorem State.trainFail_lasting (s : State) (n : Nat) : (s.trainFail n).lasting = s.lasting := by simp [State.trainFail]
@[simp] theorem execTrainingTimeout_lasting (port : Nat) (s : State) : (afterOut s (execTrainingTimeout port s)).lasting = s.lasting := by
  simp [execTrainingTimeout]
@[simp] theorem execTrainingRetryTimer_lasting (port : Nat) (s : State) :
    (afterOut s (execTrainingRetryTimer port s)).lasting = s.lasting := by simp [execTrainingRetryTimer]
@[simp] theorem execLightLoss_lasting (port : Nat) (s : State) : (afterOut s (execLightLoss port s)).lasting = s.lasting := by
  simp [execLightLoss]
@[simp] theorem State.laneOut_lasting (s : State) (port lane : Nat) : (s.laneOut port lane).lasting = s.lasting := by simp [State.laneOut]
@[simp] theorem execLaneDegrade_lasting (port lane : Nat) (s : State) : (afterOut s (execLaneDegrade port lane s)).lasting = s.lasting := by
  simp [execLaneDegrade]
@[simp] theorem execWidenTimer_lasting (port lanes : Nat) (s : State) : (afterOut s (execWidenTimer port lanes s)).lasting = s.lasting := by
  simp [execWidenTimer]
@[simp] theorem State.groupRetrain_lasting (s : State) (k g : Nat) : (s.groupRetrain k g).lasting = s.lasting := by
  simp [State.groupRetrain]
@[simp] theorem State.elsRec_lasting (s : State) (k emitter reason : Nat) (value : ℤ) :
    (s.elsRec k emitter reason value).lasting = s.lasting := by simp [State.elsRec]

/-! ### `Ops` -/

@[simp] theorem State.updEls_lasting (s : State) (k : Nat) (f : ElsS → ElsS) : (s.updEls k f).lasting = s.lasting := by simp [State.updEls]

/-! ### `Optics` -/

@[simp] theorem execEmitterFail_lasting (els emitter : Nat) (s : State) :
    (afterOut s (execEmitterFail els emitter s)).lasting = s.lasting := by
  unfold execEmitterFail
  simp only [afterOut_next]
  (repeat' split) <;> simp
@[simp] theorem execSpareSwitched_lasting (els wave : Nat) (s : State) :
    (afterOut s (execSpareSwitched els wave s)).lasting = s.lasting := by
  unfold execSpareSwitched
  simp only [afterOut_next]
  split <;> simp
@[simp] theorem State.monitorRec_lasting (s : State) (x : Sample) (reason : Nat) : (s.monitorRec x reason).lasting = s.lasting := by
  simp [State.monitorRec]
@[simp] theorem State.wearMove_lasting (s : State) (k emitter : Nat) : (s.wearMove k emitter).lasting = s.lasting := by
  simp [State.wearMove]
@[simp] theorem State.monitorAct_lasting (s : State) (x : Sample) : (s.monitorAct x).lasting = s.lasting := by
  fun_cases State.monitorAct s x <;> simp +zetaDelta
@[simp] theorem State.elsPortsOut_lasting (s : State) (k : Nat) (st : BitVec 4) : (s.elsPortsOut k st).lasting = s.lasting := by
  simp [State.elsPortsOut]
@[simp] theorem State.elsLoopsEnd_lasting (s : State) (k : Nat) : (s.elsLoopsEnd k).lasting = s.lasting := by simp [State.elsLoopsEnd]
@[simp] theorem State.monitor_lasting (s : State) (x) : (State.monitor s x).lasting = s.lasting := by
  unfold State.monitor
  dsimp only
  rw [State.onIf_lasting, State.onIf_lasting]
  · simp
  · intro t; split <;> simp
  · simp
@[simp] theorem execOptMonitorSample_lasting (samples : Samples) (s : State) :
    (afterOut s (execOptMonitorSample samples s)).lasting = s.lasting := by simp [execOptMonitorSample]
@[simp] theorem execElsRelease_lasting (h : Issue) (els : Nat) (s : State) : (afterOut s (execElsRelease h els s)).lasting = s.lasting := by
  simp [execElsRelease]
@[simp] theorem execElsStart_lasting (h : Issue) (els : Nat) (s : State) : (afterOut s (execElsStart h els s)).lasting = s.lasting := by
  simp [execElsStart]
@[simp] theorem execOptQuery_lasting (h : Issue) (kind index : Nat) (o : Outside) (s : State) :
    (afterOut s (execOptQuery h kind index o s)).lasting = s.lasting := by simp [execOptQuery]
@[simp] theorem execElsInsert_lasting (els : Nat) (s : State) : (afterOut s (execElsInsert els s)).lasting = s.lasting := by
  simp [execElsInsert]
@[simp] theorem execElsRemoved_lasting (els : Nat) (s : State) : (afterOut s (execElsRemoved els s)).lasting = s.lasting := by
  unfold execElsRemoved
  simp only [afterOut_next]
  (repeat' split) <;> simp

/-! ### `Needles` -/

@[simp] theorem execClusterClearDone_lasting (cluster : Nat) (s : State) :
    (afterOut s (execClusterClearDone cluster s)).lasting = s.lasting := by simp [execClusterClearDone]
@[simp] theorem State.failNeedle_lasting (s : State) (n : Nat) : (s.failNeedle n).lasting = s.lasting := by simp [State.failNeedle]
@[simp] theorem execNeedleFailed_lasting (n : Nat) (s : State) : (afterOut s (execNeedleFailed n s)).lasting = s.lasting := by
  simp [execNeedleFailed]

/-! ### `Ops` -/

@[simp] theorem State.updDie_lasting (s : State) (d : Nat) (f : DieS → DieS) : (s.updDie d f).lasting = s.lasting := by simp [State.updDie]

/-! ### `Needles` -/

@[simp] theorem execNeedleSpared_lasting (cluster : Nat) (s : State) : (afterOut s (execNeedleSpared cluster s)).lasting = s.lasting := by
  unfold execNeedleSpared
  simp only [afterOut_next]
  split <;> simp
@[simp] theorem State.updSq_lasting (s : State) (c q : Nat) (f : SQ → SQ) : (s.updSq c q f).lasting = s.lasting := by simp [State.updSq]
@[simp] theorem execStaleTailFire_lasting (cluster queue : Nat) (s : State) :
    (afterOut s (execStaleTailFire cluster queue s)).lasting = s.lasting := by
  unfold execStaleTailFire
  simp only [afterOut_next]
  (repeat' split) <;> simp
@[simp] theorem execNdieClkSet_lasting (h : Issue) (die minMhz maxMhz : Nat) (s : State) :
    (afterOut s (execNdieClkSet h die minMhz maxMhz s)).lasting = s.lasting := by simp [execNdieClkSet]
@[simp] theorem State.trap_lasting (s : State) (n code info : Nat) : (s.trap n code info).lasting = s.lasting := by
  fun_cases State.trap s n code info <;> simp +zetaDelta
theorem State.issue_lasting {n op : Nat} {x : Upset} {f : Ins → State → Did} (hf : ∀ i, ((f i s).after s).lasting = s.lasting) :
  (s.issue n op x f).lasting = s.lasting := by
  unfold State.issue
  dsimp only
  split
  · rfl
  · next id r _ =>
    generalize hi : (Ins.mk _ _ _ _ _ _) = i
    have h := hf i
    simp only [State.lasting_ite]
    cases hd : f i s <;> rw [hd] at h <;> simp at h <;> simp [h]
theorem State.issue_after {n op : Nat} {x : Upset} {f : Ins → State → Did} (hf : ∀ i, ((f i s).after s).lasting = s.lasting) :
  (afterOut s (.next (s.issue n op x f))).lasting = s.lasting := State.issue_lasting hf
@[simp] theorem Ins.illegal_after (i : Ins) : i.illegal.after s = s := rfl
@[simp] theorem Ins.guard_after (i : Ins) (b : Bool) (k : Did) : (i.guard b k).after s = if b then s else k.after s := by simp [Ins.guard]
@[simp] theorem Ins.set_lasting (i : Ins) (t : State) (f : NeedleS → NeedleS) :
    ((i.set t f).after s).lasting = t.lasting := by simp [Ins.set]

/-! ### `NeedleScalar` -/

@[simp] theorem execSarith_lasting (n : Nat) (x : Upset) (s : State) : (afterOut s (execSarith n x s)).lasting = s.lasting :=
  State.issue_after fun i => by simp
@[simp] theorem State.immOp_lasting (n op x) (f : BitVec 64 → BitVec 64 → BitVec 64) : (s.immOp n op x f).lasting = s.lasting :=
  State.issue_lasting fun i => by simp
@[simp] theorem execAddi_lasting (n : Nat) (x : Upset) (s : State) : (afterOut s (execAddi n x s)).lasting = s.lasting := by simp [execAddi]
@[simp] theorem execAndi_lasting (n : Nat) (x : Upset) (s : State) : (afterOut s (execAndi n x s)).lasting = s.lasting := by simp [execAndi]
@[simp] theorem execOri_lasting (n : Nat) (x : Upset) (s : State) : (afterOut s (execOri n x s)).lasting = s.lasting := by simp [execOri]
@[simp] theorem execXori_lasting (n : Nat) (x : Upset) (s : State) : (afterOut s (execXori n x s)).lasting = s.lasting := by simp [execXori]
@[simp] theorem State.immShift_lasting (n op x) (f : BitVec 64 → Nat → BitVec 64) : (s.immShift n op x f).lasting = s.lasting :=
  State.issue_lasting fun i => by simp
@[simp] theorem execSlli_lasting (n : Nat) (x : Upset) (s : State) : (afterOut s (execSlli n x s)).lasting = s.lasting := by simp [execSlli]
@[simp] theorem execSrli_lasting (n : Nat) (x : Upset) (s : State) : (afterOut s (execSrli n x s)).lasting = s.lasting := by simp [execSrli]
@[simp] theorem execSrai_lasting (n : Nat) (x : Upset) (s : State) : (afterOut s (execSrai n x s)).lasting = s.lasting := by simp [execSrai]
@[simp] theorem execSlti_lasting (n : Nat) (x : Upset) (s : State) : (afterOut s (execSlti n x s)).lasting = s.lasting := by simp [execSlti]
@[simp] theorem execLui_lasting (n : Nat) (x : Upset) (s : State) : (afterOut s (execLui n x s)).lasting = s.lasting :=
  State.issue_after fun i => by simp
@[simp] theorem execMfsr_lasting (n : Nat) (x : Upset) (s : State) : (afterOut s (execMfsr n x s)).lasting = s.lasting :=
  State.issue_after fun i => by dsimp only; split <;> simp
@[simp] theorem execMtsr_lasting (n : Nat) (x : Upset) (s : State) : (afterOut s (execMtsr n x s)).lasting = s.lasting :=
  State.issue_after fun i => by simp
theorem Did.also_after {d : Did} {f : State → State} (h : ∀ x, (f x).lasting = x.lasting) (hd : (d.after s).lasting = s.lasting) :
    ((d.also f).after s).lasting = s.lasting := by
  cases d with
  | ok t => exact (h t).trans hd
  | jump t n => exact (h t).trans hd
  | trap n m => rfl
  | stay t => exact (h t).trans hd
  | lost n => rfl

/-! ### `Needles` -/

@[simp] theorem State.localCe_lasting (s : State) (n : Nat) : (s.localCe n).lasting = s.lasting := by simp [State.localCe]

/-! ### `NeedleScalar` -/

@[simp] theorem Did.ce_lasting {d : Did} {n a : Nat} {x : Upset} (hd : (d.after s).lasting = s.lasting) :
    ((d.ce n a x).after s).lasting = s.lasting := by
  unfold Did.ce
  split
  · exact Did.also_after (by simp) hd
  · exact hd
@[simp] theorem Ins.load_lasting {i : Ins} {x : Upset} {a size : Nat} {l : Bool} {k : Nat → Did} (h : ∀ v, ((k v).after s).lasting = s.lasting) : ((i.load s x a size l k).after s).lasting = s.lasting := by
  unfold Ins.load
  split <;> simp [h]
@[simp] theorem State.scalarLoad_lasting (s : State) (n op : Nat) (x : Upset) (size : Nat) (signed : Bool) :
    (s.scalarLoad n op x size signed).lasting = s.lasting := State.issue_after fun i => by simp
@[simp] theorem execLb_lasting (n : Nat) (x : Upset) (s : State) : (afterOut s (execLb n x s)).lasting = s.lasting := by simp [execLb]
@[simp] theorem execLbu_lasting (n : Nat) (x : Upset) (s : State) : (afterOut s (execLbu n x s)).lasting = s.lasting := by simp [execLbu]
@[simp] theorem execLh_lasting (n : Nat) (x : Upset) (s : State) : (afterOut s (execLh n x s)).lasting = s.lasting := by simp [execLh]
@[simp] theorem execLhu_lasting (n : Nat) (x : Upset) (s : State) : (afterOut s (execLhu n x s)).lasting = s.lasting := by simp [execLhu]
@[simp] theorem execLw_lasting (n : Nat) (x : Upset) (s : State) : (afterOut s (execLw n x s)).lasting = s.lasting := by simp [execLw]
@[simp] theorem execLwu_lasting (n : Nat) (x : Upset) (s : State) : (afterOut s (execLwu n x s)).lasting = s.lasting := by simp [execLwu]
@[simp] theorem execLd_lasting (n : Nat) (x : Upset) (s : State) : (afterOut s (execLd n x s)).lasting = s.lasting := by simp [execLd]
@[simp] theorem State.dataWrite_lasting (s : State) (n a : Nat) (bs : Bytes) : (s.dataWrite n a bs).lasting = s.lasting := by
  simp [State.dataWrite]
@[simp] theorem Ins.store_lasting (i : Ins) (s : State) (x : Upset) (a size : Nat) (bs : Bytes) :
    ((Ins.store i s x a size bs).after s).lasting = s.lasting := by fun_cases Ins.store i s x a size bs <;> simp +zetaDelta
@[simp] theorem State.scalarStore_lasting (s : State) (n op : Nat) (x : Upset) (size : Nat) :
    (s.scalarStore n op x size).lasting = s.lasting := State.issue_after fun i => by simp
@[simp] theorem execSb_lasting (n : Nat) (x : Upset) (s : State) : (afterOut s (execSb n x s)).lasting = s.lasting := by simp [execSb]
@[simp] theorem execSh_lasting (n : Nat) (x : Upset) (s : State) : (afterOut s (execSh n x s)).lasting = s.lasting := by simp [execSh]
@[simp] theorem execSw_lasting (n : Nat) (x : Upset) (s : State) : (afterOut s (execSw n x s)).lasting = s.lasting := by simp [execSw]
@[simp] theorem execSd_lasting (n : Nat) (x : Upset) (s : State) : (afterOut s (execSd n x s)).lasting = s.lasting := by simp [execSd]
@[simp] theorem execAmo_lasting (n : Nat) (x : Upset) (s : State) : (afterOut s (execAmo n x s)).lasting = s.lasting :=
  State.issue_after fun i => by simp
@[simp] theorem Ins.go_lasting (i : Ins) (t : State) (a) (h : t.lasting = s.lasting): ((i.go t a).after s).lasting = s.lasting := by simp [Ins.go, h]
@[simp] theorem State.branch_lasting (n op x) (f : BitVec 64 → BitVec 64 → Bool) : (s.branch n op x f).lasting = s.lasting :=
  State.issue_lasting fun i => by simp
@[simp] theorem execBeq_lasting (n : Nat) (x : Upset) (s : State) : (afterOut s (execBeq n x s)).lasting = s.lasting := by simp [execBeq]
@[simp] theorem execBne_lasting (n : Nat) (x : Upset) (s : State) : (afterOut s (execBne n x s)).lasting = s.lasting := by simp [execBne]
@[simp] theorem execBlt_lasting (n : Nat) (x : Upset) (s : State) : (afterOut s (execBlt n x s)).lasting = s.lasting := by simp [execBlt]
@[simp] theorem execBge_lasting (n : Nat) (x : Upset) (s : State) : (afterOut s (execBge n x s)).lasting = s.lasting := by simp [execBge]
@[simp] theorem execBltu_lasting (n : Nat) (x : Upset) (s : State) : (afterOut s (execBltu n x s)).lasting = s.lasting := by simp [execBltu]
@[simp] theorem execBgeu_lasting (n : Nat) (x : Upset) (s : State) : (afterOut s (execBgeu n x s)).lasting = s.lasting := by simp [execBgeu]
@[simp] theorem execJal_lasting (n : Nat) (x : Upset) (s : State) : (afterOut s (execJal n x s)).lasting = s.lasting :=
  State.issue_after fun i => by simp
@[simp] theorem execJalr_lasting (n : Nat) (x : Upset) (s : State) : (afterOut s (execJalr n x s)).lasting = s.lasting :=
  State.issue_after fun i => by simp
@[simp] theorem execVld_lasting (n : Nat) (x : Upset) (s : State) : (afterOut s (execVld n x s)).lasting = s.lasting :=
  State.issue_after fun i => by simp
@[simp] theorem execVst_lasting (n : Nat) (x : Upset) (s : State) : (afterOut s (execVst n x s)).lasting = s.lasting :=
  State.issue_after fun i => by simp
@[simp] theorem execVstm_lasting (n : Nat) (x : Upset) (s : State) : (afterOut s (execVstm n x s)).lasting = s.lasting :=
  State.issue_after fun i => by simp
@[simp] theorem execVgather_lasting (n : Nat) (x : Upset) (s : State) : (afterOut s (execVgather n x s)).lasting = s.lasting :=
  State.issue_after fun i => by dsimp only; split <;> simp
@[simp] theorem execVscatter_lasting (n : Nat) (x : Upset) (s : State) : (afterOut s (execVscatter n x s)).lasting = s.lasting :=
  State.issue_after fun i => by dsimp only; split <;> simp

/-! ### `NeedleVector` -/

@[simp] theorem Ins.lanes_lasting (i : Ins) (t : State) (f) : ((i.lanes t f).after s).lasting = t.lasting := by simp [Ins.lanes]
@[simp] theorem execVarith_lasting (n : Nat) (x : Upset) (s : State) : (afterOut s (execVarith n x s)).lasting = s.lasting :=
  State.issue_after fun i => by simp
@[simp] theorem execVlogic_lasting (n : Nat) (x : Upset) (s : State) : (afterOut s (execVlogic n x s)).lasting = s.lasting :=
  State.issue_after fun i => by simp
@[simp] theorem execVcmp_lasting (n : Nat) (x : Upset) (s : State) : (afterOut s (execVcmp n x s)).lasting = s.lasting :=
  State.issue_after fun i => by simp
@[simp] theorem execVmisc_lasting (n : Nat) (x : Upset) (s : State) : (afterOut s (execVmisc n x s)).lasting = s.lasting :=
  State.issue_after fun i => by dsimp only; split <;> simp
@[simp] theorem execPlogic_lasting (n : Nat) (x : Upset) (s : State) : (afterOut s (execPlogic n x s)).lasting = s.lasting :=
  State.issue_after fun i => by simp
@[simp] theorem execVtopk_lasting (n : Nat) (x : Upset) (s : State) : (afterOut s (execVtopk n x s)).lasting = s.lasting :=
  State.issue_after fun i => by simp

/-! ### `NeedleTile` -/

@[simp] theorem execTmisc_lasting n x (s : State) : (afterOut s (execTmisc n x s)).lasting = s.lasting := by
  refine State.issue_after fun i => ?_
  rw [Ins.guard_after, State.lasting_ite, ite_eq_left_iff]
  intro _
  split <;> simp
@[simp] theorem execTmma_lasting (n : Nat) (x : Upset) (s : State) : (afterOut s (execTmma n x s)).lasting = s.lasting :=
  State.issue_after fun i => by simp
@[simp] theorem execVcvt_lasting (n : Nat) (x : Upset) (s : State) : (afterOut s (execVcvt n x s)).lasting = s.lasting :=
  State.issue_after fun i => by simp
@[simp] theorem execVcvtmx_lasting (n : Nat) (x : Upset) (s : State) : (afterOut s (execVcvtmx n x s)).lasting = s.lasting :=
  State.issue_after fun i => by simp
@[simp] theorem execVmxdq_lasting (n : Nat) (x : Upset) (s : State) : (afterOut s (execVmxdq n x s)).lasting = s.lasting :=
  State.issue_after fun i => by simp
@[simp] theorem execVscale_lasting (n : Nat) (x : Upset) (s : State) : (afterOut s (execVscale n x s)).lasting = s.lasting :=
  State.issue_after fun i => by simp

/-! ### `NeedleMove` -/

@[simp] theorem execCpy_lasting (n : Nat) (x : Upset) (s : State) : (afterOut s (execCpy n x s)).lasting = s.lasting :=
  State.issue_after fun i => by dsimp only; split <;> simp

/-! ### `Needles` -/

@[simp] theorem State.kernelEnd_lasting (s : State) (id : Nat) : (s.kernelEnd id).lasting = s.lasting := by
  fun_cases State.kernelEnd s id <;> simp +zetaDelta

/-! ### `Ops` -/

@[simp] theorem State.updRun_lasting (s : State) (r : Nat) (f : RunS → RunS) : (s.updRun r f).lasting = s.lasting := by
  fun_cases State.updRun s r f <;> simp +zetaDelta

/-! ### `Needles` -/

@[simp] theorem execCpyDone_lasting (xfer : Nat) (s : State) : (afterOut s (execCpyDone xfer s)).lasting = s.lasting := by
  unfold execCpyDone
  simp only [afterOut_next]
  (repeat' split) <;> simp

/-! ### `NeedleMove` -/

@[simp] theorem execFsig_lasting (n : Nat) (x : Upset) (s : State) : (afterOut s (execFsig n x s)).lasting = s.lasting :=
  State.issue_after fun i => by dsimp only; (repeat' split) <;> simp
@[simp] theorem execSqpush_lasting (n : Nat) (x : Upset) (s : State) : (afterOut s (execSqpush n x s)).lasting = s.lasting :=
  State.issue_after fun i => by simp
@[simp] theorem State.resumePush_lasting (s : State) (c q n : Nat) : (s.resumePush c q n).lasting = s.lasting := by simp [State.resumePush]
@[simp] theorem execSqpushResume_lasting (n : Nat) (s : State) : (afterOut s (execSqpushResume n s)).lasting = s.lasting := by
  simp [execSqpushResume]
@[simp] theorem execSqpop_lasting (n : Nat) (x : Upset) (s : State) : (afterOut s (execSqpop n x s)).lasting = s.lasting :=
  State.issue_after fun i => by dsimp only; split <;> simp
@[simp] theorem execSqflush_lasting (n : Nat) (x : Upset) (s : State) : (afterOut s (execSqflush n x s)).lasting = s.lasting :=
  State.issue_after fun i => by dsimp only; split <;> simp
@[simp] theorem execSqstat_lasting (n : Nat) (x : Upset) (s : State) : (afterOut s (execSqstat n x s)).lasting = s.lasting :=
  State.issue_after fun i => by simp
@[simp] theorem Ins.sync_lasting {i : Ins} {b : Bool} {k : Nat → Did} (h : ∀ v, ((k v).after s).lasting = s.lasting) :
    ((i.sync s b k).after s).lasting = s.lasting := by
  unfold Ins.sync
  split <;> simp [h]
@[simp] theorem execSyadd_lasting (n : Nat) (x : Upset) (s : State) : (afterOut s (execSyadd n x s)).lasting = s.lasting :=
  State.issue_after fun i => by simp
@[simp] theorem execSywait_lasting (n : Nat) (x : Upset) (s : State) : (afterOut s (execSywait n x s)).lasting = s.lasting :=
  State.issue_after fun i => by simp
@[simp] theorem execSywaitResume_lasting (n : Nat) (s : State) : (afterOut s (execSywaitResume n s)).lasting = s.lasting := by
  unfold execSywaitResume
  simp only [afterOut_next]
  split <;> simp
@[simp] theorem execSyrd_lasting (n : Nat) (x : Upset) (s : State) : (afterOut s (execSyrd n x s)).lasting = s.lasting :=
  State.issue_after fun i => by simp
@[simp] theorem execTape_lasting (n : Nat) (x : Upset) (s : State) : (afterOut s (execTape n x s)).lasting = s.lasting :=
  State.issue_after fun i => by simp

/-! ### `NeedleScalar` -/

@[simp] theorem execFence_lasting (n : Nat) (x : Upset) (s : State) : (afterOut s (execFence n x s)).lasting = s.lasting :=
  State.issue_after fun i => by simp
@[simp] theorem execTrap_lasting (n : Nat) (x : Upset) (s : State) : (afterOut s (execTrap n x s)).lasting = s.lasting :=
  State.issue_after fun i => by simp

/-! ### `Needles` -/

@[simp] theorem joinChunks_lasting (k cid : Nat) (msn : BitVec 32) (a3 : Nat) (a4 : State) :
    (joinChunks k cid msn a3 a4).lasting = a4.lasting := by
  induction a3 generalizing a4 with
  | zero => rfl
  | succ n ih => unfold joinChunks; dsimp only; (repeat' split) <;> simp [ih]
@[simp] theorem State.transformEnd_lasting (s : State) (id n : Nat) (r : RunS) : (s.transformEnd id n r).lasting = s.lasting := by
  fun_cases State.transformEnd s id n r <;> simp +zetaDelta

/-! ### `Colls` -/

@[simp] theorem State.contribute_lasting (s : State) (k n : Nat) (bs : Bytes) : (s.contribute k n bs).lasting = s.lasting := by
  fun_cases State.contribute s k n bs <;> simp +zetaDelta

/-! ### `Needles` -/

@[simp] theorem State.hookEnd_lasting (s : State) (id : Nat) (r : RunS) : (s.hookEnd id r).lasting = s.lasting := by simp [State.hookEnd]
@[simp] theorem State.runExit_lasting (s : State) (id n : Nat) : (s.runExit id n).lasting = s.lasting := by
  fun_cases State.runExit s id n <;> simp +zetaDelta
@[simp] theorem State.exitNeedle_lasting (s : State) (n : Nat) : (s.exitNeedle n).lasting = s.lasting := by
  fun_cases State.exitNeedle s n <;> simp +zetaDelta

/-! ### `NeedleScalar` -/

@[simp] theorem execExit_lasting (n : Nat) (x : Upset) (s : State) : (afterOut s (execExit n x s)).lasting = s.lasting :=
  State.issue_after fun i => by simp

/-! ### `Needles` -/

@[simp] theorem execRunBudgetExpiry_lasting (run : Nat) (s : State) : (afterOut s (execRunBudgetExpiry run s)).lasting = s.lasting := by
  unfold execRunBudgetExpiry
  simp only [afterOut_next]
  (repeat' split) <;> simp

/-! ### `Programs` -/

@[simp] theorem State.launchDesc_lasting (s : State) (p q slot : Nat) (d : Desc) : (s.launchDesc p q slot d).lasting = s.lasting := by
  simp [State.launchDesc]
@[simp] theorem execLaunch_lasting (part q : Nat) (d : Desc) (s : State) : (afterOut s (execLaunch part q d s)).lasting = s.lasting := by
  simp [execLaunch]

/-! ### `Runs` -/

@[simp] theorem State.startNeedle_lasting (s : State) (n run pc : Nat) (args : List (Nat × Nat)) :
    (s.startNeedle n run pc args).lasting = s.lasting := by simp [State.startNeedle]
@[simp] theorem State.addRun_lasting (s : State) (id : Nat) (r : RunS) : (s.addRun id r).lasting = s.lasting := by simp [State.addRun]

/-! ### `Programs` -/

@[simp] theorem State.kernelStart_lasting (s : State) (l : LaunchW) (d : Desc) (g : Prog) (cs : Nats) :
    (s.kernelStart l d g cs).lasting = s.lasting := by simp [State.kernelStart]
@[simp] theorem execLaunchStart_lasting (s : State) : (afterOut s (execLaunchStart s)).lasting = s.lasting := by
  unfold execLaunchStart
  simp only [afterOut_next]
  (repeat' split) <;> simp
@[simp] theorem State.bindRun_lasting (s : State) (k : Nat) (b : Bind) (n id : Nat) (args : List (Nat × Nat)) (r : RunS) :
    (s.bindRun k b n id args r).lasting = s.lasting := by simp [State.bindRun]
@[simp] theorem execTransformChunkReady_lasting (conn msn chunk : Nat) (s : State) :
    (afterOut s (execTransformChunkReady conn msn chunk s)).lasting = s.lasting := by
  unfold execTransformChunkReady
  simp only [afterOut_next]
  (repeat' split) <;> simp
@[simp] theorem execHandlerRunStart_lasting (conn msn : Nat) (s : State) :
    (afterOut s (execHandlerRunStart conn msn s)).lasting = s.lasting := by
  unfold execHandlerRunStart
  simp only [afterOut_next]
  (repeat' split) <;> simp
@[simp] theorem State.progPlace_lasting (s : State) (p : Nat) (g : Prog) (text : Bytes) :
    (s.progPlace p g text).st.lasting = s.lasting := by fun_cases State.progPlace s p g text <;> simp +zetaDelta
@[simp] theorem execProgLoad_lasting (h : Issue) (ctx va len : Nat) (o : Outside) (s : State) :
    (afterOut s (execProgLoad h ctx va len o s)).lasting = s.lasting := vuino_after fun s => by dsimp only; (repeat' split) <;> simp
@[simp] theorem execProgBind_lasting (h : Issue) (target : Nat) (blk : BitVec 256) (s : State) :
    (afterOut s (execProgBind h target blk s)).lasting = s.lasting := vuino_after fun s => by split <;> simp
@[simp] theorem State.untransform_lasting (s : State) (k : Nat) : (s.untransform k).lasting = s.lasting := by simp [State.untransform]

/-! ### `CollRows` -/

@[simp] theorem State.collUser_lasting (s : State) (k : Nat) (again : Bool) : (s.collUser k again).lasting = s.lasting := by
  simp [State.collUser]

/-! ### `Programs` -/

@[simp] theorem State.unbindBegin_lasting (s : State) (k : Nat) (h : Issue) : (s.unbindBegin k h).lasting = s.lasting := by
  simp [State.unbindBegin]
@[simp] theorem execProgUnbind_lasting (h : Issue) (tkind target force : Nat) (s : State) :
    (afterOut s (execProgUnbind h tkind target force s)).lasting = s.lasting := vuino_after fun s => by split <;> simp
@[simp] theorem State.dropLaunches_lasting (s : State) (p handle : Nat) : (s.dropLaunches p handle).lasting = s.lasting := by
  simp [State.dropLaunches]
@[simp] theorem execProgUnload_lasting (h : Issue) (prog force : Nat) (s : State) :
    (afterOut s (execProgUnload h prog force s)).lasting = s.lasting := vuino_after fun s => by split <;> simp
@[simp] theorem execProgQuery_lasting (h : Issue) (prog : Nat) (s : State) : (afterOut s (execProgQuery h prog s)).lasting = s.lasting :=
  vuino_after fun s => by split <;> simp
@[simp] theorem execProgPolicy_lasting (h : Issue) (part requireSig : Nat) (s : State) :
    (afterOut s (execProgPolicy h part requireSig s)).lasting = s.lasting := by simp [execProgPolicy]

/-! ### `CollRows` -/

@[simp] theorem execCollSet_lasting (h : Issue) (slot : Nat) (blk : BitVec 512) (s : State) :
    (afterOut s (execCollSet h slot blk s)).lasting = s.lasting := vuino_after fun s => by split <;> simp
@[simp] theorem execCollStitch_lasting (h : Issue) (slot : Nat) (o : Outside) (s : State) :
    (afterOut s (execCollStitch h slot o s)).lasting = s.lasting := vuino_after fun s => by split <;> simp
@[simp] theorem execCollAbort_lasting (h : Issue) (slot : Nat) (s : State) : (afterOut s (execCollAbort h slot s)).lasting = s.lasting :=
  vuino_after fun s => by split <;> simp
@[simp] theorem execCollQuery_lasting (h : Issue) (slot copy : Nat) (s : State) :
    (afterOut s (execCollQuery h slot copy s)).lasting = s.lasting := vuino_after fun s => by split <;> simp
@[simp] theorem State.collStartDesc_lasting (s : State) (p q slot : Nat) (d : Desc) : (s.collStartDesc p q slot d).lasting = s.lasting := by
  simp [State.collStartDesc]
@[simp] theorem execCollStart_lasting (part q : Nat) (d : Desc) (s : State) :
    (afterOut s (execCollStart part q d s)).lasting = s.lasting := by simp [execCollStart]
@[simp] theorem execCollBegin_lasting (slot : Nat) (s : State) : (afterOut s (execCollBegin slot s)).lasting = s.lasting := by
  simp [execCollBegin]
@[simp] theorem execCollContribReady_lasting (slot chunk : Nat) (data : Bytes) (rd : ReadEnd) (errs : WordErrs) (s : State) :
  (afterOut s (execCollContribReady slot chunk data rd errs s)).lasting = s.lasting := by
  unfold execCollContribReady
  rw [afterOut_next, State.lasting_ite, State.collDo_lasting, ite_self]
  intro t
  extract_lets n r
  have h : r.1.lasting = t.lasting := by simp [r]
  clear_value r
  split <;> simp [h]
@[simp] theorem State.rxColl_lasting (s : State) (port : Nat) (p : Pkt) (ctype : Nat) (errs : WordErrs) :
    (s.rxColl port p ctype errs).lasting = s.lasting := by simp [State.rxColl]
@[simp] theorem execUpData_lasting (port : Nat) (pkt : Pkt) (s : State) : (afterOut s (execUpData port pkt s)).lasting = s.lasting := by
  simp [execUpData]
@[simp] theorem execDownData_lasting (port : Nat) (pkt : Pkt) (s : State) : (afterOut s (execDownData port pkt s)).lasting = s.lasting := by
  simp [execDownData]
@[simp] theorem execChunkAck_lasting (port : Nat) (pkt : Pkt) (s : State) : (afterOut s (execChunkAck port pkt s)).lasting = s.lasting := by
  simp [execChunkAck]
@[simp] theorem execCollFetch_lasting (port : Nat) (pkt : Pkt) (errs : WordErrs) (s : State) :
    (afterOut s (execCollFetch port pkt errs s)).lasting = s.lasting := by simp [execCollFetch]
@[simp] theorem execSeal_lasting (port : Nat) (pkt : Pkt) (s : State) : (afterOut s (execSeal port pkt s)).lasting = s.lasting := by
  simp [execSeal]
@[simp] theorem execSealAck_lasting (port : Nat) (pkt : Pkt) (s : State) : (afterOut s (execSealAck port pkt s)).lasting = s.lasting := by
  simp [execSealAck]
@[simp] theorem execCollAbortPacket_lasting (port : Nat) (pkt : Pkt) (s : State) :
    (afterOut s (execCollAbortPacket port pkt s)).lasting = s.lasting := by simp [execCollAbortPacket]
@[simp] theorem execArrive_lasting (port : Nat) (pkt : Pkt) (s : State) : (afterOut s (execArrive port pkt s)).lasting = s.lasting := by
  simp [execArrive]
@[simp] theorem execNotStarted_lasting (port : Nat) (pkt : Pkt) (s : State) :
    (afterOut s (execNotStarted port pkt s)).lasting = s.lasting := by simp [execNotStarted]
@[simp] theorem execChunkAckTimer_lasting (slot chunk rank : Nat) (s : State) :
    (afterOut s (execChunkAckTimer slot chunk rank s)).lasting = s.lasting := by simp [execChunkAckTimer]
@[simp] theorem execUpResendTimer_lasting (slot chunk : Nat) (s : State) :
    (afterOut s (execUpResendTimer slot chunk s)).lasting = s.lasting := by
  unfold execUpResendTimer
  simp only [afterOut_next]
  split <;> simp
@[simp] theorem execFetchTimer_lasting (slot chunk : Nat) (s : State) : (afterOut s (execFetchTimer slot chunk s)).lasting = s.lasting := by
  simp [execFetchTimer]
@[simp] theorem execCollDeadline_lasting (slot : Nat) (s : State) : (afterOut s (execCollDeadline slot s)).lasting = s.lasting := by
  simp [execCollDeadline]
@[simp] theorem execAbortRepeat_lasting (slot : Nat) (s : State) : (afterOut s (execAbortRepeat slot s)).lasting = s.lasting := by
  simp [execAbortRepeat]

/-! ### `Programs` -/

@[simp] theorem execHookRunStart_lasting (slot chunk : Nat) (s : State) :
    (afterOut s (execHookRunStart slot chunk s)).lasting = s.lasting := by
  unfold execHookRunStart
  simp only [afterOut_next]
  (repeat' split) <;> simp

/-! ### `Sync` -/

@[simp] theorem State.armWaiter_lasting (s : State) (obj : Nat) (t : BitVec 64) : (s.armWaiter obj t).lasting = s.lasting := by
  simp [State.armWaiter]
@[simp] theorem execSyncCtl_lasting (h : Issue) (index evq arm thresh : Nat) (s : State) :
    (afterOut s (execSyncCtl h index evq arm thresh s)).lasting = s.lasting := vuino_after fun s => by split <;> simp
@[simp] theorem execSyncOp_lasting (h : Issue) (index op value : Nat) (s : State) :
    (afterOut s (execSyncOp h index op value s)).lasting = s.lasting := vuino_after fun s => by split <;> simp
@[simp] theorem execSyncQuery_lasting (h : Issue) (first count : Nat) (s : State) :
    (afterOut s (execSyncQuery h first count s)).lasting = s.lasting := by simp [execSyncQuery]
@[simp] theorem State.barDo_lasting {k : Nat} {f : State → State} (h : ∀ x, (f x).lasting = x.lasting) :
    (s.barDo k f).lasting = s.lasting := by
  simp [State.barDo, h]
@[simp] theorem State.syncDb_lasting {p i : Nat} {f : Nat → State → State} (h : ∀ k x, (f k x).lasting = x.lasting) :
    (s.syncDb p i f).lasting = s.lasting :=
  State.barDo_lasting fun x => by dsimp only; split <;> simp [h]
@[simp] theorem execSyncDbAdd_lasting (func index value : Nat) (s : State) :
    (afterOut s (execSyncDbAdd func index value s)).lasting = s.lasting := by simp [execSyncDbAdd]
@[simp] theorem execSyncDbSet_lasting (func index value : Nat) (s : State) :
    (afterOut s (execSyncDbSet func index value s)).lasting = s.lasting := by simp [execSyncDbSet]
@[simp] theorem execSyncDbArm_lasting (func index value : Nat) (s : State) :
    (afterOut s (execSyncDbArm func index value s)).lasting = s.lasting := by simp [execSyncDbArm]

/-! ### `Boot` -/

@[simp] theorem State.bootReply_lasting (s : State) (status reason : Nat) : (s.bootReply status reason).lasting = s.lasting := by
  simp [State.bootReply]
@[simp] theorem State.noteSigs_lasting (s : State) (b : Bundle) (reason : Nat) : (s.noteSigs b reason).lasting = s.lasting := by
  simp [State.noteSigs]
@[simp] theorem State.bootFails_lasting (s : State) (reason : Nat) : (s.bootFails reason).lasting = s.lasting := by simp [State.bootFails]
@[simp] theorem State.tryBundle_lasting (s : State) (b : Bundle) (rd : ReadEnd) : (s.tryBundle b rd).1.lasting = s.lasting := by
  simp [State.tryBundle]
@[simp] theorem State.bootMessage_lasting (s : State) (b : Bundle) (rd : ReadEnd) : (s.bootMessage b rd).lasting = s.lasting := by
  simp [State.bootMessage]

/-! ### `Tape` -/

@[simp] theorem execTapePpsSec_lasting (h : Issue) (seconds : Nat) (s : State) :
    (afterOut s (execTapePpsSec h seconds s)).lasting = s.lasting := by simp [execTapePpsSec]
@[simp] theorem execTapeEventSet_lasting (h : Issue) (event atNs periodUs op index value : Nat) (s : State) :
    (afterOut s (execTapeEventSet h event atNs periodUs op index value s)).lasting = s.lasting := by simp [execTapeEventSet]
@[simp] theorem execTapeEventCancel_lasting (h : Issue) (event : Nat) (s : State) :
    (afterOut s (execTapeEventCancel h event s)).lasting = s.lasting := by simp [execTapeEventCancel]
@[simp] theorem execBookWrite_lasting (h : Issue) (port cycle : Nat) (bitmap : BitVec 4096) (s : State) :
    (afterOut s (execBookWrite h port cycle bitmap s)).lasting = s.lasting := by simp [execBookWrite]
@[simp] theorem execBookStitch_lasting (h : Issue) (atNs portmask : Nat) (s : State) :
    (afterOut s (execBookStitch h atNs portmask s)).lasting = s.lasting := by simp [execBookStitch]
@[simp] theorem execBookQuery_lasting (h : Issue) (port copy : Nat) (s : State) :
    (afterOut s (execBookQuery h port copy s)).lasting = s.lasting := by simp [execBookQuery]

/-! ### `Parts` -/

@[simp] theorem execPartCreate_lasting (h : Issue) (part queues conns pinConns windows syncObjs shapers collSlots keySlots contexts clusterMask unitMap : Nat) (s : State) :
    (afterOut s (execPartCreate h part queues conns pinConns windows syncObjs shapers collSlots keySlots contexts clusterMask unitMap s)).lasting = s.lasting := by
  simp [execPartCreate]
@[simp] theorem execPartReset_lasting (h : Issue) (part force : Nat) (s : State) :
    (afterOut s (execPartReset h part force s)).lasting = s.lasting := by
  refine vuino_after fun s => ?_
  split
  · simp
  split
  · simp
  split
  · simp
  · split <;> simp
@[simp] theorem execPartDestroy_lasting (h : Issue) (part : Nat) (s : State) :
    (afterOut s (execPartDestroy h part s)).lasting = s.lasting := by simp [execPartDestroy]
@[simp] theorem execPartQuery_lasting (h : Issue) (part : Nat) (s : State) : (afterOut s (execPartQuery h part s)).lasting = s.lasting := by
  simp [execPartQuery]

/-! ### `HostIO` -/

@[simp] theorem State.iterMismatch_lasting (s : State) (i : Nat) : (s.iterMismatch i).lasting = s.lasting := by simp [State.iterMismatch]

/-! ### `Security` -/

@[simp] theorem execKeyLoad_lasting (h : Issue) (part slot : Nat) (blob : BitVec 384) (guard : Mismatch) (s : State) :
    (afterOut s (execKeyLoad h part slot blob guard s)).lasting = s.lasting := vuino_after fun s => by dsimp only; (repeat' split) <;> simp
@[simp] theorem execKeyClear_lasting (h : Issue) (part slot : Nat) (s : State) :
    (afterOut s (execKeyClear h part slot s)).lasting = s.lasting := vuino_after fun s => by split <;> simp
@[simp] theorem execFwUpdate_lasting (h : Issue) (ctx va len slot activate : Nat) (o : Outside) (s : State) :
    (afterOut s (execFwUpdate h ctx va len slot activate o s)).lasting = s.lasting :=
  vuino_after fun s => by dsimp only; (repeat' split) <;> simp
@[simp] theorem State.updSpdm_lasting (s : State) (bus : Nat) (f : SpdmS → SpdmS) : (s.updSpdm bus f).lasting = s.lasting := by
  simp [State.updSpdm]
@[simp] theorem State.spdmOut_lasting (s : State) (bus : Nat) (r : SpdmRsp) : (s.spdmOut bus r).lasting = s.lasting := by
  simp [State.spdmOut]
@[simp] theorem State.spdmError_lasting (s : State) (bus code data : Nat) (body : Bytes) :
    (s.spdmError bus code data body).lasting = s.lasting := by simp [State.spdmError]
@[simp] theorem State.spdmReply_lasting (s : State) (bus code p1 p2 : Nat) (body : Bytes) :
    (s.spdmReply bus code p1 p2 body).lasting = s.lasting := by simp [State.spdmReply]
@[simp] theorem reportNext_lasting (a0 : Nat) (a1 : State) : (reportNext a0 a1).lasting = a1.lasting := by
  induction a0 generalizing a1 with
  | zero => rfl
  | succ n ih => unfold reportNext; split <;> simp [ih]
@[simp] theorem State.askReport_lasting (s : State) (who : Option Issue) (bus : Nat) (nonce : BitVec 256) :
    (s.askReport who bus nonce).lasting = s.lasting := by simp [State.askReport]
@[simp] theorem execAttest_lasting (h : Issue) (nonce : BitVec 256) (s : State) :
    (afterOut s (execAttest h nonce s)).lasting = s.lasting := by simp [execAttest]

/-! ### `Links` -/

@[simp] theorem State.recheck_lasting (s : State) : s.recheck.lasting = s.lasting := by simp [State.recheck]

/-! ### `Boot` -/

@[simp] theorem State.extend_lasting (s : State) (i : Nat) (d : Bytes) : (s.extend i d).lasting = s.lasting := by simp [State.extend]
@[simp] theorem State.extendId_lasting (s : State) : s.extendId.lasting = s.lasting := by simp [State.extendId]

/-! ### `Mgmt` -/

@[simp] theorem State.takeDevid_lasting (s : State) (id : Nat) : (s.takeDevid id).lasting = s.lasting := by simp [State.takeDevid]
@[simp] theorem State.tackStart_lasting (s : State) : s.tackStart.lasting = s.lasting := by simp [State.tackStart]
@[simp] theorem State.mgmtCfg_lasting (s : State) (vals : Nats) : (s.mgmtCfg vals).st.lasting = s.lasting := by
  fun_cases State.mgmtCfg s vals <;> simp +zetaDelta
@[simp] theorem execMgmtCfg_lasting (h : Issue) (vals : Nats) (s : State) : (afterOut s (execMgmtCfg h vals s)).lasting = s.lasting := by
  simp [execMgmtCfg]

/-! ### `Reset` -/

@[simp] theorem execResetWarm_lasting (h : Issue) (s : State) : (afterOut s (execResetWarm h s)).lasting = s.lasting := by
  simp [execResetWarm]
@[simp] theorem execResetCold_lasting (h : Issue) (s : State) : (afterOut s (execResetCold h s)).lasting = s.lasting := by
  simp [execResetCold]
@[simp] theorem State.wakeBegin_lasting (s : State) (h : Option Issue) : (s.wakeBegin h).lasting = s.lasting := by simp [State.wakeBegin]
@[simp] theorem State.sleepBegin_lasting (s : State) (to_ : Nat) (h : Issue) : (s.sleepBegin to_ h).lasting = s.lasting := by
  simp [State.sleepBegin]
@[simp] theorem execPowerState_lasting (h : Issue) (state : Nat) (s : State) :
    (afterOut s (execPowerState h state s)).lasting = s.lasting := by simp [execPowerState]
@[simp] theorem execPowerLimit_lasting (h : Issue) (capW : Nat) (s : State) :
    (afterOut s (execPowerLimit h capW s)).lasting = s.lasting := by simp [execPowerLimit]

/-! ### `Faults` -/

@[simp] theorem execFaultLogRead_lasting (h : Issue) (first count clear : Nat) (s : State) :
    (afterOut s (execFaultLogRead h first count clear s)).lasting = s.lasting := by simp [execFaultLogRead]

/-! ### `Test` -/

@[simp] theorem State.lbStart_lasting (s : State) (kind index depth j : Nat) : (s.lbStart kind index depth j).lasting = s.lasting := by
  simp [State.lbStart]
@[simp] theorem execLoopbackSet_lasting (h : Issue) (kind index depth durationMs : Nat) (s : State) :
    (afterOut s (execLoopbackSet h kind index depth durationMs s)).lasting = s.lasting := vuino_after fun s => by split <;> simp
@[simp] theorem execBistRun_lasting (h : Issue) (target index : Nat) (s : State) :
    (afterOut s (execBistRun h target index s)).lasting = s.lasting := by simp [execBistRun]

/-! ### `Fetch` -/

@[simp] theorem runCmd_lasting (h : Issue) (op : Nat) (vals : Nats) (o : Outside) (s : State) :
    (afterOut s (runCmd h op vals o s)).lasting = s.lasting := by fun_cases runCmd h op vals o s <;> simp +zetaDelta
@[simp] theorem State.runParams_lasting (s : State) (h : Issue) (op : Nat) (ps : Bytes) (o : Outside) :
    (s.runParams h op ps o).lasting = s.lasting := by fun_cases State.runParams s h op ps o <;> simp +zetaDelta
@[simp] theorem State.runPacket_lasting (s : State) (part : Nat) (path : Sys2Proof.Path) (d : Nat) (o : Outside) :
    (s.runPacket part path d o).lasting = s.lasting := by simp [State.runPacket]
@[simp] theorem State.mboxGo_lasting (s : State) (func : Nat) (o : Outside) : (s.mboxGo func o).lasting = s.lasting := by
  simp [State.mboxGo]
@[simp] theorem execMailboxGo_lasting (func : Nat) (o : Outside) (s : State) :
    (afterOut s (execMailboxGo func o s)).lasting = s.lasting := by simp [execMailboxGo]

/-! ### `Sync` -/

@[simp] theorem State.noteH2A_lasting (s : State) (p : Nat) (bits : BitVec 32) : (s.noteH2A p bits).lasting = s.lasting := by
  fun_cases State.noteH2A s p bits <;> simp +zetaDelta
@[simp] theorem State.setH2A_lasting (s : State) (func : Nat) (bits : BitVec 32) : (s.setH2A func bits).lasting = s.lasting := by
  simp [State.setH2A]
@[simp] theorem execDbH2aSet_lasting (func : Nat) (bits : BitVec 32) (s : State) :
    (afterOut s (execDbH2aSet func bits s)).lasting = s.lasting := by simp [execDbH2aSet]
@[simp] theorem execDbA2hClear_lasting (func : Nat) (bits : BitVec 32) (s : State) :
    (afterOut s (execDbA2hClear func bits s)).lasting = s.lasting := by simp [execDbA2hClear]
@[simp] theorem State.maskA2H_lasting (s : State) (func : Nat) (mask : BitVec 32) : (s.maskA2H func mask).lasting = s.lasting := by
  simp [State.maskA2H]
@[simp] theorem execDbA2hMaskWrite_lasting (func : Nat) (mask : BitVec 32) (s : State) :
    (afterOut s (execDbA2hMaskWrite func mask s)).lasting = s.lasting := by simp [execDbA2hMaskWrite]
@[simp] theorem execMgrH2aClear_lasting (tenant : Nat) (bits : BitVec 32) (s : State) :
    (afterOut s (execMgrH2aClear tenant bits s)).lasting = s.lasting := by simp [execMgrH2aClear]
@[simp] theorem State.maskH2A_lasting (s : State) (p : Nat) (mask : BitVec 32) : (s.maskH2A p mask).lasting = s.lasting := by
  simp [State.maskH2A]
@[simp] theorem execMgrH2aMaskWrite_lasting (tenant : Nat) (mask : BitVec 32) (s : State) :
    (afterOut s (execMgrH2aMaskWrite tenant mask s)).lasting = s.lasting := by simp [execMgrH2aMaskWrite]
@[simp] theorem execMgrA2hSet_lasting (tenant : Nat) (bits : BitVec 32) (s : State) :
    (afterOut s (execMgrA2hSet tenant bits s)).lasting = s.lasting := by simp [execMgrA2hSet]

/-! ### `Tape` -/

@[simp] theorem execTapeEventDue_lasting (part event : Nat) (s : State) :
    (afterOut s (execTapeEventDue part event s)).lasting = s.lasting := by simp [execTapeEventDue]
@[simp] theorem execBookSlotBoundary_lasting (s : State) : (afterOut s (execBookSlotBoundary s)).lasting = s.lasting := by
  simp [execBookSlotBoundary]
@[simp] theorem State.ptpSync_lasting (s : State) (t1 t2 : BitVec 64) (corr : ℤ) : (s.ptpSync t1 t2 corr).lasting = s.lasting := by
  simp [State.ptpSync]
@[simp] theorem execPtpEventMessage_lasting (msg : PtpMsg) (s : State) : (afterOut s (execPtpEventMessage msg s)).lasting = s.lasting := by
  unfold execPtpEventMessage
  simp only [afterOut_next]
  (repeat' split) <;> simp
@[simp] theorem execPpsEdge_lasting (s : State) : (afterOut s (execPpsEdge s)).lasting = s.lasting := by
  unfold execPpsEdge
  simp only [afterOut_next]
  (repeat' split) <;> simp
@[simp] theorem execTapeLossTimeout_lasting (s : State) : (afterOut s (execTapeLossTimeout s)).lasting = s.lasting := by
  simp [execTapeLossTimeout]
@[simp] theorem execHoldoverExpiry_lasting (s : State) : (afterOut s (execHoldoverExpiry s)).lasting = s.lasting := by
  simp [execHoldoverExpiry]
@[simp] theorem execUpstreamSwitch_lasting (s : State) : (afterOut s (execUpstreamSwitch s)).lasting = s.lasting := by
  unfold execUpstreamSwitch
  simp only [afterOut_next]
  split <;> simp
@[simp] theorem execPpsOut_lasting (s : State) : (afterOut s (execPpsOut s)).lasting = s.lasting := by simp [execPpsOut]

/-! ### `Queues` -/

@[simp] theorem State.dbRefuse_lasting (s : State) (func : Nat) : (s.dbRefuse func).lasting = s.lasting := by simp [State.dbRefuse]

/-! ### `HostLink` -/

@[simp] theorem State.readIndex_lasting (s : State) (k : Nat) : (s.readIndex k).lasting = s.lasting := by
  fun_cases State.readIndex s k <;> simp +zetaDelta

/-! ### `HostIO` -/

@[simp] theorem State.ringDrain_lasting (s : State) (k : Nat) : (s.ringDrain k).lasting = s.lasting := by simp [State.ringDrain]

/-! ### `Queues` -/

@[simp] theorem execDoorbellWrite_lasting (func q : Nat) (value : BitVec 64) (s : State) :
    (afterOut s (execDoorbellWrite func q value s)).lasting = s.lasting := State.barDo_lasting fun i => by dsimp only; split <;> simp

/-! ### `HostLink` -/

@[simp] theorem State.hostReadError_lasting (s : State) (func addr : Nat) : (s.hostReadError func addr).lasting = s.lasting := by
  simp [State.hostReadError]

/-! ### `Queues` -/

@[simp] theorem execIndexRecordRead_lasting (part q : Nat) (record : BitVec 128) (rd : ReadEnd) (s : State) :
    (afterOut s (execIndexRecordRead part q record rd s)).lasting = s.lasting := by
  unfold execIndexRecordRead
  simp only [afterOut_next]
  split <;> simp
@[simp] theorem execIndexRereadTimer_lasting (part q : Nat) (s : State) :
    (afterOut s (execIndexRereadTimer part q s)).lasting = s.lasting := by
  unfold execIndexRereadTimer
  simp only [afterOut_next]
  split <;> simp

/-! ### `Transfers` -/

@[simp] theorem State.copyDesc_lasting (s : State) (p q slot : Nat) (d : Desc) : (s.copyDesc p q slot d).lasting = s.lasting := by
  fun_cases State.copyDesc s p q slot d <;> simp +zetaDelta

/-! ### `Fetch` -/

@[simp] theorem State.runEntry_lasting (s : State) (p q : Nat) (d : Desc) (o : Outside) : (s.runEntry p q d o).lasting = s.lasting := by
  fun_cases State.runEntry s p q d o <;> simp +zetaDelta
@[simp] theorem takeEntries_lasting (p q o ds s) : (takeEntries p q o ds s).lasting = s.lasting := by
  induction ds generalizing s with
  | nil => rfl
  | cons d ds ih => simp [takeEntries, ih]
@[simp] theorem execEntryFetch_lasting (part q : Nat) (entries : DescList) (rd : ReadEnd) (o : Outside) (s : State) :
    (afterOut s (execEntryFetch part q entries rd o s)).lasting = s.lasting := by
  unfold execEntryFetch
  simp only [afterOut_next]
  split <;> simp
@[simp] theorem execParamRead_lasting (part tag : Nat) (params : Bytes) (rd : ReadEnd) (o : Outside) (s : State) :
    (afterOut s (execParamRead part tag params rd o s)).lasting = s.lasting := by
  unfold execParamRead
  simp only [afterOut_next]
  split <;> simp

/-! ### `Queues` -/

@[simp] theorem execCiWrite_lasting (part q : Nat) (s : State) : (afterOut s (execCiWrite part q s)).lasting = s.lasting := by
  unfold execCiWrite
  simp only [afterOut_next]
  split <;> simp

/-! ### `Programs` -/

@[simp] theorem State.progLoadEnd_lasting (s : State) (p tag : Nat) : (s.progLoadEnd p tag).lasting = s.lasting := by
  fun_cases State.progLoadEnd s p tag <;> simp +zetaDelta

/-! ### `Security` -/

@[simp] theorem State.updateEnd_lasting (s : State) (p tag : Nat) (ok : Bool) : (s.updateEnd p tag ok).lasting = s.lasting := by
  fun_cases State.updateEnd s p tag ok <;> simp +zetaDelta
@[simp] theorem State.attestEnd_lasting (s : State) (p tag : Nat) : (s.attestEnd p tag).lasting = s.lasting := by
  fun_cases State.attestEnd s p tag <;> simp +zetaDelta

/-! ### `Fetch` -/

@[simp] theorem execLongCmdFinal_lasting (part tag : Nat) (ok : Bool) (s : State) :
    (afterOut s (execLongCmdFinal part tag ok s)).lasting = s.lasting := by
  unfold execLongCmdFinal
  simp only [afterOut_next]
  split <;> simp

/-! ### `Transfers` -/

@[simp] theorem execCopy_lasting (part q : Nat) (d : Desc) (s : State) : (afterOut s (execCopy part q d s)).lasting = s.lasting := by
  simp [execCopy]

/-! ### `Queues` -/

@[simp] theorem State.adminEnable_lasting (s : State) (p : Nat) : (s.adminEnable p).lasting = s.lasting := by simp [State.adminEnable]
@[simp] theorem execAdminEnable_lasting (func : Nat) (s : State) : (afterOut s (execAdminEnable func s)).lasting = s.lasting := by
  simp [execAdminEnable]
@[simp] theorem State.adminDisable_lasting (s : State) (p : Nat) : (s.adminDisable p).lasting = s.lasting := by simp [State.adminDisable]
@[simp] theorem execAdminDisable_lasting (func : Nat) (s : State) : (afterOut s (execAdminDisable func s)).lasting = s.lasting := by
  simp [execAdminDisable]

/-! ### `Parts` -/

@[simp] theorem State.resetFetch_lasting (s : State) (p : Nat) : (s.resetFetch p).lasting = s.lasting := by simp [State.resetFetch]
@[simp] theorem State.resetWins_lasting (s : State) (p : Nat) : (s.resetWins p).lasting = s.lasting := by simp [State.resetWins]
@[simp] theorem State.connLeave_lasting (s : State) (cid : Nat) : (s.connLeave cid).lasting = s.lasting := by simp [State.connLeave]
@[simp] theorem State.resetConns_lasting (s : State) (p : Nat) : (s.resetConns p).lasting = s.lasting := by simp [State.resetConns]
@[simp] theorem State.resetColls_lasting (s : State) (p : Nat) : (s.resetColls p).lasting = s.lasting := by simp [State.resetColls]
@[simp] theorem State.resetRuns_lasting (s : State) (p : Nat) : (s.resetRuns p).lasting = s.lasting := by simp [State.resetRuns]
@[simp] theorem State.resetCtxs_lasting (s : State) (p : Nat) : (s.resetCtxs p).lasting = s.lasting := by simp [State.resetCtxs]

/-! ### `HostLink` -/

@[simp] theorem State.cacheClean_lasting (s : State) (func : Nat) : (s.cacheClean func).lasting = s.lasting := by simp [State.cacheClean]

/-! ### `Parts` -/

@[simp] theorem State.resetHost_lasting (s : State) (p : Nat) : (s.resetHost p).lasting = s.lasting := by simp [State.resetHost]
@[simp] theorem State.resetQueues_lasting (s : State) (p : Nat) : (s.resetQueues p).lasting = s.lasting := by simp [State.resetQueues]
@[simp] theorem State.resetKeys_lasting (s : State) (p : Nat) : (s.resetKeys p).lasting = s.lasting := by simp [State.resetKeys]
@[simp] theorem State.resetRegs_lasting (s : State) (p : Nat) : (s.resetRegs p).lasting = s.lasting := by simp [State.resetRegs]
@[simp] theorem State.resetAct_lasting (s : State) (p step : Nat) : (s.resetAct p step).lasting = s.lasting := by
  fun_cases State.resetAct s p step <;> simp +zetaDelta
@[simp] theorem State.teardown_lasting (s : State) (p : Nat) (h : Issue) : (s.teardown p h).lasting = s.lasting := by simp [State.teardown]
@[simp] theorem State.resetEnd_lasting (s : State) (p : Nat) : (s.resetEnd p).lasting = s.lasting := by
  unfold State.resetEnd
  dsimp only
  (repeat' split) <;> simp
@[simp] theorem State.resetStep_lasting (s : State) (p : Nat) : (s.resetStep p).lasting = s.lasting := by simp [State.resetStep]
@[simp] theorem execPartitionResetStep_lasting (part : Nat) (s : State) :
    (afterOut s (execPartitionResetStep part s)).lasting = s.lasting := by simp [execPartitionResetStep]
@[simp] theorem State.resetRest_lasting (s : State) (p : Nat) : (s.resetRest p).lasting = s.lasting := by simp [State.resetRest]

/-! ### `Faults` -/

@[simp] theorem execResetForced_lasting (part : Nat) (s : State) : (afterOut s (execResetForced part s)).lasting = s.lasting := by
  simp [execResetForced]

/-! ### `Tiers` -/

@[simp] theorem State.unplaceUnit_lasting (s : State) (u : Nat) : (s.unplaceUnit u).lasting = s.lasting := by simp [State.unplaceUnit]

/-! ### `Parts` -/

@[simp] theorem execUnitEraseDone_lasting (unit : Nat) (s : State) : (afterOut s (execUnitEraseDone unit s)).lasting = s.lasting := by
  unfold execUnitEraseDone
  simp only [afterOut_next]
  (repeat' split) <;> simp

/-! ### `Boot` -/

@[simp] theorem execBootImage_lasting (bundle : Bundle) (rd : ReadEnd) (s : State) :
    (afterOut s (execBootImage bundle rd s)).lasting = s.lasting := by simp [execBootImage]
@[simp] theorem State.fuseNext_lasting (s : State) : s.fuseNext.lasting = s.lasting := by simp [State.fuseNext]
@[simp] theorem execBootOk_lasting (s : State) : (afterOut s (execBootOk s)).lasting = s.lasting := by
  unfold execBootOk
  simp only [afterOut_next]
  split <;> simp

/-! ### `Reset` -/

@[simp] theorem State.heldStart_lasting (s : State) : s.heldStart.lasting = s.lasting := by fun_cases State.heldStart s <;> simp +zetaDelta

/-! ### `Boot` -/

@[simp] theorem State.sendBoot_lasting (s : State) (kind block : Nat) : (s.sendBoot kind block).lasting = s.lasting := by
  simp [State.sendBoot]
@[simp] theorem execNetworkBootRetry_lasting (s : State) : (afterOut s (execNetworkBootRetry s)).lasting = s.lasting := by
  simp [execNetworkBootRetry]
@[simp] theorem execI3cRecoveryWrite_lasting (offset : Nat) (data : Bytes) (bundle : Bundle) (s : State) :
    (afterOut s (execI3cRecoveryWrite offset data bundle s)).lasting = s.lasting := by simp [execI3cRecoveryWrite]
@[simp] theorem execI3cRegWrite_lasting (offset : Nat) (s : State) : (afterOut s (execI3cRegWrite offset s)).lasting = s.lasting := by
  simp [execI3cRegWrite]

/-! ### `Security` -/

@[simp] theorem State.updSecure_lasting (s : State) (m : Nat) (f : Mbox → Mbox) : (s.updSecure m f).lasting = s.lasting := by
  simp [State.updSecure]
@[simp] theorem State.secPost_lasting {m : Nat} {f : State → Mbox → State} (h : ∀ x b, (f x b).lasting = x.lasting) :
    (s.secPost m f).lasting = s.lasting := by
  simp [State.secPost, h]
@[simp] theorem State.secNamed_lasting (s : State) (m msg : Nat) : (s.secNamed m msg).lasting = s.lasting := by simp [State.secNamed]
@[simp] theorem State.secReply_lasting (s : State) (m status i : Nat) (bs : Bytes) : (s.secReply m status i bs).lasting = s.lasting := by
  simp [State.secReply]
@[simp] theorem State.secExtend_lasting (m : Nat) (s : State) (b : Mbox) : (State.secExtend m s b).lasting = s.lasting := by
  simp [State.secExtend]
@[simp] theorem execMrExtend_lasting (mbox : Nat) (s : State) : (afterOut s (execMrExtend mbox s)).lasting = s.lasting := by
  simp [execMrExtend]
@[simp] theorem State.secRead_lasting (m : Nat) (s : State) (b : Mbox) : (State.secRead m s b).lasting = s.lasting := by
  simp [State.secRead]
@[simp] theorem execMrRead_lasting (mbox : Nat) (s : State) : (afterOut s (execMrRead mbox s)).lasting = s.lasting := by simp [execMrRead]
@[simp] theorem State.secTest_lasting (m : Nat) (ok : Bool) (s : State) : (State.secTest m ok s).lasting = s.lasting := by
  simp [State.secTest]
@[simp] theorem execSelfTest_lasting (mbox : Nat) (ok : Bool) (s : State) : (afterOut s (execSelfTest mbox ok s)).lasting = s.lasting := by
  simp [execSelfTest]
@[simp] theorem execNotice_lasting (reason : Nat) (s : State) : (afterOut s (execNotice reason s)).lasting = s.lasting := by
  unfold execNotice
  simp only [afterOut_next]
  split <;> simp
@[simp] theorem execSecureMailboxReply_lasting (mbox : Nat) (s : State) :
    (afterOut s (execSecureMailboxReply mbox s)).lasting = s.lasting := by simp [execSecureMailboxReply]
@[simp] theorem State.spdmDo_lasting {k : Nat} {f : State → State} (h : ∀ x, (f x).lasting = x.lasting) :
    (s.spdmDo k f).lasting = s.lasting := by
  simp [State.spdmDo, h]
@[simp] theorem State.spdmVersion_lasting (s : State) (bus : Nat) (m : SpdmReq) : (s.spdmVersion bus m).lasting = s.lasting := by
  simp [State.spdmVersion]
@[simp] theorem execGetVersion_lasting (bus : Nat) (m : SpdmReq) (s : State) :
    (afterOut s (execGetVersion bus m s)).lasting = s.lasting := by simp [execGetVersion]
@[simp] theorem State.spdmNote_lasting (s : State) (bus : Nat) (bs : Bytes) : (s.spdmNote bus bs).lasting = s.lasting := by
  simp [State.spdmNote]
@[simp] theorem State.spdmCapabilities_lasting (s : State) (bus : Nat) (m : SpdmReq) : (s.spdmCapabilities bus m).lasting = s.lasting := by
  simp [State.spdmCapabilities]
@[simp] theorem execGetCapabilities_lasting (bus : Nat) (m : SpdmReq) (s : State) :
    (afterOut s (execGetCapabilities bus m s)).lasting = s.lasting := by simp [execGetCapabilities]
@[simp] theorem State.spdmAlgorithms_lasting (s : State) (bus : Nat) (m : SpdmReq) : (s.spdmAlgorithms bus m).lasting = s.lasting := by
  simp [State.spdmAlgorithms]
@[simp] theorem execNegotiateAlgorithms_lasting (bus : Nat) (m : SpdmReq) (s : State) :
    (afterOut s (execNegotiateAlgorithms bus m s)).lasting = s.lasting := by simp [execNegotiateAlgorithms]
@[simp] theorem State.spdmReady_lasting {k m} {f : State → State} (h : ∀ x, (f x).lasting = x.lasting) :
    (s.spdmReady k m f).lasting = s.lasting := by
  simp [State.spdmReady, h]
@[simp] theorem State.spdmIdentity_lasting {k : Nat} {f : State → State} (h : ∀ x, (f x).lasting = x.lasting) :
    (s.spdmIdentity k f).lasting = s.lasting := by
  simp [State.spdmIdentity, h]
@[simp] theorem State.spdmDigests_lasting (s : State) (bus : Nat) (m : SpdmReq) : (s.spdmDigests bus m).lasting = s.lasting := by
  simp [State.spdmDigests]
@[simp] theorem execGetDigests_lasting (bus : Nat) (m : SpdmReq) (s : State) :
    (afterOut s (execGetDigests bus m s)).lasting = s.lasting := by simp [execGetDigests]
@[simp] theorem State.spdmCertificate_lasting (s : State) (bus : Nat) (m : SpdmReq) : (s.spdmCertificate bus m).lasting = s.lasting := by
  simp [State.spdmCertificate]
@[simp] theorem execGetCertificate_lasting (bus : Nat) (m : SpdmReq) (s : State) :
    (afterOut s (execGetCertificate bus m s)).lasting = s.lasting := by simp [execGetCertificate]
@[simp] theorem State.freshNonce_lasting (s : State) : s.freshNonce.2.lasting = s.lasting := by simp [State.freshNonce]
@[simp] theorem State.spdmSigned_lasting (s : State) (bus code p1 p2 : Nat) (body : Bytes) :
    (s.spdmSigned bus code p1 p2 body).lasting = s.lasting := by simp [State.spdmSigned]
@[simp] theorem State.spdmChallenge_lasting (s : State) (bus : Nat) (m : SpdmReq) : (s.spdmChallenge bus m).lasting = s.lasting := by
  simp [State.spdmChallenge]
@[simp] theorem execChallenge_lasting (bus : Nat) (m : SpdmReq) (s : State) : (afterOut s (execChallenge bus m s)).lasting = s.lasting := by
  simp [execChallenge]
@[simp] theorem State.spdmMeasurements_lasting (s b m) : (State.spdmMeasurements s b m).lasting = s.lasting := by
  refine State.spdmReady_lasting fun t => ?_
  simp [State.spdmIdentity]
@[simp] theorem execGetMeasurements_lasting (bus : Nat) (m : SpdmReq) (s : State) :
    (afterOut s (execGetMeasurements bus m s)).lasting = s.lasting := by simp [execGetMeasurements]
@[simp] theorem State.spdmServe_lasting (s : State) (bus code : Nat) (m : SpdmReq) : (s.spdmServe bus code m).lasting = s.lasting := by
  fun_cases State.spdmServe s bus code m <;> simp +zetaDelta
@[simp] theorem State.spdmChunkSend_lasting (s : State) (bus : Nat) (m : SpdmReq) : (s.spdmChunkSend bus m).lasting = s.lasting := by
  simp [State.spdmChunkSend]
@[simp] theorem execChunkSend_lasting (bus : Nat) (m : SpdmReq) (s : State) : (afterOut s (execChunkSend bus m s)).lasting = s.lasting := by
  simp [execChunkSend]
@[simp] theorem State.spdmChunkGet_lasting (s : State) (bus : Nat) (m : SpdmReq) : (s.spdmChunkGet bus m).lasting = s.lasting := by
  simp [State.spdmChunkGet]
@[simp] theorem execChunkGet_lasting (bus : Nat) (m : SpdmReq) (s : State) : (afterOut s (execChunkGet bus m s)).lasting = s.lasting := by
  simp [execChunkGet]
@[simp] theorem State.spdmReport_lasting (s : State) (bus : Nat) (m : SpdmReq) : (s.spdmReport bus m).lasting = s.lasting := by
  simp [State.spdmReport]
@[simp] theorem execGetReport_lasting (bus : Nat) (m : SpdmReq) (s : State) : (afterOut s (execGetReport bus m s)).lasting = s.lasting := by
  simp [execGetReport]
@[simp] theorem State.spdmPqCert_lasting (s : State) (bus : Nat) (m : SpdmReq) : (s.spdmPqCert bus m).lasting = s.lasting := by
  simp [State.spdmPqCert]
@[simp] theorem execGetPqCert_lasting (bus : Nat) (m : SpdmReq) (s : State) : (afterOut s (execGetPqCert bus m s)).lasting = s.lasting := by
  simp [execGetPqCert]

/-! ### `Mgmt` -/

@[simp] theorem State.macQueue_lasting (s : State) (f : MgmtFrame) : (s.macQueue f).lasting = s.lasting := by simp [State.macQueue]
@[simp] theorem State.tackRequest_lasting (s : State) : s.tackRequest.lasting = s.lasting := by
  fun_cases State.tackRequest s <;> simp +zetaDelta
@[simp] theorem execTackWord_lasting (col : Nat) (s : State) : (afterOut s (execTackWord col s)).lasting = s.lasting := by
  simp [execTackWord]
@[simp] theorem execTackOutTimer_lasting (s : State) : (afterOut s (execTackOutTimer s)).lasting = s.lasting := by simp [execTackOutTimer]
@[simp] theorem execTackRequestTimer_lasting (s : State) : (afterOut s (execTackRequestTimer s)).lasting = s.lasting := by
  simp [execTackRequestTimer]
@[simp] theorem State.macTake_lasting {b k} {f : State → State} (h : ∀ x, (f x).lasting = x.lasting) :
    (s.macTake b k f).lasting = s.lasting := by
  simp [State.macTake, h]
@[simp] theorem State.mgmtRec_lasting (s : State) (reason d0 d1 : Nat) : (s.mgmtRec reason d0 d1).lasting = s.lasting := by
  simp [State.mgmtRec]
@[simp] theorem State.sendOffer_lasting (s : State) (eui : BitVec 48) (col : Nat) : (s.sendOffer eui col).lasting = s.lasting := by
  simp [State.sendOffer]
@[simp] theorem execRequest_lasting (f : MgmtFrame) (s : State) : (afterOut s (execRequest f s)).lasting = s.lasting := by
  simp [execRequest]
@[simp] theorem execOffer_lasting (f : MgmtFrame) (s : State) : (afterOut s (execOffer f s)).lasting = s.lasting := by simp [execOffer]
@[simp] theorem execAccept_lasting (f : MgmtFrame) (s : State) : (afterOut s (execAccept f s)).lasting = s.lasting := by simp [execAccept]
@[simp] theorem execOfferResendTimer_lasting (eui : Nat) (s : State) : (afterOut s (execOfferResendTimer eui s)).lasting = s.lasting := by
  unfold execOfferResendTimer
  simp only [afterOut_next]
  split <;> simp

/-! ### `Fetch` -/

@[simp] theorem State.oobFail_lasting (s : State) : s.oobFail.lasting = s.lasting := by simp [State.oobFail]
@[simp] theorem State.oobRun_lasting (s : State) (f : MgmtFrame) (seq : Nat) (o : Outside) : (s.oobRun f seq o).lasting = s.lasting := by
  simp [State.oobRun]
@[simp] theorem execOobRequest_lasting (f o s) : (afterOut s (execOobRequest f o s)).lasting = s.lasting := by
  unfold execOobRequest
  rw [afterOut_next, State.macTake_lasting]
  intro t
  dsimp only
  split
  · rfl
  split
  · simp
  split
  · simp
  · split <;> simp

/-! ### `Mgmt` -/

@[simp] theorem execPauseFrame_lasting (quanta : Nat) (fcsOk : Bool) (s : State) :
    (afterOut s (execPauseFrame quanta fcsOk s)).lasting = s.lasting := by simp [execPauseFrame]
@[simp] theorem execPauseExpiry_lasting (s : State) : (afterOut s (execPauseExpiry s)).lasting = s.lasting := by simp [execPauseExpiry]
@[simp] theorem execMacCollision_lasting (late : Bool) (s : State) : (afterOut s (execMacCollision late s)).lasting = s.lasting := by
  simp [execMacCollision]
@[simp] theorem execBackoffExpiry_lasting (s : State) : (afterOut s (execBackoffExpiry s)).lasting = s.lasting := by
  simp [execBackoffExpiry]

/-! ### `Reset` -/

@[simp] theorem execWakeFrame_lasting (bytes : Bytes) (fcsOk : Bool) (s : State) :
    (afterOut s (execWakeFrame bytes fcsOk s)).lasting = s.lasting := by simp [execWakeFrame]
@[simp] theorem State.resetCtl_lasting (s : State) (func value : Nat) : (s.resetCtl func value).lasting = s.lasting := by
  simp [State.resetCtl]
@[simp] theorem execResetCtlCold_lasting (func value : Nat) (s : State) :
    (afterOut s (execResetCtlCold func value s)).lasting = s.lasting := by simp [execResetCtlCold]
@[simp] theorem execResetCtlWarm_lasting (func value : Nat) (s : State) :
    (afterOut s (execResetCtlWarm func value s)).lasting = s.lasting := by simp [execResetCtlWarm]
@[simp] theorem execPowerOn_lasting (s : State) : (afterOut s (execPowerOn s)).lasting = s.lasting := by simp [execPowerOn]
@[simp] theorem State.powerOff_lasting (s : State) (over_ : Bool) : (s.powerOff over_).lasting = s.lasting := by simp [State.powerOff]
@[simp] theorem execPowerLoss_lasting (s : State) : (afterOut s (execPowerLoss s)).lasting = s.lasting := by simp [execPowerLoss]
@[simp] theorem execResetNAssert_lasting (ns : Nat) (s : State) : (afterOut s (execResetNAssert ns s)).lasting = s.lasting := by
  simp [execResetNAssert]
@[simp] theorem State.letGo_lasting (s : State) : s.letGo.lasting = s.lasting := by simp [State.letGo]
@[simp] theorem execResetNRelease_lasting (s : State) : (afterOut s (execResetNRelease s)).lasting = s.lasting := by
  simp [execResetNRelease]
@[simp] theorem execNvWriteEnd_lasting (s : State) : (afterOut s (execNvWriteEnd s)).lasting = s.lasting := by
  unfold execNvWriteEnd
  simp only [afterOut_next]
  split <;> simp

/-! ### `Ops` -/

@[simp] theorem State.chain_lasting {fs : List (State → State)} (h : ∀ f ∈ fs, ∀ x, (f x).lasting = x.lasting) :
    (s.chain fs).lasting = s.lasting := by
  unfold State.chain
  induction fs generalizing s with
  | nil => rfl
  | cons f fs ih => exact (ih fun g hg => h g (.tail _ hg)).trans (h f (.head _) s)

/-! ### `Boot` -/

@[simp] theorem State.measure_lasting (s : State) (b : Bundle) : (s.measure b).lasting = s.lasting := by simp [State.measure]
@[simp] theorem State.bootDone_lasting (s : State) (b : Bundle) (copy : Bool) : (s.bootDone b copy).lasting = s.lasting := by
  simp [State.bootDone]
@[simp] theorem State.bootFailed_lasting (s : State) : s.bootFailed.lasting = s.lasting := by simp [State.bootFailed]
@[simp] theorem State.bootCopy_lasting (s : State) (read : Bundle) : (s.bootCopy read).lasting = s.lasting := by simp [State.bootCopy]
@[simp] theorem State.thimbleStage_lasting (s : State) (read : Bundle) (ok : Bool) : (s.thimbleStage read ok).1.lasting = s.lasting := by
  fun_cases State.thimbleStage s read ok <;> simp +zetaDelta

/-! ### `Faults` -/

@[simp] theorem State.memRelease_lasting (s : State) (bad : Nats) : (State.memRelease s bad).lasting = s.lasting := by
  unfold State.memRelease
  dsimp only
  rw [State.each_lasting, State.each_lasting, State.updMem_lasting]
  · intro i t; simp
  · intro i t; split <;> simp

/-! ### `Tape` -/

@[simp] theorem State.tapeRelease_lasting (s : State) : s.tapeRelease.lasting = s.lasting := by simp [State.tapeRelease]

/-! ### `Faults` -/

@[simp] theorem State.fabricRelease_lasting (s : State) (bad : Nats) : (s.fabricRelease bad).lasting = s.lasting := by
  simp [State.fabricRelease]

/-! ### `Parts` -/

@[simp] theorem State.partZero_lasting (s : State) : s.partZero.lasting = s.lasting := by simp [State.partZero]

/-! ### `Faults` -/

@[simp] theorem State.partsRelease_lasting (s : State) : s.partsRelease.lasting = s.lasting := by simp [State.partsRelease]
@[simp] theorem execStageRelease_lasting (bundle : Bundle) (ok idOk : Bool) (bad : Nats) (s : State) :
    (afterOut s (execStageRelease bundle ok idOk bad s)).lasting = s.lasting := by
  unfold execStageRelease
  simp only [afterOut_next]
  (repeat' split) <;> simp

/-! ### `Reset` -/

@[simp] theorem execWarmReset_lasting (cause : Nat) (s : State) : (afterOut s (execWarmReset cause s)).lasting = s.lasting := by
  simp [execWarmReset]

/-! ### `Faults` -/

@[simp] theorem execBlockReset_lasting (kind index : Nat) (s : State) : (afterOut s (execBlockReset kind index s)).lasting = s.lasting := by
  simp [execBlockReset]
@[simp] theorem State.openBlock_lasting (s : State) (kind idx : Nat) : (s.openBlock kind idx).lasting = s.lasting := by
  fun_cases State.openBlock s kind idx <;> simp +zetaDelta
@[simp] theorem execBlockResetEnd_lasting (kind index : Nat) (s : State) :
    (afterOut s (execBlockResetEnd kind index s)).lasting = s.lasting := by simp [execBlockResetEnd]

/-! ### `Reset` -/

@[simp] theorem execWakeN_lasting (ns : Nat) (s : State) : (afterOut s (execWakeN ns s)).lasting = s.lasting := by simp [execWakeN]
@[simp] theorem execIdleEntry_lasting (s : State) : (afterOut s (execIdleEntry s)).lasting = s.lasting := by simp [execIdleEntry]
@[simp] theorem State.clkView_lasting (s : State) : s.clkView.lasting = s.lasting := by simp [State.clkView]
@[simp] theorem State.powerAct_lasting (s : State) : s.powerAct.lasting = s.lasting := by simp [State.powerAct]
@[simp] theorem State.powerUndo_lasting (s : State) : s.powerUndo.lasting = s.lasting := by simp [State.powerUndo]
@[simp] theorem execPowerSample_lasting (watts avgW volts : Nat) (s : State) :
    (afterOut s (execPowerSample watts avgW volts s)).lasting = s.lasting := by simp [execPowerSample]
@[simp] theorem State.tempMem_lasting (s : State) (temps : Nats) : (s.tempMem temps).lasting = s.lasting := by simp [State.tempMem]
@[simp] theorem State.tempAct_lasting (s : State) (k t : Nat) : (s.tempAct k t).lasting = s.lasting := by simp [State.tempAct]
@[simp] theorem State.tempOne_lasting (s : State) (k t : Nat) : (s.tempOne k t).lasting = s.lasting := by simp [State.tempOne]
@[simp] theorem execTempSample_lasting (temps : Nats) (s : State) : (afterOut s (execTempSample temps s)).lasting = s.lasting := by
  unfold execTempSample
  simp only [afterOut_next]
  (repeat' split) <;> simp
@[simp] theorem execOscLoss_lasting (s : State) : (afterOut s (execOscLoss s)).lasting = s.lasting := by simp [execOscLoss]

/-! ### `HostLink` -/

@[simp] theorem State.linkDown_lasting (s : State) : s.linkDown.lasting = s.lasting := by simp [State.linkDown]

/-! ### `Reset` -/

@[simp] theorem execRefclkLost_lasting (s : State) : (afterOut s (execRefclkLost s)).lasting = s.lasting := by simp [execRefclkLost]

/-! ### `HostLink` -/

@[simp] theorem execDataLinkDown_lasting (s : State) : (afterOut s (execDataLinkDown s)).lasting = s.lasting := by simp [execDataLinkDown]
@[simp] theorem State.linkRate_lasting (s : State) (width speed : Nat) : (s.linkRate width speed).lasting = s.lasting := by
  simp [State.linkRate]
@[simp] theorem State.rideEnd_lasting (s : State) : s.rideEnd.lasting = s.lasting := by simp [State.rideEnd]
@[simp] theorem execDataLinkUp_lasting (width speed : Nat) (s : State) :
    (afterOut s (execDataLinkUp width speed s)).lasting = s.lasting := by simp [execDataLinkUp]

/-! ### `Reset` -/

@[simp] theorem State.linkLoss_lasting (s : State) : s.linkLoss.lasting = s.lasting := by simp [State.linkLoss]
@[simp] theorem execLinkLossTimer_lasting (s : State) : (afterOut s (execLinkLossTimer s)).lasting = s.lasting := by
  simp [execLinkLossTimer]
@[simp] theorem execPerstAssert_lasting (s : State) : (afterOut s (execPerstAssert s)).lasting = s.lasting := by simp [execPerstAssert]
@[simp] theorem execPerstRelease_lasting (s : State) : (afterOut s (execPerstRelease s)).lasting = s.lasting := by simp [execPerstRelease]
@[simp] theorem execHotReset_lasting (s : State) : (afterOut s (execHotReset s)).lasting = s.lasting := by simp [execHotReset]

/-! ### `HostLink` -/

@[simp] theorem execLtssmRecovery_lasting (s : State) : (afterOut s (execLtssmRecovery s)).lasting = s.lasting := by
  simp [execLtssmRecovery]

/-! ### `Reset` -/

@[simp] theorem execLtssmLoopback_lasting (s : State) : (afterOut s (execLtssmLoopback s)).lasting = s.lasting := by
  simp [execLtssmLoopback]

/-! ### `HostLink` -/

@[simp] theorem execHostReadCompletion_lasting (idx : Nat) (data : Bytes) (rd : ReadEnd) (s : State) :
    (afterOut s (execHostReadCompletion idx data rd s)).lasting = s.lasting := by
  unfold execHostReadCompletion
  simp only [afterOut_next]
  split <;> simp

/-! ### `Rx` -/

@[simp] theorem State.rxFlushed_lasting (s : State) (cid : Nat) (msn : BitVec 32) : (s.rxFlushed cid msn).lasting = s.lasting := by
  fun_cases State.rxFlushed s cid msn <;> simp +zetaDelta

/-! ### `HostLink` -/

@[simp] theorem waitsRun_lasting (k a1 : Nat) (a2 : State) : (waitsRun k a1 a2).lasting = a2.lasting := by
  induction a1 generalizing a2 with
  | zero => rfl
  | succ n ih => unfold waitsRun; split <;> simp [ih]
@[simp] theorem State.waitsGo_lasting (s : State) (k : Nat) : (s.waitsGo k).lasting = s.lasting := by simp [State.waitsGo]
@[simp] theorem State.waitReady_lasting (s : State) (w : HWait) : (s.waitReady w).lasting = s.lasting := by
  fun_cases State.waitReady s w <;> simp +zetaDelta
@[simp] theorem execFlushReadDone_lasting (func : Nat) (rd : ReadEnd) (s : State) :
    (afterOut s (execFlushReadDone func rd s)).lasting = s.lasting := by unfold execFlushReadDone; simp only [afterOut_next]; split <;> simp
@[simp] theorem execHostSnoop_lasting (addr : Nat) (inv : Bool) (s : State) :
    (afterOut s (execHostSnoop addr inv s)).lasting = s.lasting := by unfold execHostSnoop; simp only [afterOut_next]; split <;> simp
@[simp] theorem State.lineFill_lasting (s : State) (line : Nat) (data : Bytes) : (s.lineFill line data).lasting = s.lasting := by
  fun_cases State.lineFill s line data <;> simp +zetaDelta
@[simp] theorem cohServe_lasting (a0 : Nat) (a1 : State) : (cohServe a0 a1).lasting = a1.lasting := by
  induction a0 generalizing a1 with
  | zero => rfl
  | succ n ih => unfold cohServe; split <;> simp [ih]
@[simp] theorem goReports_lasting (a0 : Nat) (a1 : State) : (goReports a0 a1).lasting = a1.lasting := by
  induction a0 generalizing a1 with
  | zero => rfl
  | succ n ih => unfold goReports; split <;> simp [ih]
@[simp] theorem execCacheGo_lasting (addr : Nat) (data : Bytes) (s : State) :
    (afterOut s (execCacheGo addr data s)).lasting = s.lasting := by simp [execCacheGo]

/-! ### `Parts` -/

@[simp] theorem execVfEnableSet_lasting (s : State) : (afterOut s (execVfEnableSet s)).lasting = s.lasting := by simp [execVfEnableSet]
@[simp] theorem State.vfOff_lasting (s : State) : s.vfOff.lasting = s.lasting := by simp [State.vfOff]
@[simp] theorem execVfEnableClear_lasting (s : State) : (afterOut s (execVfEnableClear s)).lasting = s.lasting := by
  simp [execVfEnableClear]
@[simp] theorem execVfFlr_lasting (func : Nat) (s : State) : (afterOut s (execVfFlr func s)).lasting = s.lasting := by simp [execVfFlr]
@[simp] theorem execPfFlr_lasting (s : State) : (afterOut s (execPfFlr s)).lasting = s.lasting := by simp [execPfFlr]

/-! ### `HostLink` -/

@[simp] theorem execBusMasterEnable_lasting (func : Nat) (on : Bool) (s : State) :
    (afterOut s (execBusMasterEnable func on s)).lasting = s.lasting := by simp [execBusMasterEnable]
@[simp] theorem execCacheEnable_lasting (on : Bool) (s : State) : (afterOut s (execCacheEnable on s)).lasting = s.lasting := by
  simp [execCacheEnable]
@[simp] theorem State.msixRelease_lasting (s : State) (func vec : Nat) : (s.msixRelease func vec).lasting = s.lasting := by
  simp [State.msixRelease]
@[simp] theorem execMsixUnmask_lasting (func vector : Nat) (s : State) :
    (afterOut s (execMsixUnmask func vector s)).lasting = s.lasting := by simp [execMsixUnmask]

/-! ### `Faults` -/

@[simp] theorem execEngineWatchdog_lasting (kind index : Nat) (check : Bool) (s : State) :
    (afterOut s (execEngineWatchdog kind index check s)).lasting = s.lasting := by simp [execEngineWatchdog]
@[simp] theorem execCpWatchdog_lasting (cp : Nat) (s : State) : (afterOut s (execCpWatchdog cp s)).lasting = s.lasting := by
  simp [execCpWatchdog]
@[simp] theorem execAdapterWatchdog_lasting (s : State) : (afterOut s (execAdapterWatchdog s)).lasting = s.lasting := by
  simp [execAdapterWatchdog]
@[simp] theorem execPendingFaultTurn_lasting (s : State) : (afterOut s (execPendingFaultTurn s)).lasting = s.lasting := by
  unfold execPendingFaultTurn
  simp only [afterOut_next]
  split <;> simp

/-! ### `Parts` -/

@[simp] theorem State.resetNow_lasting (s : State) (p : Nat) : (s.resetNow p).lasting = s.lasting := by simp [State.resetNow]

/-! ### `Faults` -/

@[simp] theorem execHostDomainReset_lasting (s : State) : (afterOut s (execHostDomainReset s)).lasting = s.lasting := by
  simp [execHostDomainReset]
@[simp] theorem execRecoveryWindowClose_lasting (rung dom : Nat) (s : State) :
    (afterOut s (execRecoveryWindowClose rung dom s)).lasting = s.lasting := by simp [execRecoveryWindowClose]

/-! ### `Test` -/

@[simp] theorem execLoopbackEnd_lasting (lbIdx errors units : Nat) (s : State) :
    (afterOut s (execLoopbackEnd lbIdx errors units s)).lasting = s.lasting := by simp [execLoopbackEnd]
@[simp] theorem State.bistFail_lasting (s : State) (target index mask : Nat) : (s.bistFail target index mask).lasting = s.lasting := by
  fun_cases State.bistFail s target index mask <;> simp +zetaDelta
@[simp] theorem execBistDone_lasting (bistId mask : Nat) (s : State) : (afterOut s (execBistDone bistId mask s)).lasting = s.lasting := by
  unfold execBistDone
  simp only [afterOut_next]
  split <;> simp
@[simp] theorem execTapInstruction_lasting (ir : Nat) (s : State) : (afterOut s (execTapInstruction ir s)).lasting = s.lasting := by
  simp [execTapInstruction]

/-! ### `HostLink` -/

@[simp] theorem State.msixControl_lasting (s : State) (func : Nat) (v : BitVec 64) : (s.msixControl func v).lasting = s.lasting := by
  simp [State.msixControl]

/-! ### `Registers` -/

@[simp] theorem State.bellWrite_lasting (s : State) (func off width v : Nat) : (s.bellWrite func off width v).lasting = s.lasting := by
  simp [State.bellWrite]

/-! ### `Sync` -/

@[simp] theorem State.syncDbRefused_lasting (s : State) (func : Nat) : (s.syncDbRefused func).lasting = s.lasting := by
  simp [State.syncDbRefused]

/-! ### `Registers` -/

@[simp] theorem State.syncDbWrite_lasting (s : State) (func v : Nat) : (s.syncDbWrite func v).lasting = s.lasting := by
  fun_cases State.syncDbWrite s func v <;> simp +zetaDelta
@[simp] theorem State.adminBaste_lasting (s : State) (func reg : Nat) (high : Bool) (v : Nat) :
    (s.adminBaste func reg high v).lasting = s.lasting := by simp [State.adminBaste]

/-! ### `Queues` -/

@[simp] theorem State.adminStitch_lasting (s : State) (p v : Nat) : (s.adminStitch p v).lasting = s.lasting := by simp [State.adminStitch]

/-! ### `Registers` -/

@[simp] theorem State.mboxWrite_lasting (s : State) (func off v : Nat) : (s.mboxWrite func off v).lasting = s.lasting := by
  simp [State.mboxWrite]
@[simp] theorem State.msixWrite_lasting (s : State) (func vec word v : Nat) : (s.msixWrite func vec word v).lasting = s.lasting := by
  fun_cases State.msixWrite s func vec word v <;> simp +zetaDelta
@[simp] theorem State.funcWrite_lasting (s : State) (func off v : Nat) : (s.funcWrite func off v).lasting = s.lasting := by
  simp [State.funcWrite]

/-! ### `Boot` -/

@[simp] theorem execNetworkBootFrame_lasting (f : BootFrame) (bundle : Bundle) (s : State) :
    (afterOut s (execNetworkBootFrame f bundle s)).lasting = s.lasting := by
  unfold execNetworkBootFrame
  simp only [afterOut_next]
  (repeat' split) <;> simp

/-! ### `Tape` -/

@[simp] theorem execPtpGeneralMessage_lasting (msg : PtpMsg) (s : State) :
    (afterOut s (execPtpGeneralMessage msg s)).lasting = s.lasting := by
  unfold execPtpGeneralMessage
  simp only [afterOut_next]
  (repeat' split) <;> simp

/-! ### `Reset` -/

@[simp] theorem execOscillatorReturn_lasting (s : State) : (afterOut s (execOscillatorReturn s)).lasting = s.lasting := by
  simp [execOscillatorReturn]
@[simp] theorem execInputOvervoltage_lasting (s : State) : (afterOut s (execInputOvervoltage s)).lasting = s.lasting := by
  simp [execInputOvervoltage]

/-! ### `Optics` -/

@[simp] theorem State.elsReleased_lasting (s : State) (k : Nat) : (s.elsReleased k).lasting = s.lasting := by
  fun_cases State.elsReleased s k <;> simp +zetaDelta
@[simp] theorem State.elsDrainLimit_lasting (s : State) (ports : Nats) : (s.elsDrainLimit ports).lasting = s.lasting := by
  simp [State.elsDrainLimit]

/-! ### `Reset` -/

@[simp] theorem State.sleepPorts_lasting (s : State) (ports : Nats) : (s.sleepPorts ports).lasting = s.lasting := by simp [State.sleepPorts]
@[simp] theorem execQueueDrainLimit_lasting (ports : Nats) (s : State) :
    (afterOut s (execQueueDrainLimit ports s)).lasting = s.lasting := by simp [execQueueDrainLimit]
@[simp] theorem State.goDormant_lasting (s : State) : s.goDormant.lasting = s.lasting := by simp [State.goDormant]
@[simp] theorem State.slumber_lasting (s : State) : s.slumber.lasting = s.lasting := by simp [State.slumber]
@[simp] theorem State.awake_lasting (s : State) : s.awake.lasting = s.lasting := by simp [State.awake]
@[simp] theorem execPowerTransitionEnd_lasting (s : State) : (afterOut s (execPowerTransitionEnd s)).lasting = s.lasting := by
  unfold execPowerTransitionEnd
  simp only [afterOut_next]
  (repeat' split) <;> simp

/-! ### `Optics` -/

@[simp] theorem execElsSelfTestDone_lasting (els : Nat) (ok : Bool) (s : State) :
    (afterOut s (execElsSelfTestDone els ok s)).lasting = s.lasting := by
  unfold execElsSelfTestDone
  simp only [afterOut_next]
  (repeat' split) <;> simp

/-! ### `Boot` -/

@[simp] theorem execSetdasa_lasting (target addr : Nat) (s : State) : (afterOut s (execSetdasa target addr s)).lasting = s.lasting := by
  simp [execSetdasa]
@[simp] theorem execEntdaa_lasting (regAddr mctpAddr : Nat) (s : State) :
    (afterOut s (execEntdaa regAddr mctpAddr s)).lasting = s.lasting := by simp [execEntdaa]
/-! ### What blows fuses -/

/-- From `s` to `t` the queue of waiting commands is the same and fuses are at most blown (R449, R455, R464). -/
def State.Since (s t : State) : Prop :=
  t.pending = s.pending ∧ s.thimble.svnFuse.toNat ≤ t.thimble.svnFuse.toNat ∧ s.thimble.kekEpoch.toNat ≤ t.thimble.kekEpoch.toNat ∧
    (s.thimble.slot0Revoked = true → t.thimble.slot0Revoked = true)

theorem State.since_of_lasting {s t : State} (h : t.lasting = s.lasting) : s.Since t := by
  simp only [State.lasting, Prod.mk.injEq] at h
  obtain ⟨pending, svn, kek, revoked⟩ := h
  simp [State.Since, pending, svn, kek, revoked]

theorem State.Since.trans {s t u : State} (h : s.Since t) (k : t.Since u) : s.Since u := by
  obtain ⟨p, n, e, r⟩ := h
  obtain ⟨p', n', e', r'⟩ := k
  exact ⟨p'.trans p, n.trans n', e.trans e', fun b => r' (r b)⟩

theorem State.Since.then_lasting {s t u : State} (h : s.Since t) (k : u.lasting = t.lasting) : s.Since u :=
  h.trans (State.since_of_lasting k)

theorem State.since_ite {s t u : State} {c : Prop} [Decidable c] (h : c → s.Since t) (k : ¬c → s.Since u) :
    s.Since (if c then t else u) := by
  split
  · next hc => exact h hc
  · next hc => exact k hc

theorem State.Since.fusesAtLeast {s t : State} {n e : Nat} {r : Bool} (h : s.Since t) (k : s.fusesAtLeast n e r) :
    t.fusesAtLeast n e r := by
  obtain ⟨-, svn, kek, revoked⟩ := h
  obtain ⟨n, e, r⟩ := k
  exact ⟨n.trans svn, e.trans kek, fun b => revoked (r b)⟩

/-- One more fuse of the anti-rollback counter, below a value that the counter can hold. -/
theorem State.since_svn (s : State) (n : BitVec 8) :
    s.Since (s.updThimble (fun t => if t.svnFuse.toNat < n.toNat then { t with svnFuse := t.svnFuse + 1 } else t)) := by
  refine ⟨rfl, ?_, ?_, ?_⟩ <;> simp only [State.updThimble] <;> split <;> simp_all
  have := n.isLt
  omega

/-- A pulse blows a fuse of the anti-rollback counter or slot 0's revocation (R455). -/
theorem State.pulseEnd_since (s : State) : s.Since s.pulseEnd := by
  fun_cases State.pulseEnd s
  case case1 n _ t _ => exact (s.since_svn n).then_lasting (by simp [t])
  case case2 n _ t _ => exact s.since_svn n
  case case3 =>
    refine State.Since.then_lasting (t := s.updThimble fun t => { t with slot0Revoked := true, wantRevoke := false }) ?_ (by simp)
    exact ⟨rfl, Nat.le_refl _, Nat.le_refl _, fun _ => rfl⟩
  case case4 => exact State.since_of_lasting rfl

theorem execFusePulseEnd_since (s : State) : s.Since (afterOut s (execFusePulseEnd s)) :=
  State.since_ite (fun _ => s.pulseEnd_since.then_lasting (by split <;> simp)) (fun _ => State.since_of_lasting rfl)

/-- The key epoch rises by one below 16 (R464). -/
theorem State.secRotate_since (m : Nat) (s : State) (b : Mbox) : s.Since (State.secRotate m s b) := by
  fun_cases State.secRotate m s b
  case case1 => exact State.since_of_lasting (by simp)
  case case2 => exact State.since_of_lasting rfl
  case case3 e below _ =>
    refine State.Since.then_lasting (t := s.updThimble fun t => { t with kekEpoch := BitVec.ofNat 5 (e + 1) }) ?_ (by simp)
    refine ⟨rfl, Nat.le_refl _, ?_, id⟩
    have : e < 16 := by simp at below; exact below.1
    simp [State.updThimble, e] at this ⊢
    omega

theorem State.secPost_since {s : State} {m : Nat} {f : State → Mbox → State} (h : ∀ (x : State) b, x.Since (f x b)) : s.Since (s.secPost m f) :=
  State.since_ite (fun _ => State.since_of_lasting rfl) (fun _ => (State.since_of_lasting (s.updSecure_lasting _ _)).trans (h _ _))

theorem State.barDo_since {s : State} {k : Nat} {f : State → State} (h : ∀ x : State, x.Since (f x)) : s.Since (s.barDo k f) :=
  State.since_ite (fun _ => h s) (fun _ => State.since_of_lasting rfl)

theorem execKekRotate_since (m : Nat) (s : State) : s.Since (afterOut s (execKekRotate m s)) :=
  (State.since_of_lasting (s.secNamed_lasting m 3)).trans (State.secPost_since (State.secRotate_since m))

theorem State.secAct_since (m : Nat) (s : State) (b : Mbox) : s.Since (State.secAct m s b) := by
  unfold State.secAct
  split
  case h_3 => exact State.secRotate_since m s b
  all_goals exact State.since_of_lasting (by simp)

theorem State.secWrite_since (s : State) (m off v : Nat) : s.Since (s.secWrite m off v) := by
  fun_cases State.secWrite s m off v
  case case3 => exact State.secPost_since (State.secAct_since m)
  all_goals exact State.since_of_lasting (by simp)

theorem State.managerWrite_since (s : State) (off v : Nat) : s.Since (s.managerWrite off v) := by
  fun_cases State.managerWrite s off v
  case case5 => exact s.secWrite_since _ _ _
  all_goals exact State.since_of_lasting (by simp +zetaDelta)

theorem State.word4_since (s : State) (func off v : Nat) : s.Since (s.word4 func off v) := by
  fun_cases State.word4 s func off v
  case case2 => exact s.managerWrite_since off v
  all_goals exact State.since_of_lasting (by simp)

theorem State.barWrite_since (s : State) (func off width value : Nat) : s.Since (s.barWrite func off width value) := by
  fun_cases State.barWrite s func off width value
  case case10 => exact State.barDo_since fun t => t.word4_since _ _ _
  case case11 => exact (State.barDo_since fun t => t.word4_since _ _ _).trans (State.barDo_since fun t => t.word4_since _ _ _)
  all_goals exact State.since_of_lasting (by simp +zetaDelta)

theorem execRegisterWrite_since (func off width value : Nat) (s : State) :
    s.Since (afterOut s (execRegisterWrite func off width value s)) :=
  State.since_ite (fun _ => State.since_of_lasting (by simp)) (fun _ => s.barWrite_since _ _ _ _)

/-! ### One step -/

theorem exec_since (c : Instr) (s : State) : s.Since (afterOut s (exec c s)) := by
  cases c
  case fusePulseEnd => exact execFusePulseEnd_since s
  case kekRotate m => exact execKekRotate_since m s
  case registerWrite func off width value => exact execRegisterWrite_since func off width value s
  all_goals exact State.since_of_lasting (by simp only [exec]; simp)

theorem step_since {s t : State} (h : step s = .next t) : ({ s with pending := s.pending.tail } : State).Since t := by
  unfold step at h
  split at h
  · next hp =>
    cases h
    obtain ⟨pending, fuses⟩ := State.since_of_lasting (tick_lasting s)
    exact ⟨pending.trans (by simp [hp]), fuses⟩
  · next c rest hp =>
    have k := exec_since c { s with pending := rest }
    rw [h] at k
    simpa [hp] using k

/-- Settles O59: no command touches the queue of those that wait. -/
theorem stepsTakeOneCommand : Obligations.StepsTakeOneCommand := by
  unfold Obligations.StepsTakeOneCommand
  intro s t h
  obtain ⟨pending, -⟩ := step_since h
  exact pending

/-- Settles O60: no command takes back a fuse. -/
theorem fusesAreOnlyBlown : Obligations.FusesAreOnlyBlown := by
  unfold Obligations.FusesAreOnlyBlown
  intro s t n e r k h
  exact (step_since h).fusesAtLeast k

/-- Settles O51, by the definition of a step. -/
theorem stepRunsTheFrontCommand : Obligations.StepRunsTheFrontCommand := by
  unfold Obligations.StepRunsTheFrontCommand
  intros
  rfl

end Sys2Proof.Machine
end

section
/-!
PROOFS of `Obligations.ControlFlowActs` (O29) and `Obligations.ImmediateInstructionsCompute` (O56): instructions that need nothing but
the needle's own registers.
-/

namespace Sys2Proof.Machine

variable {s : State} {n op : Nat} {x : Upset} {i : Ins}

/-! ### Branches and jumps (R277) -/

theorem State.issue_jump {t : State} {f : Ins → State → Did} {pc : Nat} (h : s.stands n op x i) (named : opNamed op = true)
    (did : f i s = .jump t pc) : s.issue n op x f = t.updNeedle n (fun d => { d with pc := BitVec.ofNat 32 pc }) := by
  rw [State.issue_stands h named, did]

/-- Where a branch goes on (R277). -/
def Ins.branchTarget (i : Ins) : BitVec 64 := BitVec.ofNat 64 i.pc + low64 (4 * i.imm14)

theorem State.branch_not_taken {f : BitVec 64 → BitVec 64 → Bool} (h : s.stands n op x i) (named : opNamed op = true)
    (no : f ((s.needle n).rs i.s1) ((s.needle n).rs i.d) = false) :
    s.onlyNeedle (s.branch n op x f) n ((s.needle n).past op) := by
  rw [State.branch, State.issue_ok h named (t := s) (by simp [Ins.rs, h.own, no])]
  exact State.onlyNeedle_upd h.lt rfl

theorem State.branch_taken {f : BitVec 64 → BitVec 64 → Bool} (h : s.stands n op x i) (named : opNamed op = true)
    (yes : f ((s.needle n).rs i.s1) ((s.needle n).rs i.d) = true) (inside : i.prog.inText i.branchTarget.toNat = true) :
    s.onlyNeedle (s.branch n op x f) n { s.needle n with pc := BitVec.ofNat 32 i.branchTarget.toNat } := by
  rw [State.branch, State.issue_jump h named (t := s) (pc := i.branchTarget.toNat)]
  · exact State.onlyNeedle_upd h.lt rfl
  · simp only [Ins.rs, h.own, yes, if_true]
    exact if_pos inside

theorem State.branch_outside {f : BitVec 64 → BitVec 64 → Bool} (h : s.stands n op x i) (named : opNamed op = true)
    (yes : f ((s.needle n).rs i.s1) ((s.needle n).rs i.d) = true) (outside : i.prog.inText i.branchTarget.toNat = false) :
    s.branch n op x f = s.trap n 2 i.branchTarget.toNat := by
  rw [State.branch, State.issue_trap h named]
  simp only [Ins.rs, h.own, yes, if_true]
  exact if_neg (Bool.eq_false_iff.mp outside)

/-- BGE is the negation of BLT. -/
theorem not_slt_eq (a b : BitVec 64) : (!a.slt b) = decide (b.toInt ≤ a.toInt) := by
  simp [BitVec.slt, ← decide_not]

/-- BGEU is the negation of BLTU. -/
theorem not_ult_eq (a b : BitVec 64) : (!a.ult b) = decide (b.toNat ≤ a.toNat) := by
  simp [BitVec.ult, ← decide_not]

theorem exec_jal (h : s.stands n 0x26 x i) (inside : i.prog.inText (BitVec.ofNat 64 i.pc + low64 (4 * i.imm19)).toNat = true) :
    exec (.jal n x) s = .next ((s.updNeedle n (fun d => d.ws i.d (BitVec.ofNat 64 (i.pc + 4)))).updNeedle n
      (fun d => { d with pc := BitVec.ofNat 32 (BitVec.ofNat 64 i.pc + low64 (4 * i.imm19)).toNat })) := by
  simp only [exec, execJal]
  rw [State.issue_jump h rfl]
  rw [h.own]
  exact if_pos inside

theorem exec_jalr (h : s.stands n 0x27 x i) (inside : i.prog.inText ((s.needle n).rs i.s1 + low64 i.imm14).toNat = true) :
    exec (.jalr n x) s = .next ((s.updNeedle n (fun d => d.ws i.d (BitVec.ofNat 64 (i.pc + 4)))).updNeedle n
      (fun d => { d with pc := BitVec.ofNat 32 ((s.needle n).rs i.s1 + low64 i.imm14).toNat })) := by
  simp only [exec, execJalr]
  rw [State.issue_jump h rfl]
  rw [Ins.rs, h.own]
  exact if_pos inside

/-! ### TRAP and EXIT (R299, R300) -/

theorem Ins.f_lt (i : Ins) (hi lo : Nat) : i.f hi lo < 2 ^ (hi + 1 - lo) := Nat.mod_lt _ (Nat.two_pow_pos _)

theorem exec_trap (h : s.stands n 0x78 x i) (hd : i.d = 0) (hf : i.f 31 29 = 0) :
    exec (.trap n x) s = .next ((s.updNeedle n (fun d =>
      { d with trapCode := 7, trapPc := d.pc, trapInfo := BitVec.ofNat 64 (i.f 28 13) })).runFault i.id n 1 7 (s.needle n).pc.toNat (i.f 28 13)) := by
  have code := i.f_lt 28 13
  simp only [exec, execTrap]
  rw [State.issue_trap h rfl (c := 7) (a := i.f 28 13) (by simp [Ins.guard, hd, hf])]
  obtain ⟨-, -, -, run, -⟩ := h
  simp only [State.trap, run]
  rw [Nat.mod_eq_of_lt (by omega)]
  rfl

/-- The needle that ends, before its run is looked at. -/
theorem exec_exit (h : s.stands n 0x79 x i) (hf : i.f 31 8 = 0) : exec (.exit n x) s = .next (s.exitNeedle n) := by
  simp only [exec, execExit]
  rw [State.issue_stay h rfl (t := s.exitNeedle n) (by simp [Ins.guard, hf, h.own])]

/-- The needle is done; the run ends with its last needle. -/
theorem State.exitNeedle_eq (h : s.stands n op x i) :
    s.exitNeedle n = let t := (s.updNeedle n (fun d => { d with st := 4 })).updRun i.id (fun r => { r with left := r.left.erase n })
      if (i.run.left.erase n).isEmpty then t.runExit i.id n else t := by
  obtain ⟨-, -, -, run, runs, -⟩ := h
  simp only [State.exitNeedle, run, State.updRun, State.updNeedle_runs, runs, AMap.get?_set_same]

/-- Settles O29: what an instruction that jumps, traps or ends does where the needle stands at it. -/
theorem controlFlowActs : Obligations.ControlFlowActs := by
  unfold Obligations.ControlFlowActs
  refine ⟨?branches, ?jal, ?jalr, ?trap, ?exit, ?last⟩
  case branches =>
    intro e he s n x i h
    have run : opNamed e.2.1 = true ∧ ∃ f, exec (e.1 n x) s = .next (s.branch n e.2.1 x f) ∧ ∀ a b, f a b = e.2.2 a b := by
      simp only [List.mem_cons, List.not_mem_nil, or_false] at he
      rcases he with rfl | rfl | rfl | rfl | rfl | rfl
      case inr.inr.inr.inl => exact ⟨rfl, _, rfl, not_slt_eq⟩
      case inr.inr.inr.inr.inr => exact ⟨rfl, _, rfl, not_ult_eq⟩
      all_goals exact ⟨rfl, _, rfl, fun _ _ => rfl⟩
    obtain ⟨named, f, ran, same⟩ := run
    exact ⟨fun no => ⟨_, ran, State.branch_not_taken h named ((same _ _).trans no)⟩,
      fun yes inside => ⟨_, ran, State.branch_taken h named ((same _ _).trans yes) inside⟩,
      fun yes outside => ran.trans (congrArg _ (State.branch_outside h named ((same _ _).trans yes) outside))⟩
  case jal =>
    intro s n x i h target inside
    exact ⟨_, exec_jal h inside, State.onlyNeedle_upd2 h.lt rfl⟩
  case jalr =>
    intro s n x i h target inside
    exact ⟨_, exec_jalr h inside, State.onlyNeedle_upd2 h.lt rfl⟩
  case trap =>
    intro s n x i h hd hf
    exact ⟨_, _, exec_trap h hd hf, State.onlyNeedle_upd h.lt rfl, rfl⟩
  case exit =>
    intro s n m x i h hf more
    have others : (i.run.left.erase n).isEmpty = false := List.isEmpty_eq_false_iff_exists_mem.mpr ⟨m, more⟩
    obtain ⟨own, rest, frame⟩ := State.onlyNeedle_upd (s := s) (f := fun d => { d with st := 4 }) h.lt rfl
    refine ⟨_, (exec_exit h hf).trans (congrArg _ (State.exitNeedle_eq h)), ?_⟩
    obtain ⟨-, -, -, -, runs, -⟩ := h
    simp only [others, Bool.false_eq_true, if_false, State.updRun, State.updNeedle_runs, runs]
    exact ⟨own, AMap.get?_set_same _ _ _, rest, congrArg (fun u : State => { u with runs := s.runs }) frame⟩
  case last =>
    intro s n x i h hf done
    rw [exec_exit h hf, State.exitNeedle_eq h, done]
    rfl

/-! ### Immediates (R275) -/

theorem State.immOp_computes {f : BitVec 64 → BitVec 64 → BitVec 64} (h : s.stands n op x i) (named : opNamed op = true) (short : op < 128) :
    s.onlyNeedle (s.immOp n op x f) n (((s.needle n).ws i.d (f ((s.needle n).rs i.s1) (low64 i.imm14))).past 0) := by
  rw [← NeedleS.past_short short]
  exact State.row_ok h named rfl rfl

theorem State.immShift_computes {f : BitVec 64 → Nat → BitVec 64} (h : s.stands n op x i) (named : opNamed op = true) (short : op < 128)
    (form : i.f 31 24 = 0) :
    s.onlyNeedle (s.immShift n op x f) n (((s.needle n).ws i.d (f ((s.needle n).rs i.s1) (i.f 23 18))).past 0) := by
  rw [← NeedleS.past_short short]
  exact State.row_ok h named (Ins.guard_of_legal (by simp [form]) i _) rfl

theorem State.immShift_illegal {f : BitVec 64 → Nat → BitVec 64} (h : s.stands n op x i) (named : opNamed op = true)
    (form : i.f 31 24 ≠ 0) : s.immShift n op x f = s.trap n 1 (i.w % 2 ^ 32) :=
  State.row_bad h named (Ins.guard_of_illegal (by simp [form]) i _)

/-- A shift count whose upper bits are zero is IMM14 modulo 64. -/
theorem Ins.shift_count (form : i.f 31 24 = 0) : (low64 i.imm14).toNat % 64 = i.f 23 18 := by
  have split : i.f 31 18 = i.f 31 24 * 64 + i.f 23 18 := by simp only [Ins.f]; omega
  have small := i.f_lt 23 18
  rw [form] at split
  simp only [Ins.imm14, toSigned, low64]
  rw [split, if_pos (by omega)]
  simp
  omega

/-- LUI and ADDI split a constant at bit 13. -/
theorem lui_addi_builds {c : Int} (low : -(2 ^ 31) ≤ c) (high : c < 2 ^ 31) : ∃ h l : Nat, h < 2 ^ 19 ∧ l < 2 ^ 14 ∧
    BitVec.ofInt 64 (toSigned 19 h * 2 ^ 13) + low64 (toSigned 14 l) = BitVec.ofInt 64 c := by
  refine ⟨(c / 2 ^ 13 % 2 ^ 19).toNat, (c % 2 ^ 13).toNat, by omega, by omega, ?_⟩
  have upper : toSigned 19 (c / 2 ^ 13 % 2 ^ 19).toNat = c / 2 ^ 13 := by
    simp only [toSigned]
    split <;> omega
  have lower : toSigned 14 (c % 2 ^ 13).toNat = c % 2 ^ 13 := by
    simp only [toSigned]
    split <;> omega
  rw [upper, lower, low64, ← BitVec.ofInt_add]
  congr 1
  omega

/-- Settles O56: every immediate instruction writes s[D] and moves the PC on. -/
theorem immediateInstructionsCompute : Obligations.ImmediateInstructionsCompute := by
  unfold Obligations.ImmediateInstructionsCompute
  refine ⟨?ops, ?shifts, ?lui, fun c => lui_addi_builds, ?nop⟩
  case ops =>
    intro e he s n x i h
    have run : opNamed e.2.1 = true ∧ e.2.1 < 128 ∧ exec (e.1 n x) s = .next (s.immOp n e.2.1 x (sarithOp e.2.2)) := by
      simp only [List.mem_cons, List.not_mem_nil, or_false] at he
      rcases he with rfl | rfl | rfl | rfl | rfl <;> exact ⟨rfl, by decide, rfl⟩
    obtain ⟨named, short, ran⟩ := run
    exact ⟨_, ran, State.immOp_computes h named short⟩
  case shifts =>
    intro e he s n x i h
    have run : opNamed e.2.1 = true ∧ e.2.1 < 128 ∧ ∃ f, exec (e.1 n x) s = .next (s.immShift n e.2.1 x f) ∧
        ∀ a b : BitVec 64, sarithOp e.2.2 a b = f a (b.toNat % 64) := by
      simp only [List.mem_cons, List.not_mem_nil, or_false] at he
      rcases he with rfl | rfl | rfl <;> exact ⟨rfl, by decide, _, rfl, fun _ _ => rfl⟩
    obtain ⟨named, short, f, ran, same⟩ := run
    refine ⟨fun form => ⟨_, ran, ?_⟩, fun form => ran.trans (congrArg _ (State.immShift_illegal h named form))⟩
    rw [same, Ins.shift_count form]
    exact State.immShift_computes h named short form
  case lui =>
    intro s n x i h
    exact ⟨_, rfl, State.row_ok h rfl rfl rfl⟩
  case nop =>
    intro s n x i h hd hs hf
    refine ⟨_, rfl, ?_⟩
    have same := State.immOp_computes (f := fun a b => a + b) h rfl (by decide)
    simpa only [NeedleS.ws, hd, if_true] using same

end Sys2Proof.Machine
end

section
/-!
PROOFS of `Obligations.ProgramCommandsReply` (O8): the program commands, case by case; the settling of an unload is the long part.
-/

namespace Sys2Proof.Machine

variable {s t u : State} {h : Issue}

/-! ### What a command answers where its body is known -/

/-- A command whose body answers at once. -/
theorem exec_answers {op : Nat} {vals : Nats} {body : State → Ans} {a : Ans} {o : Out} (ran : o = .next (vuino h op vals body s))
    (ok : s.admits h op vals = true) (does : body s = a) (now : a.later = false) : o = .next (a.st.answer h op a true) :=
  ran.trans (congrArg _ (vuino_replies ok does now))

/-! ### The first entry of a key -/

/-- What a key reads stands in the list, and no entry of that key before it. -/
theorem AMap.get?_split {α : Type} {m : AMap α} {k : Nat} {v : α} (found : AMap.get? m k = some v) :
    ∃ pre post, m = pre ++ (k, v) :: post ∧ ∀ e ∈ pre, e.1 ≠ k := by
  induction m with
  | nil => cases found
  | cons e m ih =>
    obtain ⟨j, a⟩ := e
    simp only [AMap.get?] at found
    split at found
    · next same =>
      cases found
      exact ⟨[], m, by rw [same]; rfl, by simp⟩
    · next other =>
      obtain ⟨pre, post, rfl, apart⟩ := ih found
      refine ⟨(j, a) :: pre, post, rfl, ?_⟩
      simp only [List.mem_cons, forall_eq_or_imp]
      exact ⟨other, apart⟩

/-! ### PROG_UNLOAD: a program that nothing uses goes (R306, R317) -/

theorem Aside.part_progs (h : Aside s t) (p : Nat) : (t.part p).progs = (s.part p).progs := by
  have kept := congrArg PartS.progs (h.2 p)
  exact kept

theorem Aside.part_progGen (h : Aside s t) (p : Nat) : (t.part p).progGen = (s.part p).progGen := by
  have kept := congrArg PartS.progGen (h.2 p)
  exact kept

theorem Aside.binds (h : Aside s t) : t.binds = s.binds := h.fld State.binds fun _ => rfl

theorem Aside.runs (h : Aside s t) : t.runs = s.runs := h.fld State.runs fun _ => rfl

/-- No binding and no run of partition `p` names program `prog`, whose place still has the handle's generation. -/
def State.progIdle (s : State) (p prog : Nat) : Prop :=
  (∀ b ∈ s.binds, b.2.part = p → fld b.2.blk 15 0 ≠ prog) ∧ (∀ r ∈ s.runs, r.2.part = p → r.2.prog.toNat ≠ prog) ∧
    AMap.get (s.part p).progGen (prog % 256) 1 = prog / 256

/-- No program stands at place `i` of partition `p`. -/
def State.progGone (s : State) (p i : Nat) : Prop := AMap.get? (s.part p).progs i = none

theorem State.progIdle.aside {p prog : Nat} (idle : s.progIdle p prog) (a : Aside s t) : t.progIdle p prog := by
  simpa only [State.progIdle, a.binds, a.runs, a.part_progGen] using idle

theorem State.progGone.aside {p i : Nat} (gone : s.progGone p i) (a : Aside s t) : t.progGone p i := by
  simpa only [State.progGone, a.part_progs] using gone

/-- An unbinding whose work is done: the binding goes, and the command that waits for it is answered. -/
def State.unbound (e : Nat × Bind) (t : State) : State :=
  let t := { t with binds := AMap.erase t.binds e.1 }
  let byUnload := (AMap.get (t.part e.2.part).progs (fld e.2.blk 7 0) {}).unloading == e.2.unbinding
  match e.2.unbinding with
  | some h => if byUnload then t else t.longEnd h 0x0612 (Ans.ok t)
  | none => t

/-- A program that is being unloaded goes where nothing uses it. -/
def State.unloaded (e : Nat × Nat × Prog) (t : State) : State :=
  let handle := AMap.get (t.part e.1).progGen e.2.1 1 * 256 + e.2.1
  let used := t.binds.any (fun b => b.2.part == e.1 && fld b.2.blk 15 0 == handle) ||
    t.runs.any (fun r => r.2.part == e.1 && r.2.prog.toNat == handle)
  match e.2.2.unloading with
  | some h =>
    if used then t
    else
      let t := t.updPart e.1 (fun p => { p with
        progs := AMap.erase p.progs e.2.1
        progGen := AMap.upd p.progGen e.2.1 1 (fun g => if g = 255 then 1 else g + 1) })
      t.longEnd h 0x0613 (Ans.ok t)
  | none => t

/-- The programs that are being unloaded, with their partitions and places. -/
def State.unloading (s : State) : List (Nat × Nat × Prog) :=
  s.parts.flatMap (fun e => (e.2.progs.filter (fun g => g.2.unloading.isSome)).map (fun g => (e.1, g)))

theorem State.programsSettle_eq (s : State) : s.programsSettle =
    let t := s.eachOf (s.binds.filter (fun e => e.2.unbinding.isSome && !s.bindInUse e.1)) State.unbound
    t.eachOf t.unloading State.unloaded := rfl

/-- An unbinding ends: a binding is erased, everything else is on the host's side. -/
theorem State.unbound_aside (e : Nat × Bind) (t : State) : Aside { t with binds := AMap.erase t.binds e.1 } (t.unbound e) := by
  unfold State.unbound
  dsimp only
  split
  · split
    · exact .refl _
    · exact (Aside.refl _).longEnd _ _ _
  · exact .refl _

theorem AMap.mem_of_mem_erase {α : Type} {m : AMap α} {k : Nat} {e : Nat × α} (mem : e ∈ AMap.erase m k) : e ∈ m :=
  List.mem_of_mem_filter mem

theorem State.progIdle.unbound {p prog : Nat} (idle : s.progIdle p prog) (e : Nat × Bind) : (s.unbound e).progIdle p prog := by
  refine State.progIdle.aside ?_ (s.unbound_aside e)
  obtain ⟨binds, runs, gen⟩ := idle
  exact ⟨fun b hb => binds b (AMap.mem_of_mem_erase hb), runs, gen⟩

/-- A program goes from its place, or nothing happens. -/
theorem State.unloaded_aside (e : Nat × Nat × Prog) (t : State) : t.unloaded e = t ∨
    Aside (t.updPart e.1 (fun p => { p with
      progs := AMap.erase p.progs e.2.1
      progGen := AMap.upd p.progGen e.2.1 1 (fun g => if g = 255 then 1 else g + 1) })) (t.unloaded e) := by
  unfold State.unloaded
  dsimp only
  split
  · split
    · exact .inl rfl
    · exact .inr ((Aside.refl _).longEnd _ _ _)
  · exact .inl rfl

/-- Another program that goes leaves this one's place and generation. -/
theorem State.progIdle.unloaded {p prog : Nat} (idle : s.progIdle p prog) {e : Nat × Nat × Prog}
    (other : ¬(e.1 = p ∧ e.2.1 = prog % 256)) : (s.unloaded e).progIdle p prog := by
  rcases s.unloaded_aside e with same | a
  · rwa [same]
  · refine State.progIdle.aside ?_ a
    obtain ⟨binds, runs, gen⟩ := idle
    refine ⟨binds, runs, ?_⟩
    rw [← gen]
    by_cases hp : e.1 = p
    · subst hp
      rw [State.part_updPart_same]
      dsimp only
      rw [AMap.get_upd, if_neg fun hi => other ⟨rfl, hi.symm⟩]
    · rw [State.part_updPart_other _ (Ne.symm hp)]

theorem State.progGone.unloaded {p i : Nat} (gone : s.progGone p i) (e : Nat × Nat × Prog) : (s.unloaded e).progGone p i := by
  rcases s.unloaded_aside e with same | a
  · rwa [same]
  · refine State.progGone.aside ?_ a
    by_cases hp : e.1 = p
    · subst hp
      rw [State.progGone, State.part_updPart_same, AMap.get?_erase, gone, ite_self]
    · rwa [State.progGone, State.part_updPart_other _ (Ne.symm hp)]

/-- A program that nothing uses goes. -/
theorem State.progIdle.goes {p prog : Nat} {g : Prog} (idle : s.progIdle p prog) (asked : g.unloading.isSome = true) :
    (s.unloaded (p, prog % 256, g)).progGone p (prog % 256) := by
  obtain ⟨binds, runs, gen⟩ := idle
  obtain ⟨h, asked⟩ := Option.isSome_iff_exists.mp asked
  have handle : AMap.get (s.part p).progGen (prog % 256) 1 * 256 + prog % 256 = prog := by omega
  have unused : (s.binds.any (fun b => b.2.part == p && fld b.2.blk 15 0 == prog) ||
      s.runs.any (fun r => r.2.part == p && r.2.prog.toNat == prog)) = false := by
    simpa using ⟨fun k b hb => binds (k, b) hb, fun k r hr => runs (k, r) hr⟩
  unfold State.unloaded
  simp only [asked, handle, unused, Bool.false_eq_true, if_false]
  refine State.progGone.aside ?_ ((Aside.refl _).longEnd _ _ _)
  rw [State.progGone, State.part_updPart_same, AMap.get?_erase, if_pos rfl]

/-- The first program that the list names at this place is the one that stands there. -/
theorem State.unloading_split {p i : Nat} {g : Prog} (found : AMap.get? (s.part p).progs i = some g) (asked : g.unloading.isSome = true) :
    ∃ pre post, s.unloading = pre ++ (p, i, g) :: post ∧ ∀ e ∈ pre, ¬(e.1 = p ∧ e.2.1 = i) := by
  have here : ∃ x, AMap.get? s.parts p = some x ∧ s.part p = x := by
    unfold State.part AMap.get at found ⊢
    cases hx : AMap.get? s.parts p with
    | none => rw [hx] at found; cases found
    | some x => exact ⟨x, rfl, rfl⟩
  obtain ⟨x, hx, same⟩ := here
  rw [same] at found
  obtain ⟨ps, qs, parts, apart⟩ := AMap.get?_split hx
  obtain ⟨gs, ks, progs, apart'⟩ := AMap.get?_split found
  refine ⟨ps.flatMap (fun e => (e.2.progs.filter (fun g => g.2.unloading.isSome)).map (fun g => (e.1, g))) ++
    (gs.filter (fun g => g.2.unloading.isSome)).map (fun g => (p, g)), (ks.filter (fun g => g.2.unloading.isSome)).map (fun g => (p, g)) ++
    qs.flatMap (fun e => (e.2.progs.filter (fun g => g.2.unloading.isSome)).map (fun g => (e.1, g))), ?_, ?_⟩
  · simp [State.unloading, parts, progs, asked]
  · intro e he
    simp only [List.mem_append, List.mem_flatMap, List.mem_map, List.mem_filter] at he
    rintro ⟨hp, hi⟩
    rcases he with ⟨f, hf, g, -, rfl⟩ | ⟨g, ⟨hg, -⟩, rfl⟩
    · exact apart f hf hp
    · exact apart' g hg hi

/-- A program that is being unloaded and that nothing uses is gone once programs settle. -/
theorem State.programsSettle_gone {p prog : Nat} {g : Prog} (idle : s.progIdle p prog)
    (found : AMap.get? (s.part p).progs (prog % 256) = some g) (asked : g.unloading.isSome = true) :
    s.programsSettle.progGone p (prog % 256) := by
  rw [State.programsSettle_eq]
  extract_lets t
  have keeps : t.progIdle p prog ∧ AMap.get? (t.part p).progs (prog % 256) = some g := by
    refine State.eachOf_keeps (P := fun x => x.progIdle p prog ∧ AMap.get? (x.part p).progs (prog % 256) = some g)
      (fun e _ x hx => ?_) ⟨idle, found⟩
    obtain ⟨idle, found⟩ := hx
    exact ⟨idle.unbound e, by rw [(x.unbound_aside e).part_progs]; exact found⟩
  obtain ⟨idle, found⟩ := keeps
  obtain ⟨pre, post, split, apart⟩ := State.unloading_split found asked
  have append (xs ys : List (Nat × Nat × Prog)) : t.eachOf (xs ++ ys) State.unloaded = (t.eachOf xs State.unloaded).eachOf ys State.unloaded :=
    List.foldl_append
  rw [split, append]
  have before : (t.eachOf pre State.unloaded).progIdle p prog :=
    State.eachOf_keeps (P := fun x => x.progIdle p prog) (fun e he x hx => hx.unloaded (apart e he)) idle
  exact State.eachOf_keeps (P := fun x => x.progGone p (prog % 256)) (s := State.unloaded (p, prog % 256, g) _)
    (fun e _ x hx => hx.unloaded e) (before.goes asked)

/-! ### The commands -/

/-- A program of a handle stands at the handle's place with its generation. -/
theorem State.prog?_some {p prog : Nat} {g : Prog} (found : s.prog? p prog = some g) :
    AMap.get (s.part p).progGen (prog % 256) 1 = prog / 256 % 256 ∧ AMap.get? (s.part p).progs (prog % 256) = some g := by
  unfold State.prog? at found
  dsimp only at found
  split at found
  · next gen => exact ⟨gen, found⟩
  · cases found

theorem State.progGone.prog? {p prog : Nat} (gone : s.progGone p (prog % 256)) : s.prog? p prog = none := by
  unfold State.prog?
  dsimp only
  rw [gone, ite_self]

/-- A partition's program marked as being unloaded. -/
theorem State.part_updProg {p prog : Nat} {g : Prog} {f : Prog → Prog} (found : AMap.get? (s.part p).progs (prog % 256) = some g) :
    (s.updProg p prog f).part p = { s.part p with progs := AMap.set (s.part p).progs (prog % 256) (f g) } := by
  unfold State.updProg
  rw [State.part_updPart_same, found]

theorem State.dropLaunches_idle {p prog : Nat} (runs : ∀ r ∈ s.runs, r.2.part = p → r.2.prog.toNat ≠ prog) (none_waits : s.launches = []) :
    s.dropLaunches p prog = s := by
  have none_runs : s.runs.filter (fun r => r.2.kind == 1 && r.2.part == p && r.2.prog.toNat == prog) = [] := by
    simp only [List.filter_eq_nil_iff, Bool.and_eq_true, beq_iff_eq, not_and]
    exact fun r hr hk => runs r hr hk.2
  simp only [State.dropLaunches, none_runs, none_waits, State.eachOf, List.foldl_nil, List.filter_nil]
  rw [← none_waits]

/-- Settles O8: the program commands, by what each body does on a request that passes. -/
theorem programCommandsReply : Obligations.ProgramCommandsReply := by
  unfold Obligations.ProgramCommandsReply
  refine ⟨?load, ?bind, ?unbind, ?unload, ?query, ?policy⟩
  case load =>
    intro s u h ctx va len i a o b ok owner low high read free place room v t
    have sized : ¬(len < 256 ∨ 262400 < len) := by omega
    by_cases why : u.imageReason h.part b = 0
    · rw [if_pos why]
      refine exec_answers rfl ok ?_ rfl
      simp [owner, sized, read, why, free, State.progPlace, place, room, imageProg, t, v]
    · rw [if_neg why]
      refine exec_answers rfl ok ?_ rfl
      simp [owner, sized, read, why]
  case bind =>
    intro s h target k blk ok key good fresh quiet
    refine exec_answers rfl ok ?_ rfl
    have idle : ((s.bindClusters { blk, part := h.part }).any fun c => s.runs.any fun r => r.2.kind == 1 && r.2.clusters.contains c) = false :=
      List.any_eq_false.mpr fun c hc => Bool.eq_false_iff.mp (List.any_eq_false.mpr fun r hr => by simpa using quiet c hc r hr)
    simp only [key, good, fresh, idle]
    rfl
  case unbind =>
    intro s h tk target force k b ok forced key found fresh idle u
    have idle : (tk == 2 && force == 0 && decide (2 ≤ (s.coll (k % 2 ^ 32)).st)) = false := by
      simpa using idle
    have forced : ¬1 < force := by omega
    refine ⟨fun free => ⟨_, exec_answers rfl ok (a := Ans.ok { u with binds := AMap.erase u.binds k }) ?_ rfl, ?_, rfl⟩,
      fun used room => congrArg _ (vuino_begins (a := Ans.wait u) ok ?_ rfl (by decide) room)⟩
    · simp only [key, found, forced, fresh, idle, free, u, Option.bind_some, Option.map_some, Option.isSome_none, Bool.or_self,
        Bool.false_eq_true, if_false]
    · exact (AMap.get?_erase ..).trans (if_pos rfl)
    · simp only [key, found, forced, fresh, idle, used, u, Option.bind_some, Option.map_some, Option.isSome_none, Bool.or_self,
        Bool.false_eq_true, if_false, if_true]
  case unload =>
    intro s h prog g ok found fresh none_waits hp hprog
    refine ⟨fun unbound unrun => ?_, fun used => exec_answers rfl ok ?_ rfl⟩
    · intro u
      obtain ⟨gen, here⟩ := State.prog?_some found
      have marked := State.part_updProg (f := fun g => { g with unloading := some h }) here
      have gone : u.prog? h.part prog = none := by
        refine (State.programsSettle_gone (s := s.updProg h.part prog fun g => { g with unloading := some h }) (g := { g with unloading := some h }) ⟨unbound, unrun, ?_⟩ ?_ rfl).prog?
        · rw [marked, gen]
          exact Nat.mod_eq_of_lt (by omega)
        · rw [marked, AMap.get?_set_same]
      refine ⟨gone, exec_answers rfl ok ?_ rfl⟩
      have no_binds : s.binds.filter (fun b => b.2.part == h.part && fld b.2.blk 15 0 == prog) = [] := by
        simpa using fun k b hb => unbound (k, b) hb
      have no_runs : s.runs.any (fun r => r.2.part == h.part && r.2.prog.toNat == prog) = false := by
        simpa using fun k r hr => unrun (k, r) hr
      simp [found, fresh, no_binds, no_runs, none_waits, State.eachOf, State.dropLaunches_idle unrun none_waits, u] at gone ⊢
      simp [gone]
    · rcases used with ⟨b, hb, part, names⟩ | ⟨r, hr, part, runs⟩
      · have some_bind : (s.binds.filter (fun b => b.2.part == h.part && fld b.2.blk 15 0 == prog)).isEmpty = false :=
          List.isEmpty_eq_false_iff_exists_mem.mpr ⟨b, List.mem_filter.mpr ⟨hb, by simp [part, names]⟩⟩
        simp only [found, some_bind]
        simp
      · have some_run : s.runs.any (fun r => r.2.part == h.part && r.2.prog.toNat == prog) = true :=
          List.any_eq_true.mpr ⟨r, hr, by simp [part, runs]⟩
        simp only [found, some_run]
        simp
  case query =>
    intro s h prog g ok found
    exact exec_answers rfl ok (by simp [found]) rfl
  case policy =>
    intro s h p r ok made hr
    exact exec_answers rfl ok (by simp [made, hr]) rfl

end Sys2Proof.Machine
end

section
/-!
PROOFS of `Obligations.CollectiveAndSyncCommandsReply` (O9): the commands of collective slots and of sync objects.
-/

namespace Sys2Proof.Machine

/-- Two changes of one entry are one change. -/
theorem AMap.upd_upd {α : Type} (m : AMap α) (k : Nat) (d : α) (f g : α → α) :
    AMap.upd (AMap.upd m k d f) k d g = AMap.upd m k d (fun x => g (f x)) := by
  simp only [AMap.upd, AMap.get_set_same, AMap.set_set]

theorem State.updObj_updObj (s : State) (k : Nat) (f g : SyncS → SyncS) :
    (s.updObj k f).updObj k g = s.updObj k (fun x => g (f x)) :=
  congrArg (fun sync => { s with sync }) (AMap.upd_upd ..)

/-- Settles O9: each command's body on a request that passes. -/
theorem collectiveAndSyncCommandsReply : Obligations.CollectiveAndSyncCommandsReply := by
  unfold Obligations.CollectiveAndSyncCommandsReply
  refine ⟨?set, ?stitch, ?abort, ?query, ?ctl, ?op, ?range⟩
  case set =>
    intro s h slot k blk ok row item form
    exact exec_answers rfl ok (by simp [item, row, form]) rfl
  case stitch =>
    intro s u h slot k o bs ok row item b table read sound room
    have room : ¬Ranges.count (s.part h.part).colls * 2 ^ 20 <
        (((Ranges.items (s.part h.part).colls).filter (fun j => j != k)).map (fun j => (u.coll j).stage)).sum + cbStage b := Nat.not_lt.mpr room
    refine ⟨fun free => exec_answers rfl ok ?_ rfl, fun busy => exec_answers rfl ok ?_ rfl⟩
    · simp only [item, read, row, sound, room, free, b, table, if_true, if_false, Option.getD_some, Bool.false_eq_true, bne_self_eq_false]
    · have busy : ¬(u.coll k).st ≤ 1 := by omega
      simp only [item, read, row, sound, room, busy, b, table, if_false, Option.getD_some, Bool.false_eq_true, bne_self_eq_false]
  case abort =>
    intro s h slot k ok item
    exact exec_answers rfl ok (by simp only [item]) rfl
  case query =>
    intro s h slot k copy ok known item
    have known : ¬1 < copy := by omega
    exact exec_answers rfl ok (by simp only [item, known, if_false]) rfl
  case ctl =>
    intro s h i k evq thresh item queue
    refine ⟨fun ok => exec_answers rfl ok ?_ rfl, fun ok => exec_answers rfl ok ?_ rfl⟩
    · simp [item, queue, State.updObj_updObj]
    · simp [item, queue, State.armWaiter, State.updObj_updObj, State.updObj_obj]
  case op =>
    intro s h i k op v ok item known x t
    have known : ¬1 < op := by omega
    obtain ⟨own, others⟩ := State.syncPut_obj s k x
    exact ⟨exec_answers rfl ok (by simp only [item, known, if_false, t, x]) rfl, own, fun j hj => congrArg _ (others j hj)⟩
  case range =>
    intro s h first count ok some_ few held one
    refine exec_answers rfl ok ?_ rfl
    have bad : ¬(count = 0 ∨ 64 < count ∨ Ranges.count (s.part h.part).syncs < first + count) := by omega
    simp only [Bool.or_eq_true, decide_eq_true_eq, or_assoc, bad, if_false, one]

end Sys2Proof.Machine
end

section
/-!
PROOFS of `Obligations.CollectivePacketsAct` (O35): how a collective packet is taken, and what its types do.
-/

namespace Sys2Proof.Machine

variable {s t u : State} {k : Nat} {p : Pkt}

/-! ### A packet sent leaves the collective slots alone -/

@[simp] theorem State.updOutq_colls (s : State) (n v : Nat) (f : List QPkt → List QPkt) : (s.updOutq n v f).colls = s.colls := by
  simp [State.updOutq]

@[simp] theorem State.enqueue_colls (s : State) (n : Nat) (q : QPkt) : (s.enqueue n q).colls = s.colls := by
  unfold State.enqueue State.onIf
  dsimp only
  split <;> simp [State.cntCc]

@[simp] theorem State.assign_colls (s : State) (q : QPkt) : (s.assign q).colls = s.colls := by
  fun_cases State.assign s q <;> simp +zetaDelta [State.onIf, apply_ite State.colls, State.cntRt]

@[simp] theorem State.sendLoose_colls (s : State) (part : Nat) (p : Pkt) (ctl : Bool) : (s.sendLoose part p ctl).colls = s.colls :=
  State.assign_colls _ _

/-! ### Reading a slot -/

theorem State.coll_of_colls (same : t.colls = s.colls) (k : Nat) : t.coll k = s.coll k := by rw [State.coll, same]; rfl

theorem State.coll_updColl (hk : k < 64) (f : CollS → CollS) : (s.updColl k f).coll k = f (s.coll k) := by
  simp only [State.updColl, hk, if_true, State.coll, AMap.get_upd_same]

theorem State.coll_discard (hk : k < 64) : (s.collDiscard k).coll k = { s.coll k with cDisc := satAdd (s.coll k).cDisc 1 } :=
  State.coll_updColl hk _

@[simp] theorem State.collDiscard_devMem (s : State) (k : Nat) : (s.collDiscard k).devMem = s.devMem := State.updColl_devMem ..

theorem State.coll_updCrun (hk : k < 64) {r : CollRun} (run : (s.coll k).run = some r) (f : CollRun → CollRun) :
    (s.updCrun k f).coll k = { s.coll k with run := some (f r) } := by
  rw [State.updCrun, State.coll_updColl hk, run]; rfl

/-! ### A packet taken (R333, R348) -/

/-- No collective of this slot sends such a packet: an idle slot, another tag, no such rank, or not the device of that rank. -/
def CollS.foreign (c : CollS) (p : Pkt) : Prop :=
  c.st = 0 ∨ fld p.hdr 239 208 ≠ cbTag c.act ∨ cbN c.act ≤ ctRank p ∨ fld (c.table.getD (ctRank p) 0) 31 16 ≠ p.src

theorem State.rxColl_taken {n ctype : Nat} (proto : p.proto = 1) (op : p.op = ctype) (taken : s.takeHere n p = (u, true)) (errs : WordErrs) :
    s.rxColl n p ctype errs = u.collTake p errs := by
  simp [State.rxColl, proto, op, taken]

theorem State.collTake_discards (crc : p.crcOk = true) (why : (s.coll (ctSlot p)).foreign p ∨
    (ctSeq p ≠ (s.coll (ctSlot p)).seq ∧ (ctSeq p ≠ (s.coll (ctSlot p)).seq + 1 ∨ p.op = 9))) (errs : WordErrs) :
    s.collTake p errs = s.collDiscard (ctSlot p) := by
  unfold State.collTake CollS.foreign at *
  grind

theorem State.collTake_handles (crc : p.crcOk = true) (low : 1 ≤ p.op) (high : p.op ≤ 9) (own : ¬(s.coll (ctSlot p)).foreign p)
    (now : ctSeq p = (s.coll (ctSlot p)).seq) (errs : WordErrs) :
    s.collTake p errs = s.collDo (ctSlot p) (fun t => t.collHandle (ctSlot p) p errs) := by
  have later : (s.coll (ctSlot p)).seq ≠ (s.coll (ctSlot p)).seq + 1 := by simp
  unfold State.collTake CollS.foreign at *
  grind

theorem State.collTake_early (hk : ctSlot p < 64) (crc : p.crcOk = true) (low : 1 ≤ p.op) (high : p.op < 9)
    (own : ¬(s.coll (ctSlot p)).foreign p) (next : ctSeq p = (s.coll (ctSlot p)).seq + 1) (errs : WordErrs) :
    (s.collTake p errs).coll (ctSlot p) = { s.coll (ctSlot p) with cNot := satAdd (s.coll (ctSlot p)).cNot 1 } := by
  have sent (q : Pkt) (t : State) (n : Nat) : (t.sendLoose n q true).coll (ctSlot p) = t.coll (ctSlot p) :=
    State.coll_of_colls (State.sendLoose_colls ..) _
  unfold State.collTake CollS.foreign at *
  rw [if_neg (by simp [crc]), if_neg (by grind), if_pos (by grind), sent, State.coll_updColl hk]

/-- The packets of a collective: command, CTYPE and handler (R325). -/
def collPackets : List ((Nat → Pkt → Instr) × Nat × (Nat → Pkt → State → State)) :=
  [(.upData, 1, fun k p s => s.collUp k p), (.downData, 2, fun k p s => s.collDown k p), (.chunkAck, 3, fun k p s => s.collAck k p),
    ((fun n p => .collFetch n p []), 4, fun k p s => s.collFetch k p []), (.seal, 5, fun k p s => s.collSeal k p),
    (.sealAck, 6, fun k p s => s.collSealAck k p), (.collAbortPacket, 7, fun k p s => s.collAborted k p),
    (.arrive, 8, fun k p s => s.collArrive k p), (.notStarted, 9, fun k p s => s.collRefused k p)]

/-- Each packet's command takes a packet of its CTYPE, which its handler takes. -/
theorem exec_collPacket {e : (Nat → Pkt → Instr) × Nat × (Nat → Pkt → State → State)} (he : e ∈ collPackets) (op : p.op = e.2.1) :
    1 ≤ e.2.1 ∧ e.2.1 ≤ 9 ∧ (∀ s n, exec (e.1 n p) s = .next (s.rxColl n p e.2.1 [])) ∧
      ∀ k, (fun t : State => t.collHandle k p []) = e.2.2 k p := by
  simp only [collPackets, List.mem_cons, List.not_mem_nil, or_false] at he
  rcases he with rfl | rfl | rfl | rfl | rfl | rfl | rfl | rfl | rfl <;>
    exact ⟨by decide, by decide, fun _ _ => rfl, fun k => by funext t; simp only [State.collHandle, op]⟩

/-! ### What each type finds -/

/-- A chunk of the collective in progress, changed. -/
theorem CollS.chunk_upd {c : CollS} {r : CollRun} (n : Nat) (f : CChunk → CChunk) (run : c.run = some r) :
    CollS.chunk { c with run := some { r with chunks := AMap.upd r.chunks n {} f } } n = f (c.chunk n) := by
  simp only [CollS.chunk, run, AMap.get_upd_same]

/-- A chunk with one more packet of a child, of which it had some (R334). -/
def CChunk.heard (p : Pkt) (had : BitVec 64) (x : CChunk) : CChunk := { x with
  kidGot := AMap.set x.kidGot (ctRank p) (had ||| BitVec.ofNat 64 (2 ^ ctPkt p))
  kidN := AMap.set x.kidN (ctRank p) (ctCount p), kidWire := AMap.set x.kidWire (ctRank p * 64 + ctPkt p) p.payload }

/-- A slot with no collective in progress discards. -/
theorem State.collDiscards_idle (idle : (s.coll k).run = none) :
    ∀ u ∈ [s.collUp k p, s.collDown k p, s.collAck k p, s.collSeal k p, s.collArrive k p, s.collRefused k p], u = s.collDiscard k := by
  simp only [List.mem_cons, List.not_mem_nil, or_false]
  rintro u (rfl | rfl | rfl | rfl | rfl | rfl)
  · simp [State.collUp, idle]
  · simp [State.collDown, idle]
  · simp [State.collAck, idle]
  · simp [State.collSeal, idle]
  · simp [State.collArrive, idle]
  · simp [State.collRefused, idle]

/-- Settles O35: by the check that collTake makes, then by each type. -/
theorem collectivePacketsAct : Obligations.CollectivePacketsAct := by
  unfold Obligations.CollectivePacketsAct
  refine ⟨?taken, ?up, ?fetch, ?arrive, ?idle⟩
  case taken =>
    intro e he s u n p proto op taken k c bad
    obtain ⟨low, high, ran, handles⟩ := exec_collPacket he op
    rw [ran, State.rxColl_taken proto op taken]
    rw [← op] at low high
    refine ⟨fun crc => ?_, fun crc why => ?_, fun crc own now => ?_, fun hk crc own next known => ⟨_, rfl, ?_⟩⟩
    · simp [State.collTake, crc]
    · rw [State.collTake_discards crc why]
    · rw [State.collTake_handles crc low high own now, handles]
    · rw [State.collTake_early hk crc low (by omega) own next]
      exact ⟨rfl, rfl⟩
  case up =>
    intro s k p hk c n q x had run live digest kid shape mine fresh part
    obtain ⟨r, run⟩ := Option.isSome_iff_exists.mp run
    have heard : s.collUp k p = s.updChunk k n (CChunk.heard p had) := by
      unfold State.collUp
      have run : (s.coll k).run.isNone = false := by rw [run]; rfl
      rw [if_neg (Bool.eq_false_iff.mp run), if_neg (by simpa using digest), if_neg (by rw [kid, shape, mine]; decide),
        if_neg (by simpa using ⟨fresh, live⟩), if_pos (bne_iff_ne.mpr part)]
      rfl
    have slot := State.coll_updCrun hk run (fun r => { r with chunks := AMap.upd r.chunks n {} (CChunk.heard p had) })
    refine ⟨_, heard, ?_, ?_, ?_, State.updColl_devMem ..⟩
    · rw [State.updChunk, slot, CollS.chunk_upd n _ run]
      exact AMap.get_set_same ..
    · rw [State.updChunk, slot, CollS.chunk_upd n _ run]
      exact AMap.get?_set_same ..
    · rw [State.updChunk, slot]
  case fetch =>
    intro s k p aborted
    unfold State.collFetch
    rw [if_pos (by simpa using aborted)]
  case arrive =>
    intro s k p hk c run kid digest
    obtain ⟨r, run⟩ := Option.isSome_iff_exists.mp run
    refine ⟨{ r with arrive := ((ctTree p, ctRank p) :: r.arrive).dedup }, ?_, List.mem_dedup.mpr List.mem_cons_self⟩
    have noted : s.collArrive k p = s.updCrun k (fun r => { r with arrive := ((ctTree p, ctRank p) :: r.arrive).dedup }) := by
      have run : (s.coll k).run.isNone = false := by rw [run]; rfl
      unfold State.collArrive
      rw [if_neg (by rw [run, kid]; decide), if_neg (by simpa using digest)]
    rw [noted, State.coll_updCrun hk run]
  case idle =>
    intro s k p hk idle u hu
    rw [State.collDiscards_idle idle u hu, State.coll_discard hk]
    exact ⟨rfl, rfl, s.collDiscard_devMem k⟩

end Sys2Proof.Machine
end

section
/-!
PROOFS of `Obligations.CollectiveTimersAct` (O36): the engines and timers of a collective in progress.
-/

namespace Sys2Proof.Machine

variable {s u : State} {k n : Nat}

/-- What is done to a slot counts by what it makes of the state alone. -/
theorem State.collDo_congr {f g : State → State} (same : f s = g s) : s.collDo k f = s.collDo k g := by
  unfold State.collDo; rw [same]

/-- What was read of the own contribution is taken, by the hook or as it is, or the collective aborts with SOURCE (R330, R345). -/
def State.contribTaken (s : State) (b : CBlk) (k n : Nat) : Bytes ⊕ Nat → State
  | .inr _ => s.collAbort k 29 n true
  | .inl bs =>
    if cbHookContrib b then s.updChunk k n (fun x => { x with hook := some false, pend := bs }) else s.contribute k n bs

theorem exec_collContribReady {data : Bytes} {rd : ReadEnd} {errs : WordErrs} {got : Bytes ⊕ Nat} (hk : k < 64)
    (run : (s.coll k).st = 3) (some_ : n < chunkCount (s.coll k).act (s.coll k).desc)
    (mine : contributes (s.coll k).act (s.coll k).desc (cbRank (s.coll k).act) n = true) (fresh : ((s.coll k).chunk n).own = false)
    (unhooked : ((s.coll k).chunk n).hook = none) (room : n ≤ (s.coll k).ownLimit (n % 2))
    (read : s.collRead k (fld (s.coll k).desc 351 304 + srcElem (s.coll k).act (s.coll k).desc n * elemSize (cbElem (s.coll k).act))
      (chunkElems (s.coll k).act (s.coll k).desc n * elemSize (cbElem (s.coll k).act)) errs data rd = (u, got)) :
    ∃ t : State, exec (.collContribReady k n data rd errs) s = .next t ∧ ∀ f : State → State, f s = u.contribTaken (s.coll k).act k n got → t = s.collDo k f := by
  simp only [exec, execCollContribReady]
  rw [if_pos (by simp [hk, run, some_, mine, fresh, unhooked, room])]
  refine ⟨_, rfl, fun f hf => State.collDo_congr ?_⟩
  rw [hf]
  simp only [read]
  cases got <;> rfl

/-- Settles O36: each engine and timer by its own guard. -/
theorem collectiveTimersAct : Obligations.CollectiveTimersAct := by
  unfold Obligations.CollectiveTimersAct
  refine ⟨?begins, ?ready, ?source, ?ack, ?resend, ?fetch, ?deadline, ?again⟩
  case begins =>
    intro s k armed runs due
    simp only [exec, execCollBegin]
    rw [if_pos (by simp [armed, runs, due])]
  case ready =>
    intro s u k n data bs rd errs hk c b run some_ mine fresh unhooked room plain read
    have takes : u.contribTaken b k n (.inl bs) = u.contribute k n bs := if_neg (Bool.eq_false_iff.mp plain)
    exact takes ▸ exec_collContribReady hk run some_ mine fresh unhooked room read
  case source =>
    intro s u k n st data rd errs hk c b run some_ mine fresh unhooked room read
    exact exec_collContribReady hk run some_ mine fresh unhooked room read
  case ack =>
    intro s k n q hk x had run some_ part
    obtain ⟨r, run⟩ := Option.isSome_iff_exists.mp run
    simp only [exec, execChunkAckTimer, run]
    rw [if_neg (by simpa using hk), if_pos]
    rw [Bool.and_eq_true, bne_iff_ne, bne_iff_ne]
    exact ⟨some_, part⟩
  case resend =>
    intro s k n q c dest run sent unacked
    have guard : ¬(c.st != 3 || !(c.chunk n).upSent || (c.chunk n).upAcked) = true := by simp [run, sent, unacked]
    simp only [exec, execUpResendTimer]
    rw [show (s.coll k).ackDest n = some q from dest]
    exact ⟨fun spent => congrArg _ ((if_neg guard).trans (if_pos spent)), fun left => congrArg _ ((if_neg guard).trans (if_neg (Nat.not_le.mpr left)))⟩
  case fetch =>
    intro s k n q c run source some_ open_ got
    have guard : ¬(c.st != 3 || (sourceOf c.act c.desc (cbRank c.act) n).isNone || decide (chunkCount c.act c.desc ≤ n) ||
        (c.chunk n).verified || ((c.chunk n).rGot == 0 && (c.chunk n).fetches == 0)) = true := by
      simpa [run, source, some_, open_] using fun none_got => absurd none_got got
    simp only [exec, execFetchTimer]
    exact ⟨fun spent => congrArg _ ((if_neg guard).trans (if_pos spent)), fun left => congrArg _ ((if_neg guard).trans (if_neg (Nat.not_le.mpr left)))⟩
  case deadline =>
    intro s k run
    simp only [exec, execCollDeadline, run, if_true]
  case again =>
    intro s k r n left
    have count : AMap.get (s.coll k).aborts r 0 = n := by simp [left, AMap.get, AMap.get?]
    simp only [exec, execAbortRepeat]
    rw [show AMap.keys (s.coll k).aborts = [r] by rw [left]; rfl]
    simp only [State.each, List.foldl_cons, List.foldl_nil, count]

end Sys2Proof.Machine
end

section
/-!
PROOFS of `Obligations.RepliesReachTheirSender` (O53) and `Obligations.SyncAndDoorbellWritesAct` (O37): replies over each path, and the
host's writes to sync objects and doorbell words. Both rest on what a message to the host leaves of a function.
-/

namespace Sys2Proof.Machine

variable {s t : State} {h : Issue}

/-- A command's outcome, seen as another state. -/
theorem Out.next_of {o : Out} {t u : State} (ran : o = .next t) (same : t = u) : o = .next u := ran.trans (congrArg _ same)

/-! ### What a host request and a message leave of the functions (R394, R395) -/

@[simp] theorem State.issueReq_funcs (s : State) (r : HReq) : (s.issueReq r).funcs = s.funcs := by
  simp [State.issueReq, State.onIf, State.cntHost, apply_ite State.funcs]

@[simp] theorem State.hostReq_funcs (s : State) (r : HReq) : (s.hostReq r).funcs = s.funcs := by
  unfold State.hostReq State.onIf
  dsimp only
  repeat' split
  all_goals simp [State.cntHost]

@[simp] theorem State.hostWrite_funcs (s : State) (p a : Nat) (bs : Bytes) : (s.hostWrite p a bs).funcs = s.funcs := by
  unfold State.hostWrite
  split <;> simp

/-- A function without the messages that wait in it. -/
def FuncS.calm (f : FuncS) : FuncS := { f with msixPend := [] }

/-- From `s` to `t` the functions change at most in the messages that wait. -/
def Calm (s t : State) : Prop := ∀ p, (t.func p).calm = (s.func p).calm

theorem Calm.refl (s : State) : Calm s s := fun _ => rfl

theorem Calm.of_funcs (same : t.funcs = s.funcs) : Calm s t := fun p => by rw [State.func, same]; rfl

theorem Calm.trans {u : State} (a : Calm s t) (b : Calm t u) : Calm s u := fun p => (b p).trans (a p)

theorem State.func_updFunc (s : State) (p q : Nat) (f : FuncS → FuncS) :
    (s.updFunc p f).func q = if q = p then f (s.func p) else s.func q := AMap.get_upd ..

theorem State.msix_calm (s : State) (p v : Nat) : Calm s (s.msix p v) := by
  unfold State.msix
  dsimp only
  repeat' split
  · exact .refl s
  · intro q
    rw [State.func_updFunc]
    split
    · next same => rw [same]; rfl
    · rfl
  · exact .of_funcs (by simp)

/-- A message changes no other function. -/
theorem State.func_msix_other (s : State) {p q : Nat} (other : q ≠ p) (v : Nat) : (s.msix p v).func q = s.func q := by
  unfold State.msix
  dsimp only
  repeat' split
  · rfl
  · rw [State.func_updFunc, if_neg other]
  · rw [State.func, State.hostReq_funcs]; rfl

theorem State.ringPi_calm (s : State) (k : Nat) (pi : BitVec 32) : Calm s (s.ringPi k pi) := by
  unfold State.ringPi State.ringNotify
  dsimp only
  split
  · exact (Calm.of_funcs (by simp)).trans (State.msix_calm _ _ _)
  · exact .of_funcs (by simp)

theorem State.ringPutNow_calm (s : State) (k : Nat) (e : BitVec 512) : Calm s (s.ringPutNow k e) := by
  unfold State.ringPutNow
  dsimp only
  split
  · exact (Calm.of_funcs (by simp)).trans (State.ringPi_calm _ _ _)
  · exact .of_funcs (by simp [State.hostFlush])

theorem State.putEvent_calm (s : State) (k : Nat) (e : BitVec 512) : Calm s (s.putEvent k e).1 := by
  unfold State.putEvent
  split
  · exact .refl s
  · split
    · exact .refl s
    · exact s.ringPutNow_calm k e

/-! ### Replies (R361, R366, R426, R428) -/

/-- Entries of given keys, without the zero ones, read the same. -/
theorem AMap.get_keep_nonzero {w : Nat} (g : Nat → BitVec w) (ks : Nats) {i : Nat} (hi : i ∈ ks) :
    AMap.get (AMap.keep (ks.map fun i => (i, g i)) fun _ v => v != 0) i 0 = g i := by
  have all : ∀ ks : Nats, AMap.get (AMap.keep (ks.map fun i => (i, g i)) fun _ v => v != 0) i 0 = if i ∈ ks then g i else 0 := by
    intro ks
    induction ks with
    | nil => rfl
    | cons j ks ih =>
      have kept : AMap.keep ((j :: ks).map fun i => (i, g i)) (fun _ v => v != 0) =
          if g j = 0 then AMap.keep (ks.map fun i => (i, g i)) fun _ v => v != 0
          else (j, g j) :: AMap.keep (ks.map fun i => (i, g i)) fun _ v => v != 0 := by
        by_cases zero : g j = 0 <;> simp [AMap.keep, List.filter_cons, zero]
      rw [kept]
      by_cases zero : g j = 0
      · rw [if_pos zero, ih]
        by_cases here : i = j
        · simp [here, zero]
        · simp [here]
      · rw [if_neg zero]
        by_cases here : j = i
        · simp [AMap.get, AMap.get?, here]
        · have skip : AMap.get ((j, g j) :: AMap.keep (ks.map fun i => (i, g i)) fun _ v => v != 0) i 0 =
              AMap.get (AMap.keep (ks.map fun i => (i, g i)) fun _ v => v != 0) i 0 := by simp [AMap.get, AMap.get?, here]
          rw [skip, ih]
          simp [Ne.symm here]
  rw [all, if_pos hi]

/-- Words of 32 bits add up to what they are taken from. -/
theorem foldl_words (x n : Nat) :
    (List.range n).foldl (fun a i => a + x / 2 ^ (32 * i) % 2 ^ 32 * 2 ^ (32 * i)) 0 = x % 2 ^ (32 * n) := by
  induction n with
  | zero => simp [Nat.mod_one]
  | succ n ih =>
    rw [List.range_succ, List.foldl_append, ih, Nat.mul_succ, Nat.pow_add, Nat.mod_mul, Nat.mul_comm (2 ^ (32 * n))]
    rfl

/-- The eight words of a reply packed again are the reply. -/
theorem pack_words (r : BitVec 256) :
    pack 256 ((List.range 8).map fun i => (32 * i + 31, 32 * i, (BitVec.ofNat 32 (fld r (32 * i + 31) (32 * i))).toNat)) = r := by
  have width (i : Nat) : 32 * i + 31 + 1 - 32 * i = 32 := by omega
  apply BitVec.eq_of_toNat_eq
  simp only [pack, List.foldl_map, fld, width, BitVec.toNat_ofNat, Nat.mod_mod]
  rw [foldl_words, Nat.mod_mod, Nat.mod_eq_of_lt r.isLt]

/-- Bits set in DB_A2H; a message may wait or go (R364). -/
theorem State.setA2H_calm (s : State) (p : Nat) (bits : BitVec 32) :
    Calm (s.updFunc p fun f => { f with dbA2H := f.dbA2H ||| bits }) (s.setA2H p bits) := by
  unfold State.setA2H State.onIf
  dsimp only
  split
  · exact State.msix_calm _ _ _
  · exact .refl _

theorem State.func_setA2H_other (s : State) {p q : Nat} (other : q ≠ p) (bits : BitVec 32) : (s.setA2H p bits).func q = s.func q := by
  unfold State.setA2H State.onIf
  dsimp only
  split
  · rw [State.func_msix_other _ other, State.func_updFunc, if_neg other]
  · rw [State.func_updFunc, if_neg other]

/-- The words of a reply as a mailbox keeps them. -/
def replyWords (r : BitVec 256) : AMap (BitVec 32) :=
  AMap.keep ((List.range 8).map fun i => (i, BitVec.ofNat 32 (fld r (32 * i + 31) (32 * i)))) fun _ v => v != 0

/-- A function with a reply in its mailbox, and bit 31 of DB_A2H (R361, R366). -/
def FuncS.answered (f : FuncS) (r : BitVec 256) : FuncS := { f with
  mbox := { f.mbox with data := replyWords r, go := false }
  dbA2H := f.dbA2H ||| 0x80000000#32 }

theorem State.replyMbox_func (s : State) (p : Nat) (r : BitVec 256) :
    ((s.replyMbox p r).func p).calm = ((s.func p).answered r).calm := by
  unfold State.replyMbox
  rw [State.setA2H_calm, State.func_updFunc_same, State.func_updFunc_same]
  rfl

theorem Mbox.reply_of_words {m : Mbox} {r : BitVec 256} (words : m.data = replyWords r) : m.reply = r := by
  rw [Mbox.reply, words, ← pack_words r]
  congr 1
  refine List.map_congr_left fun i hi => ?_
  rw [replyWords, pack_words, AMap.get_keep_nonzero _ _ hi]

/-- Settles O53: each path in turn. -/
theorem repliesReachTheirSender : Obligations.RepliesReachTheirSender := by
  unfold Obligations.RepliesReachTheirSender
  have empty (h : Issue) : replyData h (resultBytes []) = (0, []) := rfl
  refine ⟨?mailbox, ?oob, ?admin, ?short, ?long⟩
  case mailbox =>
    intro s h op a final path items
    have sent : s.answer h op a final = s.replyMbox h.part (replyBits op h.tag a.status a.index a.reason a.permille a.position 0 final) := by
      simp [State.answer, State.sendReply, State.paid, State.hostWrite, path, items, empty]
    have own := s.replyMbox_func h.part (replyBits op h.tag a.status a.index a.reason a.permille a.position 0 final)
    refine ⟨_, sent, Mbox.reply_of_words ?_, ?_, ?_, fun p other => ?_, sent ▸ ((Aside.refl s).answer h op a final).1⟩
    · exact congrArg (fun f : FuncS => f.mbox.data) own
    · exact congrArg (fun f : FuncS => f.mbox.go) own
    · have bits := congrArg FuncS.dbA2H own
      simp only [FuncS.calm, FuncS.answered] at bits
      simp [bits, bitAt]
    · rw [State.replyMbox, State.func_setA2H_other _ other, State.func_updFunc, if_neg other]
  case oob =>
    intro s h op seq a final path
    refine ⟨_, rfl, ?_, ((Aside.refl s).answer h op a final).1⟩
    simp [State.answer, State.sendReply, State.paid, path, State.replyOob]
  case admin =>
    intro s h op a final path items
    simp [State.answer, State.sendReply, State.hostWrite, path, items, empty]
  case short =>
    intro h res short
    exact if_pos short
  case long =>
    intro h res long ind
    rw [replyData, if_neg (Nat.not_le.mpr long), if_pos ind]

/-! ### Sync objects written by the host (R352, R353, R355, R356) -/

/-- A host waiter that its value has reached is disarmed; no object changes otherwise. -/
theorem State.hostWaiter_sync (s : State) (k : Nat) (v : BitVec 64) : (s.hostWaiter k v).sync =
    if (s.obj k).armed = true ∧ (s.obj k).thresh.toNat ≤ v.toNat then (s.updObj k fun o => { o with armed := false }).sync else s.sync := by
  have posted (t : State) (p : Nat) (e : Option Nat) (w : Nat → BitVec 512) :
      ((match e with | some q => t.putEvent q (w q) | none => (t, false)).1.onIf
        (!(match e with | some q => t.putEvent q (w q) | none => (t, false)).2)
        (fun t => t.updPart p (fun x => { x with syncLost := satAdd x.syncLost 1 }))).sync = t.sync := by
    have event : (match e with | some q => t.putEvent q (w q) | none => (t, false)).1.sync = t.sync := by
      cases e
      · rfl
      · exact ((Aside.refl t).putEvent _ _).fld State.sync fun _ => rfl
    have counted (u : State) (b : Bool) : (u.onIf b fun t => t.updPart p (fun x => { x with syncLost := satAdd x.syncLost 1 })).sync = u.sync := by
      cases b <;> rfl
    exact (counted _ _).trans event
  unfold State.hostWaiter
  dsimp only
  simp only [Bool.and_eq_true, decide_eq_true_eq]
  split
  · split
    · rfl
    · exact posted _ _ _ _
  · rfl

theorem State.obj_of_sync (same : t.sync = s.sync) (k : Nat) : t.obj k = s.obj k := by rw [State.obj, same]; rfl

/-- An armed waiter keeps its threshold, and stays armed while the value is below it (R356). -/
theorem State.armWaiter_obj (s : State) (k : Nat) (v : BitVec 64) : (s.armWaiter k v).obj k =
    { s.obj k with thresh := v, armed := decide ((s.obj k).val.toNat < v.toNat) } := by
  have read : (s.updObj k fun o => { o with armed := true, thresh := v }).obj k = { s.obj k with armed := true, thresh := v } := by
    rw [State.updObj_obj, if_pos rfl]
  unfold State.armWaiter
  by_cases reached : v.toNat ≤ (s.obj k).val.toNat
  · rw [State.obj_of_sync (s := (s.updObj k fun o => { o with armed := true, thresh := v }).updObj k fun o => { o with armed := false })
      ((State.hostWaiter_sync ..).trans (if_pos (by rw [read]; exact ⟨rfl, reached⟩)))]
    rw [State.updObj_obj, if_pos rfl, read]
    simp [Nat.not_lt.mpr reached]
  · rw [State.obj_of_sync ((State.hostWaiter_sync ..).trans (if_neg (by rw [read]; exact fun c => reached c.2))), read]
    simp [Nat.lt_of_not_le reached]

/-- A write to a sync doorbell takes effect at the object that its index names (R352, R357). -/
theorem State.syncDb_of_item {p i o : Nat} {f : Nat → State → State} (opened : s.barOpen p = true)
    (item : Ranges.item (s.leaveIdle.part p).syncs i = some o) : s.syncDb p i f = f o s.leaveIdle := by
  rw [State.syncDb, State.barDo_of_open opened]
  simp only [item]

theorem State.syncDb_refused {p i : Nat} {f : Nat → State → State} (opened : s.barOpen p = true)
    (outside : Ranges.item (s.leaveIdle.part p).syncs i = none) :
    s.syncDb p i f = s.leaveIdle.updPart p (fun q => { q with syncRefused := satAdd q.syncRefused 1 }) := by
  rw [State.syncDb, State.barDo_of_open opened]
  simp only [outside]

/-! ### Doorbell words (R364-R366) -/

theorem State.noteH2A_calm (s : State) (p : Nat) (bits : BitVec 32) : Calm s (s.noteH2A p bits) := by
  unfold State.noteH2A
  repeat' split
  · exact .refl s
  · exact s.putEvent_calm _ _
  · exact .refl s

theorem State.maskH2A_calm (s : State) (p : Nat) (mask : BitVec 32) :
    Calm (s.updFunc p fun f => { f with h2aMask := mask }) (s.maskH2A p mask) := State.noteH2A_calm _ _ _

theorem Aside.noteH2A (p : Nat) (bits : BitVec 32) (h : Aside s t) : Aside s (t.noteH2A p bits) := by
  unfold State.noteH2A
  repeat' split
  · exact h
  · exact h.putEvent _ _
  · exact h

theorem State.maskA2H_calm (s : State) (p : Nat) (mask : BitVec 32) :
    Calm (s.updFunc p fun f => { f with dbA2HMask := mask }) (s.maskA2H p mask) := by
  unfold State.maskA2H State.onIf
  dsimp only
  split
  · exact State.msix_calm _ _ _
  · exact .refl _

theorem Aside.maskA2H (p : Nat) (mask : BitVec 32) (h : Aside s t) : Aside s (t.maskA2H p mask) := by
  unfold State.maskA2H
  exact (h.updFunc _ _).onIf fun _ => (Aside.refl _).msix _ _

/-- A function changed and told of: it reads as changed, but for messages that wait. -/
theorem Calm.func_of_upd {p : Nat} {f : FuncS → FuncS} (calm : Calm (s.updFunc p f) t) : (t.func p).calm = (f (s.func p)).calm := by
  rw [calm, State.func_updFunc_same]

/-- The other functions, and everything but the functions, where one function is changed. -/
theorem State.updFunc_only (s : State) (p : Nat) (f : FuncS → FuncS) : (s.updFunc p f).func p = f (s.func p) ∧
    (∀ q, q ≠ p → (s.updFunc p f).func q = s.func q) ∧ { s.updFunc p f with funcs := s.funcs } = s :=
  ⟨s.func_updFunc_same p f, fun q other => by rw [State.func_updFunc, if_neg other], rfl⟩

theorem exec_mgr {p : Nat} {f : State → State} (opened : s.barOpen 0 = true) (low : 1 ≤ p) (high : p ≤ 63) :
    s.onIf (isTenant p) (fun s => s.barDo 0 f) = f s := by
  have tenant : isTenant p = true := by simp [isTenant]; omega
  rw [State.onIf, if_pos tenant, State.barDo_of_open opened]

/-- Settles O37: sync doorbells by the object they name, doorbell words by the function they belong to. -/
theorem syncAndDoorbellWritesAct : Obligations.SyncAndDoorbellWritesAct := by
  unfold Obligations.SyncAndDoorbellWritesAct
  refine ⟨?object, ?outside, ?closed, ?words, ?manager⟩
  case object =>
    intro s p i o v opened item
    refine ⟨⟨_, Out.next_of rfl (State.syncDb_of_item opened item), State.syncPut_obj _ o _⟩,
      ⟨_, Out.next_of rfl (State.syncDb_of_item opened item), State.syncPut_obj _ o _⟩,
      ⟨_, Out.next_of rfl (State.syncDb_of_item opened item), ?_⟩⟩
    rw [State.armWaiter_obj]
    exact ⟨rfl, rfl, rfl⟩
  case outside =>
    intro s p i v opened item c hc
    simp only [List.mem_cons, List.not_mem_nil, or_false] at hc
    rcases hc with rfl | rfl | rfl <;> exact Out.next_of rfl (State.syncDb_refused opened item)
  case closed =>
    intro s p i v closed c hc
    simp only [List.mem_cons, List.not_mem_nil, or_false] at hc
    rcases hc with rfl | rfl | rfl | rfl | rfl | rfl <;> exact Out.next_of rfl (State.barDo_of_closed closed _)
  case words =>
    intro s p w opened hp
    refine ⟨fun tenant => ⟨_, Out.next_of rfl (State.barDo_of_open opened _), ?_, ?_⟩,
      ⟨_, Out.next_of rfl (State.barDo_of_open opened _), State.updFunc_only ..⟩, ⟨_, Out.next_of rfl (State.barDo_of_open opened _), ?_, ?_, ?_⟩⟩
    · rw [State.setH2A, if_neg tenant]
      exact congrArg FuncS.dbH2A (State.noteH2A_calm _ _ _).func_of_upd
    · rw [State.setH2A, if_neg tenant]
      exact (((Aside.refl s).updFunc _ _).noteH2A _ _).1
    · exact congrArg FuncS.dbA2HMask (State.maskA2H_calm s p w).func_of_upd
    · have kept := congrArg FuncS.dbA2H (State.maskA2H_calm s p w).func_of_upd
      exact kept
    · exact ((Aside.refl s).maskA2H p w).1
  case manager =>
    intro s p w opened low high
    refine ⟨⟨_, Out.next_of rfl (exec_mgr opened low high), State.updFunc_only ..⟩, ⟨_, Out.next_of rfl (exec_mgr opened low high), ?_, ?_, ?_⟩,
      ⟨_, Out.next_of rfl (exec_mgr opened low high), ?_, ?_⟩⟩
    · exact congrArg FuncS.h2aMask (s.maskH2A_calm p w).func_of_upd
    · have kept := congrArg FuncS.dbH2A (s.maskH2A_calm p w).func_of_upd
      exact kept
    · exact (((Aside.refl s).updFunc _ _).noteH2A _ _).1
    · exact congrArg FuncS.dbA2H (State.setA2H_calm _ _ _).func_of_upd
    · exact ((Aside.refl s).setA2H _ _).1

end Sys2Proof.Machine
end

section
/-!
PROOFS of `Obligations.TapeAndBookingCommandsReply` (O10) and `Obligations.PpsOutFollowsTheTape` (O58): the commands of the tape and of
booked slots, and the pulse.
-/

namespace Sys2Proof.Machine

variable {s : State}

theorem State.part_updEvent (s : State) (p k : Nat) (f : Event → Event) :
    (s.updEvent p k f).part p = { s.part p with events := AMap.upd (s.part p).events k {} f } := State.part_updPart_same ..

/-- An event that is cancelled is not armed, every other event and partition is as before (R377). -/
theorem State.cancelEvent_spec (s : State) (p k : Nat) :
    let t := if (AMap.get (s.part p).events k {}).armed then s.updEvent p k (fun e => { e with armed := false }) else s
    { t with parts := s.parts } = s ∧ (AMap.get (t.part p).events k {}).armed = false ∧
      (∀ e, e ≠ k → AMap.get (t.part p).events e {} = AMap.get (s.part p).events e {}) ∧ ∀ q, q ≠ p → t.part q = s.part q := by
  intro t
  cases armed : (AMap.get (s.part p).events k {}).armed with
  | false =>
    have same : t = s := if_neg (Bool.eq_false_iff.mp armed)
    rw [same]
    exact ⟨rfl, armed, fun _ _ => rfl, fun _ _ => rfl⟩
  | true =>
    have changed : t = s.updEvent p k (fun e => { e with armed := false }) := if_pos armed
    rw [changed, State.part_updEvent]
    refine ⟨rfl, ?_, fun e other => ?_, fun q other => State.part_updPart_other s other _⟩
    · rw [AMap.get_upd_same]
    · dsimp only
      rw [AMap.get_upd, if_neg other]

/-- Settles O10: the tape and booking commands, by what each body does on a request that passes. -/
theorem tapeAndBookingCommandsReply : Obligations.TapeAndBookingCommandsReply := by
  unfold Obligations.TapeAndBookingCommandsReply
  refine ⟨?second, ?event, ?cancel, ?write, ?stitch, ?query⟩
  case second =>
    intro s h sec ok source
    exact exec_answers rfl ok (by simp [source]) rfl
  case event =>
    intro s h ev atNs period op index value ok slot low known item
    have item : (Ranges.item (s.part h.part).syncs index).isNone = false := by
      rw [Option.isNone_eq_false_iff]; exact item
    have bad : ¬(63 < ev ∨ 1000000 < period ∨ 1 < op) := by omega
    refine exec_answers rfl ok ?_ rfl
    simp only [item, Bool.or_false, Bool.or_eq_true, decide_eq_true_eq, or_assoc, bad, if_false]
    rfl
  case cancel =>
    intro s h ev ok slot
    have slot : ¬63 < ev := by omega
    refine ⟨if (AMap.get (s.part h.part).events ev {}).armed then s.updEvent h.part ev (fun e => { e with armed := false }) else s,
      exec_answers (a := Ans.ok _) rfl ok ?_ rfl, s.cancelEvent_spec h.part ev⟩
    exact if_neg slot
  case write =>
    intro s h port cycle bits ok hp low high
    have bad : ¬(cycle = 0 ∨ 4096 < cycle ∨ 31 < port) := by omega
    refine exec_answers rfl ok ?_ rfl
    simp only [Bool.or_eq_true, decide_eq_true_eq, or_assoc, bad, if_false]
  case stitch =>
    intro s h at_ mask ok some_ free room t
    have free : ((portsOf mask).any fun n => (s.port n).bookAt.isSome) = false :=
      List.any_eq_false.mpr fun n hn => by simp [free n hn]
    refine congrArg _ (vuino_begins (a := Ans.wait t) ok ?_ rfl (by decide) room)
    simp only [some_, free, if_false, Bool.false_eq_true, t]
  case query =>
    intro s h port copy ok hp known b
    have bad : ¬(31 < port ∨ 1 < copy) := by omega
    refine exec_answers rfl ok ?_ rfl
    simp only [Bool.or_eq_true, decide_eq_true_eq, bad, if_false, b]

/-- Settles O58: PPS_OUT is computed from the tape alone. -/
theorem ppsOutFollowsTheTape : Obligations.PpsOutFollowsTheTape := by
  unfold Obligations.PpsOutFollowsTheTape
  refine fun s => ⟨_, rfl, rfl, fun runs state => ?_, fun state => ?_⟩
  · rcases state with state | state <;> simp [runs, state]
  · have low : (s.tape.state == 2 || s.tape.state == 3) = false := by simpa using state
    simp only [low, Bool.and_false, Bool.false_and]

end Sys2Proof.Machine
end

section
/-!
PROOFS of `Obligations.TapeEventsAct` (O38): the tape's own events.
-/

namespace Sys2Proof.Machine

variable {s t : State}

/-! ### The tape's state and view (R369, R372) -/

theorem State.tapeView_only (s : State) : { s.tapeView with tape := s.tape } = s := rfl

/-- Following a source keeps the state, the time and the port that is followed in band. -/
theorem State.tapeView_tape (s : State) : s.tapeView.tape.state = s.tape.state ∧ s.tapeView.tape.ns = s.tape.ns ∧
    s.tapeView.tape.better = s.tape.better ∧ (s.inBand = true → s.tapeView.tape.upstream = s.tape.upstream) := by
  unfold State.tapeView State.updTape
  dsimp only
  split
  · split <;> simp
  · next out => exact ⟨rfl, rfl, rfl, fun c => absurd c out⟩

/-- A record on the tape changes nothing beyond the host's side. -/
theorem State.tapeRec_aside (s : State) (r : Nat) (d : Int) : Aside s (s.tapeRec r d) := (Aside.refl s).postRec _

/-! ### Events (R377) -/

/-- A value put into a sync object leaves the events of every partition. -/
theorem State.syncPut_events (s : State) (o : Nat) (v : BitVec 64) (p : Nat) : ((s.syncPut o v).part p).events = (s.part p).events := by
  unfold State.syncPut
  obtain ⟨u, same, -, events⟩ := ((s.updObj o fun x => { x with val := v }).needleWaiters o v).hostWaiter_obj o v
  rw [events]
  have parts : u.parts = s.parts := by
    rcases same with rfl | rfl <;> rfl
  rw [State.part, parts]
  rfl

/-- An event that is due acts on its object (R377). -/
theorem State.eventFire_eq {p o : Nat} {e : Event} (item : Ranges.item (s.part p).syncs e.index = some o) :
    s.eventFire p e = s.leaveIdle.syncPut o (if e.set then e.value else (s.obj o).val + e.value) := by
  have parts : s.leaveIdle.parts = s.parts := by unfold State.leaveIdle State.onIf; split <;> rfl
  have sync : s.leaveIdle.sync = s.sync := by unfold State.leaveIdle State.onIf; split <;> rfl
  have here : Ranges.item (s.leaveIdle.part p).syncs e.index = some o := by rw [State.part, parts]; exact item
  unfold State.eventFire
  simp only [here]
  split
  · rfl
  · rw [State.syncAdd, State.obj, sync]; rfl

/-! ### Booked slots (R375) -/

/-- A port at the boundary of a booked slot. -/
def PortS.slotBoundary (locked : Bool) (slot : Nat) (p : PortS) : PortS := { p with
  bookSusp := p.bookSusp || !locked
  vc0Open := !(p.bookSusp || !locked) && p.bookAct.cycle != 0 && p.bookAct.bits.testBit (slot % max 1 p.bookAct.cycle) }

theorem exec_bookSlotBoundary (s : State) : exec .bookSlotBoundary s =
    .next (s.each ((List.range 32).filter fun n => (s.port n).bookAct.cycle != 0 || (s.port n).vc0Open)
      fun n t => t.updPort n (PortS.slotBoundary (s.tape.state == 2) (s.now.toNat / 2000))) := rfl

/-- A port with a booking changes once. -/
theorem State.port_slotBoundary {n : Nat} (hn : n < 32) (booked : (s.port n).bookAct.cycle ≠ 0) (locked : Bool) (slot : Nat) :
    (s.each ((List.range 32).filter fun n => (s.port n).bookAct.cycle != 0 || (s.port n).vc0Open)
      fun n t => t.updPort n (PortS.slotBoundary locked slot)).port n = (s.port n).slotBoundary locked slot := by
  have once := State.each_once (k := n) (view := State.port) (f := fun n t => t.updPort n (PortS.slotBoundary locked slot))
    (change := fun j p => if j < 32 then p.slotBoundary locked slot else p)
    (ks := (List.range 32).filter fun n => (s.port n).bookAct.cycle != 0 || (s.port n).vc0Open)
    (fun j x => by rw [State.port_updPort]; simp) (fun j i x other => by rw [State.port_updPort]; simp [other])
    (List.nodup_range.filter _) (by simp [hn, booked]) s
  rw [once, if_pos hn]

/-- Where only ports change, everything else is as before. -/
theorem State.each_updPort_only (s : State) (ks : Nats) (f : Nat → PortS → PortS) :
    { s.each ks (fun n t => t.updPort n (f n)) with ports := s.ports } = s := by
  refine State.each_keeps (P := fun t => { t with ports := s.ports } = s) (fun n _ t only => ?_) rfl
  unfold State.updPort
  split
  · exact only
  · exact only

/-! ### Messages of the PTP (R374) -/

theorem State.macOn_of_ptpMine {m : PtpMsg} (mine : s.ptpMine m = true) : s.macOn = true := by
  simp only [State.ptpMine, Bool.and_eq_true, and_assoc] at mine
  exact mine.1

/-- A general message of the master that this adapter follows, other than an Announce. -/
theorem exec_ptpGeneral {m : PtpMsg} (mine : s.ptpMine m = true) (kind : m.kind ≠ 11) :
    exec (.ptpGeneralMessage m) s = .next (let s := s.cntMgmt 1 1
      match m.kind with
      | 8 => match s.tape.ptpWait with
        | some (t2, q) => if q.toNat = m.seq then s.ptpSync m.time t2 m.correction else s
        | none => s
      | 9 =>
        let t := s.tape
        let d : Int := ((t.ptpT2.toNat : Int) - t.ptpT1.toNat + (m.time.toNat - t.ptpT3.toNat)) * 65536 - m.correction
        s.updTape (fun t => { t with ptpDelay := d / 2 })
      | _ => s) := by
  have taken : ¬(!(s.cntMgmt 1 1).ptpMine m) = true := by simp only [show (s.cntMgmt 1 1).ptpMine m = true from mine]; decide
  have other : ¬(decide (m.kind = 11) && (s.cntMgmt 1 1).macOn && (s.cntMgmt 1 1).straps.tapeSrc == 0 &&
      m.domain == (s.cntMgmt 1 1).tape.ptpDomain.toNat) = true := by simp [kind]
  simp only [exec, execPtpGeneralMessage, State.macOn_of_ptpMine mine, State.onIf, if_true]
  exact congrArg _ ((if_neg other).trans (if_neg taken))

/-- Settles O38: the tape's events, each by its own guard. -/
theorem tapeEventsAct : Obligations.TapeEventsAct := by
  unfold Obligations.TapeEventsAct
  refine ⟨?loss, ?holdover, ?upstream, ?due, ?slots, ?pps, ?sync, ?follow, ?delay⟩
  case loss =>
    intro s source
    have source : (s.straps.tapeSrc == 3) = false := beq_false_of_ne source
    refine ⟨fun locked => ?_, fun acquiring => ?_⟩
    · simp only [exec, execTapeLossTimeout, source, locked]
      rfl
    · simp only [exec, execTapeLossTimeout, source, acquiring]
      rfl
  case holdover =>
    intro s holds
    have aside := (s.tapeTo 4).tapeRec_aside 3 0
    have tape := aside.fld State.tape fun _ => rfl
    obtain ⟨state, ns, -⟩ := (s.updTape fun t => { t with state := 4 }).tapeView_tape
    refine ⟨(s.tapeTo 4).tapeRec 3 0, by simp [exec, execHoldoverExpiry, holds], ?_, ?_, ?_⟩
    · rw [tape]; exact state
    · rw [tape]; exact ns
    · exact congrArg (fun u : State => { u with tape := s.tape }) aside.1
  case upstream =>
    intro s n inband better best hn
    obtain ⟨-, -, view, followed⟩ := (s.updTape fun t => { t with upstream := BitVec.ofNat 8 n, better := none }).tapeView_tape
    exact ⟨_, by simp only [exec, execUpstreamSwitch, better, inband, best, beq_self_eq_true, Bool.and_self, if_true], followed inband, view, rfl⟩
  case due =>
    intro s p k o hp runs e due item
    obtain ⟨own, others⟩ := s.leaveIdle.syncPut_obj o (if e.set then e.value else (s.obj o).val + e.value)
    have idle : s.leaveIdle.parts = s.parts ∧ s.leaveIdle.sync = s.sync := by
      unfold State.leaveIdle State.onIf; split <;> exact ⟨rfl, rfl⟩
    refine ⟨(s.leaveIdle.syncPut o (if e.set then e.value else (s.obj o).val + e.value)).updEvent p k Event.next, ?_, own, ?_, fun q other => ?_⟩
    · simp only [exec, execTapeEventDue, runs, Bool.true_and]
      rw [if_pos due, State.eventFire_eq item]
    · rw [State.part_updEvent]
      dsimp only
      rw [AMap.get_upd_same, State.syncPut_events, State.part, idle.1]
      rfl
    · exact (others q other).trans (by rw [State.obj, idle.2]; rfl)
  case slots =>
    intro s
    refine ⟨_, exec_bookSlotBoundary s, s.each_updPort_only _ _, fun n hn booked => ⟨fun unlocked => ?_, fun locked live => ?_⟩⟩
    · rw [State.port_slotBoundary hn booked, beq_false_of_ne unlocked]
      simp [PortS.slotBoundary]
    · have max_ : max 1 (s.port n).bookAct.cycle = (s.port n).bookAct.cycle := by omega
      rw [State.port_slotBoundary hn booked, locked]
      simp [PortS.slotBoundary, live, booked, max_]
  case pps =>
    intro s k source runs named
    simp only [exec, execPpsEdge, source, runs, named]
    rfl
  case sync =>
    intro s m mine kind u
    have mac := State.macOn_of_ptpMine mine
    have taken : ¬(!u.ptpMine m) = true := by simp only [show u.ptpMine m = true from mine]; decide
    simp only [exec, execPtpEventMessage, mac, State.onIf, kind, if_true]
    exact ⟨fun two => congrArg _ ((if_neg taken).trans (if_pos two)),
      fun one => congrArg _ ((if_neg taken).trans (if_neg (Bool.eq_false_iff.mp one)))⟩
  case follow =>
    intro s m t2 q mine wait same kind
    rw [exec_ptpGeneral mine (by rw [kind]; decide)]
    simp only [kind, show (s.cntMgmt 1 1).tape.ptpWait = some (t2, q) from wait, same, if_true]
  case delay =>
    intro s m mine kind
    rw [exec_ptpGeneral mine (by rw [kind]; decide)]
    simp only [kind]
    exact ⟨_, rfl, rfl, rfl⟩

end Sys2Proof.Machine
end

section
/-!
PROOFS of `Obligations.HostLinkEventsAct` (O41): the host link, its reads, shared lines and enables.
-/

namespace Sys2Proof.Machine

variable {s : State}

/-! ### Helpers -/

theorem State.onIf_true (s : State) (f : State → State) : s.onIf true f = f s := rfl

/-- A link that is up goes down, and a ride-through begins (R397). -/
theorem State.linkDown_up (up : s.host.up = true) : s.linkDown =
    s.updHost (fun h => { h with up := false, riding := true, rideNs := s.clockNs, reissue := s.nonPosted }) := by
  rw [State.linkDown, up, State.onIf_true]

/-- A line that arrives where nobody else waits for anything is Shared (R388). -/
theorem exec_cacheGo {a : Nat} {data : Bytes} {c : CLine} (line : AMap.get? s.host.cache (a / 64 * 64) = some c) (asked : c.st = 0)
    (plain : c.merge = []) (reads : s.host.reads = []) (waits : s.host.waits = []) (xfers : s.xfers = []) (conns : s.conns = []) :
    exec (.cacheGo a data) s = .next (s.updHost fun h => { h with
      cache := AMap.set h.cache (a / 64 * 64) { c with st := 1, data := padTo 64 data, used := s.nextId } }) := by
  have filled : s.lineFill (a / 64 * 64) data = s.updHost fun h => { h with
      cache := AMap.set h.cache (a / 64 * 64) { c with st := 1, data := padTo 64 data, used := s.nextId } } := by
    simp [State.lineFill, line, asked, plain, reads]
  simp only [exec, execCacheGo, filled, State.updHost, waits, reads, xfers, conns]
  rfl

/-- Bit 0 of a field of one bit set to 0. -/
theorem bitAt_setFld_zero (b : BitVec 32) : bitAt (setFld b 0 0 0) 0 = false := by
  simp only [bitAt, setFld, fld, BitVec.getLsbD_ofNat, Nat.testBit_zero]
  simp
  omega

/-- A vector with no message waiting sends none when it is unmasked (R394). -/
theorem State.msixRelease_idle {p v : Nat} (idle : (s.func p).msixPend.contains v = false) : s.msixRelease p v = s := by
  unfold State.msixRelease
  simp only [idle, Bool.and_false, Bool.false_eq_true, if_false]

/-- A function with one vector's mask cleared (R394). -/
def FuncS.unmask (v : Nat) (f : FuncS) : FuncS := { f with msix := AMap.upd f.msix v {} (fun e => { e with ctl := setFld e.ctl 0 0 0 }) }

/-- Settles O41: each event of the host link by its own guard. -/
theorem hostLinkEventsAct : Obligations.HostLinkEventsAct := by
  unfold Obligations.HostLinkEventsAct
  refine ⟨?down, ?up, ?back, fun _ => rfl, ?loop, ?timer, fun _ => rfl, ?assert, ?release, ?flush, ?read, ?failed, ?line, ?snoop,
    fun _ _ => ⟨_, rfl, rfl, rfl⟩, ?master, ?unmask⟩
  case down =>
    intro s up
    exact ⟨_, Out.next_of rfl (State.linkDown_up up), rfl, rfl, rfl, rfl, rfl⟩
  case up =>
    intro s width speed down perst rides wide fast
    have whole : (decide (width < 16) || decide (speed < 7)) = false := by simp; omega
    have ran : exec (.dataLinkUp width speed) s = .next (({ s with pins := { s.pins with refclkOk := true } } : State).updHost fun h => { h with
        up := true, loopback := false, width := BitVec.ofNat 5 width, speed := BitVec.ofNat 4 speed }) := by
      simp only [exec, execDataLinkUp, down, perst, rides, State.linkRate, whole, State.onIf_false]
      rfl
    exact ⟨_, ran, rfl, rfl, rfl⟩
  case back =>
    intro s width speed down perst rides
    simp only [exec, execDataLinkUp, down, perst, rides]
    rfl
  case loop =>
    intro s up
    have ran : exec .ltssmLoopback s = .next (s.linkDown.updHost fun h => { h with loopback := true }) := by
      simp only [exec, execLtssmLoopback, up, State.onIf_true]
    rw [State.linkDown_up up] at ran
    exact ⟨_, ran, rfl, rfl, rfl⟩
  case timer =>
    intro s rides down
    simp only [exec, execLinkLossTimer, rides, down]
    rfl
  case assert =>
    intro s u
    refine ⟨fun sleeps => ?_, fun wakes runs => ?_, fun wakes halts => ?_⟩
    · exact congrArg _ (if_pos sleeps)
    · exact congrArg _ ((if_neg (Bool.eq_false_iff.mp wakes)).trans (if_neg (Bool.eq_false_iff.mp runs)))
    · exact congrArg _ ((if_neg (Bool.eq_false_iff.mp wakes)).trans (if_pos halts))
  case release =>
    intro s held
    have ran : exec .perstRelease s = .next ((({ s with pins := { s.pins with perstN := true } } : State).updRst fun r =>
        { r with perstHold := false }).updHost fun h => { h with rrs := false }) := by
      simp only [exec, execPerstRelease, held, State.onIf_true]
    exact ⟨_, ran, rfl, rfl, rfl, rfl⟩
  case flush =>
    intro s p w found stage
    simp only [exec, execFlushReadDone, found, stage]
    rfl
  case read =>
    intro s i data r found works plain
    simp only [exec, execHostReadCompletion, found, plain]
    exact congrArg _ (if_neg (Bool.eq_false_iff.mp works))
  case failed =>
    intro s i data r rd found works bad
    have bad : (rd == .ok) = false := beq_false_of_ne bad
    simp only [exec, execHostReadCompletion, found, bad, Bool.and_false]
    exact congrArg _ (if_neg (Bool.eq_false_iff.mp works))
  case line =>
    intro s a data c line asked plain reads waits xfers conns
    exact ⟨_, _, exec_cacheGo line asked plain reads waits xfers conns, AMap.get?_set_same .., rfl, rfl, rfl⟩
  case snoop =>
    intro s a c line held
    have held : (c.st == 0) = false := beq_false_of_ne held
    refine ⟨fun clean => ?_, ?_⟩
    · have ran : exec (.hostSnoop a true) s =
          .next ((s.cntHost 6 1).updHost fun h => { h with cache := AMap.erase h.cache (a / 64 * 64) }) := by
        simp only [exec, execHostSnoop, line, held, clean]
        rfl
      exact ⟨_, ran, (AMap.get?_erase ..).trans (if_pos rfl), rfl⟩
    · have ran : exec (.hostSnoop a false) s =
          .next (s.updHost fun h => { h with cache := AMap.set h.cache (a / 64 * 64) { c with st := 1 } }) := by
        simp only [exec, execHostSnoop, line, held]
        rfl
      exact ⟨_, ran, AMap.get?_set_same .., rfl⟩
  case master =>
    intro s p on
    have off : exec (.busMasterEnable p false) s = .next (s.updFunc p fun f => { f with busMaster := false }) := by
      simp only [exec, execBusMasterEnable, on]
      rfl
    refine ⟨⟨_, off, State.func_updFunc_same .., rfl⟩, fun idle => ?_⟩
    by_cases zero : p = 0
    · have ran : exec (.busMasterEnable p true) s = .next ((s.updFunc p fun f => { f with busMaster := true }).updHost fun h =>
          { h with gone := false, bmeWait := h.bmeWait.filter (fun r => r.func != p) }) := by
        have none_waits : ((s.updFunc p fun f => { f with busMaster := true }).updHost fun h => { h with gone := false }).host.bmeWait.filter
          (fun r => r.func == p) = [] := idle
        simp only [exec, execBusMasterEnable, zero, beq_self_eq_true, State.onIf_true] at none_waits ⊢
        simp only [none_waits]
        rfl
      exact ⟨_, ran, s.func_updFunc_same p fun f => { f with busMaster := true }, by simp [zero, State.updHost], rfl⟩
    · have ran : exec (.busMasterEnable p true) s = .next ((s.updFunc p fun f => { f with busMaster := true }).updHost fun h =>
          { h with bmeWait := h.bmeWait.filter (fun r => r.func != p) }) := by
        have none_waits : (s.updFunc p fun f => { f with busMaster := true }).host.bmeWait.filter (fun r => r.func == p) = [] := idle
        simp only [exec, execBusMasterEnable, on, beq_false_of_ne zero, State.onIf_false, none_waits]
        rfl
      refine ⟨_, ran, s.func_updFunc_same p fun f => { f with busMaster := true }, ?_, rfl⟩
      simp [zero, State.updHost, State.updFunc]
  case unmask =>
    intro s p v on known idle
    have here : ((s.updFunc p (FuncS.unmask v)).func p).msixPend.contains v = false := by
      rw [State.func_updFunc_same]; exact idle
    have passes : ¬(!s.funcOn p || decide (2047 < v)) = true := by simp [on]; omega
    refine ⟨s.updFunc p (FuncS.unmask v), congrArg _ ((if_neg passes).trans (State.msixRelease_idle here)), ?_, ?_, rfl⟩
    · rw [State.func_updFunc_same]
      rw [FuncS.unmask, AMap.get_upd_same]
      exact bitAt_setFld_zero _
    · intro q other
      rw [State.func_updFunc, if_neg other]

end Sys2Proof.Machine
end

section
/-!
PROOFS of `Obligations.PlainAndQueueCommandsReply` (O1): the plain commands and the commands of queues.
-/

namespace Sys2Proof.Machine

/-- Settles O1: each command by what its body does on a request that passes. -/
theorem plainAndQueueCommandsReply : Obligations.PlainAndQueueCommandsReply := by
  unfold Obligations.PlainAndQueueCommandsReply
  refine ⟨fun s h ok => exec_answers rfl ok rfl rfl, fun s h ok => exec_answers rfl ok rfl rfl, ?progress, ?create, ?destroy, ?query, ?admin⟩
  case progress =>
    intro s h tag l ok found
    exact exec_answers rfl ok (by simp only [found]) rfl
  case create =>
    intro s h blk ok good made t
    have fault : (made.queue (qkey h.part (fld blk 127 112))).isFault = decide (fld blk 3 0 = 6 ∧ bitAt blk 6 = true) := by
      simp only [made, State.queue, AMap.get_set_same, QueueS.isFault, Bool.decide_and, Bool.decide_eq_true]
      rfl
    refine exec_answers (a := Ans.ok t [sc 2 (fld blk 127 112)]) rfl ok ?_ rfl
    simp only [good, State.onIf, show (made.queue _).isFault = _ from fault, decide_eq_true_eq, made, t]
  case destroy =>
    intro s h q u ok found high idle unnamed
    refine exec_answers rfl ok ?_ rfl
    simp only [found, show ¬q < 2 by omega, idle, unnamed, if_false]
    rfl
  case query =>
    intro s h q u ok found high
    have queue : s.queue (qkey h.part q) = u := by
      have found : AMap.get? s.queues (qkey h.part q) = some u := found
      rw [State.queue, AMap.get, found]; rfl
    refine exec_answers rfl ok ?_ rfl
    simp only [found, show ¬q < 2 by omega, queue, if_false]
    rfl
  case admin =>
    intro s h q ok low
    refine exec_answers rfl ok ?_ rfl
    simp only [low, if_true]
    rfl

end Sys2Proof.Machine
end

section
/-!
PROOFS of `Obligations.QueuesAct` (O39): doorbells, index records, entries and the admin queue.
-/

namespace Sys2Proof.Machine

variable {s t : State}

/-! ### Queues and leaving IDLE -/

/-- A queue that exists, changed. -/
theorem State.queue?_updQueue {k : Nat} {u : QueueS} (found : s.queue? k = some u) (f : QueueS → QueueS) :
    (s.updQueue k f).queue? k = some (f u) := by
  have found : AMap.get? s.queues k = some u := found
  simp only [State.updQueue, found, State.queue?, AMap.get?_set_same]

theorem State.updQueue_only (s : State) (k : Nat) (f : QueueS → QueueS) : { s.updQueue k f with queues := s.queues } = s := by
  unfold State.updQueue
  split <;> rfl

@[simp] theorem State.leaveIdle_funcs (s : State) : s.leaveIdle.funcs = s.funcs := by
  unfold State.leaveIdle State.onIf; split <;> rfl

@[simp] theorem State.leaveIdle_queues (s : State) : s.leaveIdle.queues = s.queues := by
  unfold State.leaveIdle State.onIf; split <;> rfl

/-- A doorbell that is refused is counted (R407). -/
theorem State.dbRefuse_counts (s : State) (p : Nat) : ((s.leaveIdle.dbRefuse p).func p).dbRefused = satAdd (s.func p).dbRefused 1 ∧
    (s.leaveIdle.dbRefuse p).queues = s.queues ∧ (s.leaveIdle.dbRefuse p).beyond = s.leaveIdle.beyond := by
  refine ⟨?_, s.leaveIdle_queues, rfl⟩
  rw [State.dbRefuse, State.func_updFunc_same, State.func, s.leaveIdle_funcs]
  rfl

/-- A doorbell for no queue, or with a value that its queue cannot take (R407). -/
theorem exec_doorbell_refused {p q : Nat} {v : BitVec 64} (opened : s.barOpen p = true)
    (why : s.leaveIdle.queue? (qkey p q) = none ∨ (∃ u, s.leaveIdle.queue? (qkey p q) = some u ∧ u.hostWritten = true ∧
      (bitAt v 63 = true ∨ u.size < (v.truncate 32 - u.ci).toNat))) :
    exec (.doorbellWrite p q v) s = .next (s.leaveIdle.dbRefuse p) := by
  simp only [exec, execDoorbellWrite]
  rw [State.barDo_of_open opened]
  rcases why with unknown | ⟨u, known, written, bad⟩
  · simp only [unknown]
  · have bad : (bitAt v 63 || decide (u.size < (v.truncate 32 - u.ci).toNat)) = true := by simpa using bad
    simp only [known, written, bad, if_true, ite_self]

/-! ### The admin queue (R421, R422, R424) -/

theorem qkey_admin_ne (p : Nat) : qkey p 0 ≠ qkey p 1 := by unfold qkey; omega

/-- The admin queue as it stands once its configuration is stitched. -/
def State.adminOn (s : State) (p : Nat) : State :=
  let a := (s.func p).adminBast
  { s.updFunc p (fun f => { f with adminAct := f.adminBast, adminState := 1, adminStop := false }) with
    queues := AMap.set (AMap.set s.queues (qkey p 0) { kind := 7, blk := a.block false }) (qkey p 1) { kind := 8, blk := a.block true } }

/-- Settles O39: each event of a queue by its own guard. -/
theorem queuesAct : Obligations.QueuesAct := by
  unfold Obligations.QueuesAct
  refine ⟨?producer, ?consumer, ?refused, ?record, ?ahead, ?again, ?fetch, ?params, ?report, ?on, ?off, ?final, ?mailbox, ?busy⟩
  case producer =>
    intro s p q v u opened found known written plain room moved
    have passes : (bitAt v 63 || decide (u.size < (v.truncate 32 - u.ci).toNat)) = false := by
      rw [plain, Bool.false_or, decide_eq_false_iff_not]; exact Nat.not_lt.mpr room
    simp only [exec, execDoorbellWrite]
    rw [State.barDo_of_open opened]
    simp only [found, Nat.not_lt.mpr known, written, passes, beq_false_of_ne moved, if_true, if_false, Bool.false_eq_true]
  case consumer =>
    intro s p q v u opened found known reads room plain
    simp only [exec, execDoorbellWrite]
    rw [State.barDo_of_open opened]
    simp only [found, Nat.not_lt.mpr known, reads, Nat.not_lt.mpr room, plain, if_false, Bool.false_eq_true, State.onIf_false]
  case refused =>
    intro s p q v hp opened why
    exact ⟨_, exec_doorbell_refused opened why, s.dbRefuse_counts p⟩
  case record =>
    intro s p q r u found reads once room ahead
    have back : (decide ((r.truncate 32 - u.ci : BitVec 32).toNat < (u.pi - u.ci).toNat) && decide (u.rereads < 4)) = false := by
      rw [decide_eq_false (Nat.not_lt.mpr ahead), Bool.false_and]
    have ran : exec (.indexRecordRead p q r .ok) s = .next (((s.updQueue (qkey p q) fun u => { u with reading := false, again := false }).cntHost
        0 16).updQueue (qkey p q) fun u => { u with recPi := r.truncate 32, rereads := 0 }) := by
      simp only [exec, execIndexRecordRead, found, reads, Nat.not_lt.mpr room, back, once]
      rfl
    refine ⟨_, ran, ?_, ?_⟩
    · rw [State.queue?_updQueue (u := { u with reading := false, again := false })]
      · rw [← once]
      · exact State.queue?_updQueue found _
    · simp [State.cntHost]
  case ahead =>
    intro s p q r u found reads beyond
    simp only [exec, execIndexRecordRead, found, reads, beyond]
    rfl
  case again =>
    intro s p q u found idle some_ runs
    simp only [exec, execIndexRereadTimer, found, idle, beq_false_of_ne some_, runs]
    rfl
  case fetch =>
    intro s p q es o u found written some_ runs
    simp only [exec, execEntryFetch, found, written, beq_false_of_ne some_, runs]
    rfl
  case params =>
    intro s p tag op n va ps o h hp found u
    simp only [exec, execParamRead, found]
    rfl
  case report =>
    intro s p q u found written moved
    simp only [exec, execCiWrite, found, written, beq_false_of_ne moved]
    rfl
  case on =>
    intro s p hp opened off
    refine ⟨fun good => ?_, fun bad => ?_⟩
    · have ran : exec (.adminEnable p) s = .next (s.adminOn p) := by
        simp only [exec, execAdminEnable]
        rw [State.barDo_of_open opened]
        simp only [State.adminEnable, off, good]
        rfl
      have own : (s.adminOn p).func p = { s.func p with adminAct := (s.func p).adminBast, adminState := 1, adminStop := false } :=
        s.func_updFunc_same p fun f => { f with adminAct := f.adminBast, adminState := 1, adminStop := false }
      refine ⟨_, ran, ?_, ?_, ?_, ?_⟩
      · rw [own]
      · rw [own]
      · exact (AMap.get?_set_other _ _ (qkey_admin_ne p)).trans (AMap.get?_set_same ..)
      · exact AMap.get?_set_same ..
    · have ran : exec (.adminEnable p) s = .next (s.updFunc p fun f => { f with adminState := 2 }) := by
        simp only [exec, execAdminEnable]
        rw [State.barDo_of_open opened]
        simp only [State.adminEnable, off, bad]
        rfl
      exact ⟨_, ran, congrArg FuncS.adminState (State.func_updFunc_same ..), rfl⟩
  case off =>
    intro s p hp opened on done read paid
    let stopped := s.updFunc p fun f => { f with adminStop := true }
    have own : stopped.func p = { s.func p with adminStop := true } := State.func_updFunc_same ..
    have settles : ((stopped.func p).adminStop && (stopped.part p).long.all (fun l => l.done) && (stopped.part p).paramWait.isEmpty &&
        (stopped.part p).owed.isEmpty) = true := by
      rw [own]
      simp only [show stopped.part p = s.part p from rfl, done, read, paid]
      rfl
    have ran : exec (.adminDisable p) s = .next { stopped.updFunc p (fun f => { f with adminStop := false, adminState := 0 }) with
        queues := AMap.erase (AMap.erase s.queues (qkey p 0)) (qkey p 1) } := by
      simp only [exec, execAdminDisable]
      rw [State.barDo_of_open opened]
      simp only [State.adminDisable, on]
      exact congrArg _ (if_pos settles)
    refine ⟨_, ran, ?_, ?_, ?_⟩
    · exact congrArg FuncS.adminState (stopped.func_updFunc_same p fun f => { f with adminStop := false, adminState := 0 })
    · exact (AMap.get?_erase ..).trans ((if_neg (qkey_admin_ne p)).trans ((AMap.get?_erase ..).trans (if_pos rfl)))
    · exact (AMap.get?_erase ..).trans (if_pos rfl)
  case final =>
    intro s p tag ok l found
    refine ⟨fun op => ?_, fun op => ?_, fun op => ?_⟩
    · simp only [exec, execLongCmdFinal, found, op]
      rfl
    · simp only [exec, execLongCmdFinal, found, op]
      rfl
    · simp only [exec, execLongCmdFinal, found, op]
      rfl
  case mailbox =>
    intro s p o opened idle booted
    have hosts : (decide (p = 0) && s.thimble.booting && s.fetchingBundle) = false := by
      by_cases zero : p = 0
      · simp [booted zero]
      · simp [zero]
    simp only [exec, execMailboxGo, idle, hosts, State.barDo_of_open opened, Bool.false_eq_true, if_false]
  case busy =>
    intro s p o busy
    simp only [exec, execMailboxGo, busy, if_true]

end Sys2Proof.Machine
end

section
/-!
PROOFS of `Obligations.PartitionCommandsReply` (O11): partitions created, reset, destroyed and queried.
-/

namespace Sys2Proof.Machine

variable {s t : State}

theorem State.updPart_updPart (s : State) (p : Nat) (f g : PartS → PartS) :
    (s.updPart p f).updPart p g = s.updPart p (fun x => g (f x)) :=
  congrArg (fun parts => { s with parts }) (AMap.upd_upd ..)

/-! ### What a partition is given leaves the partitions' own records alone -/

theorem State.onIf_parts {b : Bool} {f : State → State} (h : (f s).parts = s.parts) : (s.onIf b f).parts = s.parts := by
  cases b
  · rfl
  · exact h

theorem State.each_parts {ks : Nats} {f : Nat → State → State} (h : ∀ k t, (f k t).parts = t.parts) : (s.each ks f).parts = s.parts :=
  State.each_keeps (P := fun t => t.parts = s.parts) (fun k _ t ht => (h k t).trans ht) rfl

theorem State.placeUnit_parts (s : State) (u : Nat) : (s.placeUnit u).parts = s.parts := by
  unfold State.placeUnit
  refine (State.updUnit_parts ..).trans (State.each_parts fun i t => ?_)
  split <;> rfl

theorem State.takeUnit_parts (s : State) (p u : Nat) : (s.takeUnit p u).parts = s.parts :=
  (State.updUnit_parts ..).trans (State.onIf_parts (s.placeUnit_parts u))

theorem State.part_of_parts (same : t.parts = s.parts) (p : Nat) : t.part p = s.part p := by rw [State.part, same]; rfl

/-- The allotment of a partition changes its counts and ranges alone. -/
def PartS.owns (x : PartS) : Nat × Bool × Bool × Nats × Nats := (x.st, x.held, x.replaced, x.clusters, x.units)

theorem State.allot_owns (s : State) (p : Nat) (n : Nats) : ((s.allot p n).part p).owns = (s.part p).owns := by
  rw [State.allot, State.part_updPart_same]
  rfl

/-- A partition with the clusters and units that a creation names (R438). -/
def PartS.given (cs us : Nats) (x : PartS) : PartS := { x with clusters := sortUp (x.clusters ++ cs), units := sortUp (x.units ++ us) }

/-- The clusters and units that a creation names, taken (R438). -/
def State.takeItems (s : State) (p : Nat) (cs us : Nats) : State :=
  let s := s.updPart p (PartS.given cs us)
  let s := s.each cs (fun c t => t.updClu c (fun x => { x with owner := some p, st := 1 }))
  let s := s.updRst (fun r => { r with blocks := r.blocks.filter (fun b =>
    !(cs.contains (b.2 / 2) && (b.1 == 257 || (b.1 == 1 && r.blocks.contains (257, b.2))))) })
  s.each us (fun u t => t.takeUnit p u)

theorem State.part_takeItems (s : State) (p : Nat) (cs us : Nats) : (s.takeItems p cs us).part p = (s.part p).given cs us := by
  have units (t : State) : (t.each us fun u t => t.takeUnit p u).parts = t.parts := State.each_parts fun u t => t.takeUnit_parts p u
  have clusters (t : State) : (t.each cs fun c t => t.updClu c fun x => { x with owner := some p, st := 1 }).parts = t.parts :=
    State.each_parts fun c t => State.updClu_parts ..
  refine (State.part_of_parts (s := s.updPart p (PartS.given cs us)) ((units _).trans ?_) p).trans (State.part_updPart_same ..)
  exact clusters _

/-! ### PART_CREATE (R438, R439, R440) -/

/-- A partition as PART_CREATE begins it. -/
def State.partBegun (s : State) (p : Nat) : State :=
  if p = 0 then s.updPart 0 (fun x => { x with replaced := true })
  else { s with parts := AMap.set s.parts p { st := 2, held := true, waitCreate := (s.part p).waitCreate } }

/-- A tenant's partition in its initial state but for what it holds (R442). -/
def State.partCleared (s : State) (p : Nat) : State :=
  ((s.objReset p).adminOff p).updFunc p (fun f => { f with
    dbH2A := 0, dbA2H := 0, dbA2HMask := 0xFFFFFFFF, dbVec := 0, h2aMask := 0xFFFFFFFF })

/-- The partition that PART_CREATE leaves. -/
def State.partMade (s : State) (p : Nat) (more cs us : Nats) : State :=
  let t := ((s.partBegun p).allot p more).takeItems p cs us
  if p = 0 then t else t.partCleared p

/-- A creation whose counts and items are free (R438, R439). -/
theorem State.createNow_eq {p : Nat} {n : Nats} {mask map : Nat} (hp : p < 64) (on : s.funcOn p = true)
    (fresh : (if p = 0 then (s.part 0).replaced else (s.part p).held) = false) (counts : s.countBad p n = none)
    (clusters : ∀ c ∈ clustersOf mask, (s.clu c).st = 0 ∧ (s.clu c).owner = none) (units : s.unitBad (unitsOf map) = none) :
    ∃ more, s.createNow p n mask map = Ans.ok (s.partMade p more (clustersOf mask) (unitsOf map)) := by
  refine ⟨(List.range 9).map (fun i => n.getD i 0 - (s.part p).counts.getD i 0), ?_⟩
  have free : (clustersOf mask).find? (fun c => (s.clu c).st != 0 || (s.clu c).owner.isSome) = none :=
    List.find?_eq_none.mpr fun c hc => by
      obtain ⟨st, owner⟩ := clusters c hc
      simp [st, owner]
  unfold State.createNow
  rw [if_neg (by omega : ¬63 < p), if_neg (by rw [on]; decide), if_neg (Bool.eq_false_iff.mp fresh)]
  simp only [counts, free, units]
  rfl

/-- A partition's own parameters as they are created (R442). -/
def PartS.cleared (x : PartS) : PartS := { x with
  events := [], wAct := 16, wBast := 16, requireSig := false, ccAct := ({} : PartS).ccAct, ccBast := ({} : PartS).ccBast }

theorem State.part_partCleared (s : State) (p : Nat) : (s.partCleared p).part p = (s.part p).cleared := by
  have parts : (s.partCleared p).parts = AMap.upd s.parts p {} PartS.cleared := rfl
  rw [State.part, parts, AMap.get_upd_same]
  rfl

/-- What PART_CREATE makes of a partition that it began. -/
theorem State.owns_takeItems (s : State) (p : Nat) (more cs us : Nats) : (((s.allot p more).takeItems p cs us).part p).owns =
    ((s.part p).given cs us).owns := by
  rw [State.part_takeItems]
  have owns := s.allot_owns p more
  simp only [PartS.owns, Prod.mk.injEq] at owns
  obtain ⟨st, held, replaced, clusters, units⟩ := owns
  simp only [PartS.owns, PartS.given, st, held, replaced, clusters, units]

/-- Settles O11: the partition commands, by what each body does on a request that passes. -/
theorem partitionCommandsReply : Obligations.PartitionCommandsReply := by
  unfold Obligations.PartitionCommandsReply
  refine ⟨?create, ?reset, ?destroy, ?query⟩
  case create =>
    intro s h p q c pc w sy sh co k cx mask map ok hp on now counts clusters units
    have created {t : State} (made : s.createNow p [q, c, pc, w, sy, sh, co, k, cx, mask, map] mask map = Ans.ok t) :
        exec (.partCreate h p q c pc w sy sh co k cx mask map) s = .next (t.answer h 0x0900 (Ans.ok t) true) :=
      exec_answers (a := Ans.ok t) rfl ok ((if_neg (Bool.eq_false_iff.mp now)).trans made) rfl
    refine ⟨fun tenant fresh => ?_, fun zero fresh => ?_⟩
    · have other : p ≠ 0 := by omega
      obtain ⟨more, made⟩ := State.createNow_eq hp on (by rw [if_neg other]; exact fresh) counts clusters units
      refine ⟨_, [], created made, ?_⟩
      have owns := (s.partBegun p).owns_takeItems p more (clustersOf mask) (unitsOf map)
      have begun : (s.partBegun p).part p = { st := 2, held := true, waitCreate := (s.part p).waitCreate } := by
        rw [State.partBegun, if_neg other]
        exact AMap.get_set_same ..
      rw [begun] at owns
      simp only [PartS.owns, PartS.given, Prod.mk.injEq, List.nil_append] at owns
      obtain ⟨st, held, -, cs, us⟩ := owns
      simp only [State.partMade, if_neg other, State.part_partCleared, PartS.cleared]
      exact ⟨st, held, cs, us, trivial, trivial⟩
    · subst zero
      obtain ⟨more, made⟩ := State.createNow_eq hp on fresh counts clusters units
      refine ⟨_, [], created made, ?_⟩
      have owns := (s.partBegun 0).owns_takeItems 0 more (clustersOf mask) (unitsOf map)
      have begun : (s.partBegun 0).part 0 = { s.part 0 with replaced := true } := State.part_updPart_same ..
      rw [begun] at owns
      simp only [PartS.owns, PartS.given, Prod.mk.injEq] at owns
      obtain ⟨-, -, replaced, cs, us⟩ := owns
      exact ⟨replaced, cs, us⟩
  case reset =>
    intro s h p force ok low high known stage live held whole quiet t
    have asked : (if force = 0 then s.unquiesced p else none) = none := by
      split
      · next zero => exact quiet zero
      · rfl
    have begun : s.resetTrigger p (some h) = t := by
      simp only [State.resetTrigger, stage, live, whole, State.resetBegin, State.updPart_updPart]
      rfl
    have passes : ¬(decide (p = 0) || decide (63 < p) || decide (1 < force)) = true := by simp; omega
    refine congrArg _ (vuino_owes (a := Ans.wait t) ok ?_ rfl (by decide))
    simp only [passes, live, held, asked, begun, if_false]
    rfl
  case destroy =>
    intro s h p ok low high live fresh
    have passes : ¬(decide (p = 0) || decide (63 < p)) = true := by simp; omega
    refine ⟨fun empty => exec_answers rfl ok ?_ rfl, fun held quiet room => ?_⟩
    · simp only [passes, live, fresh, empty]
      rfl
    · intro t
      have begun : (s.updPart p (fun x => { x with destroy := some h })).resetBegin p true = t := State.updPart_updPart ..
      refine congrArg _ (vuino_begins (a := Ans.wait t) ok ?_ rfl (by decide) room)
      simp only [passes, live, fresh, held, quiet, begun, if_false]
      rfl
  case query =>
    intro s h p ok hp
    exact ⟨_, exec_answers rfl ok (if_neg (by omega)) rfl⟩

end Sys2Proof.Machine
end

section
/-!
PROOFS of `Obligations.KeyAndFirmwareCommandsReply` (O12): key slots, firmware copies and reports.
-/

namespace Sys2Proof.Machine

variable {s : State}

/-- A key slot that its own partition or partition 0 names (R464). -/
theorem State.slotOk_some {h : Issue} {p slot k : Nat} (own : h.part = 0 ∨ h.part = p)
    (found : Ranges.item (s.part p).keys slot = some k) : s.slotOk h p slot = some k := by
  have mine : ¬(h.part != 0 && h.part != p) = true := by
    rcases own with zero | same
    · simp [zero]
    · simp [same]
  rw [State.slotOk, if_neg mine, found]

/-- What is done only where nothing is held. -/
theorem State.onIf_isNone {α : Type} (x : Option α) [Decidable (x = none)] (f : State → State) :
    s.onIf x.isNone f = if x = none then f s else s := by
  cases x
  · exact (if_pos rfl).symm
  · exact (if_neg nofun).symm

/-- The report that a command asks for waits behind those asked for before it (R466). -/
theorem State.askReport_command (h : Issue) (nonce : BitVec 256) : ∃ body : Bytes, s.askReport (some h) 0 nonce =
    s.updThimble (fun t => { t with reports := t.reports ++ [(some h, 0, nonce)], repBody := body }) := by
  cases waiting : s.thimble.reports with
  | nil =>
    refine ⟨(s.updThimble (fun t => { t with reports := t.reports ++ [(some h, 0, nonce)] })).reportBody nonce, ?_⟩
    simp only [State.askReport, State.updThimble, waiting]
    rfl
  | cons r rs =>
    refine ⟨s.thimble.repBody, ?_⟩
    simp only [State.askReport, State.updThimble, waiting]
    rfl

/-- Settles O12: the key, firmware and attestation commands, by what each body does on a request that passes. -/
theorem keyAndFirmwareCommandsReply : Obligations.KeyAndFirmwareCommandsReply := by
  unfold Obligations.KeyAndFirmwareCommandsReply
  refine ⟨?load, ?clear, ?update, ?attest⟩
  case load =>
    intro s h p slot k blob ok own found up free
    have few : ¬s.thimble.iterUp < 2 := by omega
    have slotFound := State.slotOk_some own found
    cases un : Config.unwrap (Config.kek p s.thimble.kekEpoch.toNat) blob with
    | none =>
      refine exec_answers (a := Ans.bad s 0 2) rfl ok ?_ rfl
      simp only [slotFound, if_neg few, un]
    | some b =>
      dsimp only
      cases good : keyOf b with
      | none =>
        refine exec_answers (a := Ans.bad s 0 3) rfl ok ?_ rfl
        simp only [slotFound, if_neg few, un, good]
      | some key =>
        refine exec_answers (a := Ans.ok { s with keys := AMap.set s.keys k key }) rfl ok ?_ rfl
        simp only [slotFound, if_neg few, un, good, if_neg (Bool.eq_false_iff.mp free)]
  case clear =>
    intro s h p slot k ok own found free t
    exact exec_answers (a := Ans.ok t) rfl ok (by simp only [State.slotOk_some own found, if_neg (Bool.eq_false_iff.mp free)]; rfl) rfl
  case update =>
    intro s u h ctx va len slot act o bs ok least most which acts owned idle read room why copy v t
    have passes : ¬(len == 0 || decide (2 ^ 25 < len) || (slot != 0 && slot != 1 && slot != 0xFF) || decide (1 < act) || (s.ctxOwner ctx).isNone) = true := by
      rw [Option.isNone_eq_false_iff.mpr owned]
      simp
      omega
    have noUpdate : ¬s.thimble.update.isSome = true := by simp [idle]
    split
    · next zero =>
      refine congrArg _ (vuino_begins (a := Ans.wait t) ok ((if_neg passes).trans ((if_neg noUpdate).trans ?_)) rfl (by decide) room)
      have good : ¬(why != 0) = true := by simp [zero]
      simp only [read]
      refine (if_neg good).trans ?_
      refine congrArg Ans.wait ?_
      exact State.onIf_isNone (s := v) u.rst.held _
    · next wrong =>
      refine exec_answers (a := Ans.bad u 0 why) rfl ok ((if_neg passes).trans ((if_neg noUpdate).trans ?_)) rfl
      simp only [read]
      exact if_pos (bne_iff_ne.mpr wrong)
  case attest =>
    intro s h nonce ok ind there few room
    obtain ⟨body, asked⟩ := s.askReport_command h nonce
    refine ⟨s.askReport (some h) 0 nonce, congrArg _ (vuino_begins (a := Ans.wait (s.askReport (some h) 0 nonce)) ok ?_ rfl (by decide) room), ?_, ?_⟩
    · simp only [ind, there, if_neg (by omega : ¬5 ≤ s.thimble.reports.length)]
      rfl
    · rw [asked]
      rfl
    · rw [asked]
      rfl

end Sys2Proof.Machine
end

section
/-!
PROOFS of `Obligations.BootingActs` (O42): a bundle that comes in from outside, its checks and its commitment.
-/

namespace Sys2Proof.Machine

variable {s : State}

/-- Starting a fuse pulse changes the reset state alone. -/
theorem State.fuseNext_only (s : State) : s.fuseNext.thimble = s.thimble ∧ { s.fuseNext with rst := s.rst } = s := by
  unfold State.fuseNext
  split <;> exact ⟨rfl, rfl⟩

/-- What a bundle asks to be committed, noted (R455). -/
def bootAsks (b : Bundle) (t : ThimbleS) : ThimbleS := { t with
  bootOk := true
  wantSvn := if b.flags.testBit 0 && decide (t.svnFuse.toNat < b.svn) then some (BitVec.ofNat 8 b.svn) else none
  wantRevoke := b.flags.testBit 1 && b.rootSlot == 1 && !t.slot0Revoked }

/-- Noting the signatures changes what is known of them alone. -/
theorem State.noteSigs_eq (s : State) (b : Bundle) (reason : Nat) :
    ∃ x y : Bool, s.noteSigs b reason = s.updThimble (fun t => { t with rsaOk := x, slhOk := y }) := by
  unfold State.noteSigs
  split <;> exact ⟨_, _, rfl⟩

/-- A state that received one more window of a bundle (R543). -/
def State.received (s : State) : State := { s with i3c := { s.i3c with got := s.i3c.got + 256 } }

/-- The outcome of a bundle's checks, shown on the I3C bus (R543). -/
def showChecked (r : State × Nat) : State :=
  { r.1 with i3c := { r.1.i3c with status := if r.2 = 0 then 3 else 4, reason := BitVec.ofNat 8 r.2 } }

/-- A window of 256 bytes while a bundle is received (R543). -/
theorem State.recoveryWindow {data : Bytes} {b : Bundle} (powered : s.pins.powered = true) (opened : s.recoveryOpen = true)
    (size : data.length = 256) (going : s.i3c.status = 1) : exec (.i3cRecoveryWrite 0x8100 data b) s = .next
      (if s.i3c.got + 256 < s.i3c.len.toNat then s.received else showChecked (s.received.tryBundle b .ok)) := by
  have on : ¬(!s.pins.powered) = true := by simp [powered]
  have free : ¬(!s.recoveryOpen) = true := by simp [opened]
  have turn : (decide ((0x8100 : Nat) = 0x8100) && decide (data.length = 256) && s.i3c.status == 1) = true := by simp [size, going]
  exact congrArg _ ((if_neg on).trans ((if_neg free).trans ((if_neg (by simp)).trans (if_pos turn))))

/-- A target that has no dynamic address yet takes one (R542). -/
def giveAddr (m : AMap (BitVec 7)) (k a : Nat) : AMap (BitVec 7) :=
  if (AMap.get? m k).isSome then m else AMap.set m k (BitVec.ofNat 7 a)

theorem get?_giveAddr (m : AMap (BitVec 7)) (k a : Nat) : AMap.get? (giveAddr m k a) k = (AMap.get? m k).or (some (BitVec.ofNat 7 a)) := by
  unfold giveAddr
  cases has : AMap.get? m k with
  | some x => simpa using has
  | none => simp

theorem get?_giveAddr_other {m : AMap (BitVec 7)} {k j a : Nat} (other : j ≠ k) : AMap.get? (giveAddr m k a) j = AMap.get? m j := by
  unfold giveAddr
  split
  · rfl
  · exact AMap.get?_set_other _ _ other

/-- Settles O42: booting from outside, each event by its branch of the model. -/
theorem bootingActs : Obligations.BootingActs := by
  unfold Obligations.BootingActs
  refine ⟨?image, ?checks, ?retry, ?frame, ?recovery, ?bus, ?commit⟩
  case image =>
    intro s b rd booting fetching idle
    exact congrArg _ (if_pos (by simp [booting, fetching, idle]))
  case checks =>
    intro s b
    obtain ⟨x, y, noted⟩ := s.noteSigs_eq b (s.bundleReason b .ok)
    by_cases sound : s.bundleReason b .ok = 0
    · refine ⟨_, (if_pos sound).trans (by rw [sound]), ?_, ?_⟩
      · rw [sound]
        rfl
      · exact (if_pos sound).mpr ⟨rfl, rfl, rfl⟩
    · refine ⟨_, if_neg sound, rfl, ?_⟩
      rw [if_neg sound, noted]
      exact ⟨rfl, rfl⟩
  case retry =>
    intro s net
    exact congrArg _ (if_pos net)
  case frame =>
    intro s f b net
    have waits : ¬(!s.netBoot) = true := by simp [net]
    refine ⟨fun ack unknown => ?_, fun kind file fresh next => ?_⟩
    · simp only [exec, execNetworkBootFrame, if_neg waits, ack, unknown]
      rfl
    · intro u
      have noGap : ¬(f.block != (s.thimble.netBlock + 1) % 65536) = true := by simp [next]
      have ran : exec (.networkBootFrame f b) s = .next (if 2 ^ 25 < u.thimble.netBytes
          then (u.updThimble (fun t => { t with netFile := false })).bootFails 2
          else if f.len < f.blksize then ((u.updThimble (fun t => { t with netFile := false })).tryBundle b .ok).1 else u) := by
        simp only [exec, execNetworkBootFrame, if_neg waits, kind, file]
        exact congrArg _ ((if_neg (by decide)).trans ((if_neg fresh).trans (if_neg noGap)))
      exact ⟨fun long => ran.trans (congrArg _ (if_pos long)),
        fun fits last => ran.trans (congrArg _ ((if_neg (Nat.not_lt.mpr fits)).trans (if_pos last)))⟩
  case recovery =>
    intro s data b powered opened
    have on : ¬(!s.pins.powered) = true := by simp [powered]
    have free : ¬(!s.recoveryOpen) = true := by simp [opened]
    refine ⟨fun four fits => ?_, fun size going more => ?_, fun size going whole => ?_⟩
    · have ran : exec (.i3cRecoveryWrite 0x8000 data b) s = .next
          { s with i3c := { s.i3c with len := BitVec.ofNat 32 (natLE data), got := 0, status := 1, reason := 0 } } :=
        congrArg _ ((if_neg on).trans ((if_neg free).trans ((if_pos (by simp [four])).trans (if_neg (Nat.not_lt.mpr fits)))))
      exact ⟨_, ran, rfl, rfl⟩
    · exact ⟨_, (State.recoveryWindow powered opened size going).trans (congrArg _ (if_pos more)), rfl, rfl⟩
    · exact ⟨_, (State.recoveryWindow powered opened size going).trans (congrArg _ (if_neg (Nat.not_lt.mpr whole))), rfl, rfl⟩
  case bus =>
    intro s a b k powered
    have wrote : exec (.i3cRegWrite a) s = .next { s with i3c := { s.i3c with off := BitVec.ofNat 16 a } } := congrArg _ (if_pos powered)
    refine ⟨⟨_, wrote, rfl, rfl⟩, fun target => ?_, ?_⟩
    · have named : (s.pins.powered && decide (k < 2)) = true := by simp [powered, target]
      have gave : exec (.setdasa k a) s = .next { s with i3c := { s.i3c with dyn := AMap.set s.i3c.dyn k (BitVec.ofNat 7 a) } } :=
        congrArg _ (if_pos named)
      exact ⟨_, gave, AMap.get?_set_same .., fun j other => AMap.get?_set_other _ _ other, rfl⟩
    · have gave : exec (.entdaa a b) s = .next { s with i3c := { s.i3c with dyn := giveAddr (giveAddr s.i3c.dyn 0 a) 1 b } } :=
        congrArg _ (if_pos powered)
      refine ⟨_, gave, ?_, ?_, rfl⟩
      · exact (get?_giveAddr_other (by decide)).trans (get?_giveAddr ..)
      · exact (get?_giveAddr ..).trans (by rw [get?_giveAddr_other (by decide)])
  case commit =>
    intro s b there stage state asked inTime
    have taken : ¬(s.rst.stage != 6 || s.thimble.state != 3 || s.thimble.bootOk || decide (s.thimble.releasedAt + 10 * 10 ^ 9 < s.clockNs)) = true := by
      simp [stage, state, asked]
      omega
    have wants : exec .bootOk s = .next (s.updThimble (bootAsks b)).fuseNext := by
      simp only [exec, execBootOk, there]
      exact congrArg _ (if_neg taken)
    obtain ⟨same, rest⟩ := (s.updThimble (bootAsks b)).fuseNext_only
    refine ⟨_, wants, ?_, ?_⟩
    · rw [same]
      simp only [State.updThimble, bootAsks, Bool.and_eq_true, decide_eq_true_eq]
    · exact congrArg (fun t => { t with thimble := s.thimble }) rest

end Sys2Proof.Machine
end

section
/-!
PROOFS of `Obligations.SecureMailboxesAct` (O43): secure mailboxes, notices and non-volatile commits.
-/

namespace Sys2Proof.Machine

variable {s : State}

theorem Mbox.word_put_other (b : Mbox) {i j : Nat} (other : j ≠ i) (v : Nat) : (b.put i v).word j = b.word j := by
  rw [Mbox.word, Mbox.put, AMap.get_put, if_neg other]
  rfl

/-! ### The commands of secure mailboxes 0 to 3 -/

theorem State.secure_updSecure_same (s : State) (m : Nat) (f : Mbox → Mbox) : (s.updSecure m f).secure m = f (s.secure m) := AMap.get_upd_same ..

theorem State.secure_updSecure_other (s : State) {m k : Nat} (other : k ≠ m) (f : Mbox → Mbox) : (s.updSecure m f).secure k = s.secure k :=
  (AMap.get_upd ..).trans (if_neg other)

theorem State.secReply_thimble (s : State) (m status i : Nat) (bs : Bytes) : (s.secReply m status i bs).thimble = s.thimble :=
  ((Aside.refl _).setA2H _ _).fld State.thimble fun _ => rfl

/-- A secure mailbox that the host filled, taken by the firmware (R464). -/
def State.secTaken (s : State) (m k : Nat) : State := (s.secNamed m k).updSecure m (fun b => { b with go := true, sender := 0 })

theorem State.secNamed_open {m : Nat} (low : m < 4) (opened : s.barOpen 0 = true) (idle : (s.secure m).go = false) (k : Nat) :
    s.secNamed m k = s.updSecure m (fun b => b.put 0 (k * 2 ^ 16 + b.word 0 % 2 ^ 16)) := by
  simp [State.secNamed, low, opened, idle, State.onIf]

/-- A free mailbox takes the command that the host writes. -/
theorem State.secPost_named {m : Nat} (low : m < 4) (opened : s.barOpen 0 = true) (idle : (s.secure m).go = false) (k : Nat)
    (act : State → Mbox → State) : (s.secNamed m k).secPost m act = act (s.secTaken m k) ((s.secTaken m k).secure m) := by
  refine if_neg ?_
  rw [State.secNamed_open low opened idle, State.secure_updSecure_same]
  have still : (s.updSecure m fun b => b.put 0 (k * 2 ^ 16 + b.word 0 % 2 ^ 16)).barOpen 0 = true := opened
  have free : ((s.secure m).put 0 (k * 2 ^ 16 + (s.secure m).word 0 % 2 ^ 16)).go = false := idle
  rw [still, free]
  simpa using Nat.le_of_lt_succ low

theorem State.word_secTaken {m : Nat} (low : m < 4) (opened : s.barOpen 0 = true) (idle : (s.secure m).go = false) (k : Nat) :
    ((s.secTaken m k).secure m).word 2 = (s.secure m).word 2 := by
  rw [State.secTaken, State.secNamed_open low opened idle, State.secure_updSecure_same, State.secure_updSecure_same]
  exact Mbox.word_put_other _ (by decide) _

theorem State.thimble_secTaken {m : Nat} (low : m < 4) (opened : s.barOpen 0 = true) (idle : (s.secure m).go = false) (k : Nat) :
    (s.secTaken m k).thimble = s.thimble ∧ (s.secTaken m k).rst = s.rst := by
  rw [State.secTaken, State.secNamed_open low opened idle]
  exact ⟨rfl, rfl⟩

/-- A fuse pulse that ends leaves what is held. -/
theorem State.pulseEnd_held (s : State) : s.pulseEnd.rst.held = s.rst.held := by
  have kept (t : State) (reason : Nat) : (t.secRec reason 0).rst = t.rst := ((Aside.refl t).secRec _ _).fld State.rst fun _ => rfl
  unfold State.pulseEnd
  split
  · dsimp only
    split
    · rw [kept]
      rfl
    · rfl
  · split
    · rw [kept]
      rfl
    · rfl

/-- KEK_ROTATE of the epoch in force (R464). -/
theorem State.secRotate_named (t : State) (m : Nat) (b : Mbox) (few : t.thimble.kekEpoch.toNat < 16) (named : b.word 2 = t.thimble.kekEpoch.toNat)
    (free : t.rst.held = none) : (State.secRotate m t b).thimble = { t.thimble with kekEpoch := t.thimble.kekEpoch + 1 } := by
  have passes : ¬(decide (16 ≤ t.thimble.kekEpoch.toNat) || b.word 2 != t.thimble.kekEpoch.toNat) = true := by
    simp [named]
    omega
  have next : BitVec.ofNat 5 (t.thimble.kekEpoch.toNat + 1) = t.thimble.kekEpoch + 1 := by
    simp [BitVec.ofNat_add]
  unfold State.secRotate
  dsimp only
  rw [if_neg passes, free, if_neg (by decide), State.secReply_thimble, next]
  rfl

/-- KEK_ROTATE of another epoch changes no fuse. -/
theorem State.secRotate_other (t : State) (m : Nat) (b : Mbox) (wrong : b.word 2 ≠ t.thimble.kekEpoch.toNat) :
    (State.secRotate m t b).thimble = t.thimble := by
  have fails : (decide (16 ≤ t.thimble.kekEpoch.toNat) || b.word 2 != t.thimble.kekEpoch.toNat) = true := by simp [wrong]
  exact (congrArg _ (if_pos fails)).trans (State.secReply_thimble ..)

/-- Secure mailbox `m` is the lowest free one of 4 to 7. -/
theorem State.freeNotice {m : Nat} (low : 4 ≤ m) (high : m ≤ 7) (idle : (s.secure m).go = false)
    (busy : ∀ k, 4 ≤ k → k < m → (s.secure k).go = true) : ([4, 5, 6, 7] : Nats).find? (fun m => !(s.secure m).go) = some m := by
  refine List.find?_eq_some_iff_append.mpr ⟨by simp [idle], List.range' 4 (m - 4), List.range' (m + 1) (7 - m), ?_, fun k hk => ?_⟩
  · interval_cases m <;> rfl
  · obtain ⟨least, most⟩ := List.mem_range'_1.mp hk
    simp [busy k least (by omega)]

/-- A mailbox with a notice (R488). -/
def noticeMbox (tag r : Nat) : Mbox :=
  { (((({} : Mbox).put 0 (0x0101 * 2 ^ 16 + tag % 2 ^ 16)).put 2 r)) with go := true, sender := 0x40 }

theorem noticeMbox_reason {tag r : Nat} (most : r ≤ 9) : (noticeMbox tag r).word 2 = r :=
  (Mbox.word_put_same _ 2 r).trans (Nat.mod_eq_of_lt (by omega))

theorem noticeMbox_kind (tag r : Nat) : (noticeMbox tag r).word 0 / 2 ^ 16 = 0x0101 := by
  have word : (noticeMbox tag r).word 0 = (0x0101 * 2 ^ 16 + tag % 2 ^ 16) % 2 ^ 32 :=
    (Mbox.word_put_other _ (by decide) r).trans (Mbox.word_put_same ..)
  omega

/-- Settles O43: the secure mailboxes, each command on the mailbox it took. -/
theorem secureMailboxesAct : Obligations.SecureMailboxesAct := by
  unfold Obligations.SecureMailboxesAct
  refine ⟨?command, ?notice, ?reply, ?pulse, ?heldPulse, ?write⟩
  case command =>
    intro s m low opened idle w
    obtain ⟨thimble, rst⟩ := State.thimble_secTaken low opened idle 3
    have taken (k : Nat) (act : State → Mbox → State) := State.secPost_named low opened idle k act
    have word := State.word_secTaken low opened idle 3
    have rotated : exec (.kekRotate m) s = .next (State.secRotate m (s.secTaken m 3) ((s.secTaken m 3).secure m)) := congrArg _ (taken 3 _)
    refine ⟨congrArg _ (taken 1 _), ?_, fun few named free => ?_, fun wrong => ?_, congrArg _ (taken 4 _)⟩
    · refine congrArg _ ((taken 2 _).trans ?_)
      rw [State.secRead, State.word_secTaken low opened idle, (State.thimble_secTaken low opened idle 2).1]
      rfl
    · refine ⟨_, rotated, ?_⟩
      rw [State.secRotate_named _ _ _ (by rw [thimble]; exact few) (by rw [thimble, word]; exact named) (by rw [rst]; exact free), thimble]
    · refine ⟨_, rotated, ?_⟩
      rw [State.secRotate_other _ _ _ (by rw [thimble, word]; exact wrong), thimble]
  case notice =>
    intro s r m least most stage running low high idle busy
    have ran : exec (.notice r) s = .next (((s.freshVal.2).updSecure m fun _ => noticeMbox s.freshVal.1.toNat r).setA2H 0 0x20000000#32) := by
      have passes : ¬(decide (r = 0) || decide (9 < r) || decide (s.rst.stage.toNat < 5) || s.rst.halted) = true := by
        simp [running]
        omega
      simp only [exec, execNotice, State.freeNotice low high idle busy]
      exact congrArg _ (if_neg passes)
    have kept (t : State) (k : Nat) : (t.setA2H 0 0x20000000#32).secure k = t.secure k := by
      rw [State.secure, ((Aside.refl t).setA2H _ _).fld State.secMbox fun _ => rfl]
      rfl
    refine ⟨_, ran, ?_⟩
    simp only [kept, State.secure_updSecure_same]
    exact ⟨rfl, rfl, noticeMbox_reason most, noticeMbox_kind .., fun k other => State.secure_updSecure_other _ other _⟩
  case reply =>
    intro s m low high opened
    have named : (s.barOpen 0 && decide (4 ≤ m ∧ m ≤ 7)) = true := by simp [opened, low, high]
    have ran : exec (.secureMailboxReply m) s = .next (s.updSecure m fun b => { b with go := false }) := congrArg _ (if_pos named)
    exact ⟨_, ran, State.secure_updSecure_same .., fun k other => State.secure_updSecure_other _ other _, rfl⟩
  case pulse =>
    intro s busy free
    have still : (s.pulseEnd.updRst fun r => { r with nvBusy := none }).rst.held = none := s.pulseEnd_held.trans free
    exact congrArg _ ((if_pos (by simp [busy])).trans (if_neg (by rw [still]; decide)))
  case heldPulse =>
    intro s busy held
    have still : (s.pulseEnd.updRst fun r => { r with nvBusy := none }).rst.held.isSome = true :=
      (congrArg _ s.pulseEnd_held).trans held
    exact congrArg _ ((if_pos (by simp [busy])).trans (if_pos still))
  case write =>
    intro s k busy
    have ran : exec .nvWriteEnd s = .next (if s.rst.held.isSome then s.heldStart
        else s.updRst fun r => { r with nvBusy := if s.thimble.update.isSome then some 1 else none }) := by
      simp only [exec, execNvWriteEnd, busy]
      exact congrArg _ (if_neg (Nat.succ_ne_zero k))
    exact ⟨fun held => ran.trans (congrArg _ (if_pos held)), fun free => ran.trans (congrArg _ (if_neg (by rw [free]; decide)))⟩

end Sys2Proof.Machine
end

section
/-!
PROOFS of `Obligations.SpdmAnswers` (O44): the SPDM responder answers in the order of its dialogue.
-/

namespace Sys2Proof.Machine

variable {s t u : State}

/-! ### What a response changes -/

/-- A response changes the state of its bus's dialogue alone, and neither its step nor its version. -/
def Speaks (bus : Nat) (s t : State) : Prop := { t with thimble := { t.thimble with spdm := s.thimble.spdm } } = s ∧
  (t.spdm bus).st = (s.spdm bus).st ∧ (t.spdm bus).version = (s.spdm bus).version

theorem Speaks.refl (bus : Nat) (s : State) : Speaks bus s s := ⟨rfl, rfl, rfl⟩

theorem Speaks.trans {bus : Nat} (a : Speaks bus s t) (b : Speaks bus t u) : Speaks bus s u := by
  obtain ⟨aRest, aStep, aVersion⟩ := a
  obtain ⟨bRest, bStep, bVersion⟩ := b
  refine ⟨?_, bStep.trans aStep, bVersion.trans aVersion⟩
  rw [← bRest] at aRest
  exact aRest

theorem State.spdm_updSpdm (s : State) (bus : Nat) (f : SpdmS → SpdmS) : (s.updSpdm bus f).spdm bus = f (s.spdm bus) := AMap.get_upd_same ..

theorem Speaks.updSpdm (bus : Nat) (s : State) (f : SpdmS → SpdmS) (step : (f (s.spdm bus)).st = (s.spdm bus).st)
    (version : (f (s.spdm bus)).version = (s.spdm bus).version) : Speaks bus s (s.updSpdm bus f) :=
  ⟨rfl, by rw [State.spdm_updSpdm, step], by rw [State.spdm_updSpdm, version]⟩

theorem Speaks.spdmNote (bus : Nat) (s : State) (bs : Bytes) : Speaks bus s (s.spdmNote bus bs) := .updSpdm _ _ _ rfl rfl

theorem Speaks.spdmOut (bus : Nat) (s : State) (r : SpdmRsp) : Speaks bus s (s.spdmOut bus r) := .updSpdm _ _ _ rfl rfl

theorem Speaks.spdmReply (bus : Nat) (s : State) (code p1 p2 : Nat) (body : Bytes) : Speaks bus s (s.spdmReply bus code p1 p2 body) := by
  unfold State.spdmReply
  split
  · exact .spdmOut ..
  · exact (Speaks.updSpdm _ _ _ rfl rfl).trans (.spdmOut ..)

/-- A request that moves the dialogue on, and what follows it. -/
theorem Speaks.moved {bus : Nat} {f : SpdmS → SpdmS} (h : Speaks bus (s.updSpdm bus f) t) :
    (t.spdm bus).st = (f (s.spdm bus)).st ∧ (t.spdm bus).version = (f (s.spdm bus)).version ∧
      { t with thimble := { t.thimble with spdm := s.thimble.spdm } } = s := by
  obtain ⟨rest, step, version⟩ := h
  rw [State.spdm_updSpdm] at step version
  exact ⟨step, version, congrArg (fun x => { x with thimble := { x.thimble with spdm := s.thimble.spdm } }) rest⟩

/-! ### The guards of a request -/

theorem State.spdmDo_open {bus : Nat} (f : State → State) (opened : s.spdmOpen bus = true) : s.spdmDo bus f = f s := if_pos opened

theorem State.spdmReady_agreed {bus : Nat} {m : SpdmReq} (f : State → State) (agreed : (s.spdm bus).st = 3)
    (version : m.version = (s.spdm bus).version) : s.spdmReady bus m f = f s := by
  simp [State.spdmReady, agreed, version]

theorem State.spdmIdentity_there {bus : Nat} (f : State → State) (there : s.thimble.idLost = false) : s.spdmIdentity bus f = f s :=
  if_neg (by simp [there])

theorem State.spdmIdentity_lost {bus : Nat} (f : State → State) (lost : s.thimble.idLost = true) :
    s.spdmIdentity bus f = s.spdmError bus 5 0 [] := if_pos lost

/-- A request that needs the algorithms agreed (R460). -/
theorem spdm_in_order {bus : Nat} {m : SpdmReq} {c : Instr} {f : State → State} (ran : exec c s = .next (s.spdmDo bus f))
    {g : State → State} (ready : f s = s.spdmReady bus m g) :
    (s.spdmOpen bus = false → exec c s = .next s) ∧
    (s.spdmOpen bus = true → (s.spdm bus).st ≠ 3 → exec c s = .next (s.spdmError bus 4 0 [])) ∧
    (s.spdmOpen bus = true → (s.spdm bus).st = 3 → m.version ≠ (s.spdm bus).version → exec c s = .next (s.spdmError bus 0x41 0 [])) ∧
    (s.spdmOpen bus = true → (s.spdm bus).st = 3 → m.version = (s.spdm bus).version → exec c s = .next (f s)) := by
  refine ⟨fun closed => ?_, fun opened early => ?_, fun opened agreed other => ?_, fun opened _ _ => ?_⟩
  · exact ran.trans (congrArg _ (if_neg (by simp [closed])))
  · rw [ran, State.spdmDo_open f opened, ready]
    simp [State.spdmReady, early]
  · rw [ran, State.spdmDo_open f opened, ready]
    simp [State.spdmReady, agreed, other]
  · rw [ran, State.spdmDo_open f opened]

/-- Settles O44: the SPDM responder, by the step of its dialogue. -/
theorem spdmAnswers : Obligations.SpdmAnswers := by
  unfold Obligations.SpdmAnswers
  refine ⟨?version, ?capabilities, ?algorithms, ?order, ?identity, ?lost⟩
  case version =>
    intro s bus m opened version
    have ran : exec (.getVersion bus m) s = .next (s.spdmVersion bus m) := congrArg _ (State.spdmDo_open _ opened)
    refine ⟨_, ran, ?_⟩
    rw [State.spdmVersion, if_neg (by simp [version])]
    obtain ⟨step, -, rest⟩ := (Speaks.spdmReply bus _ 4 0 0 _).moved
    exact ⟨step, rest⟩
  case capabilities =>
    intro s bus m opened step version
    have ran : exec (.getCapabilities bus m) s = .next (s.spdmCapabilities bus m) := congrArg _ (State.spdmDo_open _ opened)
    refine ⟨_, ran, ?_⟩
    have known : ¬(m.version != 0x12 && m.version != 0x13) = true := by
      simp
      omega
    rw [State.spdmCapabilities, if_neg (by simp [step]), if_neg known]
    exact ((Speaks.spdmNote bus _ _).trans (.spdmReply ..)).moved
  case algorithms =>
    intro s bus m opened step version sig hash
    have ran : exec (.negotiateAlgorithms bus m) s = .next (s.spdmAlgorithms bus m) := congrArg _ (State.spdmDo_open _ opened)
    refine ⟨_, ran, ?_⟩
    rw [State.spdmAlgorithms, if_neg (by simp [step]), if_neg (by simp [version]), if_neg (by simp [sig, hash])]
    obtain ⟨step, -, rest⟩ := ((Speaks.spdmNote bus (s.updSpdm bus fun x => { x with st := 3 }) _).trans (.spdmReply ..)).moved
    exact ⟨step, rest⟩
  case order =>
    intro e he s bus m
    simp only [List.mem_cons, List.not_mem_nil, or_false] at he
    rcases he with rfl | rfl | rfl | rfl | rfl | rfl | rfl | rfl
    · exact spdm_in_order rfl (State.spdmDigests.eq_1 ..)
    · exact spdm_in_order rfl (State.spdmCertificate.eq_1 ..)
    · exact spdm_in_order rfl (State.spdmChallenge.eq_1 ..)
    · exact spdm_in_order rfl (State.spdmMeasurements.eq_1 ..)
    · exact spdm_in_order rfl (State.spdmChunkSend.eq_1 ..)
    · exact spdm_in_order rfl (State.spdmChunkGet.eq_1 ..)
    · exact spdm_in_order rfl (State.spdmReport.eq_1 ..)
    · exact spdm_in_order rfl (State.spdmPqCert.eq_1 ..)
  case identity =>
    intro s bus m agreed version there
    have served (f : State → State) : s.spdmReady bus m (fun s => s.spdmIdentity bus f) = f s :=
      (State.spdmReady_agreed _ agreed version).trans (State.spdmIdentity_there f there)
    refine ⟨served _, served _, fun few => (served _).trans (if_neg (Nat.not_le.mpr few)), fun many => (served _).trans (if_pos many),
      fun slot => ⟨(Config.rsaChain.drop m.a).take m.b, Config.rsaChain.drop (m.a + ((Config.rsaChain.drop m.a).take m.b).length), rfl, rfl, ?_⟩⟩
    refine (served _).trans ?_
    split
    · next within =>
      refine (if_neg ?_).trans ?_
      · simp [slot, within]
      · rw [List.length_drop, ← Nat.sub_sub]
    · next past => exact if_pos (by simp [Nat.not_lt.mp past])
  case lost =>
    intro s bus m agreed version lost u hu
    simp only [List.mem_cons, List.not_mem_nil, or_false] at hu
    have refused (f : State → State) : s.spdmReady bus m (fun s => s.spdmIdentity bus f) = s.spdmError bus 5 0 [] :=
      (State.spdmReady_agreed _ agreed version).trans (State.spdmIdentity_lost f lost)
    rcases hu with rfl | rfl | rfl | rfl | rfl <;> exact refused _

end Sys2Proof.Machine
end

section
/-!
PROOFS of `Obligations.StagesFollowInOrder` (O47): the stages of bring-up, from the rails to the partitions.
-/

namespace Sys2Proof.Machine

variable {s t u : State}

/-! ### The memory stage changes the tiers alone -/

/-- `t` differs from `s` in the tiers of memory alone. -/
def TiersOnly (s t : State) : Prop := { t with mem := s.mem } = s

theorem TiersOnly.updMem (f : MemS → MemS) (h : TiersOnly s t) : TiersOnly s (t.updMem f) := h

theorem TiersOnly.formTriple (far : Bool) (h : TiersOnly s t) : TiersOnly s (t.formTriple far) := by
  unfold State.formTriple
  split
  · split
    · exact h
    · exact h
  · exact h

theorem TiersOnly.fld {α : Type} (h : TiersOnly s t) (f : State → α) (g : ∀ (x : State) m, f { x with mem := m } = f x) : f t = f s :=
  (g t s.mem).symm.trans (congrArg f h)

theorem TiersOnly.memRelease (s : State) (bad : Nats) : TiersOnly s (s.memRelease bad) := by
  unfold State.memRelease
  refine State.each_keeps (P := TiersOnly s) (fun i _ t ht => ?_) (State.each_keeps (P := TiersOnly s) (fun _ _ t ht => ?_) rfl)
  · split
    · exact ht
    · exact ht
  · exact (ht.formTriple false).formTriple true

/-- Partition 0 is ACTIVE from its release on (R490). -/
theorem State.partZero_st (s : State) : (s.partZero.part 0).st = 2 := by
  have owns := State.allot_owns { s with parts := AMap.set s.parts 0 { st := 2, held := true } } 0 zeroCounts
  simp only [PartS.owns, Prod.mk.injEq] at owns
  obtain ⟨st, -⟩ := owns
  exact st.trans (congrArg PartS.st (AMap.get_set_same ..))

/-- Settles O47: the stages of bring-up, each by its own branch of the release. -/
theorem stagesFollowInOrder : Obligations.StagesFollowInOrder := by
  unfold Obligations.StagesFollowInOrder
  have on {s : State} (runs : s.alive = true) : ¬(!s.alive) = true := by simp [runs]
  refine ⟨?rails, ?waits, ?thimble, ?memory, ?hub, ?host, ?parts, ?released, ?after⟩
  case rails =>
    intro s b ok idOk bad runs stage
    have ran : exec (.stageRelease b ok idOk bad) s = .next
        { s.updRst (fun r => { r with stage := 1 }) with pins := { s.pins with pwrOk := true } } := by
      simp only [exec, execStageRelease, if_neg (on runs), stage]
      rfl
    exact ⟨_, ran, rfl, rfl, rfl⟩
  case waits =>
    intro s u b ok idOk bad runs stage waits
    simp only [exec, execStageRelease, if_neg (on runs), stage, waits]
    rfl
  case thimble =>
    intro s u b ok bad runs stage done
    have ran : exec (.stageRelease b ok true bad) s = .next
        ((u.updRst (fun x => { x with stage := 2, imagesVoid := false, bundleReady := false })).updThimble (fun t => { t with idLost := false })) := by
      simp only [exec, execStageRelease, if_neg (on runs), stage, done]
      rfl
    exact ⟨_, ran, rfl, rfl, rfl⟩
  case memory =>
    intro s b ok idOk bad runs stage cold
    have ran : exec (.stageRelease b ok idOk bad) s = .next ((s.memRelease bad).updRst (fun r => { r with stage := 3 })) := by
      simp only [exec, execStageRelease, if_neg (on runs), stage, cold]
      rfl
    have same := TiersOnly.memRelease s bad
    have rst := same.fld State.rst fun _ _ => rfl
    have devMem := same.fld State.devMem fun _ _ => rfl
    have host := same.fld State.host fun _ _ => rfl
    refine ⟨_, ran, ?_⟩
    simp only [State.updRst, rst, devMem, host, and_self]
  case hub =>
    intro s b idOk bad runs stage
    refine ⟨fun cold => ?_, ?_⟩
    · have ran : exec (.stageRelease b false idOk bad) s = .next ((s.updRst (fun r => { r with stage := 4, hubFailed := true })).postRec
          { cls := 15, reason := 1, d0 := 15, d3 := 1, logOnly := true }) := by
        simp only [exec, execStageRelease, if_neg (on runs), stage]
        exact congrArg _ (if_pos (by simp [cold]))
      refine ⟨_, ran, ?_⟩
      rw [((Aside.refl _).postRec _).fld State.rst fun _ => rfl]
      exact ⟨rfl, rfl⟩
    · simp only [exec, execStageRelease, if_neg (on runs), stage]
      exact congrArg _ (if_neg (by simp))
  case host =>
    intro s b ok idOk bad runs stage
    refine ⟨fun failed => ?_, fun fine => ?_⟩
    · simp only [exec, execStageRelease, if_neg (on runs), stage]
      exact congrArg _ (if_pos failed)
    · cases high : s.pins.perstN with
      | true =>
        have ran : exec (.stageRelease b ok idOk bad) s = .next
            ((s.updRst (fun r => { r with stage := 5, perstHold := false })).updHost (fun h => { h with rrs := false })) := by
          simp only [exec, execStageRelease, if_neg (on runs), stage, fine, high]
          rfl
        exact ⟨_, ran, rfl, rfl, rfl⟩
      | false =>
        have ran : exec (.stageRelease b ok idOk bad) s = .next (s.updRst (fun r => { r with stage := 5, perstHold := true })) := by
          simp only [exec, execStageRelease, if_neg (on runs), stage, fine, high]
          rfl
        exact ⟨_, ran, rfl, rfl, rfl⟩
  case parts =>
    intro s b ok idOk bad runs stage
    simp only [exec, execStageRelease, if_neg (on runs), stage]
    rfl
  case released =>
    intro s noParts noBlocks
    have begun : s.partsRelease = (s.updRst (fun r => { r with stage := 6, warm := false, heldParts := [], heldBlocks := [] })).partZero := by
      rw [State.partsRelease, noParts, noBlocks]
      rfl
    exact ⟨_, begun, rfl, rfl, State.partZero_st _⟩
  case after =>
    intro s b ok idOk bad past
    rcases past with off | late
    · exact congrArg _ (if_pos (by simp [off]))
    · have past : ∀ k < 6, s.rst.stage.toNat ≠ k := fun k hk => by omega
      simp only [exec, execStageRelease]
      split
      · rfl
      · split
        case h_7 => rfl
        all_goals next stage => exact absurd stage (past _ (by decide))

end Sys2Proof.Machine
end

section
/-!
PROOFS of `Obligations.ManagementAndResetCommandsReply` (O13): management, reset, power, log and test commands.
-/

namespace Sys2Proof.Machine

variable {s t : State}

/-- An admitted command whose reply comes later, and that is not long. -/
theorem exec_waits {h : Issue} {op : Nat} {vals : Nats} {body : State → Ans} {o : Out} (ran : o = .next (vuino h op vals body s))
    (ok : s.admits h op vals = true) (does : body s = Ans.wait t) (brief : ∀ i, opInfo op = some i → i.long = false) :
    o = .next (t.owe h) :=
  ran.trans (congrArg _ (vuino_owes ok does rfl brief))

/-! ### Resets -/

/-- A cold reset leaves the cleared state, but for the straps that it samples or the reset that goes on. -/
theorem State.coldReset_fld {α : Type} (s : State) (cause : Nat) (f : State → α) (beyond : ∀ x : State, f x.beyond = f x)
    (straps : ∀ (x : State) b, f { x with straps := b } = f x) (held : ∀ x : State, f (x.updRst fun r => { r with inReset := true }) = f x) :
    f (s.coldReset cause) = f (s.coldClear (BitVec.ofNat 4 cause)) := by
  have sampled (x : State) : Aside { x with straps := x.pins.strap } x.sampleStraps := (Aside.refl _).onIf fun t => (Aside.refl t).postRec _
  unfold State.coldReset
  dsimp only
  split
  · exact ((sampled _).fld f beyond).trans (straps _ _)
  · exact held _

/-- The stage and the counts of resets after a cold reset. -/
def ResetS.begun (r : ResetS) : BitVec 4 × BitVec 4 × BitVec 8 := (r.stage, r.lastCause, r.warmCount)

theorem State.coldReset_begun (s : State) (cause : Nat) : (s.coldReset cause).rst.begun = (0, BitVec.ofNat 4 cause, 0) :=
  s.coldReset_fld cause (fun x => x.rst.begun) (fun _ => rfl) (fun _ _ => rfl) fun _ => rfl

/-! ### Sleep (R496) -/

/-- The lasers of a port that goes to sleep are off, unless it is out of service (R497). -/
def State.lightsOff (n : Nat) (t : State) : State := t.onIf ((t.port n).state != 6) (fun t => t.updPort n (fun p => { p with els := true }))

theorem State.lightsOff_port (s : State) (j n : Nat) :
    (State.lightsOff j s).port n = s.port n ∨ (State.lightsOff j s).port n = { s.port n with els := true } := by
  unfold State.lightsOff State.onIf
  split
  · rw [State.port_updPort]
    split
    · next same => exact .inr (by rw [same.1])
    · exact .inl rfl
  · exact .inl rfl

theorem State.lightsOff_els {n : Nat} (real : n < 32) (serves : (s.port n).state ≠ 6) : ((State.lightsOff n s).port n).els = true := by
  have on : ((s.port n).state != 6) = true := bne_iff_ne.mpr serves
  simp only [State.lightsOff, State.onIf, if_pos on, State.port_updPort_same real]

theorem State.sleeps_only (s : State) : { s.each (List.range 32) State.lightsOff with ports := s.ports } = s := by
  refine State.each_keeps (P := fun t => { t with ports := s.ports } = s) (fun n _ t only => ?_) rfl
  unfold State.lightsOff State.onIf State.updPort
  split
  · split
    · exact only
    · exact only
  · exact only

theorem portsOnly_power (only : { t with ports := s.ports } = s) (power : PowerS) :
    t.power = s.power ∧ { t with power, ports := s.ports } = { s with power } := by
  have same := congrArg State.power only
  have rest := congrArg (fun x : State => { x with power }) only
  exact ⟨same, rest⟩

theorem State.sleeps_els {n : Nat} (real : n < 32) (serves : (s.port n).state ≠ 6) :
    ((s.each (List.range 32) State.lightsOff).port n).els = true := by
  refine State.each_settles (I := fun x => (x.port n).state = (s.port n).state) (P := fun x => (x.port n).els = true)
    (List.mem_range.mpr real) (fun j _ x same => ?_) (fun x same => ?_) (fun j _ x on => ?_) rfl
  · rcases x.lightsOff_port j n with kept | off
    · rw [kept, same]
    · rw [off, ← same]
  · exact State.lightsOff_els real (by rw [same]; exact serves)
  · rcases x.lightsOff_port j n with kept | off
    · rw [kept, on]
    · rw [off]

theorem State.sleepBegin_eq (s : State) (st : Nat) (h : Issue) : s.sleepBegin st h =
    (s.updPower fun p => { p with state := 3, target := some (BitVec.ofNat 8 st), issue := some h }).each (List.range 32) State.lightsOff := rfl

/-! ### Loop-backs (R526) -/

theorem State.trainCold_lb (s : State) (n : Nat) : (s.trainCold n).lb = s.lb := by
  unfold State.trainCold State.updPort
  split
  · split <;> rfl
  · rfl

theorem State.lbStart_lb (s : State) (kind index depth j : Nat) :
    (s.lbStart kind index depth j).lb = AMap.set s.lb j { st := 1, depth := BitVec.ofNat 4 depth } := by
  have stopped (t : State) (f : PortS → PortS) : (t.updPort index f).lb = t.lb := by
    unfold State.updPort
    split <;> rfl
  unfold State.lbStart State.onIf
  dsimp only
  split
  · rfl
  · split
    · rw [State.trainCold_lb, stopped]
    · rfl

/-- Settles O13: the management, reset, power, log and test commands, by what each body does on a request that passes. -/
theorem managementAndResetCommandsReply : Obligations.ManagementAndResetCommandsReply := by
  unfold Obligations.ManagementAndResetCommandsReply
  refine ⟨?port, ?wake, ?warm, ?cold, ?leave, ?enter, ?cap, ?log, ?loop, ?bist⟩
  case port =>
    intro s h mode ip mask gw port slot ok modes ported named t
    have passes : ¬(decide (1 < mode) || decide (port = 0) || (slot != 0xFFFF && !s.oobSlotOk slot)) = true := by
      rcases named with none | slotOk
      · simp [none, ported]
        omega
      · simp [slotOk, ported]
        omega
    exact exec_answers (a := Ans.ok t) rfl ok (if_neg passes) rfl
  case wake =>
    intro s h k en len mask pat ok few ens least most w t
    have passes : ¬(decide (7 < k) || decide (1 < en) || decide (len = 0) || decide (128 < len)) = true := by
      simp
      omega
    exact exec_answers (a := Ans.ok t) rfl ok (if_neg passes) rfl
  case warm =>
    intro s h ok runs free stage idle fresh
    have begun : s.warmTrigger 3 (0, 0, 0) = s.warmReset 3 (0, 0, 0) := by
      simp [State.warmTrigger, runs, free, stage, idle, fresh]
    have ran : exec (.resetWarm h) s = .next ((s.warmReset 3 (0, 0, 0)).owe h) := by
      refine exec_waits rfl ok ?_ (by decide)
      exact congrArg Ans.wait begun
    exact ⟨_, ran, rfl, rfl, rfl, rfl, rfl, rfl, rfl, rfl, rfl⟩
  case cold =>
    intro s h ok powered idle
    have begun : s.coldTrigger 2 = s.coldReset 2 := by simp [State.coldTrigger, powered, idle]
    have ran : exec (.resetCold h) s = .next ((s.coldReset 2).owe h) := by
      refine exec_waits rfl ok ?_ (by decide)
      exact congrArg Ans.wait begun
    have rst := s.coldReset_begun 2
    simp only [ResetS.begun, Prod.mk.injEq] at rst
    obtain ⟨stage, cause, count⟩ := rst
    have cleared {α : Type} := s.coldReset_fld (α := α) 2
    exact ⟨_, ran, stage, cause, count, cleared State.devidValid (fun _ => rfl) (fun _ _ => rfl) fun _ => rfl,
      cleared State.conns (fun _ => rfl) (fun _ _ => rfl) fun _ => rfl, cleared State.keys (fun _ => rfl) (fun _ _ => rfl) fun _ => rfl,
      cleared State.devMem (fun _ => rfl) (fun _ _ => rfl) fun _ => rfl, cleared State.pending (fun _ => rfl) (fun _ _ => rfl) fun _ => rfl⟩
  case leave =>
    intro s h ok slumber t
    refine exec_waits rfl ok ?_ (by decide)
    simp only [slumber]
    rfl
  case enter =>
    intro s h st ok which awake quiet
    have ran : exec (.powerState h st) s = .next ((s.sleepBegin st h).owe h) := by
      refine exec_waits rfl ok ?_ (by decide)
      have known : ¬(st != 0 && st != 2 && st != 3) = true := by
        simp
        omega
      have stirs : ¬(!s.quiet) = true := by simp [quiet]
      dsimp only
      rw [if_neg known, if_neg (by omega : ¬s.power.state.toNat = 3), if_neg (by omega : ¬st = 0), if_neg (by omega : ¬st = s.power.state.toNat), if_neg stirs]
    rw [State.sleepBegin_eq] at ran
    have only := (s.updPower fun p => { p with state := 3, target := some (BitVec.ofNat 8 st), issue := some h }).sleeps_only
    obtain ⟨power, rest⟩ := portsOnly_power only s.power
    refine ⟨_, ran, power, rest, fun n real serves => ?_⟩
    exact State.sleeps_els real serves
  case cap =>
    intro s h w ok least most t
    have range : ¬(decide (w < 300) || decide (1100 < w)) = true := by simp; omega
    exact exec_answers (a := Ans.ok t [sc 8 t.powerStat.toNat]) rfl ok (if_neg range) rfl
  case log =>
    intro s h first count c ok indirect clears least fits t
    have passes : ¬(!h.indirect || decide (255 < first) || decide (count = 0) || decide (256 < first + count) || decide (1 < c)) = true := by
      simp [indirect]
      omega
    refine exec_answers (a := Ans.ok t _) rfl ok ((if_neg passes).trans ?_) rfl
    refine congrArg (Ans.ok · _) ?_
    simp only [State.onIf, beq_iff_eq]
    rfl
  case loop =>
    intro s h kind index depth ms j ok found least most short long ended idle
    have ran : exec (.loopbackSet h kind index depth ms) s = .next
        ((s.lbStart kind index depth j).answer h 0x0B30 (Ans.ok (s.lbStart kind index depth j)) true) := by
      refine exec_answers (a := Ans.ok (s.lbStart kind index depth j)) rfl ok ?_ rfl
      have passes : ¬(decide (lbDepths kind < depth) || decide (ms = 0) || decide (60000 < ms)) = true := by
        simp
        omega
      have stays : ¬((AMap.get s.lb j {}).st == 1 || !s.lbIdle kind index depth) = true := by
        rw [beq_false_of_ne ended, idle]
        decide
      simp only [found]
      exact (if_neg passes).trans ((if_neg (by omega)).trans (if_neg stays))
    refine ⟨_, ran, ?_⟩
    rw [State.lbStart_lb]
    exact ⟨AMap.get?_set_same .., fun k other => AMap.get?_set_other _ _ other⟩
  case bist =>
    intro s h target index ok range idle room u t
    refine congrArg _ (vuino_begins (a := Ans.wait t) ok ?_ rfl (by decide) room)
    have known : ¬(decide (3 < target) || decide (([64, 1, 96, 4] : Nats).getD target 0 ≤ index)) = true := by
      rcases range with ⟨rfl, low⟩ | ⟨rfl, low⟩ | ⟨rfl, low⟩ | ⟨rfl, low⟩ <;> simp <;> omega
    refine (if_neg known).trans ((if_neg (by simp [idle])).trans ?_)
    refine congrArg Ans.wait ?_
    simp only [State.onIf, beq_iff_eq]
    rfl

end Sys2Proof.Machine
end

section
/-!
PROOFS of `Obligations.ResetsAct` (O46): cold and warm resets start, wait, and let go.
-/

namespace Sys2Proof.Machine

variable {s : State}

/-- A cold reset goes on while power, the oscillator or RESET_N holds it (R485). -/
theorem State.coldReset_inReset (cause : Nat) (holds : (s.pins.resetN && s.pins.oscOk && s.pins.powered) = false) :
    (s.coldReset cause).rst.inReset = true := by
  have stays : ¬((s.coldClear (BitVec.ofNat 4 cause)).pins.resetN && (s.coldClear (BitVec.ofNat 4 cause)).pins.oscOk &&
      (s.coldClear (BitVec.ofNat 4 cause)).pins.powered) = true := Bool.eq_false_iff.mp holds
  exact congrArg (fun x : State => x.rst.inReset) (if_neg stays)

/-- A cold reset keeps what the pins carry in. -/
theorem State.coldReset_powered (s : State) (cause : Nat) : (s.coldReset cause).pins.powered = s.pins.powered :=
  s.coldReset_fld cause (fun x => x.pins.powered) (fun _ => rfl) (fun _ _ => rfl) fun _ => rfl

theorem State.coldTrigger_free {cause : Nat} (powered : s.pins.powered = true) (idle : s.rst.nvBusy = none) :
    s.coldTrigger cause = s.coldReset cause := by
  simp [State.coldTrigger, powered, idle]

/-- RESET_CTL of the manager's function while the adapter answers it (R500). -/
theorem State.resetCtl_open {v : Nat} (powered : s.pins.powered = true) (runs : s.rst.inReset = false) (awake : s.rst.dormant = false)
    (released : 5 ≤ s.rst.stage.toNat) (settled : (s.part 0).resetStep = 0) : s.resetCtl 0 v =
      if v / 2 ^ 48 % 2 ^ 16 != 0xA5C3 || v % 4 = 3 then s.updRst (fun r => { r with ctlRefused := satAdd r.ctlRefused 1 })
      else if v % 4 = 2 then s.coldTrigger (s.coldCause 2)
      else if v % 4 = 1 then s.warmTrigger 3 (0, 0, 0)
      else s := by
  refine if_neg ?_
  simp [powered, runs, awake, released, settled]

/-- Settles O46: resets, each event by its branch of the model. -/
theorem resetsAct : Obligations.ResetsAct := by
  unfold Obligations.ResetsAct
  refine ⟨?on, ?off, ?glitch, ?pulse, ?between, ?holds, ?waits, ?release, ?letGo, ?oscillator, ?refclk, ?control, ?warm⟩
  case on =>
    intro s off
    exact congrArg _ (if_neg (by simp [off]))
  case off =>
    intro s powered
    exact ⟨congrArg _ (if_pos powered), congrArg _ (if_pos powered), State.coldReset_powered _ 0, State.coldReset_inReset 0 (by simp)⟩
  case glitch =>
    intro s ns short
    exact congrArg _ (if_pos short)
  case pulse =>
    intro s ns long
    exact congrArg _ ((if_neg (by omega)).trans (if_pos long))
  case between =>
    intro s ns least most
    have ran : exec (.resetNAssert ns) s = .next (if bitAt s.freshVal.1 0
        then ({ s with fresh := s.fresh + 1, pins := { s.pins with resetN := false } } : State).coldTrigger (s.coldCause 1)
        else { s with fresh := s.fresh + 1 }) := congrArg _ ((if_neg (by omega)).trans (if_neg (by omega)))
    refine ⟨s.fresh + 1, ?_⟩
    cases seen : bitAt s.freshVal.1 0 with
    | true => exact .inr (ran.trans (congrArg _ (if_pos seen)))
    | false => exact .inl (ran.trans (congrArg _ (if_neg (by simp [seen]))))
  case holds =>
    intro s powered idle low
    refine ⟨_, State.coldTrigger_free powered idle, State.coldReset_inReset _ (by simp [low])⟩
  case waits =>
    intro s powered busy cause
    simp only [State.coldTrigger, powered, busy]
    rfl
  case release => exact fun s => ⟨rfl, rfl⟩
  case letGo =>
    intro s held high osc powered
    exact if_pos (by simp [held, high, osc, powered])
  case oscillator =>
    intro s runs
    exact congrArg _ (if_pos runs)
  case refclk =>
    intro s mode runs
    exact congrArg _ (if_neg (by simp [runs]; omega))
  case control =>
    intro s v powered runs awake released settled c hc
    have ran : exec c s = .next (s.resetCtl 0 v) := by
      simp only [List.mem_cons, List.not_mem_nil, or_false] at hc
      rcases hc with rfl | rfl <;> rfl
    rw [ran, State.resetCtl_open powered runs awake released settled]
    refine ⟨fun key cold => ?_, fun key warm => ?_, fun refused => ?_⟩
    · rw [key, cold]
      rfl
    · rw [key, warm]
      rfl
    · exact congrArg _ (if_pos (by simpa using refused))
  case warm =>
    intro s cause fits runs free stage idle
    have ran : exec (.warmReset cause) s = .next (if s.warmRefused then s.haltEnter cause (0, 0, 0) else s.warmReset cause (0, 0, 0)) := by
      simp [exec, execWarmReset, State.warmTrigger, runs, free, stage, idle, Nat.mod_eq_of_lt fits]
    exact ⟨fun refused => ran.trans (congrArg _ (if_pos refused)), fun granted => ran.trans (congrArg _ (if_neg (by simp [granted])))⟩

end Sys2Proof.Machine
end

section
/-!
PROOFS of `Obligations.ManagementEventsAct` (O45): the management port, tacking and out-of-band requests.
-/

namespace Sys2Proof.Machine

variable {s t : State}

/-! ### The check of a neighbour leaves the adapter's own ID -/

/-- The adapter's own ID. -/
def State.name (s : State) : Bool × BitVec 16 := (s.devidValid, s.devid)

@[simp] theorem State.updPort_name (s : State) (n : Nat) (f : PortS → PortS) : (s.updPort n f).name = s.name := by
  unfold State.updPort
  split <;> rfl

@[simp] theorem State.updTape_name (s : State) (f : TapeS → TapeS) : (s.updTape f).name = s.name := rfl
@[simp] theorem State.updConn_name (s : State) (c : Nat) (f : ConnS → ConnS) : (s.updConn c f).name = s.name := rfl
@[simp] theorem State.updOutq_name (s : State) (n vc : Nat) (f : List QPkt → List QPkt) : (s.updOutq n vc f).name = s.name := rfl
@[simp] theorem State.cntPort_name (s : State) (n i k : Nat) : (s.cntPort n i k).name = s.name := State.updPort_name ..
@[simp] theorem State.updStop_name (s : State) (n : Nat) : (s.updStop n).name = s.name := State.updPort_name ..

theorem State.onIf_name {b : Bool} {f : State → State} (h : ∀ x, (f x).name = x.name) : (s.onIf b f).name = s.name := by
  cases b
  · rfl
  · exact h s

@[simp] theorem State.freeSlots_name (s : State) (n vc k : Nat) : (s.freeSlots n vc k).name = s.name := by
  unfold State.freeSlots
  split
  · rfl
  · dsimp only
    rw [State.updStop_name, State.onIf_name fun x => State.updPort_name .., State.updPort_name]

@[simp] theorem State.dropOwn_name (s : State) (q : QPkt) : (s.dropOwn q).name = s.name := by
  unfold State.dropOwn
  split <;> rfl

@[simp] theorem State.dropQueued_name (s : State) (n : Nat) : (s.dropQueued n).name = s.name := by
  refine State.each_keeps (P := fun t => t.name = s.name) (fun vc _ t same => ?_) rfl
  refine State.eachOf_keeps (P := fun t => t.name = s.name) (fun q _ u same => ?_) ?_
  · split
    · rw [State.dropOwn_name, same]
    · split
      · exact same
      · rw [State.freeSlots_name, same]
  · rw [State.cntPort_name, State.updOutq_name, same]

@[simp] theorem State.leaveMatch_name (s : State) (n : Nat) : (s.leaveMatch n).name = s.name := by
  simp [State.leaveMatch, State.dropReplay]

@[simp] theorem State.linkRec_name (s : State) (n reason : Nat) : (s.linkRec n reason).name = s.name :=
  ((Aside.refl s).postRec _).fld State.name fun _ => rfl

@[simp] theorem State.chooseUpstream_name (s : State) : s.chooseUpstream.name = s.name := by
  unfold State.chooseUpstream
  split
  · rfl
  · dsimp only
    split <;> rfl

@[simp] theorem State.checkPort_name (s : State) (n : Nat) : (s.checkPort n).name = s.name := by
  unfold State.checkPort
  dsimp only
  rw [State.onIf_name State.chooseUpstream_name, State.onIf_name fun x => x.linkRec_name n 1, State.onIf_name fun x => x.leaveMatch_name n,
    State.updPort_name]

/-- An adapter that takes an ID has it, whatever its ports then find of their neighbours (R476). -/
theorem State.takeDevid_name (s : State) (id : Nat) : (s.takeDevid id).name = (true, BitVec.ofNat 16 id) :=
  State.each_keeps (P := fun t => t.name = (true, BitVec.ofNat 16 id)) (fun n _ t same => (t.checkPort_name n).trans same) rfl

/-! ### The management port's own changes -/

/-- `t` differs from `s` in the management port alone. -/
def MgmtOnly (s t : State) : Prop := { t with mgmt := s.mgmt } = s

theorem MgmtOnly.refl (s : State) : MgmtOnly s s := rfl
theorem MgmtOnly.updMgmt (f : MgmtS → MgmtS) (h : MgmtOnly s t) : MgmtOnly s (t.updMgmt f) := h
theorem MgmtOnly.cntMgmt (i n : Nat) (h : MgmtOnly s t) : MgmtOnly s (t.cntMgmt i n) := h.updMgmt _
theorem MgmtOnly.macQueue (f : MgmtFrame) (h : MgmtOnly s t) : MgmtOnly s (t.macQueue f) := h.updMgmt _
@[simp] theorem State.macQueue_txq (s : State) (f : MgmtFrame) : (s.macQueue f).mgmt.txq = s.mgmt.txq ++ [{ f with src := s.mgmt.eui }] := rfl
@[simp] theorem State.cntMgmt_mgmt (s : State) (i n : Nat) :
    (s.cntMgmt i n).mgmt = { s.mgmt with cnt := AMap.upd s.mgmt.cnt i 0 (satAdd · n) } := rfl

/-- An ID that the row master gives depends on its origin alone. -/
theorem State.idAt_updMgmt (s : State) {f : MgmtS → MgmtS} (plane : (f s.mgmt).originPlane = s.mgmt.originPlane)
    (row : (f s.mgmt).originRow = s.mgmt.originRow) (col : Nat) : (s.updMgmt f).idAt col = s.idAt col := by
  simp only [State.idAt, State.updMgmt_mgmt, plane, row]
  rfl

theorem MgmtOnly.sendOffer (eui : BitVec 48) (col : Nat) (h : MgmtOnly s t) : MgmtOnly s (t.sendOffer eui col) := h.macQueue _

/-! ### Frames that the MAC takes (R472) -/

/-- A good frame is counted, and taken. -/
theorem exec_frame {o : Out} {ok : Bool} {bad : Nat} {f : State → State} (ran : o = .next (s.macTake ok bad f)) (on : s.macOn = true)
    (good : ok = true) (does : f (s.cntMgmt 1 1) = t) : o = .next t := by
  have up : ¬(!s.macOn) = true := by simp [on]
  have sound : ¬(!ok) = true := by simp [good]
  rw [ran, State.macTake, if_neg up, if_neg sound, does]

/-- A request for an ID, sent while a predecessor is known (R477). -/
theorem State.tackRequest_known {c : Nat} (slave : s.rowMaster = false) (unnamed : s.devidValid = false) (on : s.tackOn = true)
    (pred : s.mgmt.predCol = some c) :
    s.tackRequest = (s.updMgmt (fun m => { m with tackState := 1 })).macQueue (tackFrame 1 c s.mgmt.eui 0) := by
  simp [State.tackRequest, slave, unnamed, on, pred]

/-- An adapter of a row is offered the ID of its column, once (R477). -/
def offerTo (eui : BitVec 48) (col : Nat) (m : MgmtS) : MgmtS := { m with
  given := (col, eui) :: m.given.filter (fun g => g.1 != col)
  offers := m.offers.filter (fun o => o.1 != eui) ++ [(eui, col, 1)] }

/-- The answer to a request seen before, sent again to where it now came from (R480). -/
def State.oobAgain (s : State) (f : MgmtFrame) (seq : Nat) (e : Nat × Reply × Bytes) : State :=
  let s := s.updMgmt (fun m => { m with oobFrom := AMap.set m.oobFrom seq (f.ip.toNat, f.port) })
  s.updMgmt (fun m => { m with txq := m.txq ++ [s.oobFrame seq e.2.1 e.2.2] })

/-- What an authentic request of a number does: answered again, executed, or dropped as too old (R480). -/
def State.oobTurn (s : State) (f : MgmtFrame) (seq : Nat) (o : Outside) : State :=
  match s.mgmt.oobLast.find? (fun e => e.1 == seq) with
  | some e => s.oobAgain f seq e
  | none => if s.mgmt.oobNew seq then s.oobRun f seq o else s.cntMgmt 10 1

theorem State.oobTurn_seen {f : MgmtFrame} {seq : Nat} {o : Outside} {e : Nat × Reply × Bytes}
    (seen : s.mgmt.oobLast.find? (fun e => e.1 == seq) = some e) : s.oobTurn f seq o = s.oobAgain f seq e := by
  simp only [State.oobTurn, seen]

theorem State.oobTurn_new {f : MgmtFrame} {seq : Nat} {o : Outside} (unseen : s.mgmt.oobLast.find? (fun e => e.1 == seq) = none) :
    s.oobTurn f seq o = if s.mgmt.oobNew seq then s.oobRun f seq o else s.cntMgmt 10 1 := by
  simp only [State.oobTurn, unseen]

/-- Settles O45: the management port, tacking and out-of-band requests, each event by its branch of the model. -/
theorem managementEventsAct : Obligations.ManagementEventsAct := by
  unfold Obligations.ManagementEventsAct
  refine ⟨?collision, ?expiry, ?pause, ?drive, ?word, ?timer, ?request, ?offer, ?accept, ?resend, ?oob⟩
  case collision =>
    intro s sends half waiting
    have there : s.mgmt.txq.isEmpty = false := by simpa using waiting
    have goes : ¬(!s.macSends || s.mgmt.mode || s.mgmt.txq.isEmpty) = true := by simp [sends, half, there]
    have only := MgmtOnly.refl s
    have late : exec (.macCollision true) s = .next ((s.updMgmt fun m => { m with txq := m.txq.drop 1, attempts := 0 }).cntMgmt 3 1) :=
      congrArg _ ((if_neg goes).trans (if_pos rfl))
    have early : exec (.macCollision false) s = .next (if 15 ≤ s.mgmt.attempts
        then ((s.cntMgmt 2 1).updMgmt fun m => { m with txq := m.txq.drop 1, attempts := 0 }).cntMgmt 4 1
        else (s.cntMgmt 2 1).updMgmt fun m => { m with attempts := m.attempts + 1, backoff := true }) :=
      congrArg _ ((if_neg goes).trans (if_neg Bool.false_ne_true))
    refine ⟨⟨_, late, rfl, rfl, (only.updMgmt _).cntMgmt 3 1⟩, fun few => ?_, fun many => ?_⟩
    · rw [if_neg (Nat.not_le.mpr few)] at early
      exact ⟨_, early, rfl, rfl, rfl, (only.cntMgmt 2 1).updMgmt _⟩
    · rw [if_pos many] at early
      exact ⟨_, early, rfl, rfl, ((only.cntMgmt 2 1).updMgmt _).cntMgmt 4 1⟩
  case expiry =>
    intro s
    have backoff : exec .backoffExpiry s = .next (s.updMgmt fun m => { m with backoff := false }) := rfl
    have pause : exec .pauseExpiry s = .next (s.updMgmt fun m => { m with paused := false, pauseQ := 0 }) := rfl
    exact ⟨⟨_, backoff, rfl, (MgmtOnly.refl s).updMgmt _⟩, ⟨_, pause, rfl, (MgmtOnly.refl s).updMgmt _⟩⟩
  case pause =>
    intro s q on full
    have duplex : ¬(!(s.cntMgmt 1 1).mgmt.mode) = true := by simp [full]
    have ran : exec (.pauseFrame q true) s = .next
        (((s.cntMgmt 1 1).cntMgmt 7 1).updMgmt fun m => { m with paused := q % 65536 != 0, pauseQ := q % 65536 }) :=
      exec_frame rfl on rfl (if_neg duplex)
    exact ⟨_, ran, by simp only [State.updMgmt_mgmt], by simp only [State.updMgmt_mgmt],
      (((MgmtOnly.refl s).cntMgmt 1 1).cntMgmt 7 1).updMgmt _⟩
  case drive =>
    intro s named on
    have ran : exec .tackOutTimer s = .next { s with pins := { s.pins with
        tackHigh := true, tackOut := true :: [3, 2, 1, 0].map (idCol s.devid.toNat).testBit } } :=
      congrArg _ (if_neg (by simp [named, on]))
    exact ⟨_, ran, rfl, rfl, rfl⟩
  case word =>
    intro s c slave on fits
    have ran : exec (.tackWord c) s = .next ((s.updMgmt fun m => { m with
        lastWord := some c, predCol := if s.mgmt.lastWord == some c then some c else m.predCol }).onIf
          (s.mgmt.lastWord == some c && s.mgmt.predCol != some c) State.tackRequest) :=
      congrArg _ (if_neg (by simp [slave, on, fits]))
    refine ⟨fun first => ?_, fun again news unnamed => ?_⟩
    · rw [beq_false_of_ne first] at ran
      exact ⟨_, ran, rfl, (MgmtOnly.refl s).updMgmt _⟩
    · rw [beq_iff_eq.mpr again, bne_iff_ne.mpr news] at ran
      have asks := State.tackRequest_known (s := s.updMgmt fun m => { m with lastWord := some c, predCol := some c }) slave unnamed on rfl
      have asked := ran.trans (congrArg Host.Outcome.next asks)
      exact ⟨_, asked, rfl, rfl, rfl, (((MgmtOnly.refl s).updMgmt _).updMgmt _).macQueue _⟩
  case timer =>
    intro s c slave unnamed on pred
    have ran : exec .tackRequestTimer s = .next ((s.updMgmt fun m => { m with tackState := 1 }).macQueue (tackFrame 1 c s.mgmt.eui 0)) :=
      congrArg Host.Outcome.next (State.tackRequest_known slave unnamed on pred)
    exact ⟨_, ran, rfl, ((MgmtOnly.refl s).updMgmt _).macQueue _⟩
  case request =>
    intro s f on sums kind master tacks named within fresh
    have passes : ¬(tackType f != 1 || !s.rowMaster || !s.tackOn || !s.devidValid || decide (15 < tackPred f)) = true := by
      simp [kind, master, tacks, named]
      omega
    have ran : exec (.request f) s = .next
        (((s.cntMgmt 1 1).updMgmt (offerTo (tackEui f) (tackPred f + 1))).sendOffer (tackEui f) (tackPred f + 1)) := by
      refine exec_frame rfl on sums ((if_neg passes).trans ((if_neg (by omega)).trans ?_))
      exact congrArg (fun x : State => (x.updMgmt (offerTo (tackEui f) (tackPred f + 1))).sendOffer (tackEui f) (tackPred f + 1))
        (if_neg (Bool.eq_false_iff.mp fresh))
    refine ⟨_, ran, ?_, ?_, ?_, (((MgmtOnly.refl s).cntMgmt 1 1).updMgmt _).sendOffer _ _⟩
    · exact List.mem_append_right _ (List.mem_singleton_self _)
    · exact List.mem_cons_self
    · have offered : ((s.cntMgmt 1 1).updMgmt (offerTo (tackEui f) (tackPred f + 1))).idAt (tackPred f + 1) = s.idAt (tackPred f + 1) :=
        (State.idAt_updMgmt _ rfl rfl _).trans (State.idAt_updMgmt _ rfl rfl _)
      rw [State.sendOffer, State.macQueue_txq, offered]
      rfl
  case offer =>
    intro s f on sums kind mine tacks slave unnamed id valid
    have passes : ¬(tackType f != 2 || tackEui f != s.mgmt.eui || !s.tackOn || !validId id) = true := by
      simp [kind, mine, tacks, valid]
    have named := State.takeDevid_name (s.cntMgmt 1 1) id
    simp only [State.name, Prod.mk.injEq] at named
    refine ⟨?_, named.1, named.2⟩
    exact exec_frame rfl on sums ((if_neg passes).trans ((if_neg (Bool.eq_false_iff.mp unnamed)).trans (if_neg (Bool.eq_false_iff.mp slave))))
  case accept =>
    intro s f on sums kind master
    have passes : ¬(tackType f != 3 || !s.rowMaster) = true := by simp [kind, master]
    have ran : exec (.accept f) s = .next
        ((s.cntMgmt 1 1).updMgmt fun m => { m with offers := m.offers.filter (fun o => o.1 != tackEui f) }) :=
      exec_frame rfl on sums (if_neg passes)
    exact ⟨_, ran, rfl, ((MgmtOnly.refl s).cntMgmt 1 1).updMgmt _⟩
  case resend =>
    intro s e c n on found
    have ran : exec (.offerResendTimer e.toNat) s = .next (if 8 ≤ n
        then (s.updMgmt (fun m => { m with offers := m.offers.filter (fun o => o.1 != e) })).mgmtRec 2 e.toNat (s.idAt c)
        else ((s.updMgmt (fun m => { m with offers := m.offers.map (fun o => if o.1 == e then (e, c, n + 1) else o) })).sendOffer e c).cntMgmt 13 1) := by
      simp only [exec, execOfferResendTimer, found]
      exact congrArg _ (if_neg (by simp [on]))
    refine ⟨fun few => ?_, fun many => ran.trans (congrArg _ (if_pos many))⟩
    rw [if_neg (Nat.not_le.mpr few)] at ran
    refine ⟨_, ran, ?_, rfl, (((MgmtOnly.refl s).updMgmt _).sendOffer _ _).cntMgmt 13 1⟩
    exact List.mem_map.mpr ⟨_, List.mem_of_find?_eq_some found, if_pos (beq_self_eq_true e)⟩
  case oob =>
    intro s f o on sums kind oob long head word k one small authentic
    let nonce := pack 96 [(95, 64, k.salt.toNat), (63, 0, word)]
    let tag := BitVec.ofNat 128 (natBE (f.body.drop (f.body.length - 16)))
    have datagram : ¬(f.kind != 2) = true := by simp [kind]
    have served : ¬(!s.oobOn) = true := by simp [oob]
    have short : ¬f.body.length < 36 := by omega
    have seq : word % 2 ^ 63 = word := Nat.mod_eq_of_lt small
    have high : word / 2 ^ 63 = 0 := Nat.div_eq_of_lt small
    have forged (wrong : ¬authentic) : exec (.oobRequest f o) s = .next (s.cntMgmt 1 1).oobFail := by
      refine exec_frame rfl on sums ((if_neg datagram).trans ((if_neg served).trans (if_pos ?_)))
      have tags : (Config.gcmTag k.key nonce head [] != tag) = true := bne_iff_ne.mpr wrong
      exact (congrArg (fun b => decide (f.body.length < 36) || b || natLE (head.take 2) != 1 || word / 2 ^ 63 != 0) tags).trans (by simp)
    have genuine (right : authentic) : exec (.oobRequest f o) s = .next ((s.cntMgmt 1 1).oobTurn f (word % 2 ^ 63) o) := by
      have tags : (Config.gcmTag k.key nonce head [] != tag) = false := by simpa using right
      have passes : ¬(decide (f.body.length < 36) || Config.gcmTag k.key nonce head [] != tag || natLE (head.take 2) != 1 || word / 2 ^ 63 != 0) = true := by
        rw [high, one, tags, decide_eq_false short]
        decide
      exact exec_frame rfl on sums ((if_neg datagram).trans ((if_neg served).trans (if_neg passes)))
    rw [seq] at genuine
    refine ⟨fun e found => ?_, fun unseen => ?_⟩
    · refine ⟨(s.cntMgmt 1 1).oobAgain f word e, ?_, ?_, (((MgmtOnly.refl s).cntMgmt 1 1).updMgmt _).updMgmt _⟩
      · by_cases right : authentic
        · rw [if_pos right, genuine right, State.oobTurn_seen (s := s.cntMgmt 1 1) found]
        · rw [if_neg right, forged right]
      · simp [State.oobAgain]
    · by_cases right : authentic
      · rw [if_pos right, genuine right, State.oobTurn_new (s := s.cntMgmt 1 1) unseen]
        rfl
      · rw [if_neg right, forged right]

end Sys2Proof.Machine
end

section
/-!
PROOFS of `Obligations.FaultLadderActs` (O49): faults climb the ladder, wait behind a recovery, or are absorbed.
-/

namespace Sys2Proof.Machine

variable {s t : State}

/-! ### A fault that comes into the ladder (R518) -/

/-- A fault while the partitions are released, by the recovery in progress. -/
theorem State.fault_released (f : FPend) (runs : s.alive = true) (released : s.rst.stage = 6) : s.fault f = match s.recovery with
    | none => s.handleFault f
    | some r =>
      if s.domainHas r.rung r.dom f.kind f.idx then s.ladderRec f 7 (s.ladder f.kind f.idx)
      else if s.ladder f.kind f.idx = 4 || s.ladder f.kind f.idx = 5 then s.handleFault f
      else if s.faults.pending.any (fun x => x.kind == f.kind && x.idx == f.idx && x.cls == f.cls) then s.ladderRec f 6 (s.ladder f.kind f.idx)
      else if 32 ≤ s.faults.pending.length then
        (s.postRec { cls := 15, reason := 3, d0 := 15, act := if s.warmRefused then 5 else 4 }).warmTrigger 8 (s.faults.nextSeq.toNat, 15, 3)
      else (s.ladderRec f 6 (s.ladder f.kind f.idx)).updFaults (fun x => { x with pending := x.pending ++ [f] }) := by
  have on : ¬(!s.alive) = true := by simp [runs]
  have late : ¬(s.rst.stage != 6) = true := by simp [released]
  exact (if_neg on).trans (if_neg late)

theorem stepBlock_pos (step : Nat) : 0 < (stepBlock step).2 := by
  unfold stepBlock
  split <;> decide

/-- The fault of a unit that a partition's reset waited for in vain (R524). -/
def State.forcedFault (s : State) (p : Nat) : FPend :=
  { kind := (stepBlock (s.part p).resetStep).1
    idx := s.freshVal.1.toNat % (stepBlock (s.part p).resetStep).2
    cls := 10
    reason := 1
    part := some p
    d0 := (s.part p).resetStep }

/-- What a closing window leaves: `t` differs from `s` in the fault log alone. -/
theorem State.updFaults_only (s : State) (f : FaultS → FaultS) : { s.updFaults f with faults := s.faults } = s := rfl

/-- The recovery of a block ends with its reset (R518). -/
def recoveryEnds (k i : Nat) (f : FaultS) : FaultS := { f with cur := match f.cur with
  | some r => if r.rung = 1 && r.kind = k && r.idx = i then none else some r
  | none => none }

theorem recoveryEnds_cur (k i : Nat) (f : FaultS) : (recoveryEnds k i f).cur = f.cur ∨ (recoveryEnds k i f).cur = none := by
  unfold recoveryEnds
  dsimp only
  split
  · next r busy =>
    split
    · exact .inr rfl
    · exact .inl busy.symm
  · exact .inr rfl

/-! ### The host domain's reset (R521) -/

/-- The partitions reset, and the DMA engines closed and opened again. -/
def State.hostCleared (s : State) : State :=
  let s := s.updHost (fun h => { h with stopped := true })
  let s := s.each (List.range' 1 63 ++ [0]) (fun p t => t.resetNow p)
  let s := s.each (List.range 4) (fun i t => t.closeBlock 8 i)
  s.each (List.range 4) (fun i t => t.openBlock 8 i)

/-- The host interface serves again, unless the manager's admin queue stopped it. -/
def State.hostOpen (s : State) : State := s.updHost (fun h => { h with stopped := (s.func 0).adminState == 3 })

theorem State.hostOpen_stopped (s : State) (g : FaultS → FaultS) :
    (s.hostOpen.updFaults g).host.stopped = (((s.hostOpen.updFaults g).func 0).adminState == 3) := rfl

/-- After the host domain's reset the recovery in progress is not its own. -/
theorem exec_hostDomainReset (serves : s.serving = true) : ∃ g : FaultS → FaultS,
    exec .hostDomainReset s = .next (s.hostCleared.hostOpen.updFaults g) ∧ ∀ f r, (g f).cur = some r → r.rung ≠ 3 := by
  have on : ¬(!s.serving) = true := by simp [serves]
  refine ⟨_, congrArg Host.Outcome.next (if_neg on), fun f r goes => ?_⟩
  dsimp only at goes
  split at goes
  · split at goes
    · cases goes
    · cases goes
      assumption
  · cases goes

/-- Settles O49: the reset ladder, each event by its branch of the model. -/
theorem faultLadderActs : Obligations.FaultLadderActs := by
  unfold Obligations.FaultLadderActs
  refine ⟨?block, ?processor, ?fault, ?first, ?ended, ?turn, ?host, ?window, ?watchdog, ?forced⟩
  case block =>
    intro s k i known
    refine ⟨congrArg _ (if_pos known), fun watched => congrArg _ (if_pos ?_), congrArg _ (if_pos ?_)⟩
    · rcases watched with rfl | rfl | rfl | rfl | rfl <;> simp [known]
    · simp [known]
  case processor =>
    intro s i real
    exact congrArg _ (if_pos real)
  case fault =>
    intro s f
    refine ⟨fun off => if_pos (by simp [off]), fun runs early => ?_, fun runs released free => ?_,
      fun r runs released busy other low new room => ?_⟩
    · exact (if_neg (by simp [runs])).trans (if_pos (bne_iff_ne.mpr early))
    · rw [State.fault_released f runs released, free]
    · have rung : ¬(decide (s.ladder f.kind f.idx = 4) || decide (s.ladder f.kind f.idx = 5)) = true := by
        simp
        omega
      rw [State.fault_released f runs released, busy]
      exact (if_neg (Bool.eq_false_iff.mp other)).trans ((if_neg rung).trans ((if_neg (Bool.eq_false_iff.mp new)).trans
        (if_neg (Nat.not_le.mpr room))))
  case first =>
    intro s f rung
    unfold State.handleFault
    dsimp only
    rw [rung]
    rfl
  case ended =>
    intro s k i closed
    have ran : exec (.blockResetEnd k i) s = .next ((s.updFaults (recoveryEnds k i)).openBlock k i) :=
      congrArg _ (if_neg (by simp [closed]))
    exact ⟨_, _, ran, rfl, State.updFaults_only .., recoveryEnds_cur ..⟩
  case turn =>
    intro s f fs free waiting runs released
    simp only [exec, execPendingFaultTurn, free, waiting]
    exact congrArg _ (if_pos (by simp [runs, released]))
  case host =>
    intro s serves
    obtain ⟨g, ran, other⟩ := exec_hostDomainReset serves
    exact ⟨_, ran, State.hostOpen_stopped _ g, fun r goes => other _ r goes⟩
  case window =>
    intro s g d
    have ran : exec (.recoveryWindowClose g d) s = .next
        (s.updFaults fun f => { f with windows := f.windows.filter (fun w => !(w.rung == g && w.dom == d)) }) := rfl
    exact ⟨_, ran, rfl, rfl⟩
  case watchdog =>
    intro s runs
    exact congrArg _ (if_neg (by simp [runs]))
  case forced =>
    intro s p going
    exact ⟨s.fresh + 1, s.forcedFault p, congrArg _ (if_neg going), rfl, Nat.mod_lt _ (stepBlock_pos _), rfl, rfl, rfl⟩

end Sys2Proof.Machine
end
